-- ==== Sys2Proof/Word.lean ====
section
/-! DEFINITION. Sys2Proof/Word.lean: the word types of the EWT-4420 (00_scope.md R7, R8). -/

namespace Sys2Proof

/-- One byte of a frame, a FRAM record or a bus cycle. -/
abbrev Byte := BitVec 8

/-- One 16-bit register or window word (R7). -/
abbrev Word := BitVec 16

/-- A 32-bit quantity: RTC seconds, a sequence, an argument. -/
abbrev Word32 := BitVec 32

/-- A 48-bit quantity: the tooth counter, a serial, a log entry's data. -/
abbrev Word48 := BitVec 48

/-- A 64-bit quantity: a serial number, a tag, a total. -/
abbrev Word64 := BitVec 64

/-- An IEEE 754 binary32 value as its 32 bits (08_flow_engine.md R193). -/
abbrev F32 := BitVec 32

end Sys2Proof
end

