-- ==== Sys2Proof/Syntax.lean ====
section
/-! DEFINITION. Sys2Proof/Syntax.lean: the commands of the block, one constructor per row of spec/opcode_table.json, and the
operands they carry. The table gives no row a bit, so every operand is what the rule of the row needs from outside the block:
the byte a host writes, the frame a port receives, the quantity a comparator or a converter sees. A duration that a row's
summary states (a level that stayed for 1.0 ms, a timer that ran out) has passed when the command is sent. -/

namespace Sys2Proof

/-- The four roles of R3, in the order of their codes 0b00 to 0b11. -/
inductive Role where
  | T
  | M
  | TM
  | H
deriving DecidableEq, Repr

/-- A ROLE pin at the sample: at or below 30 %, at or above 70 %, or in the band between, whose reading R456 and 17_pins_and_package.md,
Edges, leave undefined. -/
inductive Strap where
  | low
  | high
  | between
deriving DecidableEq, Repr

/-- A Descant port (R18). -/
inductive Port where
  | A
  | B
deriving DecidableEq, Repr

/-- What the FRAM and the board show at a WAKE. -/
structure WakeEnv where
  /-- row numbers (key / 16 of the model's word memory) that fail their check (R219). -/
  badRows : List Nat
  /-- VIO is at or above 1.62 V at WAKE entry (R453). -/
  vioExternal : Bool
deriving DecidableEq, Repr

/-- What the analog parts show at a governor tick. -/
structure TickEnv where
  /-- VRES in 10 mV. -/
  vres : Nat
  /-- VAUX in 10 mV. -/
  vaux : Nat
  /-- mean of CS1 over the low-side intervals of the tick, 0.1 mV (R81). -/
  cs1 : Nat
  /-- mean of CS2, 0.1 mV (R81). -/
  cs2 : Nat
  /-- die temperature in 0.1 °C (R440). -/
  die : Int
  /-- VBAK in 10 mV (R38). -/
  vbak : Nat
  /-- the filtered levels of FLT2, FLT1 and FLT0 (R159). -/
  flt : BitVec 3
  /-- port A and port B sense the line busy (R346). -/
  csa : Bool
  csb : Bool
deriving DecidableEq, Repr

/-- What the boost channel has measured of the cycle in progress, at the moment at which it may begin the next (R153 to R155). -/
structure BoostEnv where
  /-- BST_CS at the turn-on instant, 0.1 mV. -/
  csOn : Nat
  /-- taps from the turn-on to the instant at which BST_CS reached BLIM; none: not reached. -/
  blimAt : Option Nat
  /-- taps from the end of the on-time until BST_CS was below BLIM / 16; none: it has not fallen there. -/
  lowAt : Option Nat
  /-- the integral of BST_CS over the on-time and the demagnetisation, 0.1 mV · taps. -/
  area : Nat
  /-- taps since the turn-on. -/
  elapsed : Nat
deriving DecidableEq, Repr

/-- What the regulator's fault record takes (R79). -/
structure RegEnv where
  /-- VLINE in 10 mV. -/
  vline : Nat
  /-- VAUX_FB in 10 mV. -/
  vaux : Nat
  /-- CS1 in 0.1 mV. -/
  cs1 : Nat
  /-- CS2 in 0.1 mV. -/
  cs2 : Nat
  /-- die temperature in 0.1 °C. -/
  die : Int
deriving DecidableEq, Repr

/-- A conversion that ends (R165 to R175). -/
structure ConvEnv where
  /-- the input over the conversion: nV on channels 0 to 7, nA on 8 and 9, µV on 10 and 11, 0.001 °C on 12, the code on 13 and 14. -/
  x : Int
  /-- REFP − REFN in nV at the conversion's start (R171). -/
  ref : Int
  /-- µs from the last commutation to the conversion's start (R195, R212). -/
  sinceCommute : Nat
deriving DecidableEq, Repr

/-- A Descant frame as the network sees it: the fields of R368 but LEN, which is the payload's length, and HCRC. -/
structure DFrame where
  dest : BitVec 12
  src : BitVec 12
  type : Byte
  seq : Word
  flags : BitVec 5
  payload : List Byte
deriving DecidableEq, Repr

/-- A Descant frame received with a good header and payload CRC: the frame, its port, the line tag of R342, the S1 stamp of R337. -/
structure RxFrame where
  port : Port
  frame : DFrame
  txidx : BitVec 6
  rxidx : BitVec 6
  load : Bool
  gen : BitVec 4
  /-- line-time seconds of the S1 stamp. -/
  sec : Word32
  /-- LINE cycles within the second of the S1 stamp. -/
  cyc : BitVec 19
deriving DecidableEq, Repr

/-- A search-channel frame received with a good CRC (R357). -/
structure RxSearch where
  port : Port
  payload : List Byte
  /-- received level code of R359. -/
  rssi : Byte
deriving DecidableEq, Repr

/-- A Cantus frame received whole with a good CRC (R322). -/
structure CFrame where
  addr : Byte
  cmd : Byte
  seq : Word
  data : List Byte
  /-- the level latched at the sync word (R321). -/
  rssi : Byte
  /-- fast mode: the discriminator's output at each symbol from the preamble's first on, in 1/4096 of a level (R317). -/
  soft : List Int
deriving DecidableEq, Repr

/-- What the transform engine has completed (R365): the spectrum of the converter block that stands, or the noise of a port's idle symbols,
one byte per data carrier in ascending order. -/
inductive NoiseBlock where
  | converter
  | line (p : Port) (noise : List Byte)
deriving DecidableEq, Repr

/-- Why a frame on the line was dropped (R366, R357). -/
inductive DropKind where
  | header (p : Port)
  /-- a DMT frame whose header CRC held and whose payload CRC failed: its port, TXIDX and LOAD (R342, R352). -/
  | payload (p : Port) (peer : BitVec 6) (load : Bool)
  | search
  /-- a search frame with a good CRC and a reserved KIND (R386, R400). -/
  | reservedKind (kind : Byte)
deriving DecidableEq, Repr

/-- Why a Cantus receive ended early or wrong (R332: 0x0A11, 0x0A12). -/
inductive AbortKind where
  | carrier
  | parity
deriving DecidableEq, Repr

/-- What a host does to the strobes (R445: 0x0E12, 0x0E13, 0x0E14) or with AD7 (0x0E17). -/
inductive StrobeKind where
  | aleHigh
  | bothLow
  | earlyRaise
  | ad7
deriving DecidableEq, Repr

/-- An input whose results stopped (R203, R201). -/
inductive InputKind where
  | pressure
  | temperature
  | loopB
deriving DecidableEq, Repr

/-- A window whose data register is read with auto-increment (R431). -/
inductive WinKind where
  | orr
  | fe
  | lg
  | ev
  | ds
  | pl
deriving DecidableEq, Repr

/-- How an agent judged a query window (R390). -/
inductive WindowKind where
  | single
  | collision
  | silent
deriving DecidableEq, Repr

/-- The commands: one constructor per row of spec/opcode_table.json, in the table's order. hi is the high byte of a host write
(R429: the commit); the low byte is the one the write latch holds. -/
inductive Instr where
  /-- RESET_RELEASE (R3): RSTN rises or the power-on reset releases. -/
  | resetRelease (r1 r0 : Strap) (env : WakeEnv)
  /-- ON_REQUEST (R48): the primary supply becomes good. -/
  | onRequest (env : WakeEnv)
  /-- OFF_LOSS (R48). -/
  | offLoss
  /-- OFF_RESET (R48). -/
  | offReset
  /-- SOFT_OFF (R48): host commit of PW_STATE. -/
  | softOff (hi : Byte)
  /-- VBAK_BACKUP_ENTRY (R47): VBAK in 10 mV. -/
  | vbakBackupEntry (vbak : Nat)
  /-- VBAK_DEPLETED (R47): VBAK in 10 mV. -/
  | vbakDepleted (vbak : Nat)
  /-- WAKE_STEPS_DONE (R47): VAUX_FB in 10 mV at the regulator's start (R66). -/
  | wakeStepsDone (vauxFb : Nat)
  /-- RAILS_DONE (R47): VRES in 10 mV. -/
  | railsDone (vres : Nat)
  /-- RAILS_WAIT_OVER_5S (R60). -/
  | railsWaitOver5s
  /-- CALIB_DONE (R47): rows verified late that fail their check (R219). -/
  | calibDone (badRows : List Nat)
  /-- DRAIN_DONE (R52): VBAK in 10 mV. -/
  | drainDone (vbak : Nat) (env : WakeEnv)
  /-- THERMAL_SHUTDOWN (R53): rows of the running commit that are complete, the row in flight included. -/
  | thermalShutdown (rowInFlight : Bool) (rowsDone : Nat)
  /-- THERMAL_COOLED (R47). -/
  | thermalCooled (env : WakeEnv)
  /-- GOVERNOR_TICK (R40). -/
  | governorTick (env : TickEnv)
  /-- LEVEL_RISE (R40). -/
  | levelRise
  /-- SERVICE_RESTORE (R43). -/
  | serviceRestore
  /-- VRES_THRESHOLD_CROSS (R43): the new VRES in 10 mV. -/
  | vresThresholdCross (vres : Nat)
  /-- VRES_FALL_10V (R36). -/
  | vresFall10v
  /-- VRES_FLOOR (R34). -/
  | vresFloor
  /-- VRES_FULL (R33): VRES in 10 mV at the stop or at the restart. -/
  | vresFull (vres : Nat)
  /-- REG_RAMP_END (R67). -/
  | regRampEnd (env : RegEnv)
  /-- REG_RETRY_TIMEOUT (R67): VAUX_FB in 10 mV. -/
  | regRetryTimeout (vauxFb : Nat)
  /-- REG_UNDERVOLTAGE (R68). -/
  | regUndervoltage (env : RegEnv)
  /-- REG_ATTEMPT_COUNT_RESET (R68). -/
  | regAttemptCountReset
  /-- REG_OVERVOLTAGE (R77). -/
  | regOvervoltage (env : RegEnv)
  /-- REG_LATCH_CLEAR (R78): host commit of PW_VSET. -/
  | regLatchClear (hi : Byte)
  /-- SETPOINT_CHANGE (R65): microseconds of slewing. -/
  | setpointChange (us : Nat)
  /-- VSEL_CHANGE (R64): the filtered VSEL1, VSEL0. -/
  | vselChange (v : BitVec 2)
  /-- SYNC_LOCK (R72): the frequency on SYNC in Hz. -/
  | syncLock (hz : Nat)
  /-- SYNC_LOSS (R73). -/
  | syncLoss
  /-- XTAL_FAIL (R87). -/
  | xtalFail
  /-- XTAL_RETURN (R87). -/
  | xtalReturn
  /-- MEAS_PLL_TIMEOUT (R85). -/
  | measPllTimeout
  /-- SWITCH_PLL_LOCK (R88). -/
  | switchPllLock
  /-- SWITCH_PLL_LOCK_TIMEOUT (R88). -/
  | switchPllLockTimeout
  /-- SWITCH_PLL_LOSS (R89). -/
  | switchPllLoss
  /-- TAP_CALIBRATION (R88). -/
  | tapCalibration
  /-- MAINS_LOCK (R94): the frequency in 0.01 Hz. -/
  | mainsLock (freq : Nat)
  /-- MAINS_REF_ABSENT (R93): the last measured frequency in 0.01 Hz. -/
  | mainsRefAbsent (freq : Nat)
  /-- MAINS_REF_RETURN (R94): the reference frequency in 0.01 Hz. -/
  | mainsRefReturn (freq : Nat)
  /-- SY_TIME_L_WRITE (R102): host commit. -/
  | syTimeLWrite (hi : Byte)
  /-- SY_TIME_H_WRITE (R102): host commit. -/
  | syTimeHWrite (hi : Byte)
  /-- SY_TIME_L_READ (R99): host low-byte read. -/
  | syTimeLRead
  /-- AD_DATL_READ (R177): host low-byte read. -/
  | adDatlRead
  /-- RTC_DISCIPLINE (R104). -/
  | rtcDiscipline
  /-- SECOND_BOUNDARY (R223). -/
  | secondBoundary
  /-- HOST_CYCLE_CORE_STOPPED (R101): a byte cycle, read or write, at a byte address. -/
  | hostCycleCoreStopped (read : Bool) (addr : Byte)
  /-- TOOTH_EDGE (R113): time in SWITCH cycles, direction of the TTH_A transition, level of TTH_B. -/
  | toothEdge (t : Nat) (rising bHigh : Bool)
  /-- SYNTHETIC_TOOTH (R113): the time of insertion. -/
  | syntheticTooth (now : Nat)
  /-- STANDSTILL (R132). -/
  | standstill
  /-- ORRERY_RESTART (R132): the change of SRC, TPR or AVG takes effect. -/
  | orreryRestart
  /-- ORR_SET_CHANNEL (R124): event entry, time of the crossing; the high byte of a host commit of AD_CTL in the same CORE cycle
  (R167). -/
  | orrSetChannel (n : BitVec 6) (now : Nat) (host : Option Byte)
  /-- ORR_COMMUTE_BRIDGE (R150). -/
  | orrCommuteBridge (n : BitVec 6) (now : Nat)
  /-- ORR_SAMPLE_TAG (R175). -/
  | orrSampleTag (n : BitVec 6) (now : Nat)
  /-- ORR_STEP_NCO (R190). -/
  | orrStepNco (n : BitVec 6) (now : Nat)
  /-- ORR_FE_UPDATE (R207). -/
  | orrFeUpdate (n : BitVec 6) (now : Nat)
  /-- ORR_INTERRUPT (R124). -/
  | orrInterrupt (n : BitVec 6) (now : Nat)
  /-- ORR_RESERVED_ACTION (R124). -/
  | orrReservedAction (n : BitVec 6) (now : Nat)
  /-- INDEX_EDGE (R130). -/
  | indexEdge
  /-- MAP_WORD_WRITE (R127): host commit of OR_DATA. -/
  | mapWordWrite (hi : Byte)
  /-- LEARN_START (R128): host commit of OR_CTL. -/
  | learnStart (hi : Byte)
  /-- LEARN_COMPLETE (R128). -/
  | learnComplete
  /-- LEARN_ABORT (R129): a revolution period left the ±2 % band. -/
  | learnAbort
  /-- EVENT_ENTRY_COMMIT (R125): host commit of OR_DATA at a word 3. -/
  | eventEntryCommit (hi : Byte)
  /-- CARRIER_PEAK (R148): the sense code of XB_CS. -/
  | carrierPeak (ics : BitVec 10)
  /-- CARRIER_VALLEY (R142). -/
  | carrierValley
  /-- BOOTSTRAP_REFRESH (R145). -/
  | bootstrapRefresh
  /-- COIL_OPEN (R149). -/
  | coilOpen
  /-- BOOST_CYCLE_START (R153). -/
  | boostCycleStart (env : BoostEnv)
  /-- BOOST_CHECK_WINDOW_END (R156). -/
  | boostCheckWindowEnd
  /-- BOOST_LIMITED_RUN (R156). -/
  | boostLimitedRun
  /-- BOOST_RETRY_TIMEOUT (R156). -/
  | boostRetryTimeout
  /-- BOOST_ATTEMPT_RESET (R156). -/
  | boostAttemptReset
  /-- BOOST_LATCH_CLEAR (R157): host commit of XB_CTL. -/
  | boostLatchClear (hi : Byte)
  /-- FAULT_INPUT_TRIP (R159): the input 0 to 2; 3 names none. -/
  | faultInputTrip (n : BitVec 2)
  /-- FAULT_FLAG_CLEAR (R160): host commit of XB_FLT; lvl: the filtered inputs active at it. -/
  | faultFlagClear (hi : Byte) (lvl : BitVec 3)
  /-- FAULT_AUTO_RESTART (R160). -/
  | faultAutoRestart (n : BitVec 2)
  /-- CONVERSION_END (R174). -/
  | conversionEnd (env : ConvEnv)
  /-- ADC_ENABLE (R165): host commit of AD_CTL. -/
  | adcEnable (hi : Byte)
  /-- DA_LOOP_WRITE (R286): host commit of DA_LOOP. -/
  | daLoopWrite (hi : Byte)
  /-- DA_AUX_WRITE (R184): host commit of DA_AUX. -/
  | daAuxWrite (hi : Byte)
  /-- AUX_MODE_CHANGE (R185): host commit of LG_DATA at parameter word 0xF840. -/
  | auxModeChange (hi : Byte)
  /-- DAO_COMPLIANCE (R186): DAO in mV. -/
  | daoCompliance (mv : Nat)
  /-- DAO_OPEN_LOOP (R187): DAO in mV. -/
  | daoOpenLoop (mv : Nat)
  /-- DA_NCO_WRITE (R190): host commit of DA_NCO. -/
  | daNcoWrite (hi : Byte)
  /-- NCO_ZERO_STOP (R191). -/
  | ncoZeroStop
  /-- MAG_PAIR_END (R196): elapsed ms since the last totalisation instant. -/
  | magPairEnd (elapsed : Nat)
  /-- INPUT_STALE (R203). -/
  | inputStale (k : InputKind)
  /-- FE_WORD_COMMIT (R215): host commit of FE_DATA. -/
  | feWordCommit (hi : Byte)
  /-- ADAPT_EVALUATION (R214): an evaluation period ends. -/
  | adaptEvaluation
  /-- NOISE_BLOCK_TRANSFORM (R365). -/
  | noiseBlockTransform (b : NoiseBlock)
  /-- COMMIT_COMPLETE (R224). -/
  | commitComplete
  /-- COMMIT_REQUEST (R223): host commit of LG_CTL. -/
  | commitRequest (hi : Byte)
  /-- LEDGER_INIT (R249): host commit of LG_CTL. -/
  | ledgerInit (hi : Byte)
  /-- EVENT_ENTRY_WRITE (R232). -/
  | eventEntryWrite
  /-- SEAL_CHANGE (R239): the new filtered level, true for open. -/
  | sealChange (isOpen : Bool)
  /-- UNLOCK_FIRST (R244): host commit of SY_KEY. -/
  | unlockFirst (hi : Byte)
  /-- UNLOCK_SECOND (R244): host commit of SY_KEY; CORE cycles (AON cycles while RDYEN is 0) since step 1. -/
  | unlockSecond (hi : Byte) (cycles : Nat)
  /-- SY_KEY_OTHER (R244): host commit of SY_KEY; cycles since step 1. -/
  | syKeyOther (hi : Byte) (cycles : Nat)
  /-- UNLOCK_LAPSE (R244): the host's arm lapses. -/
  | unlockLapse
  /-- KEY_LOAD_START (R245): host commit of SC_CTL. -/
  | keyLoadStart (hi : Byte)
  /-- KEY_WORD (R245): host commit of SC_DATA. -/
  | keyWord (hi : Byte)
  /-- KEY_LOAD_TIMEOUT (R245). -/
  | keyLoadTimeout
  /-- LG_TOTALS_SNAPSHOT (R251): host low-byte read of LG_DATA at 0xF600. -/
  | lgTotalsSnapshot
  /-- EV_ENTRY_SNAPSHOT (R428): host low-byte read of EV_DATA at word 0. -/
  | evEntrySnapshot
  /-- CEREMONY_ARM (R254): host commit of AN_CTL. -/
  | ceremonyArm (hi : Byte)
  /-- HELLO_SEND (R254). -/
  | helloSend
  /-- HELLO (R254). -/
  | hello (f : RxFrame)
  /-- CONFIRM (R254). -/
  | confirm (f : RxFrame)
  /-- CEREMONY_TIMEOUT (R255). -/
  | ceremonyTimeout
  /-- UNPAIR (R256): host commit of AN_CTL. -/
  | unpair (hi : Byte)
  /-- EXCHANGE_INSTANT (R258). -/
  | exchangeInstant
  /-- CALL (R259): ms since the last mirrored CALL. -/
  | call (f : RxFrame) (spacing : Nat)
  /-- ANSWER (R259). -/
  | answer (f : RxFrame)
  /-- EXCHANGE_MISS (R260). -/
  | exchangeMiss
  /-- RETRACT_SEND (R269). -/
  | retractSend
  /-- RETRACT (R270). -/
  | retract (f : RxFrame)
  /-- NOTICE_SEND (R411). -/
  | noticeSend
  /-- NOTICE (R271). -/
  | notice (f : RxFrame)
  /-- RESTORE (R278). -/
  | restore (f : RxFrame)
  /-- DIVERGENCE_RESET (R272): host commit of AN_CTL. -/
  | divergenceReset (hi : Byte)
  /-- PERIOD_CHANGE (R261): host commit of AN_CTL. -/
  | periodChange (hi : Byte)
  /-- CDIG_RECOMPUTE (R266). -/
  | cdigRecompute
  /-- READBACK_CHECK (R296). -/
  | readbackCheck
  /-- LOOP_FAULT_RETRY (R296). -/
  | loopFaultRetry
  /-- FALLBACK_TIMEOUT (R297): the duration in ms until CORE restarted the timer. -/
  | fallbackTimeout (ms : Nat)
  /-- LOWV (R299): the mean terminal voltage in 10 mV. -/
  | lowv (mv10 : Nat)
  /-- LOOP_B_DECODE (R302). -/
  | loopBDecode
  /-- LOOP_B_LIMIT (R301): the analog limit acts. -/
  | loopBLimit (acts : Bool)
  /-- ADAPTIVE_TARGET_FALL (R304). -/
  | adaptiveTargetFall
  /-- FOLD_RELEASE (R307). -/
  | foldRelease
  /-- DIE_WARNING (R308): the die temperature in 0.1 °C. -/
  | dieWarning (die : Int)
  /-- REPEATER_TIMEOUT (R309). -/
  | repeaterTimeout
  /-- TRIM_WRITE (R294): host commit of LG_DATA. -/
  | trimWrite (hi : Byte)
  /-- LOOP_SWITCH (R312). -/
  | loopSwitch
  /-- IDENTIFY (R325). -/
  | identify (f : CFrame)
  /-- CANTUS_READ (R325). -/
  | cantusRead (f : CFrame)
  /-- CANTUS_WRITE (R325). -/
  | cantusWrite (f : CFrame)
  /-- CANTUS_HOST_COMMAND (R327). -/
  | cantusHostCommand (f : CFrame)
  /-- CANTUS_REPLY_SEND (R326). -/
  | cantusReplySend
  /-- HOST_REPLY_SEND (R327). -/
  | hostReplySend
  /-- MASTER_REQUEST_SEND (R328). -/
  | masterRequestSend
  /-- MASTER_REPLY (R329). -/
  | masterReply (f : CFrame)
  /-- REPLY_TIMEOUT (R329). -/
  | replyTimeout
  /-- LINE_JAM (R328). -/
  | lineJam
  /-- WATCH_POLL (R330). -/
  | watchPoll
  /-- PASSTHROUGH_TX (R331). -/
  | passthroughTx
  /-- PASSTHROUGH_RX (R331): the 11 bits of the character, the first received in bit 0 (R315). -/
  | passthroughRx (c : BitVec 11)
  /-- TN_FIFO_READ (R428): host low-byte read of TN_FIFO. -/
  | tnFifoRead
  /-- LINE_LOCK (R339): the steering in 0.01 ppm. -/
  | lineLock (steer : Int)
  /-- LINE_LOCK_LOST (R339). -/
  | lineLockLost
  /-- DMT_FRAME_START (R346). -/
  | dmtFrameStart (p : Port)
  /-- FRAME_RELAY (R372). -/
  | frameRelay (f : RxFrame)
  /-- TRAIN_START (R350): port and peer's line index. -/
  | trainStart (p : Port) (peer : BitVec 6)
  /-- TRAIN (R350). -/
  | train (r : RxSearch)
  /-- TRAINING_SYMBOLS_END (R350): the measured SNR of each data carrier, 0.5 dB, in carrier order 16 to 79. -/
  | trainingSymbolsEnd (p : Port) (snr : List Byte)
  /-- TABLE (R350). -/
  | table (r : RxSearch)
  /-- TABLE_ACK (R350). -/
  | tableAck (r : RxSearch)
  /-- TRAIN_TIMEOUT (R351). -/
  | trainTimeout
  /-- TRAIN_RETRY (R351). -/
  | trainRetry (p : Port) (peer : BitVec 6)
  /-- RETRAIN (R352). -/
  | retrain (r : RxSearch)
  /-- RETRAIN_TRIGGER (R352): port, peer, cause 1 to 4; for cause 2 the SNR of each data carrier over the last 16 LOAD 1 frames, 0.5 dB. -/
  | retrainTrigger (p : Port) (peer : BitVec 6) (cause : BitVec 3) (snr : List Byte)
  /-- RETRAIN_ALL (R352): host commit of DS_CTL. -/
  | retrainAll (hi : Byte)
  /-- MASK_WRITE (R354): host commit of DS_DATA at a mask word. -/
  | maskWrite (hi : Byte)
  /-- DESCANT_READ (R377). -/
  | descantRead (f : RxFrame)
  /-- DESCANT_WRITE (R377). -/
  | descantWrite (f : RxFrame)
  /-- REPORT (R378). -/
  | report (f : RxFrame)
  /-- DESCANT_NACK (R371). -/
  | descantNack (f : RxFrame)
  /-- HOST_FRAME_ISSUE (R379). -/
  | hostFrameIssue
  /-- REQUEST_TIMEOUT (R375): the SEQ of the request. -/
  | requestTimeout (seq : Word)
  /-- TIME_INTERVAL (R380). -/
  | timeInterval
  /-- TIME (R380). -/
  | time (f : RxFrame)
  /-- TIME_REPLY (R381). -/
  | timeReply (f : RxFrame)
  /-- LINE_TIME_STEP (R381). -/
  | lineTimeStep
  /-- LEAVE_LOCK_TIMEOUT (R383). -/
  | leaveLockTimeout
  /-- LEAVE (R383): host commit of DS_CTL. -/
  | leave (hi : Byte)
  /-- EPOCH_START (R385). -/
  | epochStart
  /-- EPOCH_WRITE (R385): host commit of DS_CTL. -/
  | epochWrite (hi : Byte)
  /-- SEARCH (R389). -/
  | search (f : RxFrame)
  /-- BEACON_SEND (R389). -/
  | beaconSend (p : Port)
  /-- BEACON (R391). -/
  | beacon (r : RxSearch)
  /-- QUERY (R390): VRES in 10 mV at the instant the ANSWER must begin (R387). -/
  | query (r : RxSearch) (vres : Nat)
  /-- QUERY_WINDOW_END (R390). -/
  | queryWindowEnd (p : Port) (carrier : Bool)
  /-- SEARCH_ANSWER (R390). -/
  | searchAnswer (r : RxSearch)
  /-- DISCOVERY_TIMEOUT (R389). -/
  | discoveryTimeout (p : Port)
  /-- SEARCH_REPLY_TIMEOUT (R391): the silent bridge. -/
  | searchReplyTimeout (bridge : BitVec 12)
  /-- EPOCH_END (R392). -/
  | epochEnd
  /-- JOIN (R393). -/
  | join (f : RxFrame)
  /-- ASSIGN (R394). -/
  | assign (r : RxSearch)
  /-- ASSIGN_ACK (R394). -/
  | assignAck (r : RxSearch)
  /-- ASSIGN_TIMEOUT (R394). -/
  | assignTimeout (p : Port)
  /-- SWEEP_ISSUE (R395). -/
  | sweepIssue
  /-- SWEEP (R396). -/
  | sweep (f : RxFrame)
  /-- SWEEP_LATCH (R397); beside: the instant falls in the CORE cycle of the commit trigger that came last (R224). -/
  | sweepLatch (beside : Bool)
  /-- COLLECT_START (R398). -/
  | collectStart
  /-- COLLECT (R398). -/
  | collect (f : RxFrame)
  /-- COLLECT_REPLY (R399). -/
  | collectReply (f : RxFrame)
  /-- NODE_TABLE_WRITE (R484): host commit of DS_DATA at a node-table word 3. -/
  | nodeTableWrite (hi : Byte)
  /-- RULE_ASSERT (R406). -/
  | ruleAssert (n : BitVec 5)
  /-- RULE_RELEASE (R406). -/
  | ruleRelease (n : BitVec 5)
  /-- RULE_ACK (R406): host commit of PL_DATA at an ACK word. -/
  | ruleAck (hi : Byte)
  /-- RULE_COMMIT (R415): host commit of PL_DATA at a word 7. -/
  | ruleCommit (hi : Byte)
  /-- DEFAULTS_RESTORE (R415): host commit of PL_CTL. -/
  | defaultsRestore (hi : Byte)
  /-- POLICY_ENABLE (R415): host commit of PL_CTL. -/
  | policyEnable (hi : Byte)
  /-- LOW_BYTE_WRITE (R429): a host write of a low byte at an even byte address. -/
  | lowByteWrite (addr lo : Byte)
  /-- REGISTER_WRITE (R429): a host write of a high byte at an odd byte address. -/
  | registerWrite (addr hi : Byte)
  /-- FRAM_ROW_WRITE (R433). -/
  | framRowWrite
  /-- SY_IRQ_CLEAR (R438): host commit of SY_IRQ. -/
  | syIrqClear (hi : Byte)
  /-- FREEZE_START (R442): host commit of TS_CTL. -/
  | freezeStart (hi : Byte)
  /-- TEST_PIN_FREEZE (R442). -/
  | testPinFreeze
  /-- FREEZE_END (R444): the source that ended (true: TEST fell; false: FDUR ran out), the length in ms, the AON cycles of it. -/
  | freezeEnd (testFell : Bool) (ms : Nat)
  /-- PRIMARY_SUPPLY_GOOD (R47). -/
  | primarySupplyGood
  /-- STEP_IN_PROGRESS_DONE (R50). -/
  | stepInProgressDone
  /-- DAO_COMPLIANCE_CLEAR (R186). -/
  | daoComplianceClear
  /-- RESTORE_ACK_TIMEOUT (R277). -/
  | restoreAckTimeout
  /-- CANTUS_CRC_FAILURE (R323). -/
  | cantusCrcFailure
  /-- CANTUS_RECEIVE_ABORT (R332): bytes received, or the byte index of a parity error. -/
  | cantusReceiveAbort (k : AbortKind) (bytes : Nat)
  /-- CANTUS_UNKNOWN_COMMAND (R332). -/
  | cantusUnknownCommand (f : CFrame)
  /-- DESCANT_FRAME_DROPPED (R366). -/
  | descantFrameDropped (k : DropKind)
  /-- DESCANT_RESERVED_TYPE (R400). -/
  | descantReservedType (f : RxFrame)
  /-- DESCANT_REPLY (R379). -/
  | descantReply (f : RxFrame)
  /-- JOIN_REPLY (R394). -/
  | joinReply (f : RxFrame)
  /-- SEARCH_REPLY (R392). -/
  | searchReply (f : RxFrame)
  /-- DS_FIFO_READ (R379): host low-byte read of DS_FIFO. -/
  | dsFifoRead
  /-- ORRERY_COUNT_SNAPSHOT (R138): host low-byte read of OR_DATA at 0x310. -/
  | orreryCountSnapshot
  /-- FE_LIVE_SNAPSHOT (R215): host low-byte read of FE_DATA at 0x380. -/
  | feLiveSnapshot
  /-- WINDOW_DATA_READ (R431): host low-byte read of a window data register. -/
  | windowDataRead (w : WinKind)
  /-- HOST_STROBE_VIOLATION (R445): the address latched and the new one. -/
  | hostStrobeViolation (k : StrobeKind) (addr newAddr : Byte)
  /-- AUDIT_ROW_WRITTEN (R434). -/
  | auditRowWritten
deriving DecidableEq, Repr

end Sys2Proof
end

