-- ==== Sys2Proof/Machine/Bits.lean ====
section
/-! DEFINITION. Sys2Proof/Machine/Bits.lean: fields of words, bytes of numbers in both byte orders, saturating
counts and the serial-number comparison (R7, R8, R417, R418). -/

namespace Sys2Proof.Machine

/-- The n-bit field of a word that starts at bit lo (R7). -/
def fld (w : Word) (lo n : Nat) : Nat := (w.toNat >>> lo) % 2 ^ n

/-- One bit of a word (R7). -/
def bitAt (w : Word) (i : Nat) : Bool := w.getLsbD i

/-- A flag as a number. -/
def b2n (b : Bool) : Nat := if b then 1 else 0

/-- A word put together from (value, lowest bit) parts. -/
def pack (parts : List (Nat × Nat)) : Word :=
  BitVec.ofNat 16 (parts.foldl (fun acc p => acc + p.1 * 2 ^ p.2) 0)

/-- A mask of the n bits that start at lo. -/
def mask (lo n : Nat) : Word := BitVec.ofNat 16 ((2 ^ n - 1) * 2 ^ lo)

/-- old with the bits of m taken from new. -/
def merge (m old new : Word) : Word := (old &&& ~~~m) ||| (new &&& m)

/-- The high byte of a word (R427). -/
def hiByte (w : Word) : Byte := w.extractLsb' 8 8

/-- The low byte of a word (R427). -/
def loByte (w : Word) : Byte := w.extractLsb' 0 8

/-- A word from its high and low bytes (R427). -/
def wordOf (hi lo : Byte) : Word := hi ++ lo

/-- A 32-bit value from its low and high words (R8: least significant word first in the windows). -/
def dword (lo hi : Word) : Word32 := hi ++ lo

/-- The low word of a 32-bit value. -/
def loWord (v : Word32) : Word := v.extractLsb' 0 16

/-- The high word of a 32-bit value. -/
def hiWord (v : Word32) : Word := v.extractLsb' 16 16

/-- Word k of a number, least significant word first. -/
def wordOfNat (v k : Nat) : Word := BitVec.ofNat 16 (v >>> (16 * k))

/-- The n bytes of a number, least significant first: FRAM records, log entries, window data (R8). -/
def bytesLE : Nat → Nat → List Byte
  | 0, _ => []
  | n + 1, v => BitVec.ofNat 8 v :: bytesLE n (v / 256)

/-- The n bytes of a number, most significant first: frames (R8). -/
def bytesBE (n v : Nat) : List Byte := (bytesLE n v).reverse

/-- The number whose bytes, least significant first, these are (R8). -/
def natOfLE : List Byte → Nat
  | [] => 0
  | b :: bs => b.toNat + 256 * natOfLE bs

/-- The number whose bytes, most significant first, these are (R8). -/
def natOfBE (bs : List Byte) : Nat := natOfLE bs.reverse

/-- n items of a list from position at. -/
def slice {α : Type} (l : List α) (at_ n : Nat) : List α := (l.drop at_).take n

/-- The number at an offset of a record stored least significant byte first (R8). -/
def leAt (l : List Byte) (at_ n : Nat) : Nat := natOfLE (slice l at_ n)

/-- The number at an offset of a frame sent most significant byte first (R8). -/
def beAt (l : List Byte) (at_ n : Nat) : Nat := natOfBE (slice l at_ n)

/-- A list with its item at position k replaced; unchanged when k is out of it. -/
def setAt {α : Type} : List α → Nat → α → List α
  | [], _, _ => []
  | _ :: xs, 0, v => v :: xs
  | x :: xs, k + 1, v => x :: setAt xs k v

/-- A list with the items from position at_ on replaced by those given. -/
def patch {α : Type} (l : List α) (at_ : Nat) (v : List α) : List α :=
  l.take at_ ++ v.take (l.length - at_) ++ l.drop (at_ + v.length)

/-- A 16-bit saturating count moved on by one (R418, R419). -/
def satInc (w : Word) : Word := if w = 0xFFFF#16 then w else w + 1#16

/-- A 16-bit saturating count moved on by n (R418, R419). -/
def satAdd (w : Word) (n : Nat) : Word := BitVec.ofNat 16 (min 0xFFFF (w.toNat + n))

/-- A number held inside two bounds. -/
def clampNat (lo hi n : Nat) : Nat := max lo (min hi n)

/-- An integer held inside two bounds. -/
def clampInt (lo hi n : Int) : Int := max lo (min hi n)

/-- R417: b is newer than a when 0 < (b − a) mod 2^n < 2^(n−1). -/
def newer (n : Nat) (a b : BitVec n) : Bool := 0 < (b - a).toNat && (b - a).toNat < 2 ^ (n - 1)

/-- A number rounded to nearest, ties to even, after division. -/
def divRne (a : Int) (b : Nat) : Int :=
  if b = 0 then 0 else
    let q := a / (b : Int)
    let r := a - q * (b : Int)
    if 2 * r < (b : Int) then q else if 2 * r > (b : Int) then q + 1 else if q % 2 = 0 then q else q + 1

/-- The ceiling of a quotient of naturals. -/
def divCeil (a b : Nat) : Nat := if b = 0 then 0 else (a + b - 1) / b

/-- The two's complement value of a bit vector as an integer. -/
def sInt {n : Nat} (v : BitVec n) : Int := v.toInt

end Sys2Proof.Machine
end

