-- ==== Sys2Proof/Machine/Crc.lean ====
section
/-! DEFINITION. Sys2Proof/Machine/Crc.lean: the CRC-16/CCITT of Cantus, search frames and Descant headers (R323, R357, R368)
and the CRC-32 of Descant payloads (R369). -/

namespace Sys2Proof.Machine

/-- One bit of the CRC-16/CCITT register, polynomial 0x1021, not reflected (R323). -/
def crc16Bit (c : Word) : Word := if c.getLsbD 15 then (c <<< 1) ^^^ 0x1021#16 else c <<< 1

/-- n times a step. -/
def iter {α : Type} (f : α → α) : Nat → α → α
  | 0, a => a
  | n + 1, a => iter f n (f a)

/-- One byte into the CRC-16/CCITT register. -/
def crc16Byte (c : Word) (b : Byte) : Word := iter crc16Bit 8 (c ^^^ (b.setWidth 16 <<< 8))

/-- R323: initial value 0xFFFF, no reflection, no final XOR. -/
def crc16 (bs : List Byte) : Word := bs.foldl crc16Byte 0xFFFF#16

/-- One bit of the reflected CRC-32 register (R369: polynomial 0x04C11DB7, reflected: 0xEDB88320). -/
def crc32Bit (c : Word32) : Word32 := if c.getLsbD 0 then (c >>> 1) ^^^ 0xEDB88320#32 else c >>> 1

/-- One byte into the CRC-32 register. -/
def crc32Byte (c : Word32) (b : Byte) : Word32 := iter crc32Bit 8 (c ^^^ b.setWidth 32)

/-- R369: initial value 0xFFFFFFFF, reflected input and output, final XOR 0xFFFFFFFF. -/
def crc32 (bs : List Byte) : Word32 := bs.foldl crc32Byte 0xFFFFFFFF#32 ^^^ 0xFFFFFFFF#32

end Sys2Proof.Machine
end

