-- ==== Sys2Proof/Machine/F32.lean ====
section
/-! DEFINITION. Sys2Proof/Machine/F32.lean: IEEE 754 binary32 arithmetic with round-to-nearest-even and subnormal results
flushed to zero (08_flow_engine.md R193). Each operation computes exactly and rounds once. -/

namespace Sys2Proof.Machine.F32

/-- What 32 bits stand for: a number m · 2^e, an infinity (true: negative) or not a number. -/
inductive Val where
  | nan
  | inf (neg : Bool)
  | fin (m : Int) (e : Int)
deriving DecidableEq, Repr

/-- The canonical not-a-number. -/
def nanBits : F32 := 0x7FC00000#32

/-- An infinity. -/
def infBits (neg : Bool) : F32 := if neg then 0xFF800000#32 else 0x7F800000#32

/-- The exponent field. -/
def expo (x : F32) : Nat := (x.extractLsb' 23 8).toNat

/-- The fraction field. -/
def frac (x : F32) : Nat := (x.extractLsb' 0 23).toNat

/-- The sign bit. -/
def neg? (x : F32) : Bool := x.getLsbD 31

/-- The value of 32 bits. -/
def val (x : F32) : Val :=
  let s : Int := if neg? x then -1 else 1
  if expo x = 255 then (if frac x = 0 then .inf (neg? x) else .nan)
  else if expo x = 0 then .fin (s * (frac x : Int)) (-149)
  else .fin (s * ((frac x + 2 ^ 23 : Nat) : Int)) ((expo x : Int) - 150)

/-- R193: an infinite or not-a-number result is an arithmetic fault. -/
def isFinite (x : F32) : Bool := expo x != 255

/-- Half-way and even: a quotient of 2^k rounded to nearest, ties to even. -/
def shiftRne (a k : Nat) : Nat :=
  let q := a >>> k
  let r := a % 2 ^ k
  if 2 * r < 2 ^ k then q else if 2 * r > 2 ^ k then q + 1 else if q % 2 = 0 then q else q + 1

/-- The exact number m · 2^e rounded to binary32; a result below the normal range is flushed to zero (R193). -/
def round (m : Int) (e : Int) : F32 :=
  let neg := decide (m < 0)
  let a := m.natAbs
  if a = 0 then 0#32 else
    let l := Nat.log2 a
    let q := if l ≤ 23 then a * 2 ^ (23 - l) else shiftRne a (l - 23)
    let l' : Int := if q = 2 ^ 24 then (l : Int) + 1 else l
    let f := if q = 2 ^ 24 then 0 else q - 2 ^ 23
    let ex := e + l' + 127
    if 255 ≤ ex then infBits neg
    else if ex ≤ 0 then 0#32
    else BitVec.ofNat 32 (b2n neg * 2 ^ 31 + ex.toNat * 2 ^ 23 + f)

/-- A sum: m1 · 2^e1 + m2 · 2^e2 over the lower exponent, rounded. -/
def addFin (m1 e1 m2 e2 : Int) : F32 :=
  let e := min e1 e2
  round (m1 * 2 ^ (e1 - e).toNat + m2 * 2 ^ (e2 - e).toNat) e

/-- Addition. -/
def add (x y : F32) : F32 :=
  match val x, val y with
  | .nan, _ => nanBits
  | _, .nan => nanBits
  | .inf a, .inf b => if a = b then infBits a else nanBits
  | .inf a, .fin _ _ => infBits a
  | .fin _ _, .inf b => infBits b
  | .fin m1 e1, .fin m2 e2 => addFin m1 e1 m2 e2

/-- The same magnitude with the other sign. -/
def neg (x : F32) : F32 := x ^^^ 0x80000000#32

/-- The magnitude. -/
def abs (x : F32) : F32 := x &&& 0x7FFFFFFF#32

/-- Subtraction. -/
def sub (x y : F32) : F32 := add x (neg y)

/-- Multiplication. -/
def mul (x y : F32) : F32 :=
  match val x, val y with
  | .nan, _ => nanBits
  | _, .nan => nanBits
  | .inf a, .inf b => infBits (a != b)
  | .inf a, .fin m _ => if m = 0 then nanBits else infBits (a != decide (m < 0))
  | .fin m _, .inf b => if m = 0 then nanBits else infBits (b != decide (m < 0))
  | .fin m1 e1, .fin m2 e2 => round (m1 * m2) (e1 + e2)

/-- The quotient of two integers times 2^e, rounded: 64 guard bits and a sticky bit decide the rounding. -/
def divFin (m1 m2 : Int) (e : Int) : F32 :=
  let a := m1.natAbs * 2 ^ 64
  let q := a / m2.natAbs
  let st := if a % m2.natAbs = 0 then 0 else 1
  let mag : Int := ((2 * q + st : Nat) : Int)
  round (if decide (m1 < 0) = decide (m2 < 0) then mag else -mag) (e - 65)

/-- Division; by zero it is infinite, or not a number for 0 / 0 (IEEE 754, R193). -/
def div (x y : F32) : F32 :=
  match val x, val y with
  | .nan, _ => nanBits
  | _, .nan => nanBits
  | .inf _, .inf _ => nanBits
  | .inf a, .fin m _ => infBits (a != decide (m < 0))
  | .fin _ _, .inf _ => 0#32
  | .fin m1 e1, .fin m2 e2 =>
    if m2 = 0 then (if m1 = 0 then nanBits else infBits (neg? x != neg? y)) else divFin m1 m2 (e1 - e2)

/-- The largest natural whose square does not pass n, found bit by bit from 2^k down. -/
def isqrtFrom (n : Nat) : Nat → Nat → Nat
  | 0, acc => acc
  | k + 1, acc => isqrtFrom n k (if (acc + 2 ^ k) * (acc + 2 ^ k) ≤ n then acc + 2 ^ k else acc)

/-- The integer square root. -/
def isqrt (n : Nat) : Nat := isqrtFrom n (Nat.log2 n / 2 + 1) 0

/-- Square root; of a negative number it is not a number. -/
def sqrt (x : F32) : F32 :=
  match val x with
  | .nan => nanBits
  | .inf a => if a then nanBits else infBits false
  | .fin m e =>
    if m < 0 then nanBits
    else
      let m' := if e % 2 = 0 then m.natAbs * 2 ^ 64 else m.natAbs * 2 ^ 65
      let e' := if e % 2 = 0 then e - 64 else e - 65
      let r := isqrt m'
      let st := if r * r = m' then 0 else 1
      round ((2 * r + st : Nat) : Int) (e' / 2 - 1)

/-- x < y as numbers; false when either is not a number. -/
def lt (x y : F32) : Bool :=
  match val x, val y with
  | .nan, _ => false
  | _, .nan => false
  | .inf a, .inf b => a && !b
  | .inf a, .fin _ _ => a
  | .fin _ _, .inf b => !b
  | .fin m1 e1, .fin m2 e2 =>
    let e := min e1 e2
    decide (m1 * 2 ^ (e1 - e).toNat < m2 * 2 ^ (e2 - e).toNat)

/-- x = y as numbers; false when either is not a number. -/
def eq (x y : F32) : Bool :=
  match val x, val y with
  | .nan, _ => false
  | _, .nan => false
  | _, _ => !lt x y && !lt y x

/-- x ≤ y as numbers. -/
def le (x y : F32) : Bool := lt x y || eq x y

/-- The larger of two numbers; the second when either is not a number. -/
def max (x y : F32) : F32 := if lt y x then x else y

/-- An integer as binary32. -/
def ofInt (n : Int) : F32 := round n 0

/-- m · 2^e as binary32. -/
def ofDyadic (m e : Int) : F32 := round m e

/-- A quotient of integers as binary32, rounded once. -/
def ofRatio (a : Int) (b : Nat) : F32 := if b = 0 then nanBits else if a = 0 then 0#32 else divFin a b 0

/-- The number times 2^n rounded to an integer, ties to even; 0 for an infinity or not a number (R211). -/
def toFixed (x : F32) (n : Nat) : Int :=
  match val x with
  | .fin m e =>
    let s := e + (n : Int)
    if 0 ≤ s then m * 2 ^ s.toNat else divRne m (2 ^ (-s).toNat)
  | _ => 0

/-- The number rounded to an integer, ties to even. -/
def toInt (x : F32) : Int := toFixed x 0

/-- π rounded to binary32 (R199). -/
def pi : F32 := 0x40490FDB#32

end Sys2Proof.Machine.F32
end

