-- ==== Sys2Proof/Machine/If97.lean ====
section
/-! DEFINITION. Sys2Proof/Machine/If97.lean: density, enthalpy and saturation of water and steam by the IAPWS Industrial Formulation 1997,
which R204 to R206 of 08_flow_engine.md name and do not print (log entry 6). Each value is computed exactly from its binary32 arguments
(the roots to 96 binary places) and rounded once to binary32. -/

namespace Sys2Proof.Machine

/-! ## Exact numbers -/

/-- A finite binary32 number as a rational. -/
def F32.toRat (x : F32) : Rat :=
  match F32.val x with
  | .fin m e => if 0 ≤ e then (m * 2 ^ e.toNat : Int) else (m : Rat) / (2 ^ (-e).toNat : Nat)
  | _ => 0

/-- A rational rounded once to binary32. -/
def F32.ofRat (q : Rat) : F32 := F32.ofRatio q.num q.den

/-- A power with an integer exponent. -/
def ratPow (x : Rat) (j : Int) : Rat := if 0 ≤ j then x ^ j.toNat else x⁻¹ ^ (-j).toNat

/-- The square root of a number that is not negative, cut off at 96 binary places. -/
def ratSqrt (x : Rat) : Rat := (F32.isqrt (x * (2 ^ 192 : Nat)).floor.toNat : Nat) / (2 ^ 96 : Nat)

/-- A coefficient m · 10^−e. -/
def coef (m : Int) (e : Nat) : Rat := (m : Rat) / (10 ^ e : Nat)

/-- A temperature in K of one in °C. -/
def kelvin (t : F32) : Rat := F32.toRat t + 27315 / 100

/-- The specific gas constant of water in J/(kg K). -/
def gasConstant : Rat := 461526 / 1000

/-! ## Region 1 -/

/-- I, J and n = m · 10^−e of region 1. -/
def region1 : List (Nat × Int × Int × Nat) :=
  [(0, (-2), 14632971213167, 14), (0, (-1), -84548187169114, 14), (0, 0, -3756360367204, 12), (0, 1, 33855169168385, 13),
   (0, 2, -95791963387872, 14), (0, 3, 15772038513228, 14), (0, 4, -16616417199501, 15), (0, 5, 81214629983568, 17),
   (1, (-9), 28319080123804, 17), (1, (-7), -60706301565874, 17), (1, (-1), -18990068218419, 15)] ++
  [(1, 0, -32529748770505, 15), (1, 1, -21841717175414, 15), (1, 3, -5283835796993, 17), (2, (-3), -47184321073267, 17),
   (2, 0, -30001780793026, 17), (2, 1, 47661393906987, 18), (2, 3, -44141845330846, 19), (2, 17, -72694996297594, 29),
   (3, (-4), -31679644845054, 18), (3, 0, -28270797985312, 19), (3, 6, -85205128120103, 23)] ++
  [(4, (-5), -22425281908, 16), (4, (-2), -65171222895601, 20), (4, 10, -14341729937924, 26), (5, (-8), -40516996860117, 20),
   (8, (-11), -12734301741641, 22), (8, (-6), -17424871230634, 23), (21, (-29), -68762131295531, 32),
   (23, (-31), 14478307828521, 33), (29, (-38), 26335781662795, 36), (30, (-39), -11947622640071, 36),
   (31, (-40), 18228094581404, 37)] ++
  [(32, (-41), -93537087292458, 39)]

/-- ∂γ/∂π of region 1 at the reduced pressure and temperature. -/
def gammaPi1 (pi tau : Rat) : Rat :=
  (region1.map (fun (i, j, m, e) => if i = 0 then 0 else -coef m e * i * (71 / 10 - pi) ^ (i - 1) * ratPow (tau - 1222 / 1000) j)).sum

/-- ∂γ/∂τ of region 1. -/
def gammaTau1 (pi tau : Rat) : Rat :=
  (region1.map (fun (i, j, m, e) => coef m e * j * (71 / 10 - pi) ^ i * ratPow (tau - 1222 / 1000) (j - 1))).sum

/-! ## Region 2 -/

/-- J and n of the ideal-gas part of region 2. -/
def region2Ideal : List (Int × Int × Nat) :=
  [(0, -96927686500217, 13), (1, 10086655968018, 12), ((-5), -5608791128302, 15), ((-4), 71452738081455, 15),
   ((-3), -40710498223928, 14), ((-2), 14240819171444, 13), ((-1), -4383951131945, 12), (2, -28408632460772, 14),
   (3, 21268463753307, 15)]

/-- I, J and n of the residual part of region 2. -/
def region2 : List (Nat × Int × Int × Nat) :=
  [(1, 0, -17731742473213, 16), (1, 1, -17834862292358, 15), (1, 2, -45996013696365, 15), (1, 3, -57581259083432, 15),
   (1, 6, -5032527872793, 14), (2, 1, -33032641670203, 18), (2, 2, -18948987516315, 17), (2, 4, -39392777243355, 16),
   (2, 7, -43797295650573, 15), (2, 36, -26674547914087, 18), (3, 0, 20481737692309, 21)] ++
  [(3, 1, 43870667284435, 20), (3, 3, -3227767723857, 17), (3, 6, -15033924542148, 16), (3, 35, -40668253562649, 15),
   (4, 1, -78847309559367, 23), (4, 2, 12790717852285, 21), (4, 3, 48225372718507, 20), (5, 7, 22922076337661, 19),
   (6, 3, -16714766451061, 24), (6, 16, -21171472321355, 16), (6, 35, -23895741934104, 12)] ++
  [(7, 0, -5905956432427, 30), (7, 11, -12621808899101, 19), (7, 25, -38946842435739, 15), (8, 8, 11256211360459, 24),
   (8, 36, -82311340897998, 13), (9, 13, 19809712802088, 21), (10, 4, 10406965210174, 32), (10, 10, -10234747095929, 26),
   (10, 14, -10018179379511, 22), (16, 29, -80882908646985, 24), (16, 50, 10693031879409, 14)] ++
  [(18, 57, -33662250574171, 14), (20, 20, 89185845355421, 38), (20, 35, 30629316876232, 26), (20, 48, -42002467698208, 19),
   (21, 21, -59056029685639, 39), (22, 53, 37826947613457, 19), (23, 39, -12768608934681, 28), (24, 26, 73087610595061, 42),
   (24, 40, 55414715350778, 30), (24, 58, -9436970724121, 19)]

/-- ∂γ/∂π of region 2, both parts. -/
def gammaPi2 (pi tau : Rat) : Rat :=
  1 / pi + (region2.map (fun (i, j, m, e) => coef m e * i * pi ^ (i - 1) * ratPow (tau - 1 / 2) j)).sum

/-- ∂γ/∂τ of region 2, both parts. -/
def gammaTau2 (pi tau : Rat) : Rat :=
  (region2Ideal.map (fun (j, m, e) => coef m e * j * ratPow tau (j - 1))).sum +
  (region2.map (fun (i, j, m, e) => if j = 0 then 0 else coef m e * pi ^ i * j * ratPow (tau - 1 / 2) (j - 1))).sum

/-! ## Saturation (region 4) -/

/-- n1 to n10 of region 4. -/
def region4 : List (Int × Nat) := [(11670521452767, 10), (-72421316703206, 8), (-17073846940092, 12), (1202082470247, 8), (-32325550322333, 7),
  (1491510861353, 11), (-48232657361591, 10), (40511340542057, 8), (-23855557567849, 14), (65017534844798, 11)]

/-- Coefficient k of region 4, from 1. -/
def sat (k : Nat) : Rat := coef (region4.getD (k - 1) (0, 0)).1 (region4.getD (k - 1) (0, 0)).2

/-- Saturation pressure in Pa at a temperature in °C (R205). -/
def if97Psat (t : F32) : F32 :=
  let th := kelvin t + sat 9 / (kelvin t - sat 10)
  let a := th * th + sat 1 * th + sat 2
  let b := sat 3 * th * th + sat 4 * th + sat 5
  let c := sat 6 * th * th + sat 7 * th + sat 8
  F32.ofRat ((2 * c / (-b + ratSqrt (b * b - 4 * a * c))) ^ 4 * 1000000)

/-- Saturation temperature in °C at a pressure in Pa (R205, R206). -/
def if97Tsat (p : F32) : F32 :=
  let b := ratSqrt (ratSqrt (F32.toRat p / 1000000))
  let e := b * b + sat 3 * b + sat 6
  let f := sat 1 * b * b + sat 4 * b + sat 7
  let g := sat 2 * b * b + sat 5 * b + sat 8
  let d := 2 * g / (-f - ratSqrt (f * f - 4 * e * g))
  F32.ofRat ((sat 10 + d - ratSqrt ((sat 10 + d) * (sat 10 + d) - 4 * (sat 9 + sat 10 * d))) / 2 - 27315 / 100)

/-! ## Density and enthalpy -/

/-- Density in kg/m³ of region 2 (true) or region 1, from Pa and °C (R204). -/
def if97Density (steam : Bool) (p t : F32) : F32 :=
  let tk := kelvin t
  let pp := F32.toRat p
  if F32.isFinite p && F32.isFinite t then
    F32.ofRat (if steam then 1000000 / (gasConstant * tk * gammaPi2 (pp / 1000000) (540 / tk))
               else 16530000 / (gasConstant * tk * gammaPi1 (pp / 16530000) (1386 / tk)))
  else F32.nanBits

/-- Enthalpy in J/kg of region 2 (true) or region 1 (R204). -/
def if97Enthalpy (steam : Bool) (p t : F32) : F32 :=
  let tk := kelvin t
  let pp := F32.toRat p
  if F32.isFinite p && F32.isFinite t then
    F32.ofRat (if steam then gasConstant * 540 * gammaTau2 (pp / 1000000) (540 / tk)
               else gasConstant * 1386 * gammaTau1 (pp / 16530000) (1386 / tk))
  else F32.nanBits

end Sys2Proof.Machine
end

