-- ==== Sys2Proof/Config.lean ====
section
/-! DEFINITION. Sys2Proof/Config.lean: what a part of this family fixes: the content of FRAM at shipment (Reset columns "NV, value"
of every chapter, R414), the factory key and serial, and the free values, which nothing can evaluate. -/

namespace Sys2Proof.Config

/-- A free value (log entry 5): the n-th number the model draws where the spec states no value. No body is known. -/
opaque freeNat : Nat → Nat

/-- The noise power, in code², that the estimator finds in a block of channel 0 results at a frequency of n / d in 0.1 mHz; block in V,
newest first, at a RATE code (R212). A free value: the spec gives the transform no window and no scale (log entry 71). -/
opaque noisePower : List F32 → BitVec 4 → Nat → Nat → Nat

/-- The rms noise in µV that it finds in a block of channel 3 results outside ±20 % of a shedding frequency in Hz (R213). A free value, as
noisePower is (log entry 71). -/
opaque noiseRms : List F32 → BitVec 4 → F32 → Nat

/-- The serial number in the factory rows (R217; log entry 4). -/
def serial : Word64 := 0x0000000000000001#64

/-- The factory ledger key of R248, "unique to the die" (log entry 4). -/
def factoryKey : List Byte :=
  [0x01, 0x02, 0x03, 0x04, 0x05, 0x06, 0x07, 0x08, 0x09, 0x0A, 0x0B, 0x0C, 0x0D, 0x0E, 0x0F, 0x10]

/-- FRAM words are keyed space · 0x10000 + address: 0 register fields by register address, 1 the OR window, 2 the FE window, 3 the LG
parameter area, 4 the DS window, 5 the PL window, 6 the node table by DS_PTR[13:0]. -/
def key (space addr : Nat) : Nat := space * 0x10000 + addr

/-- NV register fields at shipment (Reset columns of 05 to 15). -/
def regWords : List (Nat × Word) :=
  [(0x18, 0x3D00), (0x28, 0x0100), (0x2C, 0x0030), (0x38, 0x0040), (0x3A, 0x4B96), (0x40, 0x0020), (0x52, 0x0008), (0x6E, 0x0001)]

/-- Orrery configuration words at shipment (R138). -/
def orWords : List (Nat × Word) :=
  [(0x302, 40), (0x303, 20), (0x304, 20), (0x305, 7), (0x306, 32)]

/-- Flow-engine words at shipment (R215): each binary32 as two words, low word first. -/
def feWords : List (Nat × Word) :=
  [(0x001, 0x1E08), (0x038, 50),
   (0x00C, 0x8D71), (0x00D, 0x4479),
   (0x00E, 0x1D7E), (0x00F, 0x3F98),
   (0x014, 0xE680), (0x015, 0x47C5),
   (0x016, 0x0000), (0x017, 0x41A0),
   (0x01E, 0x0000), (0x01F, 0x42C8),
   (0x020, 0x1132), (0x021, 0x3B80),
   (0x022, 0x057F), (0x023, 0xB51B),
   (0x028, 0x0000), (0x029, 0x3F80),
   (0x02A, 0x0000), (0x02B, 0x4000),
   (0x02E, 0x0000), (0x02F, 0x3F00),
   (0x030, 0xD70A), (0x031, 0x3C23),
   (0x032, 0x0000), (0x033, 0x4040),
   (0x034, 0x0000), (0x035, 0x4080),
   (0x036, 0x0000), (0x037, 0x3F80)]

/-- The Z table and the factor of each curve point are 1.0 at shipment (R215). -/
def feDefault (a : Nat) : Word :=
  match feWords.lookup a with
  | some w => w
  | none =>
    if 0x080 ≤ a ∧ a < 0x100 then (if a % 4 = 3 then 0x3F80 else 0)
    else if 0x100 ≤ a ∧ a < 0x300 then (if a % 2 = 1 then 0x3F80 else 0)
    else 0

/-- Parameter-block words at shipment (03, 06, 07, 10, 11, 12 Registers). -/
def lgWords : List (Nat × Word) :=
  [(0xF800, 500), (0xF802, 10), (0xF803, 0x0532), (0xF804, 20), (0xF805, 20), (0xF806, 100), (0xF807, 0x4B0), (0xF808, 0x960),
   (0xF809, 0x1F4), (0xF80A, 0x14A)] ++
  [(0xF821, 0x0046), (0xF822, 0x0310), (0xF823, 0x0707), (0xF824, 0x0007), (0xF825, 0x0230), (0xF826, 2048), (0xF827, 1024),
   (0xF828, 150), (0xF829, 50)] ++
  [(0xF841, 1333)] ++
  [(0xF881, 5), (0xF883, 50), (0xF884, 1000), (0xF886, 8)] ++
  [(0xF8C3, 0x3F80), (0xF8C5, 200), (0xF8C6, 0x097D), (0xF8C7, 0x003D), (0xF8C8, 0x2C83), (0xF8C9, 0x0131), (0xF8CA, 950),
   (0xF8CB, 250), (0xF8CC, 32), (0xF8CD, 1000), (0xF8CE, 2), (0xF8CF, 0x4B3C)] ++
  [(0xF900, 0x0050), (0xF901, 0x0027), (0xF904, 8)]

/-- Descant words at shipment (13, 14 Registers). -/
def dsWords : List (Nat × Word) :=
  [(0x1000, 0x4000), (0x1040, 0x4000), (0x1030, 60), (0x1070, 60), (0x1031, 8), (0x1071, 8), (0x1032, 3), (0x1072, 3),
   (0x1033, 30), (0x1073, 30), (0x1034, 32), (0x1074, 32)] ++
  [(0x2000, 60), (0x2001, 16), (0x2002, 50), (0x2003, 2), (0x2004, 60), (0x2005, 200), (0x2006, 2), (0x2007, 8)]

/-- A rule of the default set: source, IRQ, PERS, RELP, action; CMP 1, LATCH 0, THR 0, EN 1 (R414). -/
def defaultRule (src irq pers relp act : Nat) : List Word :=
  [BitVec.ofNat 16 (src + 0x100 + irq * 0x1000), 0, 0, BitVec.ofNat 16 pers, BitVec.ofNat 16 relp, BitVec.ofNat 16 (0x8000 + act), 0, 0]

/-- The default rules 0 to 12 (R414). -/
def defaultRules : List (List Word) :=
  [defaultRule 0x02 1 0 0 1, defaultRule 0x01 1 3000 0 1, defaultRule 0x03 1 0 0 1, defaultRule 0x07 0 5000 5000 1] ++
  [defaultRule 0x0C 1 0 0 1, defaultRule 0x06 0 10000 5000 4, defaultRule 0x06 0 0 0 7, defaultRule 0x08 0 10000 2000 4] ++
  [defaultRule 0x0D 1 0 0 7, defaultRule 0x0F 1 0 0 8, defaultRule 0x12 1 0 0 8, defaultRule 0x0B 0 0 0 5] ++
  [defaultRule 0x17 1 0 0 8]

/-- Word a of the policy table at shipment: rules 13 to 31 are all zero (R414). -/
def ruleWord (a : Nat) : Word :=
  if a < 0x100 then ((defaultRules.getD (a / 8) []).getD (a % 8) 0) else 0

/-- What an FRAM word that is not listed reads as: its content at shipment, 0 where none is stated (00_scope.md, Reset column). -/
def shipment (k : Nat) : Word :=
  let a := k % 0x10000
  match k / 0x10000 with
  | 0 => (regWords.lookup a).getD 0
  | 1 => (orWords.lookup a).getD 0
  | 2 => feDefault a
  | 3 => (lgWords.lookup a).getD 0
  | 4 => (dsWords.lookup a).getD 0
  | 5 => ruleWord a
  | _ => 0

end Sys2Proof.Config
end

