-- ==== Sys2Proof/Machine/Sha.lean ====
section
/-! DEFINITION. Sys2Proof/Machine/Sha.lean: SHA-256 and HMAC-SHA-256 truncated to 64 bits (FIPS 180-4, FIPS 198-1, named by
00_scope.md, Standards referred to; used by R222, R235, R237, R246, R264, R266, R267). -/

namespace Sys2Proof.Machine

/-- The eight working words of SHA-256. -/
structure Sha where
  a : Word32
  b : Word32
  c : Word32
  d : Word32
  e : Word32
  f : Word32
  g : Word32
  h : Word32
deriving DecidableEq, Repr

namespace Sha

/-- Round constants 0 to 15 of FIPS 180-4. -/
def k0 : List Word32 :=
  [0x428A2F98#32, 0x71374491#32, 0xB5C0FBCF#32, 0xE9B5DBA5#32,
   0x3956C25B#32, 0x59F111F1#32, 0x923F82A4#32, 0xAB1C5ED5#32,
   0xD807AA98#32, 0x12835B01#32, 0x243185BE#32, 0x550C7DC3#32,
   0x72BE5D74#32, 0x80DEB1FE#32, 0x9BDC06A7#32, 0xC19BF174#32]

/-- Round constants 16 to 31 of FIPS 180-4. -/
def k1 : List Word32 :=
  [0xE49B69C1#32, 0xEFBE4786#32, 0x0FC19DC6#32, 0x240CA1CC#32,
   0x2DE92C6F#32, 0x4A7484AA#32, 0x5CB0A9DC#32, 0x76F988DA#32,
   0x983E5152#32, 0xA831C66D#32, 0xB00327C8#32, 0xBF597FC7#32,
   0xC6E00BF3#32, 0xD5A79147#32, 0x06CA6351#32, 0x14292967#32]

/-- Round constants 32 to 47 of FIPS 180-4. -/
def k2 : List Word32 :=
  [0x27B70A85#32, 0x2E1B2138#32, 0x4D2C6DFC#32, 0x53380D13#32,
   0x650A7354#32, 0x766A0ABB#32, 0x81C2C92E#32, 0x92722C85#32,
   0xA2BFE8A1#32, 0xA81A664B#32, 0xC24B8B70#32, 0xC76C51A3#32,
   0xD192E819#32, 0xD6990624#32, 0xF40E3585#32, 0x106AA070#32]

/-- Round constants 48 to 63 of FIPS 180-4. -/
def k3 : List Word32 :=
  [0x19A4C116#32, 0x1E376C08#32, 0x2748774C#32, 0x34B0BCB5#32,
   0x391C0CB3#32, 0x4ED8AA4A#32, 0x5B9CCA4F#32, 0x682E6FF3#32,
   0x748F82EE#32, 0x78A5636F#32, 0x84C87814#32, 0x8CC70208#32,
   0x90BEFFFA#32, 0xA4506CEB#32, 0xBEF9A3F7#32, 0xC67178F2#32]

/-- The 64 round constants. -/
def ks : List Word32 := k0 ++ k1 ++ k2 ++ k3

/-- The initial hash value of FIPS 180-4. -/
def init : Sha :=
  { a := 0x6A09E667#32, b := 0xBB67AE85#32, c := 0x3C6EF372#32, d := 0xA54FF53A#32,
    e := 0x510E527F#32, f := 0x9B05688C#32, g := 0x1F83D9AB#32, h := 0x5BE0CD19#32 }

/-- A 32-bit rotation to the right. -/
def rotr (x : Word32) (n : Nat) : Word32 := (x >>> n) ||| (x <<< (32 - n))

/-- The next word of the message schedule, from the schedule so far with its newest word first. -/
def nextW (w : List Word32) : Word32 :=
  let w2 := w.getD 1 0
  let w7 := w.getD 6 0
  let w15 := w.getD 14 0
  let w16 := w.getD 15 0
  let s0 := rotr w15 7 ^^^ rotr w15 18 ^^^ (w15 >>> 3)
  let s1 := rotr w2 17 ^^^ rotr w2 19 ^^^ (w2 >>> 10)
  w16 + s0 + w7 + s1

/-- n more words of the schedule, newest first. -/
def extend : Nat → List Word32 → List Word32
  | 0, w => w
  | n + 1, w => extend n (nextW w :: w)

/-- One round. -/
def round (s : Sha) (kw : Word32 × Word32) : Sha :=
  let s1 := rotr s.e 6 ^^^ rotr s.e 11 ^^^ rotr s.e 25
  let ch := (s.e &&& s.f) ^^^ (~~~s.e &&& s.g)
  let t1 := s.h + s1 + ch + kw.1 + kw.2
  let s0 := rotr s.a 2 ^^^ rotr s.a 13 ^^^ rotr s.a 22
  let maj := (s.a &&& s.b) ^^^ (s.a &&& s.c) ^^^ (s.b &&& s.c)
  { a := t1 + s0 + maj, b := s.a, c := s.b, d := s.c, e := s.d + t1, f := s.e, g := s.f, h := s.g }

/-- The big-endian words of n 4-byte groups. -/
def words : Nat → List Byte → List Word32
  | 0, _ => []
  | n + 1, bs => BitVec.ofNat 32 (beAt bs 0 4) :: words n (bs.drop 4)

/-- One 64-byte block into the hash. -/
def block (s : Sha) (bs : List Byte) : Sha :=
  let w := (extend 48 (words 16 bs).reverse).reverse
  let r := (ks.zip w).foldl round s
  { a := s.a + r.a, b := s.b + r.b, c := s.c + r.c, d := s.d + r.d,
    e := s.e + r.e, f := s.f + r.f, g := s.g + r.g, h := s.h + r.h }

/-- n blocks into the hash. -/
def blocks : Nat → List Byte → Sha → Sha
  | 0, _, s => s
  | n + 1, bs, s => blocks n (bs.drop 64) (block s (bs.take 64))

/-- The padded message. -/
def pad (m : List Byte) : List Byte :=
  m ++ [0x80#8] ++ List.replicate ((119 - m.length % 64) % 64) 0#8 ++ bytesBE 8 (8 * m.length)

/-- The 32 bytes of a hash value. -/
def digest (s : Sha) : List Byte :=
  ([s.a, s.b, s.c, s.d, s.e, s.f, s.g, s.h].map (fun w => bytesBE 4 w.toNat)).flatten

end Sha

/-- SHA-256 of a message. -/
def sha256 (m : List Byte) : List Byte :=
  let p := Sha.pad m
  Sha.digest (Sha.blocks (p.length / 64) p Sha.init)

/-- HMAC-SHA-256 with a 16-byte key (FIPS 198-1). -/
def hmac (key m : List Byte) : List Byte :=
  let k := key ++ List.replicate (64 - key.length) 0#8
  sha256 (k.map (fun b => b ^^^ 0x5C#8) ++ sha256 (k.map (fun b => b ^^^ 0x36#8) ++ m))

/-- The first 8 bytes of HMAC-SHA-256, in output order (R222). -/
def tag8 (key m : List Byte) : List Byte := (hmac key m).take 8

end Sys2Proof.Machine
end

