-- ==== Sys2Proof/Machine/Bank.lean ====
section
/-! DEFINITION. Sys2Proof/Machine/Bank.lean: the bytes of a bank and of a sweep snapshot (R221, R222, R237, R248). -/

namespace Sys2Proof.Machine

/-- What a bank records (R221), in the order of its fields. -/
structure BankData where
  reason : Byte
  flags : Byte
  seq : Word32
  time : Word32
  sub : BitVec 15
  unaud : Word
  /-- integer · 2^32 + fraction of each of the twelve totals. -/
  totals : List Nat
  tcnt : Word48
  frac : Word
  rev : Word32
  sweep : Word32
  cdig : List Byte
  acount : Nat
  achain : List Byte
deriving DecidableEq, Repr

/-- A total as stored: integer in 8 bytes, then fraction in 4 (R221). -/
def totalBytes (t : Nat) : List Byte := bytesLE 8 (t / 2 ^ 32) ++ bytesLE 4 (t % 2 ^ 32)

/-- The twelve totals as stored. -/
def totalsBytes : List Nat → List Byte
  | [] => []
  | t :: ts => totalBytes t ++ totalsBytes ts

/-- Bytes 0x00 to 0xF7 of a bank (R221). -/
def bankBody (d : BankData) : List Byte :=
  bytesLE 2 1 ++ [d.reason, d.flags] ++ bytesLE 4 d.seq.toNat ++ bytesLE 4 d.time.toNat ++ bytesLE 2 d.sub.toNat ++
  bytesLE 2 d.unaud.toNat ++ totalsBytes d.totals ++ bytesLE 6 d.tcnt.toNat ++ bytesLE 2 d.frac.toNat ++
  bytesLE 4 d.rev.toNat ++ bytesLE 4 d.sweep.toNat ++ d.cdig ++ bytesLE 2 d.acount ++ List.replicate 6 0 ++ d.achain ++
  List.replicate 48 0

/-- The bank byte of the tagged message: 0x41 for A, 0x42 for B (R222). -/
def bankByte (b : Bool) : Byte := if b then 0x42#8 else 0x41#8

/-- The tag of a bank (R222). -/
def bankTag (key : List Byte) (serial : Word64) (b : Bool) (body : List Byte) : List Byte :=
  tag8 key (bytesLE 8 serial.toNat ++ [bankByte b] ++ body)

/-- A bank of 256 bytes with its tag (R221, R222). -/
def bankBytes (key : List Byte) (serial : Word64) (b : Bool) (d : BankData) : List Byte :=
  bankBody d ++ bankTag key serial b (bankBody d)

/-- R226: a bank is valid when its format and tag are right and its SEQ belongs to it. -/
def bankValid (key : List Byte) (serial : Word64) (b : Bool) (bytes : List Byte) : Bool :=
  leAt bytes 0 2 == 1 && (slice bytes 0xF8 8 == bankTag key serial b (bytes.take 0xF8)) &&
  (leAt bytes 4 4 % 2 == b2n b)

/-- The totals a bank holds (R221). -/
def bankTotals (bytes : List Byte) : List Nat :=
  (List.range 12).map (fun n => leAt bytes (0x10 + 12 * n) 8 * 2 ^ 32 + leAt bytes (0x18 + 12 * n) 4)

/-- R248: the banks at shipment, SEQ 0 in A and 1 in B, zero totals, REASON[5]. The fields R248 does not name (TIME not valid with
its flag, CDIG 0) are log entry 4's. -/
def shippedBank (b : Bool) : List Byte :=
  bankBytes Config.factoryKey Config.serial b
    { reason := 0x20, flags := 0x04, seq := BitVec.ofNat 32 (b2n b), time := 0xFFFFFFFF, sub := 0, unaud := 0,
      totals := List.replicate 12 0, tcnt := 0, frac := 0, rev := 0, sweep := 0, cdig := List.replicate 8 0, acount := 0,
      achain := List.replicate 8 0 }

/-- Bytes 0x00 to 0x77 of a snapshot (R237). -/
def snapBody (flags : Byte) (sweep ltsec seq : Word32) (totals : List Nat) (acount : Nat) : List Byte :=
  bytesLE 2 2 ++ [flags, 0] ++ bytesLE 4 sweep.toNat ++ bytesLE 4 ltsec.toNat ++ bytesLE 4 seq.toNat ++
  (totals.map (fun t => bytesLE 8 (t / 2 ^ 32))).flatten ++ bytesLE 2 acount ++ List.replicate 6 0

/-- A snapshot of 128 bytes with its tag (R237). -/
def snapBytes (key : List Byte) (serial : Word64) (body : List Byte) : List Byte :=
  body ++ tag8 key (bytesLE 8 serial.toNat ++ [0x53#8] ++ body)

end Sys2Proof.Machine
end

