-- ==== Sys2Proof/Machine/WMem.lean ====
section
/-! DEFINITION. Sys2Proof/Machine/WMem.lean: word memory behind the windows (FRAM-held words, R217, R251, R431): a list of
(key, word) pairs in one canonical form, keys strictly rising and no entry equal to what an unlisted key reads as. -/

namespace Sys2Proof.Machine

/-- Word memory: listed words by key. -/
abbrev WMem := List (Nat × Word)

/-- The word at a key: the listed one, else what the default gives. -/
def WMem.get (dflt : Nat → Word) : WMem → Nat → Word
  | [], k => dflt k
  | (a, v) :: m, k => if a = k then v else WMem.get dflt m k

/-- The list without a key. -/
def WMem.erase : WMem → Nat → WMem
  | [], _ => []
  | (a, v) :: m, k => if a = k then m else (a, v) :: WMem.erase m k

/-- The list with a key and its word put in their place. -/
def WMem.insert : WMem → Nat → Word → WMem
  | [], k, w => [(k, w)]
  | (a, v) :: m, k, w =>
    if k < a then (k, w) :: (a, v) :: m else if k = a then (k, w) :: m else (a, v) :: WMem.insert m k w

/-- A write: a word equal to the default leaves no entry, so that equal memories are equal lists. -/
def WMem.set (dflt : Nat → Word) (m : WMem) (k : Nat) (w : Word) : WMem :=
  if w = dflt k then WMem.erase m k else WMem.insert m k w

/-- Several writes in order. -/
def WMem.setAll (dflt : Nat → Word) (m : WMem) (ws : List (Nat × Word)) : WMem :=
  ws.foldl (fun acc p => WMem.set dflt acc p.1 p.2) m

/-- Every key of the list is above a bound. -/
def WMem.above (b : Nat) : WMem → Bool
  | [] => true
  | (a, _) :: m => decide (b < a) && WMem.above b m

/-- The canonical form: keys strictly rising, no entry equal to the default. -/
def WMem.wf (dflt : Nat → Word) : WMem → Bool
  | [] => true
  | (a, v) :: m => WMem.above a m && decide (v ≠ dflt a) && WMem.wf dflt m

end Sys2Proof.Machine
end

