-- ==== Sys2Proof/Machine/State.lean ====
section
/-! DEFINITION. Sys2Proof/Machine/State.lean: everything the spec gives the EWT-4420 to hold, as plain data, and the machine right
after reset. What keeps its value where differs by part: Fram is held in FRAM, Aon in the always-on domain, and every other part is
held by CORE and takes its reset value at each entry to WAKE (00_scope.md, Reset column; R55; log entries 2 and 3). -/

namespace Sys2Proof.Machine

/-- The eight sequencer states of R47, in the order of their codes. -/
inductive Seq where
  | off
  | backup
  | wake
  | rails
  | calib
  | run
  | drain
  | hold
deriving DecidableEq, Repr

/-- Who writes: each keeps its own unlock arm and held SY_TIME_L word (R436). -/
inductive Writer where
  | host
  | cantus
  | descant
deriving DecidableEq, Repr

/-- The unlock of R244: idle, after 0x005A, armed. -/
inductive Arm where
  | idle
  | first
  | armed
deriving DecidableEq, Repr

/-- One entry of the event or the audit log (R230). -/
structure LogEntry where
  /-- RTC seconds at the event; all ones when not valid (R230). -/
  time : Word32
  /-- entry sequence (R230). -/
  seq : Word32
  /-- event code (R230). -/
  code : Word
  /-- six bytes of data, least significant first (R230). -/
  data : Word48
deriving DecidableEq, Repr

/-- An audited change that waits for its audit row (R234). -/
inductive Change where
  /-- one word of an rws register field or a sealed table, by its key. -/
  | word (key : Nat) (v : Word)
  /-- a value of two words, low word first: a binary32, DMIN. -/
  | pair (key : Nat) (lo hi : Word)
  /-- an event-table entry (R125). -/
  | entry (n : Nat) (w : List Word)
  /-- a policy rule (R415). -/
  | rule (n : Nat) (w : List Word)
  /-- LP_CTL.TRAW with the whole word as committed (R489). -/
  | traw (on : Bool) (w : Word)
  /-- M4 or M20 by the key of its low word (R294). -/
  | trim (key : Nat) (lo hi : Word)
  /-- AN_CTL.PERIOD (R261). -/
  | period (old new : BitVec 6)
  /-- PL_CTL.EN (R415). -/
  | policyEn (on : Bool)
  /-- the seal (R239). -/
  | seal (isOpen : Bool)
  /-- the held count of seal changes (R56). -/
  | sealCount (n : Nat)
  /-- a key load: slot 1 or 0 (R245). -/
  | key (slot1 : Bool) (bytes : List Byte)
  /-- initialisation with the SEQ before (R249). -/
  | ledgerInit (seq : Word32)
  /-- RTC written or stepped: the low word, none when the writer held none, and the high word; the step is taken at the commit
  (R102, R104). -/
  | rtc (low : Option Word) (hi : Word)
  /-- pairing completed with a partner; INTENT 1 received or sent (R254). -/
  | paired (serial : Word64) (restoreRx : Bool)
  /-- pairing dissolved: cause 0 key load, 1 UNPAIR (R256). -/
  | dissolve (cause : Byte)
  /-- divergence reference taken: cause, local and partner value (R272). -/
  | dref (cause : Byte) (l p : Word64)
  /-- restored from the partner: CSEQ, predecessor's serial, totals (R278). -/
  | restored (cseq : Word32) (pred : Word64) (totals : List Nat) (aseq : Word32)
  /-- restore served: CSEQ (R277). -/
  | served (cseq : Word32)
  /-- default rules restored (R415). -/
  | defaults
  /-- a word, or a pair with its high word, that PHOLD held; last: the last of the batch (08, Edges). -/
  | heldWord (key : Nat) (lo : Word) (hi : Option Word) (last : Bool)
  /-- adaptation applied: CYCLE (true) or VTH, old and new value (R214). -/
  | adapt (cycle : Bool) (old new : Word)
  /-- a learned tooth map (R128). -/
  | learned (map : List Word)
  /-- a debug freeze by TS_CTL with the whole word as committed (R442, R489). -/
  | freeze (w : Word)
deriving DecidableEq, Repr

/-- A FRAM row waiting in the two-row write buffer (R433). -/
structure RowWrite where
  /-- the row: key / 16. -/
  row : Nat
  /-- the words it changes, by key, in the order written. -/
  words : List (Nat × Word)
deriving DecidableEq, Repr

/-- The thermal record of R53. -/
structure ThermRec where
  /-- state from which HOLD was entered (R53). -/
  last : Seq
  /-- a row in flight delayed the shutdown (R441). -/
  delayed : Bool
  /-- event entries still in the buffer (R232). -/
  lostEvents : Nat
deriving DecidableEq, Repr

/-- What FRAM holds (09_ledger_audit_and_seal.md, FRAM organisation). -/
structure Fram where
  /-- words behind the windows and NV register fields (R217). -/
  nv : WMem := []
  /-- bank A, 256 bytes (R221, R248). -/
  bankA : List Byte := shippedBank false
  /-- bank B, 256 bytes (R221, R248). -/
  bankB : List Byte := shippedBank true
  /-- partner mirror slot 0, 256 bytes (R267). -/
  mirror0 : List Byte := List.replicate 256 0
  /-- partner mirror slot 1, 256 bytes (R267). -/
  mirror1 : List Byte := List.replicate 256 0
  /-- sweep snapshots by slot, 128 bytes each, newest first (R237). -/
  snaps : List (Nat × List Byte) := []
  /-- number of snapshots written (R237). -/
  snapCount : Nat := 0
  /-- event ring, newest first, at most 1,024 (R231). -/
  events : List LogEntry := []
  /-- event entry sequence last assigned (R230, R231). -/
  eventSeq : Word32 := 0
  /-- the ring has wrapped (09, EV_STAT.EWRAP). -/
  eventWrap : Bool := false
  /-- audit log by slot, rising (R233). -/
  audit : List (Nat × LogEntry) := []
  /-- ledger key, slot 0 (R245, R248). -/
  key0 : Option (List Byte) := some Config.factoryKey
  /-- pair key, slot 1; empty at shipment (R245, R248). -/
  key1 : Option (List Byte) := none
  /-- serial number (R251, R367). -/
  serial : Word64 := Config.serial
  /-- PW_STATE.LAST (02, Registers). -/
  last : BitVec 3 := 0
  /-- PW_STATE.CAUSE (02, Registers). -/
  cause : BitVec 3 := 0
  /-- thermal record row (R53). -/
  therm : Option ThermRec := none
  /-- ASEQ last sent (R265). -/
  aseq : Word32 := 0
  /-- ASEQ last mirrored (10, RXASEQ; R254). -/
  rxaseq : Word32 := 0
  /-- mirror count MSEQ (R267). -/
  mseq : Word32 := 0
  /-- CSEQ last mirrored, against which R268 compares (R254). -/
  rxcseq : Word32 := 0
  /-- TOTALS integers last mirrored, against which R268 compares (R254). -/
  rxtotals : List Nat := List.replicate 12 0
  /-- AN_STAT.STATE (10, Registers). -/
  anState : BitVec 3 := 0
  /-- AN_STAT.STALE (R274). -/
  stale : Bool := false
  /-- PSERIAL (R252). -/
  pserial : Word64 := 0
  /-- DREFL (R272). -/
  drefl : Word64 := 0
  /-- DREFP (R272). -/
  drefp : Word64 := 0
  /-- the reference has been taken (R272). -/
  drefSet : Bool := false
  /-- forward integers at the previous CALL or ANSWER sent (R263: INCR). -/
  anBase : List Nat := [0, 0, 0, 0]
  /-- cause of a reference setting whose partner value has not been taken (R272). -/
  drefPend : Option Byte := none
  /-- node address while JOINED (R384). -/
  addr : BitVec 12 := 0
  /-- line index (R384). -/
  lidx : BitVec 6 := 0
  /-- bridge hops from the head (R384). -/
  hops : BitVec 5 := 0
  /-- UPADDR, the upstream node (R384). -/
  upaddr : BitVec 12 := 0
  /-- upstream port (R19, R20, R384). -/
  upPort : Port := .A
  /-- DS_STAT.JOINED (R384). -/
  joined : Bool := false
  /-- generations of the bit-load tables: port B, slot, RXB (true) or TXB, generation (R349). -/
  gens : List (Bool × Nat × Bool × Nat) := []
  /-- LATCHED rules (R406). -/
  latched : Word32 := 0
  /-- LASTSW: last sweep latched or issued (14, Registers). -/
  lastSweep : Word32 := 0
deriving DecidableEq, Repr

/-- What the AON domain holds: every sequencer state but OFF (R55, R83). -/
structure Aon where
  /-- RTC seconds (R102). -/
  rtc : Word32 := 0
  /-- AON cycles within the second (R102). -/
  sub : BitVec 15 := 0
  /-- the RTC holds a valid time, SY_STAT.TV (R55, R102). -/
  tv : Bool := false
  /-- soft-off latch (R48). -/
  softLatch : Bool := false
  /-- thermal latch (R47). -/
  thermLatch : Bool := false
  /-- count of seal changes held for the next RUN entry (R56). -/
  sealCount : Nat := 0
  /-- SC_CTL.SEAL (R238, R240). -/
  sealOpen : Bool := false
  /-- the filtered SEAL level (R238). -/
  sealLevel : Bool := false
  /-- regulator over-voltage latch STATUS.OVL (R78). -/
  ovl : Bool := false
  /-- CK_STAT.XTALF: AON runs on the LFO (R87). -/
  xtalf : Bool := false
  /-- CK_STAT.XTALFS (R87). -/
  xtalfs : Bool := false
  /-- crystal failed while CORE was stopped, in a freeze too; reported at the next WAKE (R87). -/
  xtalPend : Bool := false
  /-- OFF was reached before the coming WAKE (R55). -/
  fromOff : Bool := true
  /-- thermal record of a shutdown in a state where CORE is stopped (R53). -/
  therm : Option ThermRec := none
  /-- the crystal failed during that state (R106 data). -/
  xtalState : Seq := .off
deriving DecidableEq, Repr

/-- Supplies and pins outside the domains' resets. -/
structure Pins where
  /-- the sampled role, SY_CTL.ROLE (R3). -/
  role : Role := .T
  /-- RSTN has been low for 1 µs (R48, R458). -/
  rstnLow : Bool := false
  /-- the primary supply is good (R48). -/
  supply : Bool := false
  /-- VIO is supplied from outside (R453). -/
  vioExternal : Bool := false
  /-- filtered VSEL1, VSEL0 (R64). -/
  vsel : BitVec 2 := 0
  /-- VRES in 10 mV (R33). -/
  vres : Nat := 0
  /-- VAUX in 10 mV (R81). -/
  vaux : Nat := 0
  /-- VBAK in 10 mV (R38, R47). -/
  vbak : Nat := 0
  /-- the filtered levels of FLT2, FLT1, FLT0 as the pins show them; FPOL says which level is active (R159). -/
  flt : BitVec 3 := 7
  /-- die temperature in 0.1 °C (R440). -/
  die : Int := 250
  /-- TEST has held a freeze (R442). -/
  test : Bool := false
deriving DecidableEq, Repr

/-- Sequencer and governor (02_energy_and_power_governor.md). -/
structure Pw where
  /-- the sequencer state (R47). -/
  st : Seq := .off
  /-- an OFF request waits for the step in progress (R50). -/
  offPend : Bool := false
  /-- the CAUSE that request takes (02, PW_STATE.CAUSE). -/
  offCause : BitVec 3 := 0
  /-- the step in progress of WAKE, RAILS or CALIB; false while RAILS waits for VRES (R47, R48). -/
  stepBusy : Bool := false
  /-- event 0x0103 was logged in this wait (R60). -/
  railsLogged : Bool := false
  /-- DRAIN was entered from RUN (R52). -/
  drainRun : Bool := false
  /-- PW_STATE.CALF (R47). -/
  calf : Bool := false
  /-- PW_STATE.RTCLOST (R55). -/
  rtclost : Bool := false
  /-- PW_GOV.LEVEL (R40). -/
  level : BitVec 3 := 0
  /-- PW_GOV.LMAX (R41). -/
  lmax : BitVec 3 := 5
  /-- PW_GOV.CHGMIN (R40). -/
  chgmin : BitVec 4 := 4
  /-- ticks in a row that call for a higher level (R40). -/
  upCount : Nat := 0
  /-- ticks in a row at which a shed service would fit (R43). -/
  fitCount : Nat := 0
  /-- line roles: ticks with the estimate below PLIM less 10 % (R42). -/
  lineCount : Nat := 0
  /-- line roles: shedding steps taken for PLIM, 0 to 6 (R42). -/
  lineShed : Nat := 0
  /-- the Orrery-source coil pairs are shed, step 3 (R43). -/
  shedCoil : Bool := false
  /-- step 1 in force: bulk Descant transmit (R43). -/
  shedBulk : Bool := false
  /-- step 2 in force: level below LMAX by the budget (R43). -/
  shedLevel : Bool := false
  /-- step 4 in force: protected Descant transmit (R43). -/
  shedProt : Bool := false
  /-- step 5: receive shed on the second port (R43). -/
  shedRx2 : Bool := false
  /-- step 5: receive shed on the first port (R43). -/
  shedRx1 : Bool := false
  /-- step 6: tone modem shed (R43). -/
  shedTone : Bool := false
  /-- PW_CFG.BAKI (R38). -/
  baki : BitVec 2 := 1
  /-- PW_CFG.TSEL (02, Registers). -/
  tsel : BitVec 2 := 0
  /-- PW_CFG.PLIM (R42). -/
  plim : BitVec 4 := 8
  /-- PW_CFG.TXDUTY (R37). -/
  txduty : BitVec 4 := 6
  /-- budget of R29 in µA. -/
  budget : Int := 0
  /-- level cost and services in µA: what the surplus leaves out (R33, R40). -/
  surplus : Int := 0
  /-- input-power estimate in mW (R81). -/
  pin : Nat := 0
  /-- skipped coil pairs since TSEL was last written 3 (02, PW_TEL). -/
  skips : Word := 0
  /-- VBAK is being charged (R38). -/
  charging : Bool := false
  /-- bulk symbols sent in this RTC second, with the excess carried (R37). -/
  txSymbols : Nat := 0
  /-- governor ticks since reset: the millisecond count behind timed rules (R39). -/
  ticks : Nat := 0
deriving DecidableEq, Repr

/-- Auxiliary regulator (03_auxiliary_regulator.md). -/
structure Reg where
  /-- PW_VSET.CODE (R62). -/
  code : BitVec 12 := 0x4B0
  /-- PW_VSET.SRC (R63). -/
  src : BitVec 2 := 0
  /-- STATUS.STATE: 0 stopped, 1 ramp, 2 regulating, 3 retry wait (03, Registers). -/
  state : BitVec 2 := 0
  /-- STATUS.SCL (R67). -/
  scl : Bool := false
  /-- STATUS.ATT: attempts counted (R67, R68). -/
  att : BitVec 3 := 0
  /-- STATUS.SYNCLK (R72). -/
  synclk : Bool := false
  /-- TARGET: the internal target in 0.1 mV (R65). -/
  target : Nat := 0
  /-- the target the loop interface asks for, in 10 mV; 0 until it has supplied one (R82, R304). -/
  loopTarget : Nat := 0
  /-- the target at which the ramp in progress aims, in 10 mV (R66, R77). -/
  aim : Nat := 0
  /-- the voltage on VAUX_FB from which that ramp began, in 0.1 mV (R66). -/
  rampFrom : Nat := 0
  /-- microseconds of that ramp that have passed (R66). -/
  rampUs : Nat := 0
  /-- FSW in force, in kHz (R71). -/
  fsw : Nat := 500
  /-- PHASE in force, in 5° steps (R72). -/
  phase : Nat := 0
  /-- the SYNC frequency locked to, in Hz (R72). -/
  syncHz : Nat := 0
  /-- low-byte code values already logged as clamped (R62). -/
  clamped : List (Nat × Word) := []
  /-- the RAILS step of the regulator has ended (R69). -/
  stepEnded : Bool := false
  /-- a loss of SYNC was logged since the last lock (R73). -/
  syncLost : Bool := false
deriving DecidableEq, Repr

/-- Clocks and line time (04_clock_domains_and_timebases.md). -/
structure Ck where
  /-- CK_CTL[5:0] (04, Registers). -/
  ctl : BitVec 6 := 0x10
  /-- CK_STAT.SWLK (R88). -/
  swlk : Bool := false
  /-- a lock timeout or a loss was logged since the last lock (R88, R89). -/
  swMissed : Bool := false
  /-- the measurement PLL missed its lock (R85). -/
  measFail : Bool := false
  /-- CK_STAT.MPLK (R92). -/
  mplk : Bool := false
  /-- CK_STAT.MFREE (R93). -/
  mfree : Bool := false
  /-- MAINS frequency in 0.1 mHz, behind CK_STAT.MFREQ (04, Registers). -/
  mainsF : Nat := 0
  /-- frequency of the returned reference in 0.1 mHz (R94). -/
  mainsRef : Nat := 0
  /-- the MAINS PLL pulls in to a returned reference (R94). -/
  pullIn : Bool := false
  /-- CK_STAT.LINELK (R339). -/
  linelk : Bool := false
  /-- a tap calibration waits for the bridge's next carrier valley (R88). -/
  tapPend : Bool := false
  /-- a tap calibration waits for the boost's next cycle (R88). -/
  tapBoost : Bool := false
  /-- a tap calibration waits for the regulator's next period (R88). -/
  tapReg : Bool := false
  /-- tap calibrations the bridge has taken up (R88). -/
  tapCount : Nat := 0
  /-- a lock once reached is lost (R89). -/
  lost : Bool := false
  /-- the bridge's outputs idle until the first carrier valley after a lock (R89). -/
  onHfo : Bool := true
  /-- the boost times its cycles from the HFO (R90). -/
  hfoBoost : Bool := true
  /-- the regulator times its periods from the HFO (R90). -/
  hfoReg : Bool := true
  /-- the MAINS domain runs (R83; 04, Edges: MAINSEN cleared). -/
  mainsRun : Bool := false
  /-- line-time seconds (R103). -/
  lsec : Word32 := 0
  /-- LINE cycles within the second (R103). -/
  lcyc : Nat := 0
  /-- line time valid, DS_STAT.LTV (R103, R381). -/
  ltv : Bool := false
  /-- θ to add at the next line-time second boundary, in cycles (R381). -/
  lpend : Int := 0
  /-- STEER: LINE steering in 0.01 ppm (R91). -/
  steer : Int := 0
  /-- the steering the pilots call for, in 0.01 ppm; STEER moves to it in steps of 0.1 ppm (R91). -/
  steerGoal : Int := 0
  /-- the part of a LINE cycle that the steering has gathered, in 10^−8 cycles (R91). -/
  lfrac : Int := 0
  /-- AON cycles the discipline has still to drop (negative: add) (R104). -/
  disc : Int := 0
  /-- AON cycles since the last dropped or added one (R104). -/
  discPhase : Nat := 0
  /-- position in the group of 125 ticks (R39). -/
  tickPos : Nat := 0
deriving DecidableEq, Repr

/-- One interval of the Orrery's window (05, Tooth validation). -/
structure Interval where
  /-- elapsed SWITCH cycles. -/
  dt : Nat
  /-- angular pitch covered, in 1/(65,536 · N) revolution, N teeth per revolution. -/
  pitch : Nat
deriving DecidableEq, Repr

/-- A tooth that waits for its confirmation (R114, R115). -/
structure Pending where
  /-- inserted and not seen (R115). -/
  synthetic : Bool
  /-- its time in SWITCH cycles. -/
  t : Nat
  /-- its interval. -/
  d : Nat
  /-- the prediction it was tested against, as numerator and denominator; none: unpredicted. -/
  pred : Option (Nat × Nat)
  /-- reverse direction. -/
  rev : Bool
  /-- angle before it, the 48-bit REV:FRAC. -/
  before : Word48
  /-- tooth index before it. -/
  idxBefore : Nat
  /-- provisional MASS, VOL, BVOL, ENERGY (R208). -/
  inc : List F32
  /-- the converter's SEQ when its acceptance was validated (R176). -/
  seen : Word
  /-- an event fired on it (R117). -/
  fired : Bool
  /-- a reversal tooth (R116). -/
  reversal : Bool
  /-- it was the index tooth (R130). -/
  index : Bool
  /-- and the first since SYNC was clear. -/
  first : Bool
  /-- the position that was reached before it (R116, R118). -/
  reached : Word48
deriving DecidableEq, Repr

/-- Orrery (05_orrery_angle_scheduler.md). -/
structure Orr where
  /-- OR_CTL.LEARN (R128). -/
  learn : Bool := false
  /-- OR_STAT.DIR: last confirmed tooth reverse (05, Registers). -/
  dir : Bool := false
  /-- a tooth has been confirmed since RUN entry (R116). -/
  hasDir : Bool := false
  /-- OR_STAT.STILL (R132). -/
  still : Bool := true
  /-- CK_STAT.ANGRUN (R132). -/
  angrun : Bool := false
  /-- a write of OR_STAT held while ANGLE is stopped (R98). -/
  heldStat : Option Word := none
  /-- OR_STAT.SPEST (R133). -/
  spest : Bool := false
  /-- OR_STAT.SYNC (R130). -/
  sync : Bool := false
  /-- OR_STAT.MAPV (R127). -/
  mapv : Bool := false
  /-- OR_STAT.LRN: learning in progress (05, Registers). -/
  lrn : Bool := false
  /-- OR_STAT.SFLT (R115). -/
  sflt : Bool := false
  /-- OR_STAT.RETF (R117). -/
  retf : Bool := false
  /-- OR_STAT.LATE (R122). -/
  late : Bool := false
  /-- OR_STAT.SYNT (05, Registers). -/
  synt : Bool := false
  /-- OR_STAT.SLIP (R130). -/
  slip : Bool := false
  /-- OR_STAT.EVI (R124). -/
  evi : Bool := false
  /-- OR_STAT.SPSAT (R131). -/
  spsat : Bool := false
  /-- OR_SPEED (R131). -/
  speed : Word := 0
  /-- OR_PTR.ADDR (05, Registers). -/
  ptr : BitVec 10 := 0
  /-- OR_PTR.AINC (05, Registers). -/
  ainc : Bool := false
  /-- the 48-bit angle REV:FRAC of the last accepted tooth (R112). -/
  angle : Word48 := 0
  /-- the farthest position already reached in the direction of motion, reported until the angle passes it (R118). -/
  held : Word48 := 0
  /-- the latest time known, in SWITCH cycles: that of the last edge, insertion or crossing, with the ticks since (R95, R125). -/
  now : Nat := 0
  /-- TCNT, confirmed teeth (R112). -/
  tcnt : Word48 := 0
  /-- tooth index within the revolution (R130). -/
  tidx : Nat := 0
  /-- the index edge marks the next forward tooth as tooth 0 (R130). -/
  idxNext : Bool := false
  /-- that tooth is the first to be marked since SYNC was clear (R130). -/
  idxFirst : Bool := false
  /-- time of the last accepted tooth in SWITCH cycles (R113). -/
  tLast : Nat := 0
  /-- a tooth has been accepted since standstill (R113, R132). -/
  hasLast : Bool := false
  /-- the last accepted intervals, newest first (05, Tooth validation). -/
  window : List Interval := []
  /-- pending teeth, newest first (R114, R115). -/
  pend : List Pending := []
  /-- synthetic teeth in a row (R113). -/
  synrun : Nat := 0
  /-- SFLT was set by the present synthetic run (R119). -/
  sfltRun : Bool := false
  /-- LASTINT, saturating (05, Registers). -/
  lastint : Word32 := 0
  /-- a confirmed interval exists (R132). -/
  hasInt : Bool := false
  /-- SYNCNT (R138). -/
  synCnt : Word := 0
  /-- RETCNT (R138). -/
  retCnt : Word := 0
  /-- LATECNT (R138). -/
  lateCnt : Word := 0
  /-- REJCNT (R138). -/
  rejCnt : Word := 0
  /-- SLIPCNT (R138). -/
  slipCnt : Word := 0
  /-- INTARG (R124). -/
  intarg : Word := 0
  /-- INTENT (R124). -/
  intent : BitVec 6 := 0
  /-- this second's retractions, late-fires, synthetic teeth (R139: 0x0302). -/
  secRet : Nat := 0
  /-- late-fires of this second (R139). -/
  secLate : Nat := 0
  /-- synthetic teeth of this second (R139). -/
  secSyn : Nat := 0
  /-- entries whose reserved action has been logged (R124). -/
  resLogged : List Nat := []
  /-- entries that have fired, with the revolution (R118, R121). -/
  fired : List (Nat × Word32) := []
  /-- the cycle in force, OR_CTL.CYCLE until a policy change reaches its boundary (R123). -/
  cycle : BitVec 3 := 0
  /-- a map word was written since the last check (R127). -/
  mapDirty : Bool := true
  /-- learning: intervals of the present revolution, newest first (R128). -/
  lrnRev : List Nat := []
  /-- learning: complete revolutions, newest first, each oldest first (R128). -/
  lrnAll : List (List Nat) := []
  /-- learning waits for the next index tooth (R128). -/
  lrnArm : Bool := false
  /-- the snapshot of words 0x310 to 0x31F (R138). -/
  snap : Option (List Word) := none
deriving DecidableEq, Repr

/-- Excitation bridge and reservoir boost (06_excitation_bridge.md). -/
structure Xb where
  /-- XB_CTL.HOLD (R142). -/
  hold : Bool := false
  /-- PER in force (R142). -/
  per : Word := 0
  /-- DUTY in force (R142). -/
  duty : Word := 0
  /-- DT in force (R142). -/
  dt : Word := 0
  /-- POL: the mask in force, written by the commutations whether or not their pair is granted (R150; 06, Worked example). -/
  mask : BitVec 2 := 0
  /-- the polarity the bridge drives, 0 while it idles (R150, R151). -/
  pol : BitVec 2 := 0
  /-- PAIR: pair granted (R151). -/
  pair : Bool := false
  /-- the negative half of the pair has run (R151). -/
  negDone : Bool := false
  /-- a pair has reached its negative half and its end is still to be computed (R195, R196). -/
  pairOpen : Bool := false
  /-- CREG (R149). -/
  creg : Bool := false
  /-- periods in a row inside the ±2 % band (R149). -/
  inBand : Nat := 0
  /-- periods in a row outside it (R149). -/
  outBand : Nat := 0
  /-- OPEN (R149). -/
  openCoil : Bool := false
  /-- periods in a row below ISET / 8 at the ceiling (R149). -/
  openRun : Nat := 0
  /-- d(k), the on-window in force in 1/16 taps (R148). -/
  d : Int := 0
  /-- d(k+1) as computed at the peak, in the duty shadow until a valley takes it (R148). -/
  dNext : Int := 0
  /-- d with which the last positive half ended, 1/16 taps (R148). -/
  dPos : Int := 0
  /-- d with which the last negative half ended, 1/16 taps (R148). -/
  dNeg : Int := 0
  /-- e(k−1) in codes (R148). -/
  ePrev : Int := 0
  /-- ICS (R147). -/
  ics : BitVec 10 := 0
  /-- consecutive 100 % periods of the half (R145). -/
  full : Nat := 0
  /-- a refresh pulse stands at the present valley (R145). -/
  refNow : Bool := false
  /-- REFCNT (R145). -/
  refCnt : Word := 0
  /-- FL[2:0] (R159). -/
  fl : BitVec 3 := 0
  /-- LVL: filtered inputs active (06, Registers). -/
  lvl : BitVec 3 := 0
  /-- millisecond of the last automatic restart of each input's group (R160). -/
  autoAt : List (Nat × Nat) := []
  /-- flags kept until the host clears them (R160). -/
  kept : BitVec 3 := 0
  /-- a fault edge seen during a freeze, reported at its end (R162). -/
  frozenTrip : BitVec 3 := 0
  /-- BSTATE: 0 stopped, 1 check window, 2 running, 3 retry wait (06, Registers). -/
  bstate : BitVec 2 := 0
  /-- BATT (R156). -/
  batt : BitVec 3 := 0
  /-- BSCL (R156). -/
  bscl : Bool := false
  /-- BRUN: boost switching (06, Registers). -/
  brun : Bool := false
  /-- BFULL (R33). -/
  bfull : Bool := false
  /-- VRES at which the boost stopped, in 10 mV (R33). -/
  fullAt : Nat := 0
  /-- VRES has reached the stop voltage since this start (06, Edges: inside the check window). -/
  fullSeen : Bool := false
  /-- the boost cycle: 0 none, 1 in progress, 2 completed and judged, its grant awaited (R153). -/
  cyc : BitVec 2 := 0
  /-- limited cycles in a row (R156). -/
  limRun : Nat := 0
  /-- the last 8 cycles, newest first: limited (R156). -/
  last8 : List Bool := []
  /-- LIMCNT (R155). -/
  limCnt : Word := 0
  /-- sums and counts of ICS over the pair's on-periods (R195). -/
  icsSum : Nat := 0
  /-- number of those samples (R195). -/
  icsN : Nat := 0
deriving DecidableEq, Repr

/-- A converter result that the flow engine still holds (R176, R195). -/
structure Result where
  /-- SEQ (R174). -/
  seq : Word
  /-- channel (R168). -/
  ch : BitVec 4
  /-- 24-bit code (R171). -/
  code : BitVec 24
  /-- clipped (R173). -/
  ovr : Bool
  /-- conversion start after the commutation, µs (R195). -/
  sinceCommute : Nat
  /-- the bridge half it belongs to: mask at its start, 0 idle or not to be counted (R195). -/
  half : BitVec 2
  /-- the input it stands for in V, code × V_ref / (G × 2^23) (R171, R197). -/
  v : F32
deriving DecidableEq, Repr

/-- Converter, DACs and NCO (07_conversion.md). -/
structure Ad where
  /-- AD_CTL.DRIE (R178). -/
  drie : Bool := false
  /-- AD_CTL.OVIE (R173). -/
  ovie : Bool := false
  /-- CH as it stands for the next start (R166). -/
  ch : BitVec 4 := 0
  /-- RUNS (R165). -/
  runs : Bool := false
  /-- channel of the conversion in progress (R166). -/
  curCh : BitVec 4 := 0
  /-- rate of the conversion in progress (R166). -/
  curRate : BitVec 4 := 0
  /-- CHCFG of the conversion in progress (R166). -/
  curCfg : Word := 0
  /-- mask at the conversion's start (R195). -/
  curHalf : BitVec 2 := 0
  /-- tag of the conversion in progress (R175). -/
  tag : Option Word := none
  /-- the 24-bit result on show (07, AD_DATL, AD_DATH). -/
  data : BitVec 24 := 0
  /-- channel of the result on show. -/
  dataCh : BitVec 4 := 0
  /-- UNREL (R176). -/
  unrel : Bool := false
  /-- TAGGED (R175). -/
  tagged : Bool := false
  /-- OVR (R171). -/
  ovr : Bool := false
  /-- NEW (R177). -/
  isNew : Bool := false
  /-- MARK of the result on show (R175). -/
  mark : Word := 0
  /-- SEQ counted (R174). -/
  seq : Word := 0
  /-- snapshot of AD_DATH, for the next high read (R99). -/
  dathSnap : Option Word := none
  /-- snapshot SEQ (R177). -/
  seqSnap : Word := 0
  /-- snapshot MARK (R177). -/
  markSnap : Word := 0
  /-- OVRCNT (07, Registers). -/
  ovrCnt : Word := 0
  /-- OVRS (R173). -/
  ovrs : Bool := false
  /-- channels overranged in this second (R173). -/
  secMask : Word := 0
  /-- overranges in this second (R173). -/
  secOvr : Nat := 0
  /-- UNRFIRST (R176). -/
  unrFirst : Word := 0
  /-- UNRLAST (R176). -/
  unrLast : Word := 0
  /-- the last 64 results and those of the pair in progress, newest first (R176, R195). -/
  results : List Result := []
  /-- CALIB: sum and count of channel 13 (R180). -/
  cal13 : Int := 0
  /-- CALIB: conversions of channel 13 (R180). -/
  n13 : Nat := 0
  /-- CALIB: sum of channel 14 (R180). -/
  cal14 : Int := 0
  /-- CALIB: conversions of channel 14 (R180). -/
  n14 : Nat := 0
  /-- the newest channel 12 result (R403). -/
  dieCode : Option (BitVec 24) := none
  /-- AD_CTL write held during CALIB (R180). -/
  heldCtl : Option Word := none
  /-- DA_LOOP: code in force (R181). -/
  daLoop : Word := 0
  /-- DA_AUX: code in force (R184). -/
  daAux : Word := 0
  /-- COMPL (R186). -/
  compl : Bool := false
  /-- DOPEN (R187). -/
  dopen : Bool := false
  /-- DA_NCO last written word (07, Registers). -/
  nco : Word := 0
  /-- FW[11:0] held (R190). -/
  ncoLow : BitVec 12 := 0
  /-- FW committed (R190). -/
  fw : BitVec 24 := 0
  /-- FW is 0 and the NCO runs on to the next multiple of 0x800000 (R191). -/
  ncoRamp : Bool := false
  /-- the NCO holds a multiple of 0x800000: its output is 0 (R191). -/
  ncoZero : Bool := true
  /-- the phase accumulator (07, Tone NCO). -/
  phase : BitVec 24 := 0
  /-- the last non-zero frequency word, by which it advances (R191). -/
  ncoFw : BitVec 24 := 0
  /-- fifths of a TONE cycle that the last tick left over (R83; log entry 83). -/
  toneFrac : Nat := 0
deriving DecidableEq, Repr

/-- Flow engine (08_flow_engine.md). -/
structure Fe where
  /-- FE_CTL.PHOLD (08, Registers). -/
  phold : Bool := false
  /-- parameter writes held by PHOLD, in order: key, low word, high word of a pair (08, Edges). -/
  heldWrites : List Change := []
  /-- FE_CTL.ALM (R409). -/
  alm : Bool := false
  /-- WET (R206). -/
  wet : Bool := false
  /-- RANGE (R205). -/
  range : Bool := false
  /-- inputs outside their range now: entries already logged (R205). -/
  rangeIn : List Nat := []
  /-- EMPTY (R197). -/
  empty : Bool := false
  /-- STALE (R203). -/
  stale : Bool := false
  /-- FERR (R193). -/
  ferr : Bool := false
  /-- NREC (R214). -/
  nrec : Bool := false
  /-- TRUNC (R195). -/
  trunc : Bool := false
  /-- FE_PTR.ADDR (08, Registers). -/
  ptr : BitVec 10 := 0
  /-- FE_PTR.AINC (08, Registers). -/
  ainc : Bool := false
  /-- source in force: loop B (R194). -/
  srcLive : Bool := false
  /-- model in force (R194). -/
  modelLive : BitVec 2 := 0
  /-- QVP (R210). -/
  qvp : F32 := 0
  /-- QVC (R210). -/
  qvc : F32 := 0
  /-- QM in g/s (08, Registers). -/
  qm : F32 := 0
  /-- QB in base mL/s (08, Registers). -/
  qb : F32 := 0
  /-- PE in W (08, Registers). -/
  pe : F32 := 0
  /-- P in Pa (R202). -/
  p : F32 := 0
  /-- T in °C (R202). -/
  t : F32 := 0
  /-- RHO in kg/m³ (R204). -/
  rho : F32 := 0
  /-- H in J/kg (R204). -/
  h : F32 := 0
  /-- Z (R204). -/
  z : F32 := 0
  /-- DU, last ΔU (R195). -/
  du : F32 := 0
  /-- RCYC (R212). -/
  rcyc : BitVec 3 := 0
  /-- RVTH (R213). -/
  rvth : BitVec 11 := 0
  /-- evaluation periods in a row that ask for a change (R214). -/
  recRun : Nat := 0
  /-- pending MASS, VOL, BVOL, ENERGY (R208, 08 Registers). -/
  pend : List F32 := [0, 0, 0, 0]
  /-- usable channel 1 results, newest first, back to one that no pending tooth puts in doubt: SEQ, code (R176, R202). -/
  pHeld : List (Word × BitVec 24) := []
  /-- the same of channel 2: SEQ, code, V_ref in nV, gain code (R176, R202). -/
  tHeld : List (Word × BitVec 24 × Int × Nat) := []
  /-- committed volume flow at the previous update (R199). -/
  qLast : F32 := 0
  /-- pressure results are stale (R203). -/
  pStale : Bool := false
  /-- temperature results are stale (R203). -/
  tStale : Bool := false
  /-- loop B results are stale (R201). -/
  bStale : Bool := false
  /-- an update happened since the last second boundary (R207). -/
  updated : Bool := false
  /-- no update yet since standstill (R199). -/
  fresh : Bool := true
  /-- the magnetic Q at which the engine totalises (R196). -/
  q : F32 := 0
  /-- millisecond of the last magnetic or loop B totalisation (R196). -/
  qAt : Nat := 0
  /-- committed VOL increments of this second (R210). -/
  secVol : F32 := 0
  /-- the coil cycle in progress is truncated (R152). -/
  cutPair : Bool := false
  /-- channel 4 results of the last 2 s: ms, SEQ, V (R197). -/
  ch4 : List (Nat × Word × F32) := []
  /-- complete pairs in a row that meet no empty-pipe condition (R197). -/
  emptyClean : Nat := 0
  /-- flow-engine update: position and tooth time (R124). -/
  updPos : Word48 := 0
  /-- time stamp of the tooth at the last update action (R124). -/
  updT : Nat := 0
  /-- snapshot of words 0x380 to 0x3BF (R215). -/
  snap : Option (List Word) := none
  /-- the estimator's last spectrum: noise powers of the candidates N = 2 to 64 (R212). -/
  powers : List Nat := []
  /-- the noise power of the present CYCLE in that spectrum (R214). -/
  present : Nat := 0
  /-- the rms noise of channel 3 in µV; none measured yet (R213). -/
  rms : Option Nat := none
  /-- channel 0 results of bridge-idle intervals in V, newest first: the estimator's block (R212). -/
  idle : List F32 := []
  /-- channel 3 results in V, newest first: the estimator's block (R213). -/
  vor : List F32 := []
  /-- words that PHOLD held and whose rows are written: they take effect with the last of their batch (08, Edges). -/
  ready : List (Nat × Word) := []
deriving DecidableEq, Repr

/-- A commit being written (R224). -/
structure Commit where
  /-- bank B (true) or A. -/
  toB : Bool
  /-- what it records, with its SEQ (R221). -/
  data : BankData
  /-- its 256 bytes with the tag. -/
  bytes : List Byte
  /-- a snapshot follows for these sweeps: number, line-time seconds (R237). -/
  sweeps : List (Word32 × Word32)
deriving DecidableEq, Repr

/-- A commit whose trigger came while another was being written (R224). -/
structure Waiting where
  /-- what it records, taken at the trigger; its SEQ comes when it begins (R223). -/
  data : BankData
  /-- a snapshot follows for these sweeps (R237). -/
  sweeps : List (Word32 × Word32)
deriving DecidableEq, Repr

/-- A completed commit kept for divergence (R273: the last 16). -/
structure Past where
  /-- TIME of the commit (R221). -/
  time : Word32
  /-- integer parts of forward MASS, VOL, BVOL, ENERGY. -/
  fwd : List Nat
deriving DecidableEq, Repr

/-- Ledger and logs in CORE (09_ledger_audit_and_seal.md). -/
structure Lg where
  /-- LG_CTL.AINC (09, Registers). -/
  ainc : Bool := true
  /-- LG_CTL.BANK: last completed bank B (09, Registers). -/
  bank : Bool := false
  /-- LBAD (R228). -/
  lbad : Bool := false
  /-- TORN (R227). -/
  torn : Bool := false
  /-- DISC (R229). -/
  disc : Bool := false
  /-- SNAP (R237). -/
  snap : Bool := false
  /-- CIE (09, Registers). -/
  cie : Bool := false
  /-- LG_PTR (09, Registers). -/
  ptr : Word := 0
  /-- twelve totals, each integer · 2^32 + fraction (R211, R220). -/
  totals : List Nat := List.replicate 12 0
  /-- totals whose saturation has been logged (R211). -/
  satLogged : List Nat := []
  /-- SEQ of the last commit begun (R225). -/
  seq : Word32 := 0
  /-- SEQ of the last completed commit (R251). -/
  seqDone : Word32 := 0
  /-- TIME of the last completed commit (R263). -/
  timeDone : Word32 := 0
  /-- totals of the last completed commit (R263). -/
  totalsDone : List Nat := List.replicate 12 0
  /-- a commit being written (R224). -/
  cur : Option Commit := none
  /-- further commits, oldest first: triggers that arrived meanwhile, the second of a pair (R224, R247, R249, R278). -/
  waiting : List Waiting := []
  /-- ACOUNT (R221). -/
  acount : Nat := 0
  /-- ACHAIN (R235). -/
  achain : List Byte := List.replicate 8 0
  /-- UNAUD (R236). -/
  unaud : Word := 0
  /-- RECOV (R251). -/
  recov : Word := 0
  /-- SWEEP field of the last bank (R221). -/
  sweep : Word32 := 0
  /-- CDIG (R266). -/
  cdig : List Byte := List.replicate 8 0
  /-- CDIG is to be computed: an audited change, a row loaded, or a WAKE since the last (R219, R266). -/
  cdigDirty : Bool := false
  /-- the last 16 completed commits, newest first (R273). -/
  past : List Past := []
  /-- snapshot of the live totals, 72 words (R251). -/
  snapTotals : Option (List Word) := none
  /-- audited changes waiting for their row, oldest first (R234). -/
  queue : List Change := []
deriving DecidableEq, Repr

/-- Event buffer and windows of the logs (R232; 09, EV registers). -/
structure Ev where
  /-- entries not yet written, oldest first, at most 32 (R232). -/
  buf : List LogEntry := []
  /-- ELOST (R232). -/
  elost : Bool := false
  /-- entries dropped since the last 0x0708 (R232). -/
  drops : Nat := 0
  /-- EV_PTR (09, Registers). -/
  ptr : Word := 0
  /-- snapshot of an entry: pointer bits [14:3] and eight words (R428). -/
  snap : Option (Nat × List Word) := none
deriving DecidableEq, Repr

/-- Security: seal flags, unlock, key load (09). -/
structure Sc where
  /-- SC_CTL.SLOT (09, Registers). -/
  slot : BitVec 2 := 0
  /-- LDG: load in progress (R245). -/
  ldg : Bool := false
  /-- slot of the load in progress (R245). -/
  ldSlot : BitVec 2 := 0
  /-- key words received (R245). -/
  words : List Word := []
  /-- slot of a load that DRAIN cut, reported at the next WAKE (09, Edges). -/
  cutLoad : Option (BitVec 2) := none
  /-- SEALCH (R239). -/
  sealch : Bool := false
  /-- host unlock (R244). -/
  armHost : Arm := .idle
  /-- Cantus unlock (R436). -/
  armCantus : Arm := .idle
  /-- Descant unlock (R436). -/
  armDescant : Arm := .idle
deriving DecidableEq, Repr

/-- Antiphon in CORE (10_antiphon_pair.md). -/
structure An where
  /-- AN_CTL.RST (R276). -/
  rst : Bool := false
  /-- DIV (R273). -/
  div : Bool := false
  /-- DSKIP (R273). -/
  dskip : Bool := false
  /-- ROLLB (R281). -/
  rollb : Bool := false
  /-- PRET (R270). -/
  pret : Bool := false
  /-- VIO (R281). -/
  vio : Bool := false
  /-- MISS (R260). -/
  miss : Bool := false
  /-- PNOT (R271). -/
  pnot : Bool := false
  /-- DVAL (R273). -/
  dval : Word := 0
  /-- MISSCNT (R260). -/
  missCnt : Word := 0
  /-- VIOCNT (R281). -/
  vioCnt : Word := 0
  /-- PPEND: partner pending figures (R270). -/
  ppend : List F32 := [0, 0, 0, 0]
  /-- misses since the partner was last heard (R260, R274, R275). -/
  misses : Nat := 0
  /-- consecutive tag failures (R279). -/
  tagFails : Nat := 0
  /-- STATE held before CER (R255). -/
  before : BitVec 3 := 0
  /-- SERIAL recorded from a HELLO (R254). -/
  peer : Word64 := 0
  /-- a HELLO has been recorded (R254). -/
  hasPeer : Bool := false
  /-- a CONFIRM has been sent (R254). -/
  sentConfirm : Bool := false
  /-- a valid CONFIRM that names this EWT has been received: its sender (R254). -/
  gotConfirm : Option Word64 := none
  /-- the partner's INTENT (R277). -/
  peerIntent : Byte := 0
  /-- SEQ of the frame that brought it, named in NACK 0x86 (R277). -/
  peerSeq : Word := 0
  /-- this EWT requested a restore in the running ceremony (R276). -/
  wantRestore : Bool := false
  /-- a RESTORE has been sent and waits for its acknowledgement: its ASEQ and CSEQ (R277). -/
  restoreWait : Option (Word32 × Word32) := none
  /-- the ANSWER that acknowledges a RESTORE waits for the two commits: ASEQ and CSEQ to acknowledge (R278). -/
  restoreAck : Option (Word32 × Word32) := none
  /-- the ASEQ of the last CALL sent (R281: 0x0816). -/
  lastCall : Word32 := 0
  /-- an ANSWER, as answerer a CALL, is awaited since the last instant (R260). -/
  awaiting : Bool := false
  /-- the last ANSWER sent, for one repeat (R281: 0x0813). -/
  lastAnswer : List Byte := []
  /-- that ANSWER has been sent again (R281). -/
  resent : Bool := false
  /-- withdrawn MASS, VOL, BVOL, ENERGY not yet sent (R269). -/
  wd : List F32 := [0, 0, 0, 0]
  /-- retractions not yet sent (R269). -/
  wdCount : Nat := 0
  /-- millisecond of the last RETRACT sent (R269). -/
  retractAt : Option Nat := none
  /-- a NOTICE waits to be sent (R411). -/
  noticeDue : Bool := false
  /-- millisecond of the last NOTICE sent (R411). -/
  noticeAt : Option Nat := none
  /-- PERIOD codes of the last mismatch logged (R281: 0x081A). -/
  perSeen : Option (BitVec 6 × BitVec 6) := none
  /-- partner's PERIOD from its last CALL, from which the answerer times its misses (R261). -/
  callPeriod : BitVec 6 := 0
  /-- millisecond stamps of the last violations, newest first (R281). -/
  vioAt : List Nat := []
deriving DecidableEq, Repr

/-- Loop interface (11_loop_interface.md). -/
structure Lp where
  /-- LP_CTL.TRAW (R286). -/
  traw : Bool := false
  /-- AMODE (11, Registers). -/
  amode : BitVec 3 := 0
  /-- LFLT (R296). -/
  lflt : Bool := false
  /-- LOWV (R299). -/
  lowv : Bool := false
  /-- HDRM (R305). -/
  hdrm : Bool := false
  /-- LBOPEN (R302). -/
  lbopen : Bool := false
  /-- LBSHT (R302). -/
  lbsht : Bool := false
  /-- REMB (R302). -/
  remb : BitVec 2 := 0
  /-- LBCL (R301). -/
  lbcl : Bool := false
  /-- APARK (R291). -/
  apark : Bool := false
  /-- FOLD (R307). -/
  fold : Bool := false
  /-- LBTH (R307). -/
  lbth : Bool := false
  /-- LBOFF (R307). -/
  lboff : Bool := false
  /-- DWARN (R308). -/
  dwarn : Bool := false
  /-- ΔT in 10^−9 K (R306). -/
  dT : Nat := 0
  /-- loop A is driven by the loop interface, not by the fallback (R283, R296, R297). -/
  driving : Bool := false
  /-- the loop fault holds the fallback (R296). -/
  faulted : Bool := false
  /-- the fallback timer has run out (R297). -/
  timerOut : Bool := false
  /-- target current before trim, nA (R283, R287). -/
  target : Nat := 0
  /-- host target in nA, or raw current (R286). -/
  hostTarget : Nat := 3400000
  /-- the host code last written raw (R286). -/
  hostRaw : Option Word := none
  /-- I_f of the damping filter in mA; none: the filter restarts (R284). -/
  filt : Option F32 := none
  /-- the alarm in force: 0 none, 1 low, 2 high, 3 hold (R283, R408). -/
  alarm : BitVec 2 := 0
  /-- the target the hold froze, nA (R290). -/
  holdAt : Nat := 0
  /-- repeated target in nA (R309). -/
  repTarget : Nat := 3550000
  /-- saturation already logged: AMODE 2 or 3 (R284). -/
  satIn : BitVec 3 := 0
  /-- sum of channel 8 currents of the interval, nA (R296). -/
  rbSum : Int := 0
  /-- channel 8 results of the interval (R296). -/
  rbN : Nat := 0
  /-- sum of the target over the ticks of the interval, nA (R296). -/
  rbCmd : Nat := 0
  /-- ticks of the interval (R296). -/
  rbTicks : Nat := 0
  /-- sum of channel 9 currents of the 100 ms, nA (R302). -/
  bSum : Int := 0
  /-- channel 9 results of the 100 ms (R302). -/
  bN : Nat := 0
  /-- channel 9 overranged in the 100 ms (R302). -/
  bOvr : Bool := false
  /-- the last channel 9 result overranged (R304). -/
  bNow : Bool := false
  /-- I_B, mean channel 9 current of the last 100 ms, nA (R304). -/
  ib : Nat := 0
  /-- the last 100 ms had no channel 9 result (R303). -/
  bAbsent : Bool := false
  /-- decodes of 100 ms in a row below 1.000 mA (R302). -/
  openRun : Nat := 0
  /-- ticks in a row with LBCL (R302). -/
  clRun : Nat := 0
  /-- V_req in 10 mV (R304). -/
  vreq : Nat := 0
  /-- largest V_req of the running second, 10 mV (R304). -/
  vreqMax : Nat := 0
  /-- ticks in a row with V_req more than 0.10 V below the target (R304). -/
  fallRun : Nat := 0
  /-- ticks in a row below TFOLD − 10 K with I_B below 24 mA (R307). -/
  coolRun : Nat := 0
  /-- LFCNT (11, Registers). -/
  lfCnt : Word := 0
deriving DecidableEq, Repr

/-- A transmission of the tone modem: its bits (compatible mode) or bit pairs (fast mode), first first, and the TONE cycles of it that
have passed (R314, R316). -/
structure Wave where
  /-- fast mode (R316). -/
  fast : Bool
  /-- bits 0 and 1, or bit pairs 0 to 3. -/
  syms : List Nat
  /-- TONE cycles since its start. -/
  cyc : Nat
deriving DecidableEq, Repr

/-- The taps of the decision-feedback equaliser (R317). -/
structure Taps where
  /-- c[0] to c[7]. -/
  c : List Rat := [0, 0, 0, 1, 0, 0, 0, 0]
  /-- b[1] to b[4]. -/
  b : List Rat := [0, 0, 0, 0]
deriving DecidableEq, Repr

/-- Tone modem (12_loop_tone_modem.md). -/
structure Tn where
  /-- TN_CTL.PT (R331). -/
  pt : Bool := false
  /-- CD (R321). -/
  cd : Bool := false
  /-- TOUT (R329). -/
  tout : Bool := false
  /-- VIO (R332). -/
  vio : Bool := false
  /-- OVF (12, Edges). -/
  ovf : Bool := false
  /-- JAM (R328). -/
  jam : Bool := false
  /-- RSSI (R321). -/
  rssi : Byte := 0
  /-- transmit FIFO (12, TN_FIFO). -/
  txf : List Byte := []
  /-- receive FIFO: data in [7:0], PERR [8], EOF [9] (12, TN_FIFO). -/
  rxf : List Word := []
  /-- LSEL in force (R312). -/
  loopB : Bool := false
  /-- PRESENT (R330). -/
  present : Word := 0
  /-- TXSEQ (R324). -/
  txseq : Word := 0
  /-- RXCNT (12, Registers). -/
  rxCnt : Word := 0
  /-- CRCCNT (R323). -/
  crcCnt : Word := 0
  /-- VIOCNT (R332). -/
  vioCnt : Word := 0
  /-- EQMSE (R318). -/
  eqmse : Word := 0
  /-- TOCNT (R329). -/
  toCnt : Word := 0
  /-- millisecond stamps of the last violations, newest first (R332). -/
  vioAt : List Nat := []
  /-- a reply waits for its turnaround gap: address, command, SEQ, data (R326). -/
  reply : Option CFrame := none
  /-- the last executed request's SEQ and CRC, the reply and its millisecond (R326). -/
  stored : Option (Word × Word × CFrame × Nat) := none
  /-- EN was cleared by the WRITE whose reply waits: the modem stops after it (12, Edges). -/
  stopAfter : Bool := false
  /-- a host command waits for the host's reply: its SEQ and CRC (R327). -/
  hostSeq : Option (Word × Word) := none
  /-- master: the request in progress (R328, R329). -/
  req : Option CFrame := none
  /-- master: attempts made (R329). -/
  attempts : Nat := 0
  /-- master: the request is a watch poll (R330). -/
  reqWatch : Bool := false
  /-- watch poll: addresses still to poll in this round (R330). -/
  watch : List Nat := []
  /-- the frame or character last put on the loop (R322, R331). -/
  sent : List Byte := []
  /-- an episode of LINE_JAM is logged (R332: 0x0A18). -/
  jamEpisode : Bool := false
  /-- the transmission in progress (R314, R316). -/
  tx : Option Wave := none
  /-- taps that ended the last frame received without error on loop A (R317). -/
  tapsA : Taps := {}
  /-- the same on loop B (R317). -/
  tapsB : Taps := {}
  /-- a write of TN_STAT held while TONE is stopped (R98). -/
  heldStat : Option Word := none
deriving DecidableEq, Repr

/-- A Descant frame that waits for the line or a request that waits for its reply. -/
structure QFrame where
  /-- the port it leaves on (R347). -/
  port : Port
  /-- the frame. -/
  frame : DFrame
  /-- protected class of R34; else bulk. -/
  prot : Bool
  /-- one peer's line index for the line tag; none: several peers or unknown (R342, R373). -/
  peer : Option (BitVec 6)
deriving DecidableEq, Repr

/-- A request whose reply is awaited (R375). -/
structure Request where
  /-- the frame sent. -/
  frame : DFrame
  /-- the port. -/
  port : Port
  /-- resends made. -/
  tries : Nat
  /-- the host issued it (R375). -/
  host : Bool
deriving DecidableEq, Repr

/-- A stored reply (R376). -/
structure Stored where
  /-- source address. -/
  src : BitVec 12
  /-- SEQ of its last request. -/
  seq : Word
  /-- payload CRC of it. -/
  crc : Word32
  /-- the reply sent. -/
  reply : DFrame
  /-- millisecond of it. -/
  at_ : Nat
deriving DecidableEq, Repr

/-- A training in progress (R350). -/
structure Training where
  /-- port. -/
  port : Port
  /-- peer's line index. -/
  peer : BitVec 6
  /-- TRAIN frames sent. -/
  sent : Nat
  /-- GEN of the TABLE received, whose TABLE-ACK has not ended (R350). -/
  gen : Option Nat := none
deriving DecidableEq, Repr

/-- A search-channel frame to send (R357). -/
structure SFrame where
  /-- port. -/
  port : Port
  /-- KIND. -/
  kind : Byte
  /-- payload. -/
  payload : List Byte
deriving DecidableEq, Repr

/-- The training symbols that follow a TRAIN (R350). -/
structure Burst where
  /-- port. -/
  port : Port
  /-- peer's line index. -/
  peer : BitVec 6
  /-- NTR of its TRAIN. -/
  symbols : Nat
  /-- µs until the first symbol. -/
  wait : Nat
  /-- µs of the burst left, once it has begun. -/
  left : Nat
deriving DecidableEq, Repr

/-- What a DMT frame or the training symbols took at their start and keep to their end (R342, R349, R354). -/
structure Shape where
  /-- TXIDX of the line tag. -/
  txidx : BitVec 6 := 0
  /-- RXIDX of the line tag. -/
  rxidx : BitVec 6 := 0
  /-- the usable data carriers, ascending. -/
  carriers : List Nat := []
  /-- bits of the P symbols on each of them. -/
  bits : List Nat := []
  /-- the mask of carriers 16 to 79 in dB, 31 a notch. -/
  mask : List Nat := []
  /-- FIR taps 0 to 15. -/
  fir : List Word := []
deriving DecidableEq, Repr

/-- A port's S1 stamp and counts (13, DS window, live words). -/
structure PortLive where
  /-- S1TS: line-time seconds of the last S1 (R337). -/
  s1sec : Word32 := 0
  /-- S1TS: cycles of the last S1 (R337). -/
  s1cyc : BitVec 19 := 0
  /-- FRCNT (13, Registers). -/
  frCnt : Word := 0
  /-- HDRERR (13, Registers). -/
  hdrErr : Word := 0
  /-- RTCNT (13, Registers). -/
  rtCnt : Word := 0
  /-- LOCKLOST (13, Registers). -/
  lockLost : Word := 0
deriving DecidableEq, Repr

/-- Descant line (13_descant_line.md). -/
structure Dl where
  /-- DS_CTL.TXOFF (13, Registers). -/
  txoff : Bool := false
  /-- CSA (R346). -/
  csa : Bool := false
  /-- CSB (R346). -/
  csb : Bool := false
  /-- RTRQ (13, Registers). -/
  rtrq : Bool := false
  /-- HERR (R366). -/
  herr : Bool := false
  /-- trainings of this node's transmit directions (R350). -/
  training : List Training := []
  /-- training received: port, sender's line index, symbols (R350). -/
  rxTrain : Option (Port × BitVec 6 × Nat) := none
  /-- pending RXB: port, slot, generation, bits per data carrier 16 to 79 (R350). -/
  rxPend : List (Port × BitVec 6 × Nat × List Nat) := []
  /-- peers trained against in vain: port, slot (R351). -/
  failed : List (Port × BitVec 6) := []
  /-- millisecond of the last RETRAIN to a peer (R352). -/
  retrainAt : List (Port × BitVec 6 × Nat) := []
  /-- peers answered only with LOAD 0 until their next training (R352). -/
  robust : List (Port × BitVec 6) := []
  /-- LOAD 1 frames in a row whose payload CRC failed: port, peer, number (R352, cause 1). -/
  fails : List (Port × BitVec 6 × Nat) := []
  /-- peers of which a LOAD 1 frame with another GEN was dropped: port, peer (R352, cause 4). -/
  stale : List (Port × BitVec 6) := []
  /-- a port's NOISE bytes when a peer's training was measured (R352, cause 3). -/
  trainNoise : List (Port × BitVec 6 × List Byte) := []
  /-- DMT frames queued, oldest first (R347). -/
  queue : List QFrame := []
  /-- search frames queued, oldest first (R357). -/
  squeue : List SFrame := []
  /-- the DMT frame on the line: µs left, LOAD, GEN (R341, R342). -/
  onLine : Option (QFrame × Nat × Bool × Nat) := none
  /-- the search frame on the line: µs left (R357). -/
  searchOn : Option (SFrame × Nat) := none
  /-- training symbols that are to come or on the line (R350). -/
  burst : Option Burst := none
  /-- carriers, loading, mask and FIR of the transmission last begun (R354). -/
  shape : Shape := {}
  /-- a write of DS_STAT held while LINE is stopped (R98). -/
  heldStat : Option Word := none
  /-- RTRN, EPOCH and LEAVE as written to DS_CTL before RUN (R98, R218; log entry 89). -/
  heldCtl : Word := 0
  /-- SNR bytes of the last training received, port A then B (13, Registers). -/
  snrA : List Byte := []
  /-- SNR bytes, port B. -/
  snrB : List Byte := []
  /-- NOISE bytes, port A (R365). -/
  noiseA : List Byte := []
  /-- NOISE bytes, port B (R365). -/
  noiseB : List Byte := []
  /-- SNRPEER, port A (13, Registers). -/
  peerA : BitVec 6 := 0
  /-- SNRPEER, port B. -/
  peerB : BitVec 6 := 0
  /-- RSSI, port A (R359). -/
  rssiA : Byte := 0
  /-- RSSI, port B (R359). -/
  rssiB : Byte := 0
  /-- port A's S1 stamp and counts. -/
  liveA : PortLive := {}
  /-- port B's S1 stamp and counts. -/
  liveB : PortLive := {}
  /-- frames dropped in this second: header, payload, search (R366). -/
  secHdr : Nat := 0
  /-- payload drops of this second (R366). -/
  secPay : Nat := 0
  /-- search drops of this second (R366). -/
  secSearch : Nat := 0
  /-- line index last heard of each source address, port A (R373). -/
  idxA : List (BitVec 12 × BitVec 6) := []
  /-- line index last heard of each source address, port B (R373). -/
  idxB : List (BitVec 12 × BitVec 6) := []
deriving DecidableEq, Repr

/-- An announcement held for a sweep (R396). -/
structure Announce where
  /-- NUMBER. -/
  number : Word32
  /-- instant: line-time seconds. -/
  sec : Word32
  /-- instant: LINE cycles. -/
  cyc : Nat
deriving DecidableEq, Repr

/-- The search of one segment by its agent (R389). -/
structure Segment where
  /-- the port it runs on. -/
  port : Port
  /-- roll call: line indices still to query, and queries made of the first. -/
  roll : List Nat
  /-- queries made of the entry at the head of the roll. -/
  tries : Nat
  /-- discovery stack: prefix length and prefix. -/
  stack : List (Nat × Word64)
  /-- the query on the channel: mode, length, prefix; none: no window open. -/
  query : Option (Bool × Nat × Word64)
  /-- ANSWERs received in the window. -/
  answers : List (List Byte)
  /-- the serial a JOIN or ASSIGN is under way for, its agent flag. -/
  joining : Option (Word64 × Bool)
  /-- ASSIGN sent: address, line index, times sent. -/
  assign : Option (BitVec 12 × BitVec 6 × Nat)
  /-- departed addresses. -/
  departed : List (BitVec 12)
  /-- nodes joined. -/
  joined : Nat
  /-- cut short at 20 s. -/
  cut : Bool
  /-- search finished: the result stands for a unicast SEARCH (R391). -/
  done : Bool
  /-- EPOCH. -/
  epoch : Word
  /-- SEQ of the SEARCH it answers (R374). -/
  seq : Word
deriving DecidableEq, Repr

/-- The head's collection of one sweep (R398). -/
structure Collect where
  /-- NUMBER. -/
  number : Word32
  /-- addresses still to collect, ascending. -/
  todo : List (BitVec 12)
  /-- the address asked, and its request's SEQ. -/
  asked : Option (BitVec 12)
  /-- counts: collected, uncollected, not announced, overwritten. -/
  counts : List Nat
  /-- a catch-up of a missed sweep: it updates the record's counts and no SWST of the last sweep (R399). -/
  late : Bool
deriving DecidableEq, Repr

/-- Descant network (14_descant_network.md). -/
structure Dn where
  /-- DEFER (R391). -/
  defer : Bool := false
  /-- EPR: epoch in progress (14, Registers). -/
  epr : Bool := false
  /-- DIRTY (R392). -/
  dirty : Bool := false
  /-- VIO (R400). -/
  vio : Bool := false
  /-- SWL (R397). -/
  swl : Bool := false
  /-- transmit FIFO of DS_FIFO (14, DS_FIFO). -/
  txf : List Byte := []
  /-- receive FIFO: data [7:0], EOF [9] (14, DS_FIFO). -/
  rxf : List Word := []
  /-- DS_PTR (13, 14). -/
  ptr : Word := 0
  /-- SEQ of the last frame originated (R374). -/
  seq : Word := 0
  /-- EPOCHNO (R385). -/
  epochNo : Word := 0
  /-- OFFS, last θ (14, Registers). -/
  offs : Word := 0
  /-- DLY, last D (14, Registers). -/
  dly : Word := 0
  /-- COLL, UNCOL, NOTANN, OVWR (14, Registers). -/
  counts : List Nat := [0, 0, 0, 0]
  /-- VIOCNT (R400). -/
  vioCnt : Word := 0
  /-- RTXCNT (R375). -/
  rtxCnt : Word := 0
  /-- millisecond stamps of the last violations, newest first (R400). -/
  vioAt : List Nat := []
  /-- requests whose replies are awaited (R375). -/
  reqs : List Request := []
  /-- stored replies of the last 8 sources, newest first (R376). -/
  stored : List Stored := []
  /-- T1 of the TIME request under way: seconds, cycles (R380). -/
  timeT1 : Option (Word32 × Nat) := none
  /-- the bridge's downstream set of addresses (R372). -/
  down : List (BitVec 12) := []
  /-- held announcements, oldest first, at most 4 (R396). -/
  pend : List Announce := []
  /-- epoch whose PHASE 0 was heard: EPOCH (R391). -/
  phase0 : Option Word := none
  /-- EPOCH of the last refusal of this node's JOIN (R23). -/
  refused : Option Word := none
  /-- another head has been heard on this port (R21). -/
  otherHead : Option Port := none
  /-- segment searches of this agent (R389). -/
  segs : List Segment := []
  /-- bridges whose SEARCH reply is awaited, with the resends made (R391). -/
  await : List (BitVec 12 × Nat) := []
  /-- arrivals of the epoch (R392). -/
  arrived : List (BitVec 12) := []
  /-- departures of the epoch (R392). -/
  departed : List (BitVec 12) := []
  /-- an agent's discovery was cut short (R389). -/
  cut : Bool := false
  /-- consecutive dirty follow-ups (R385). -/
  follow : Nat := 0
  /-- head: copies of SWEEPs still to send, with the tick each is due (R395). -/
  copies : List (DFrame × Nat) := []
  /-- head: entries present at the announcement (R398). -/
  sweepSet : List (BitVec 12) := []
  /-- head: collections, the first running (R398, R399). -/
  collects : List Collect := []
  /-- head: COLLECTs whose reply the FIFO could not take: NUMBER, address, issued by the host (R379). -/
  collectRepeat : List (Word32 × BitVec 12 × Bool) := []
  /-- role T: the port on which beacons were first heard while not joined (R19). -/
  hearing : Option Port := none
  /-- the head's SYSID last heard (R386). -/
  sysid : Word48 := 0
  /-- AGENT address of the last beacon on the upstream port (R386). -/
  agent : BitVec 12 := 0
  /-- HOPS of the last beacon (R386). -/
  segHops : Byte := 0
deriving DecidableEq, Repr

/-- The run state of one policy rule (R406). -/
structure Rule where
  /-- 0 IDLE, 1 PEND, 2 IN FORCE, 3 RELPEND, 4 LATCHED, 5 inactive (R420). -/
  state : BitVec 3 := 0
  /-- milliseconds the pending condition has held (R405). -/
  count : Nat := 0
  /-- the assertion is due (R405). -/
  dueOn : Bool := false
  /-- the release is due (R405). -/
  dueOff : Bool := false
  /-- the condition at the last tick (R405). -/
  cond : Bool := false
  /-- the source's value at the last tick (R421). -/
  value : F32 := 0
  /-- assertions logged in this second (R413). -/
  secLogs : Nat := 0
deriving DecidableEq, Repr

/-- Policy engine (15_policy_alarms_and_long_run.md). -/
structure Pl where
  /-- PL_PTR.ADDR (15, Registers). -/
  ptr : BitVec 9 := 0
  /-- PL_PTR.AINC (15, Registers). -/
  ainc : Bool := false
  /-- the 32 rules' run states (R406). -/
  rules : List Rule := List.replicate 32 {}
  /-- ACK bits to be seen at the next tick (R406). -/
  ack : Word32 := 0
  /-- OVFL (R419). -/
  ovfl : Word := 0
  /-- counts already reported pinned: block, word (R419). -/
  pinned : List (Nat × Nat) := []
  /-- ASSERTS (R413). -/
  asserts : Word := 0
deriving DecidableEq, Repr

/-- System registers and host bus (16_host_bus_and_register_map.md). -/
structure Hb where
  /-- SY_CTL.GIE (R438). -/
  gie : Bool := false
  /-- NVR (16, SY_STAT). -/
  nvr : Bool := false
  /-- HBV (R445). -/
  hbv : Bool := false
  /-- SY_IRQ (R439). -/
  irq : Word := 0
  /-- SY_IEN (16, Registers). -/
  ien : Word := 0
  /-- RDYEN (16, HB_CFG). -/
  rdyen : Bool := true
  /-- RLOCK (R437). -/
  rlock : Bool := false
  /-- HBYTE, HLOST, STRB, WOVR, NVW, A7 at [5:0] (16, HB_CFG). -/
  flags : BitVec 6 := 0
  /-- SY_SCRATCH (16, Registers). -/
  scratch : Word := 0
  /-- the write latch: register byte address and held low byte (R429). -/
  wlatch : Option (Byte × Byte) := none
  /-- the read latch: register byte address and high byte (R428). -/
  rlatch : Option (Byte × Byte) := none
  /-- AD7–AD0 as last driven by a read (R425). -/
  adout : Byte := 0
  /-- held SY_TIME_L word of the host (R102). -/
  timeHost : Option Word := none
  /-- held SY_TIME_L word of Cantus (R436). -/
  timeCantus : Option Word := none
  /-- held SY_TIME_L word of Descant (R436). -/
  timeDescant : Option Word := none
  /-- TH_STAT.TEMP (R440). -/
  temp : BitVec 9 := 0
  /-- SY_TIME_H snapshot (R99). -/
  timeSnap : Option Word := none
  /-- words held for multi-word values, by key (R125, R215, R294, R415). -/
  held : List (Nat × Word) := []
  /-- the two-row write buffer, oldest first (R433). -/
  rows : List RowWrite := []
  /-- violation classes and per-second events logged in this RTC second (R281, R332, R400, R445). -/
  secCodes : List Word := []
  /-- FRZD (R444). -/
  frzd : Bool := false
  /-- FSRC (16, TS_CTL). -/
  fsrc : Bool := false
  /-- FDUR (R442). -/
  fdur : Byte := 0
  /-- a freeze by TS_CTL is in force (R442). -/
  frzTs : Bool := false
  /-- a freeze by TEST is in force (R442). -/
  frzTest : Bool := false
  /-- the seal was closed at some time of the freeze (R444). -/
  frzClosed : Bool := false
deriving DecidableEq, Repr

/-- The machine. -/
structure State where
  /-- commands that wait, first in, first out. -/
  pending : List Instr := []
  /-- what FRAM holds. -/
  fram : Fram := {}
  /-- what the always-on domain holds. -/
  aon : Aon := {}
  /-- pins and supplies. -/
  pins : Pins := {}
  /-- sequencer and governor. -/
  pw : Pw := {}
  /-- auxiliary regulator. -/
  reg : Reg := {}
  /-- clocks. -/
  ck : Ck := {}
  /-- Orrery. -/
  orr : Orr := {}
  /-- bridge and boost. -/
  xb : Xb := {}
  /-- converter. -/
  ad : Ad := {}
  /-- flow engine. -/
  fe : Fe := {}
  /-- ledger. -/
  lg : Lg := {}
  /-- event buffer. -/
  ev : Ev := {}
  /-- security. -/
  sc : Sc := {}
  /-- Antiphon. -/
  an : An := {}
  /-- loop interface. -/
  lp : Lp := {}
  /-- tone modem. -/
  tn : Tn := {}
  /-- Descant line. -/
  dl : Dl := {}
  /-- Descant network. -/
  dn : Dn := {}
  /-- policy engine. -/
  pl : Pl := {}
  /-- host bus and system registers. -/
  hb : Hb := {}
  /-- free values drawn so far (the model's own: log entry 5). -/
  drawn : Nat := 0
deriving DecidableEq, Repr

/-- Why the machine stops: never. Every command of this block has a next state (log entry 1). -/
inductive Fault where
deriving DecidableEq, Repr

/-- Why a command has no meaning. -/
inductive Refusal where
  /-- the command is not modelled yet; raised only by an arm of exec. Safe. -/
  | notModelled (mnemonic : String)
deriving DecidableEq, Repr

/-- The machine right after the first power-on reset: OFF, FRAM as shipped, every register at its reset value (R47, R248; log
entries 2 to 4). -/
def State.reset : State := {}

end Sys2Proof.Machine
end

