-- ==== Sys2Proof/Machine/Ops.lean ====
section
/-! DEFINITION. Sys2Proof/Machine/Ops.lean: the operations every block shares: FRAM-held words and their write buffer, events,
interrupts, counts, the audit gate and the audit row, commits, the free value. -/

namespace Sys2Proof.Machine

open Sys2Proof.Config (key)

/-! ## Sequencer -/

/-- CORE has a clock: WAKE to DRAIN, outside a freeze (R426, R442). -/
def State.coreOn (s : State) : Bool :=
  (s.pw.st == .wake || s.pw.st == .rails || s.pw.st == .calib || s.pw.st == .run || s.pw.st == .drain) &&
  !s.hb.frzTs && !s.hb.frzTest

/-- RUN, outside a freeze (R47, R442). -/
def State.running (s : State) : Bool := s.pw.st == .run && !s.hb.frzTs && !s.hb.frzTest

/-- RUN or DRAIN, outside a freeze (R218, R239). -/
def State.runOrDrain (s : State) : Bool := (s.pw.st == .run || s.pw.st == .drain) && !s.hb.frzTs && !s.hb.frzTest

/-- WAKE, RAILS or CALIB: the states in which R240 refuses audited writes. -/
def State.startUp (s : State) : Bool := s.pw.st == .wake || s.pw.st == .rails || s.pw.st == .calib

/-- The AON domain has power: every state but OFF (R55). -/
def State.aonOn (s : State) : Bool := s.pw.st != .off

/-- An effect that only a machine in a fit state has; else nothing changes (log entry 1). -/
def State.when (s : State) (b : Bool) (f : State → State) : State := if b then f s else s

/-- The code of a sequencer state (R47). -/
def Seq.code : Seq → Nat
  | .off => 0
  | .backup => 1
  | .wake => 2
  | .rails => 3
  | .calib => 4
  | .run => 5
  | .drain => 6
  | .hold => 7

/-- The code of a role (R3). -/
def Role.code : Role → Nat
  | .T => 0
  | .M => 1
  | .TM => 2
  | .H => 3

/-- The code of a port. -/
def Port.code : Port → Nat
  | .A => 0
  | .B => 1

/-- Roles M, TM and H: powered from VLINE (R3). -/
def State.lineRole (s : State) : Bool := s.pins.role != .T

/-- The roles in which loop A runs (R13). -/
def State.loopARole (s : State) : Bool := s.pins.role == .T || s.pins.role == .TM

/-- This EWT is the head of its system: role H, not joined as a node under another head, whose beacons it has heard (R16, R20, R21,
R384). -/
def State.isHead (s : State) : Bool := s.pins.role == .H && s.dn.otherHead.isNone && !s.fram.joined

/-! ## Free values -/

/-- The next free value and the state that has drawn it (log entry 5). -/
def State.draw (s : State) : Nat × State := (Config.freeNat s.drawn, { s with drawn := s.drawn + 1 })

/-! ## FRAM-held words -/

/-- The newest word for a key among pending rows, oldest row first (R433). -/
def pendWord : List RowWrite → Nat → Option Word
  | [], _ => none
  | r :: rs, k =>
    match pendWord rs k with
    | some w => some w
    | none => r.words.reverse.lookup k

/-- The word behind a key as it stands: buffered, else in FRAM (R217, R433). -/
def State.nv (s : State) (k : Nat) : Word :=
  match pendWord s.hb.rows k with
  | some w => w
  | none => WMem.get Config.shipment s.fram.nv k

/-- An NV register field's word. -/
def State.nvReg (s : State) (r : Nat) : Word := s.nv (key 0 r)

/-- A word of the OR window. -/
def State.orw (s : State) (a : Nat) : Word := s.nv (key 1 a)

/-- A word of the FE window. -/
def State.few (s : State) (a : Nat) : Word := s.nv (key 2 a)

/-- A word of the LG parameter area. -/
def State.lgw (s : State) (a : Nat) : Word := s.nv (key 3 a)

/-- A word of the DS window. -/
def State.dsw (s : State) (a : Nat) : Word := s.nv (key 4 a)

/-- A word of the PL window. -/
def State.plw (s : State) (a : Nat) : Word := s.nv (key 5 a)

/-- A word of the node table. -/
def State.ntw (s : State) (a : Nat) : Word := s.nv (key 6 a)

/-- A binary32 of the FE window, low word first (R215). -/
def State.fef (s : State) (a : Nat) : F32 := dword (s.few a) (s.few (a + 1))

/-- A 32-bit value of the LG parameter area, low word first. -/
def State.lgd (s : State) (a : Nat) : Word32 := dword (s.lgw a) (s.lgw (a + 1))

/-- The rows with a word put in: into its pending row, else as a further row; none when that would be the third (R433). -/
def bufferRow (rows : List RowWrite) (k : Nat) (w : Word) : Option (List RowWrite) :=
  if rows.any (fun r => r.row == k / 16) then
    some (rows.map (fun r => if r.row = k / 16 then { r with words := r.words ++ [(k, w)] } else r))
  else if rows.length < 2 then some (rows ++ [{ row := k / 16, words := [(k, w)] }])
  else none

/-- A pending row with a key's word replaced. -/
def RowWrite.put (k : Nat) (w : Word) (r : RowWrite) : RowWrite :=
  { r with words := r.words.map (fun p => if p.1 = k then (k, w) else p) }

/-- A word written to FRAM at once: an audited change, a table of the EWT's own. A pending word of the key follows it. -/
def State.nvPut (s : State) (k : Nat) (w : Word) : State :=
  { s with fram := { s.fram with nv := WMem.set Config.shipment s.fram.nv k w },
           hb := { s.hb with rows := s.hb.rows.map (RowWrite.put k w) } }

/-- Several words written to FRAM in order. -/
def State.nvPutAll (s : State) (ws : List (Nat × Word)) : State := ws.foldl (fun t p => t.nvPut p.1 p.2) s

/-! ## Events, interrupts, counts -/

/-- RTC seconds as an entry records them: all ones when not valid (R230). -/
def State.stamp (s : State) : Word32 := if s.aon.tv then s.aon.rtc else 0xFFFFFFFF#32

/-- An event enters the buffer of 32, or is dropped and counted (R230, R232). -/
def State.logEv (s : State) (code : Word) (data : Nat) : State :=
  if s.ev.buf.length < 32 then
    { s with ev := { s.ev with buf := s.ev.buf ++ [{ time := s.stamp, seq := 0, code := code, data := BitVec.ofNat 48 data }] } }
  else { s with ev := { s.ev with elost := true, drops := s.ev.drops + 1 } }

/-- A block sets its SY_IRQ bit (R439). -/
def State.irq (s : State) (n : Nat) : State := { s with hb := { s.hb with irq := s.hb.irq ||| BitVec.ofNat 16 (2 ^ n) } }

/-- Event data from (value, lowest bit) parts: the table's order, least significant first (R230; log entry 12). -/
def evData (parts : List (Nat × Nat)) : Nat := parts.foldl (fun acc p => acc + p.1 * 2 ^ p.2) 0

/-- R419: a 16-bit count of a block that pins sets its OVFL bit and is logged once per WAKE. -/
def State.pinned (s : State) (block word : Nat) (v : Word) : State :=
  if v = 0xFFFF#16 ∧ (block, word) ∉ s.pl.pinned then
    { s with pl := { s.pl with ovfl := s.pl.ovfl ||| BitVec.ofNat 16 (2 ^ (block - 1)), pinned := (block, word) :: s.pl.pinned } }.logEv
      0x0D06 (evData [(block, 0), (word, 16)])
  else s

/-- A class that is logged at most once per RTC second (R281, R332, R400, R445). -/
def State.logOnce (s : State) (code : Word) (data : Nat) : State :=
  if code ∈ s.hb.secCodes then s
  else { s with hb := { s.hb with secCodes := code :: s.hb.secCodes } }.logEv code data

/-- A host-bus violation: HBV, the flag named (bit of HB_CFG[13:8]), the log (R445). -/
def State.busViolation (s : State) (code : Word) (flag data : Nat) : State :=
  { s with hb := { s.hb with hbv := true, flags := s.hb.flags ||| BitVec.ofNat 6 (2 ^ flag) } }.logOnce code data

/-- A write of an FRAM-held word through the two-row buffer; before NVR or as a third row it is discarded as a violation
(R433, R435). reg and word name it in the log. -/
def State.nvWrite (s : State) (reg word k : Nat) (w : Word) : State :=
  if s.hb.nvr then
    match bufferRow s.hb.rows k w with
    | some rows => { s with hb := { s.hb with rows := rows } }
    | none => s.busViolation 0x0E15 3 (evData [(reg, 0), (word, 16)])
  else s.busViolation 0x0E16 4 (evData [(reg, 0), (word, 16)])

/-- Milliseconds since the last tick count reset, against a stamp: within the span. -/
def State.within (s : State) (at_ span : Nat) : Bool := s.pw.ticks - at_ < span

/-! ## The audit gate (R12, R233, R236, R240, R488) -/

/-- The audit log is full (R236). -/
def State.auditFull (s : State) : Bool := 2048 ≤ s.lg.acount

/-- An audited change is put in line for its row (R234). -/
def State.queueChange (s : State) (c : Change) : State := { s with lg := { s.lg with queue := s.lg.queue ++ [c] } }

/-- A change the full audit log refuses (R236). -/
def State.refuseFull (s : State) (what : Nat) : State := (s.logEv 0x0704 what).irq 6

/-- A write that needs an audit entry and no open seal: refused before RUN (R240) and by a full log (R236). -/
def State.audited (s : State) (what : Nat) (c : Change) : State :=
  if s.startUp then s.logEv 0x070B what
  else if s.auditFull then s.refuseFull what
  else s.queueChange c

/-- A sealed item or a protected bit with the unlock: refused before RUN (R240) and with the seal closed (R12), whatever it carries. -/
def State.gate (s : State) (what : Nat) (f : State → State) : State :=
  if s.startUp then s.logEv 0x070B what else if !s.aon.sealOpen then s.logEv 0x0F01 what else f s

/-- A change that needs an audit row: nothing when the content is the stored one (R488), refused by a full log (R236), else put in
line. -/
def State.propose (s : State) (what : Nat) (changed : Bool) (c : Change) : State :=
  if !changed then s else if s.auditFull then s.refuseFull what else s.queueChange c

/-- A write to a sealed item. -/
def State.sealedWrite (s : State) (what : Nat) (changed : Bool) (c : Change) : State := s.gate what (fun t => t.propose what changed c)

/-- The ledger key in force. -/
def State.ledgerKey (s : State) : List Byte := s.fram.key0.getD []

/-- The 16 bytes of a log entry (R230). -/
def LogEntry.bytes (e : LogEntry) : List Byte :=
  bytesLE 4 e.time.toNat ++ bytesLE 4 e.seq.toNat ++ bytesLE 2 e.code.toNat ++ bytesLE 6 e.data.toNat

/-- The next audit chain value over 16 bytes (R235). -/
def chainNext (key : List Byte) (serial : Word64) (chain e : List Byte) : List Byte :=
  tag8 key (bytesLE 8 serial.toNat ++ chain ++ e)

/-- The audit entry written: slot, sequence, chain, and the warning at 1,984 (R233, R235, R236). -/
def State.auditEntry (s : State) (code : Word) (data : Nat) : State :=
  let e : LogEntry := { time := s.stamp, seq := BitVec.ofNat 32 (s.lg.acount + 1), code := code, data := BitVec.ofNat 48 data }
  let t : State :=
    { s with
      fram := { s.fram with audit := s.fram.audit ++ [(s.lg.acount, e)] },
      lg := { s.lg with acount := s.lg.acount + 1, cdigDirty := true,
                        achain := chainNext s.ledgerKey s.fram.serial s.lg.achain e.bytes } }
  if t.lg.acount = 1984 then (t.logEv 0x0703 0).irq 6 else t

/-! ## Commits (R221 to R225) -/

/-- FLAGS of a bank (R221); disc: a provisional increment was discarded. -/
def State.bankFlags (s : State) (disc : Bool) : Byte :=
  BitVec.ofNat 8 (b2n s.aon.sealOpen + 2 * b2n s.fe.alm + 4 * b2n (!s.aon.tv) + 8 * b2n disc + 16 * b2n s.auditFull)

/-- What a commit with this REASON records now (R221, R223). -/
def State.bankData (s : State) (reason : Byte) (disc : Bool) (seq : Word32) : BankData :=
  { reason := reason, flags := s.bankFlags disc, seq := seq, time := s.stamp, sub := s.aon.sub, unaud := s.lg.unaud,
    totals := s.lg.totals, tcnt := s.orr.tcnt, frac := s.orr.angle.extractLsb' 0 16, rev := s.orr.angle.extractLsb' 16 32,
    sweep := s.lg.sweep, cdig := s.lg.cdig, acount := s.lg.acount, achain := s.lg.achain }

/-- SEQ stands at its last value: no further commit, LBAD, event 0x070A (R225). -/
def State.exhaust (s : State) : State := { s with lg := { s.lg with lbad := true } }.logEv 0x070A 0

/-- A commit with its bank and tag, ready to be written (R222). -/
def State.bankCommit (s : State) (d : BankData) (sweeps : List (Word32 × Word32)) : Commit :=
  { toB := d.seq.getLsbD 0, data := d, bytes := bankBytes s.ledgerKey s.fram.serial (d.seq.getLsbD 0) d, sweeps := sweeps }

/-- A commit is begun: SEQ rises by one, and stops at its last value (R224, R225). -/
def State.beginCommit (s : State) (w : Waiting) : State :=
  let seq := s.lg.seq + 1#32
  if s.lg.seq = 0xFFFFFFFF#32 then s.exhaust
  else
    let t := { s with lg := { s.lg with seq := seq, cur := some (s.bankCommit { w.data with seq := seq } w.sweeps) } }
    if seq = 0xFFFFFFFF#32 then t.exhaust else t

/-- A commit trigger: none under LBAD; while one is written it makes a further one, of what stands at the trigger (R223, R224, R228). -/
def State.trigger (s : State) (reason : Byte) (disc : Bool) (sweeps : List (Word32 × Word32)) : State :=
  let w : Waiting := { data := s.bankData reason disc 0, sweeps := sweeps }
  if s.lg.lbad then s
  else match s.lg.cur with
    | some _ => { s with lg := { s.lg with waiting := s.lg.waiting ++ [w] } }
    | none => s.beginCommit w

/-- A waiting commit that a coincident sweep joins (R224). -/
def Waiting.join (sweep : Word32) (sweeps : List (Word32 × Word32)) (w : Waiting) : Waiting :=
  { data := { w.data with reason := w.data.reason ||| 2, sweep := sweep }, sweeps := w.sweeps ++ sweeps }

/-- A sweep latched in the CORE cycle of the trigger that came last: their commit takes its REASON bit, SWEEP and snapshots (R224; 09,
Edges). With no commit under way the sweep triggers its own. -/
def State.joinTrigger (s : State) (sweep : Word32) (sweeps : List (Word32 × Word32)) : State :=
  if s.lg.lbad then s
  else match s.lg.waiting.getLast? with
    | some w => { s with lg := { s.lg with waiting := s.lg.waiting.dropLast ++ [w.join sweep sweeps] } }
    | none =>
      match s.lg.cur with
      | some c =>
        let j := Waiting.join sweep sweeps { data := c.data, sweeps := c.sweeps }
        { s with lg := { s.lg with cur := some (s.bankCommit j.data j.sweeps) } }
      | none => s.trigger 2 false sweeps

/-! ## Small shared pieces -/

/-- A 60-second window of violation stamps with a new one, newest first (R281, R332, R400). -/
def stampIn (now : Nat) (stamps : List Nat) : List Nat := now :: stamps.filter (fun t => now - t < 60000)

end Sys2Proof.Machine
end

