-- ==== Sys2Proof/Machine/Flow.lean ====
section
/-! DEFINITION. Sys2Proof/Machine/Flow.lean: the flow engine (08_flow_engine.md): curves and properties, increments, the provisional
domain and the twelve totals, the magnetic pair, loop B, adaptation. Each formula is computed in binary32 in the order in which the
rule writes it (log entry 7). -/

namespace Sys2Proof.Machine

open Sys2Proof.Config (key)

/-! ## Configuration -/

/-- FE_CTL.EN (08, Registers). -/
def State.feEn (s : State) : Bool := bitAt (s.nvReg 0x56) 0

/-- CFG.MODEL (R215). -/
def State.feModel (s : State) : BitVec 2 := (s.few 0).extractLsb' 0 2

/-- CFG.MEDIUM: 3 acts as 0 (R204). -/
def State.medium (s : State) : Nat := if fld (s.few 0) 2 2 = 3 then 0 else fld (s.few 0) 2 2

/-- The engine counts teeth of the given model (R194, R208). -/
def State.feTeeth (s : State) : Bool := s.feEn && !s.fe.srcLive && (s.fe.modelLive == 2 || s.fe.modelLive == 3)

/-- The magnetic model is in force. -/
def State.feMag (s : State) : Bool := s.feEn && !s.fe.srcLive && s.fe.modelLive == 1

/-- Loop B is the source in force (R201). -/
def State.feLoopB (s : State) : Bool := s.feEn && s.fe.srcLive

/-! ## Curves and tables (R200, R204) -/

/-- The points of a curve up to the first whose abscissa is not greater than the one before (R200). -/
def curvePoints : List (F32 × F32) → List (F32 × F32)
  | [] => []
  | [p] => [p]
  | p :: q :: ps => if F32.lt p.1 q.1 then p :: curvePoints (q :: ps) else [p]

/-- Linear interpolation between two points. -/
def lerp (x0 y0 x1 y1 x : F32) : F32 :=
  F32.add y0 (F32.div (F32.mul (F32.sub y1 y0) (F32.sub x x0)) (F32.sub x1 x0))

/-- A curve at x: linear between points, its end factors held outside (R200). -/
def curveAt (x : F32) : List (F32 × F32) → F32
  | [] => F32.ofInt 1
  | [p] => p.2
  | p :: q :: ps =>
    if F32.le x p.1 then p.2 else if F32.le x q.1 then lerp p.1 p.2 q.1 q.2 x else curveAt x (q :: ps)

/-- The 16 points of a curve that starts at a word of the window. -/
def State.curve (s : State) (a : Nat) : List (F32 × F32) :=
  curvePoints ((List.range 16).map (fun i => (s.fef (a + 4 * i), s.fef (a + 4 * i + 2))))

/-- The axis that starts at a word: strictly rising as a curve's abscissae are. -/
def State.axis (s : State) (a : Nat) : List F32 :=
  (curvePoints ((List.range 16).map (fun i => (s.fef (a + 2 * i), 0)))).map Prod.fst

/-- The cell of an axis that holds x: its index and the two abscissae; a clamped x lies in an end cell. -/
def cellOf (x : F32) : Nat → List F32 → Nat × F32 × F32
  | i, [] => (i, 0, 0)
  | i, [a] => (i, a, a)
  | i, [a, b] => (i, a, b)
  | i, a :: b :: c :: r => if F32.le x b then (i, a, b) else cellOf x (i + 1) (b :: c :: r)

/-- x held inside an axis, and whether it had to be (R205). -/
def clampAxis (x : F32) (ax : List F32) : F32 × Bool :=
  match ax with
  | [] => (x, false)
  | [_] => (x, false)
  | a :: r =>
    let b := r.getLastD a
    if F32.lt x a then (a, true) else if F32.lt b x then (b, true) else (x, false)

/-- Z of air: bilinear interpolation of the 16 × 16 table (R204). -/
def State.zAir (s : State) (p t : F32) : F32 :=
  let z := fun (i j : Nat) => s.fef (0x100 + 2 * (16 * i + j))
  let (i, p0, p1) := cellOf p 0 (s.axis 0x300)
  let (j, t0, t1) := cellOf t 0 (s.axis 0x320)
  let row := fun (k : Nat) => if F32.eq t0 t1 then z k j else lerp t0 (z k j) t1 (z k (j + 1)) t
  if F32.eq p0 p1 then row i else lerp p0 (row i) p1 (row (i + 1)) p

/-! ## Properties (R202 to R207) -/

/-- An arithmetic fault: FERR and event 0x0605 with the step and the quantity (R193). Steps: 1 increment, 2 property update,
3 magnetic pair, 4 loop B, 5 a total saturated. -/
def State.ferr (s : State) (step qty : Nat) : State :=
  { s with fe := { s.fe with ferr := true } }.logEv 0x0605 (evData [(step, 0), (qty, 8)])

/-- The DAO output current in A: none unless DAO is in current mode with a code (R184, R202). -/
def State.daoCurrent (s : State) : Option F32 :=
  if bitAt (s.lgw 0xF840) 0 && s.ad.daAux != 0 then some (F32.ofRatio (s.ad.daAux.toNat * 30518) 1000000000000) else none

/-- The pressure of R202. -/
def State.pressure (s : State) : F32 :=
  if bitAt (s.few 0) 5 then s.fef 0x014
  else match s.fe.pHeld with
    | [] => s.fef 0x014
    | (_, c) :: _ =>
      let x := F32.ofDyadic c.toInt (-23)
      F32.add (F32.add (s.fef 0x018) (F32.mul (s.fef 0x01A) x)) (F32.mul (s.fef 0x01C) (F32.mul x x))

/-- The root of Rt = R0 (1 + A T + B T²) nearest to 0 (R202). -/
def rtdRoot (rt r0 a b : F32) : F32 :=
  let c := F32.sub (F32.ofInt 1) (F32.div rt r0)
  if F32.eq b 0 then F32.div (F32.neg c) a
  else
    let q := F32.sqrt (F32.sub (F32.mul a a) (F32.mul (F32.mul (F32.ofInt 4) b) c))
    let d := F32.mul (F32.ofInt 2) b
    let t1 := F32.div (F32.add (F32.neg a) q) d
    let t2 := F32.div (F32.sub (F32.neg a) q) d
    if F32.lt (F32.abs t2) (F32.abs t1) then t2 else t1

/-- The temperature of R202, and whether TFIX stands in because DAO drives no current. -/
def State.temperature (s : State) : F32 × Bool :=
  if bitAt (s.few 0) 6 then (s.fef 0x016, false)
  else match s.daoCurrent with
    | none => (s.fef 0x016, true)
    | some i =>
      match s.fe.tHeld with
      | [] => (s.fef 0x016, false)
      | (_, c, ref, gain) :: _ =>
        let vref := F32.ofRatio ref 1000000000
        let rt := F32.div (F32.mul (F32.ofInt c.toInt) vref) (F32.mul (F32.ofInt (2 ^ gain * 2 ^ 23)) i)
        (rtdRoot rt (s.fef 0x01E) (s.fef 0x020) (s.fef 0x022), false)

/-- A value held between bounds, and whether it had to be (R205). -/
def clampF (lo hi x : F32) : F32 × Bool := if F32.lt x lo then (lo, true) else if F32.lt hi x then (hi, true) else (x, false)

/-- What an update computes: density, enthalpy, Z, the inputs outside their range, the superheat of steam. -/
structure Props where
  rho : F32
  h : F32
  z : F32
  /-- 1 pressure, 2 temperature, with the value. -/
  out : List (Nat × F32)
  /-- T − Tsat(p). -/
  superheat : Option F32
deriving DecidableEq, Repr

/-- The list of inputs outside their range. -/
def outList (pOut tOut : Bool) (p t : F32) : List (Nat × F32) :=
  (if pOut then [(1, p)] else []) ++ (if tOut then [(2, t)] else [])

/-- Water (R204, R205): region 1, density RHOW with RHOFIX. -/
def State.waterProps (s : State) (p t : F32) : Props :=
  let (t1, tOut) := clampF (F32.ofRatio 1 10) (F32.ofInt 150) t
  let (p1, po) := clampF (F32.max (F32.ofInt 100000) (if97Psat t1)) (F32.ofInt 4000000) p
  { rho := if bitAt (s.few 0) 4 then s.fef 0x00C else if97Density false p1 t1, h := if97Enthalpy false p1 t1,
    z := F32.ofInt 1, out := outList po tOut p t, superheat := none }

/-- Steam (R204 to R206): region 2; its lower bound in temperature is Tsat(p), where what lies below is computed. -/
def State.steamProps (_ : State) (p t : F32) : Props :=
  let (p1, po) := clampF (F32.ofInt 50000) (F32.ofInt 4000000) p
  let ts := if97Tsat p1
  let (t2, tOut) := clampF (F32.max (F32.ofInt 100) ts) (F32.ofInt 400) t
  { rho := if97Density true p1 t2, h := if97Enthalpy true p1 t2, z := F32.ofInt 1, out := outList po tOut p t,
    superheat := some (F32.sub t ts) }

/-- (p / 100,000 Pa) × (293.15 K / T_K) × (ZB / Z) (R204). -/
def State.airFactor (s : State) (p t z : F32) : F32 :=
  F32.mul (F32.mul (F32.div p (F32.ofInt 100000)) (F32.div (F32.ofRatio 29315 100) (F32.add t (F32.ofRatio 27315 100))))
    (F32.div (s.fef 0x028) z)

/-- Air (R204, R205): Z from the table at the clamped inputs. -/
def State.airProps (s : State) (p t : F32) : Props :=
  let (p1, po) := clampAxis p (s.axis 0x300)
  let (t1, tOut) := clampAxis t (s.axis 0x320)
  let z := s.zAir p1 t1
  { rho := F32.mul (s.fef 0x00E) (s.airFactor p t z), h := 0, z := z, out := outList po tOut p t, superheat := none }

/-- The properties of the medium (R204). -/
def State.props (s : State) (p t : F32) : Props :=
  if s.medium = 1 then s.steamProps p t else if s.medium = 2 then s.airProps p t else s.waterProps p t

/-- R205: an input that enters its outside range sets RANGE and is logged once per entry. -/
def State.rangeEvents (s : State) (out : List (Nat × F32)) : State :=
  let new := out.filter (fun p => p.1 ∉ s.fe.rangeIn)
  let t := new.foldl (fun acc p =>
    ({ acc with fe := { acc.fe with range := true } }.logEv 0x0602 (evData [(p.1, 0), (p.2.toNat, 16)])).irq 5) s
  { t with fe := { t.fe with rangeIn := out.map Prod.fst } }

/-- R206: wet steam is entered and left. -/
def State.wetEvents (s : State) (sh : Option F32) : State :=
  match sh with
  | none => { s with fe := { s.fe with wet := false } }
  | some d =>
    let cents := (BitVec.ofInt 16 (F32.toInt (F32.mul d (F32.ofInt 100)))).toNat
    if !s.fe.wet && F32.lt d (s.fef 0x02A) then
      ({ s with fe := { s.fe with wet := true } }.logEv 0x0601 (evData [(1, 0), (cents, 16)])).irq 5
    else if s.fe.wet && F32.lt (F32.add (s.fef 0x02A) (F32.ofRatio 1 2)) d then
      { s with fe := { s.fe with wet := false } }.logEv 0x0601 (evData [(0, 0), (cents, 16)])
    else s

/-- STALE as its inputs leave it: an input with no result for 2 s, or no DAO current for the temperature (R201 to R203). -/
def State.staleNow (s : State) : Bool :=
  (s.fe.pStale && !bitAt (s.few 0) 5) || (!bitAt (s.few 0) 6 && (s.fe.tStale || s.daoCurrent.isNone)) || s.fe.bStale

/-- The key of a flow-engine word or pair. -/
def Change.feKey : Change → Nat
  | .word k _ => k
  | .pair k _ _ => k
  | _ => 0

/-- A flow-engine write that carries the stored content: no change (R488). -/
def State.feSame (s : State) : Change → Bool
  | .word k v => s.nv k == v
  | .pair k lo hi => s.nv k == lo && s.nv (k + 1) == hi
  | _ => false

/-- A held write as one of a batch that takes effect together. -/
def Change.inBatch (last : Bool) : Change → Change
  | .word k v => .heldWord k v none last
  | .pair k lo hi => .heldWord k lo (some hi) last
  | c => c

/-- The changes of a batch in line, the last of them marked. -/
def State.queueBatch (s : State) : List Change → State
  | [] => s
  | [c] => s.queueChange (c.inBatch true)
  | c :: d :: cs => State.queueBatch (s.queueChange (c.inBatch false)) (d :: cs)

/-- PHOLD is clear: the writes it held are put in line as one batch, which takes effect together (08, Edges). -/
def State.releaseHeld (s : State) : State :=
  if s.fe.phold || s.fe.heldWrites.isEmpty then s
  else
    let ws := s.fe.heldWrites.filter (fun c => !s.feSame c)
    let t := { s with fe := { s.fe with heldWrites := [] } }
    if ws.isEmpty then t
    else if t.auditFull then ws.foldl (fun acc c => acc.refuseFull (c.feKey % 0x10000)) t
    else t.queueBatch ws

/-- A flow as it reads: 0 while the engine is off or has no model (08, Edges). -/
def State.flowOf (s : State) (x : F32) : F32 := if !s.feEn || (!s.fe.srcLive && s.fe.modelLive == 0) then 0 else x

/-- A property update (R207); one with an infinite or NaN input or result is a fault, and the last valid properties stand (R193). -/
def State.feUpdate (s : State) : State :=
  if !s.feEn then s.releaseHeld
  else
    let s := s.releaseHeld
    let p := s.pressure
    let (t, noCurrent) := s.temperature
    let q := s.props p t
    let bad := !([p, t, q.rho, q.h, q.z].all F32.isFinite)
    let s1 := { s with fe := { s.fe with stale := s.fe.stale || noCurrent, qLast := s.fe.qvc, fresh := false, updated := true } }
    if bad then s1.ferr 2 0
    else
      let s2 := (s1.rangeEvents q.out).wetEvents q.superheat
      { s2 with fe := { s2.fe with p := p, t := t, rho := q.rho, h := q.h, z := q.z } }

/-! ## Increments (R196 to R199, R204, R208) -/

/-- max(h − HREF, 0) (R204). -/
def State.dh (s : State) : F32 := F32.max (F32.sub s.fe.h (s.fef 0x010)) 0

/-- MASS, VOL, BVOL, ENERGY of a volume in mL (R204). -/
def State.quantities (s : State) (v : F32) : List F32 :=
  if s.medium = 2 then
    let b := F32.mul v (s.airFactor s.fe.p s.fe.t s.fe.z)
    [F32.div (F32.mul b (s.fef 0x00E)) (F32.ofInt 1000), v, b, 0]
  else
    let m := F32.div (F32.mul v s.fe.rho) (F32.ofInt 1000)
    let e := F32.div (F32.mul m s.dh) (F32.ofInt 1000)
    if s.medium = 1 then [m, v, 0, e] else [m, v, F32.div (F32.mul m (F32.ofInt 1000)) (s.fef 0x00E), e]

/-- RHOB stands at 0 where the medium uses it (08, Edges). -/
def State.noRhob (s : State) : Bool := s.medium != 1 && F32.eq (s.fef 0x00E) 0

/-- The four increments of a volume, each infinite or NaN one taken as 0, and the first quantity at fault (R193). -/
def State.increments (s : State) (v : F32) : List F32 × Option Nat :=
  if !F32.isFinite v || s.noRhob then ([0, 0, 0, 0], some 1)
  else
    let q := s.quantities v
    (q.map (fun x => if F32.isFinite x then x else 0), (q.findIdx? (fun x => !F32.isFinite x)))

/-- OR_SPEED as tooth frequency in Hz, signed (R131). -/
def State.toothHz (s : State) : F32 :=
  let d := match fld (s.nvReg 0x18) 8 2 with
    | 0 => 1
    | 1 => 10
    | _ => 100
  F32.ofRatio s.orr.speed.toInt d

/-- The factor of the vortex model (R199). -/
def State.rc (s : State) : F32 :=
  let c := s.curve 0x0C0
  let den := F32.mul (F32.mul F32.pi (s.fef 0x008)) (s.fef 0x00A)
  if s.fe.fresh then (c.headD (0, F32.ofInt 1)).2
  else if F32.eq (s.fef 0x008) 0 || F32.eq (s.fef 0x00A) 0 then (c.getLastD (0, F32.ofInt 1)).2
  else
    let q := F32.div s.fe.qLast (F32.ofInt 1000000)
    curveAt (F32.div (F32.mul (F32.mul (F32.ofInt 4) s.fe.rho) q) den) c

/-- The volume of a tooth of a pitch (a fraction of the revolution), in mL; none when its coefficient is 0 (R198, R199, 08 Edges). -/
def State.toothVolume (s : State) (pitch : Nat × Nat) : Option F32 :=
  if s.fe.modelLive = 2 then
    if F32.eq (s.fef 0x004) 0 then none
    else some (F32.mul (F32.mul (s.fef 0x004) (F32.ofRatio pitch.1 pitch.2)) (curveAt (F32.abs s.toothHz) (s.curve 0x080)))
  else
    if F32.eq (s.fef 0x006) 0 then none else some (F32.div s.rc (s.fef 0x006))

/-- The four increments of an accepted tooth, added to the provisional domain, and the provisional flow (R208, R210).
pitch is the tooth's, nominal the nominal one; rev: a reverse tooth. -/
def State.toothIncrement (s : State) (pitch nominal : Nat × Nat) (rev : Bool) : List F32 × State :=
  if !s.feTeeth then ([0, 0, 0, 0], s)
  else match s.toothVolume pitch with
    | none => ([0, 0, 0, 0], s.ferr 1 1)
    | some v0 =>
      let (inc, bad) := s.increments (if rev then F32.neg v0 else v0)
      let flow := F32.mul s.toothHz ((s.toothVolume nominal).getD 0)
      let t := match bad with
        | some q => s.ferr 1 q
        | none => if F32.isFinite flow then { s with fe := { s.fe with qvp := flow } } else s.ferr 1 1
      (inc, { t with fe := { t.fe with pend := List.zipWith F32.add t.fe.pend inc } })

/-- An increment leaves the provisional domain (R208). -/
def State.dropPending (s : State) (inc : List F32) : State :=
  { s with fe := { s.fe with pend := List.zipWith F32.sub s.fe.pend inc } }

/-! ## Totals (R209, R211) -/

/-- A total with an increment x ≥ 0: fixed point at 2^−32, ties to even, the integer saturating at 2^64 − 1; whether it saturated. -/
def totalAdd (total : Nat) (x : F32) : Nat × Bool :=
  let v := total + (F32.toFixed x 32).toNat
  if v < 2 ^ 96 then (v, false) else ((2 ^ 64 - 1) * 2 ^ 32 + v % 2 ^ 32, true)

/-- One total of the twelve receives an increment. -/
def State.addTotal (s : State) (n : Nat) (x : F32) : State :=
  let (v, sat) := totalAdd (s.lg.totals.getD n 0) x
  let t := { s with lg := { s.lg with totals := setAt s.lg.totals n v } }
  if sat && !(n ∈ s.lg.satLogged) then
    { t with lg := { t.lg with satLogged := n :: t.lg.satLogged } }.logEv 0x0605 (evData [(5, 0), (n, 8)])
  else t

/-- The total an increment goes to, and its magnitude there (R209): alarm, reverse or forward. -/
def destination (alm rev : Bool) (q : Nat) (x : F32) : Nat × F32 :=
  if alm then (8 + q, F32.abs x)
  else if rev then (4 + q, F32.max (F32.neg x) 0) else (q, F32.max x 0)

/-- The increments of a confirmed tooth, of a pair or of loop B reach the committed totaliser (R208, R209). Under LBAD the totals
are held at 0 (R228). -/
def State.commitInc (s : State) (inc : List F32) : State :=
  let rev := F32.lt (inc.getD 1 0) 0
  let t := { s with fe := { s.fe with secVol := F32.add s.fe.secVol (inc.getD 1 0) } }
  if s.lg.lbad then t
  else
    [0, 1, 2, 3].foldl (fun acc q =>
      let d := destination s.fe.alm rev q (inc.getD q 0)
      acc.addTotal d.1 d.2) t

/-- A tooth's increments move from the provisional domain to the totals, unchanged (R208). -/
def State.confirmInc (s : State) (inc : List F32) : State := (s.dropPending inc).commitInc inc

/-! ## Time-integrated sources (R195 to R197, R201) -/

/-- Q with the low-flow cut-off (R196, R201). -/
def State.lowCut (s : State) (q : F32) : F32 := if F32.lt (F32.abs q) (s.fef 0x012) then 0 else q

/-- The magnetic Q: 0 while the pipe is empty (R196, R197). -/
def State.qCut (s : State) (q : F32) : F32 := if s.fe.empty then 0 else s.lowCut q

/-- Q × elapsed time is totalised and committed at once (R196). -/
def State.totaliseQ (s : State) (q : F32) (ms : Nat) (step : Nat) : State :=
  let v := F32.mul (s.qCut q) (F32.ofRatio ms 1000)
  let (inc, bad) := s.increments v
  let t := match bad with
    | some k => s.ferr step k
    | none => s
  t.commitInc inc

/-- A result that is infinite or NaN leaves the last valid one (R193). -/
def validOr (new old : F32) : F32 := if F32.isFinite new then new else old

/-- The flows that follow a volume flow through the properties in force; one that is infinite or NaN is a fault of the step and holds its
last valid value (R193; 08, Registers; log entry 8). -/
def State.setFlows (s : State) (step : Nat) (qv : F32) : State :=
  let q := s.quantities qv
  let t := { s with fe := { s.fe with qvc := validOr qv s.fe.qvc, qm := validOr (q.getD 0 0) s.fe.qm, qb := validOr (q.getD 2 0) s.fe.qb,
                                      pe := validOr (q.getD 3 0) s.fe.pe } }
  match q.findIdx? (fun x => !F32.isFinite x) with
  | some k => t.ferr step k
  | none => t

/-- The magnetic source totalises up to now; while it is off or not in force, no time accrues (R196; 08, Edges). -/
def State.magUpTo (s : State) : State :=
  let t := if s.feMag then s.totaliseQ s.fe.q (s.pw.ticks - s.fe.qAt) 3 else s
  { t with fe := { t.fe with qAt := s.pw.ticks } }

/-- A property update: the time before it is totalised with the properties before it (R196, R207). -/
def State.feUpdateNow (s : State) : State := s.magUpTo.feUpdate

/-- The counted results of a half (R195): 1 positive, 2 negative. -/
def State.halfResults (s : State) (h : BitVec 2) : List Result :=
  let tset := (F32.toInt (F32.mul (s.fef 0x032) (F32.ofInt 1000))).toNat
  s.ad.results.filter (fun r => r.ch == 0 && r.half == h && decide (tset ≤ r.sinceCommute))

/-- The mean of the codes of some results. -/
def meanCode (rs : List Result) : F32 := F32.ofRatio ((rs.map (fun r => r.code.toInt)).foldl (· + ·) 0) rs.length

/-- The mean of some values. -/
def meanF (xs : List F32) : F32 := F32.div (xs.foldl F32.add 0) (F32.ofInt xs.length)

/-- The standard deviation of some values (R197; over n, log entry 9). -/
def devF (xs : List F32) : F32 :=
  let m := meanF xs
  F32.sqrt (meanF (xs.map (fun x => F32.mul (F32.sub x m) (F32.sub x m))))

/-- The common-mode condition of R197: the channel 4 results of the last 2 s, none of them no condition. -/
def State.emptyCommon (s : State) : Bool :=
  let recent := (s.fe.ch4.filter (fun p => s.within p.1 2000)).map (fun p => p.2.2)
  !recent.isEmpty && F32.lt (s.fef 0x02E) (F32.abs (F32.sub (meanF recent) (s.fef 0x02C)))

/-- The empty-pipe condition of R197: 0 none, 1 common mode, 2 deviation. -/
def State.emptyTest (s : State) : Nat :=
  let dev := fun h => F32.lt (s.fef 0x030) (devF ((s.halfResults h).map (fun r => r.v)))
  if s.emptyCommon then 1 else if dev 1 || dev 2 then 2 else 0

/-- EMPTY is entered by a test: event 0x0603, the interrupt (R197). -/
def State.emptyEnter (s : State) (test : Nat) : State :=
  ({ s with fe := { s.fe with empty := true, emptyClean := 0 } }.logEv 0x0603 (evData [(test, 0), (1, 8)])).irq 5

/-- A channel 4 result under the magnetic model: the common mode alone enters EMPTY, whatever becomes of the pairs; the time before counts
with the old Q, and the flows read 0 (R197). -/
def State.emptyByCommon (s : State) : State :=
  if s.feMag && !s.fe.empty && s.emptyCommon then
    let t := s.magUpTo.emptyEnter 1
    { t with fe := { t.fe with qvp := 0 } }.setFlows 3 0
  else s

/-- R197: EMPTY is entered, kept or left at a complete pair. -/
def State.emptyPipe (s : State) : State :=
  match s.emptyTest with
  | 0 =>
    if s.fe.empty then
      if 3 ≤ s.fe.emptyClean then
        { s with fe := { s.fe with empty := false, emptyClean := 0 } }.logEv 0x0603 (evData [(0, 0), (0, 8)])
      else { s with fe := { s.fe with emptyClean := s.fe.emptyClean + 1 } }
    else s
  | k =>
    if s.fe.empty then { s with fe := { s.fe with emptyClean := 0 } } else s.emptyEnter k

/-- The results of the pair are spent: none of them counts again. -/
def State.clearPair (s : State) : State :=
  { s with ad := { s.ad with results := (s.ad.results.map (fun r => { r with half := 0 })).take 64 },
           xb := { s.xb with icsSum := 0, icsN := 0 }, fe := { s.fe with cutPair := false } }

/-- A truncated pair: TRUNC, its samples discarded, Q held (R152, R195). -/
def State.truncPair (s : State) : State := { s with fe := { s.fe with trunc := true } }.clearPair

/-- A complete magnetic pair: ΔU, the empty-pipe check, the new Q (R195 to R197). elapsed: ms since the last totalisation. -/
def State.pairEnd (s : State) (elapsed : Nat) : State :=
  let pos := s.halfResults 1
  let neg := s.halfResults 2
  if s.fe.cutPair || pos.length < 2 || neg.length < 2 then s.truncPair
  else
    let s0 := s.totaliseQ s.fe.q elapsed 3
    let s1 := { s0 with fe := { s0.fe with qAt := s.pw.ticks } }.emptyPipe
    let du := F32.div (F32.sub (meanCode pos) (meanCode neg)) (F32.ofInt 2)
    let icsm := F32.ofRatio s.xb.icsSum s.xb.icsN
    let q := F32.div (F32.mul (F32.mul (s.fef 0x002) du) (F32.ofInt (fld (s.lgw 0xF820) 0 10))) icsm
    let s2 := { s1 with fe := { s1.fe with du := du } }
    let s3 := if F32.isFinite q && !F32.eq (s.fef 0x002) 0 then
        let qc := s2.qCut q
        { s2 with fe := { s2.fe with q := q, qvp := qc } }.setFlows 3 qc
      else s2.ferr 3 1
    s3.clearPair

/-- A channel 9 result with the loop B source: Q over the conversion's length, committed at once (R201). -/
def State.loopBTotalise (s : State) (code : BitVec 24) (cycles : Nat) : State :=
  let mA := F32.mul (F32.mul (F32.ofInt code.toInt) (F32.ofRatio 24576 1000)) (F32.ofDyadic 1 (-23))
  let q := F32.add (s.fef 0x024)
    (F32.div (F32.mul (F32.sub mA (F32.ofInt 4)) (F32.sub (s.fef 0x026) (s.fef 0x024))) (F32.ofInt 16))
  if !F32.isFinite q then s.ferr 4 1
  else
    let qc := s.lowCut q
    let v := F32.mul qc (F32.ofRatio cycles 1024000)
    let (inc, bad) := s.increments v
    let t := match bad with
      | some k => s.ferr 4 k
      | none => s
    { (t.commitInc inc) with fe := { (t.commitInc inc).fe with qvp := qc } }.setFlows 4 qc

/-! ## The second (R194, R196, R207, R210) -/

/-- SRC or MODEL as written differs from the one in force (R194). -/
def State.srcChanged (s : State) : Bool :=
  bitAt (s.nvReg 0x56) 1 != s.fe.srcLive || s.feModel != s.fe.modelLive

/-- A change of source takes effect; the increments still pending keep what the old source gave them and are resolved with it (R194; log
entry 10). SRC is taken as FRAM holds it, whatever the role has become since it was written (R16, R194; log entry 78). -/
def State.takeSource (s : State) : State :=
  if s.srcChanged then
    { s with fe := { s.fe with srcLive := bitAt (s.nvReg 0x56) 1, modelLive := s.feModel, qAt := s.pw.ticks } }
  else s

/-- The flow engine's part of a second boundary. -/
def State.feSecond (s : State) : State :=
  let s1 := s.magUpTo
  let s2 := if s1.feTeeth then (s1.setFlows 1 s1.fe.secVol) else s1
  let s3 := if s2.fe.updated then s2 else s2.feUpdate
  { s3 with fe := { s3.fe with updated := false, secVol := 0 } }.takeSource

/-! ## Adaptation (R212 to R214) -/

/-- The largest n ≤ fuel with base^n ≤ x, by repeated division. -/
def logDown (base : Nat) : Nat → Nat → Nat
  | 0, _ => 0
  | fuel + 1, x => if x < base then 0 else logDown base fuel (x / base) + 1

/-- A power in 0.1 dB above 1: 100 · log10. -/
def tenthDb (p : Nat) : Nat := logDown 10 4096 (p ^ 100)

/-- The index, from 0, of the smallest power, the first of equals (R212). -/
def quietest (powers : List Nat) : Nat :=
  match powers with
  | [] => 0
  | p :: ps => powers.idxOf (ps.foldl min p)

/-- a exceeds b by more than n tenths of a dB of power. -/
def dbAbove (a b n : Nat) : Bool := b ^ 100 * 10 ^ n < a ^ 100

/-- R213: RVTH from the rms in µV. -/
def State.rvthOf (s : State) (rms : Nat) : BitVec 11 :=
  let mv := F32.max (s.fef 0x036) (F32.mul (s.fef 0x034) (F32.ofRatio rms 1000))
  BitVec.ofNat 11 (clampInt 5 2000 (F32.toInt (F32.mul mv (F32.ofInt 10)))).toNat

/-- The recommendation differs from what is in force for one more period: NREC after two in a row (R214). -/
def State.recommend (s : State) (differs : Bool) (what noise : Nat) : State :=
  if differs then
    let t := { s with fe := { s.fe with recRun := s.fe.recRun + 1 } }
    if 1 ≤ s.fe.recRun then
      if s.fe.nrec then t
      else ({ t with fe := { t.fe with nrec := true } }.logEv 0x0607 (evData [(what, 0), (noise, 16)])).irq 5
    else t
  else { s with fe := { s.fe with recRun := 0, nrec := false } }

/-- The estimator takes channel 0 for the magnetic model with the MAINS source, while EXA is set (R212). -/
def State.takesIdle (s : State) : Bool := bitAt (s.few 1) 0 && s.feMag && fld (s.nvReg 0x18) 0 2 == 3

/-- It takes channel 3 for the vortex model, while VTA is set (R213). -/
def State.takesVor (s : State) : Bool := bitAt (s.few 1) 1 && s.feTeeth && s.fe.modelLive == 3

/-- The MAINS frequency in 0.1 mHz by which the candidates are placed: 50.000 Hz in free-run (R212; 08, Edges). -/
def State.noiseMains (s : State) : Nat := if s.ck.mfree then 500000 else s.ck.mainsF

/-- The noise power of a candidate N: at f_mains / N and at its 3rd and 5th harmonics (R212). -/
def State.candidatePower (s : State) (n : Nat) : Nat :=
  ([1, 3, 5].map (fun h => Config.noisePower s.fe.idle s.ad.curRate (h * s.noiseMains) n)).sum

/-- The converter block's spectrum is complete: 256 results of a channel (R212, R213, R365). -/
def State.converterBlock (s : State) : State :=
  let t := if s.takesIdle && s.fe.idle.length == 256 then
      { s with fe := { s.fe with powers := [2, 4, 8, 16, 32, 64].map s.candidatePower,
                                 present := s.candidatePower (2 ^ fld (s.nvReg 0x18) 4 3), idle := [] } } else s
  if t.takesVor && t.fe.vor.length == 256 then
    { t with fe := { t.fe with rms := some (Config.noiseRms t.fe.vor t.ad.curRate (F32.abs t.toothHz)), vor := [] } }
  else t

/-- R212, R214: the quietest candidate against the present cycle. -/
def State.evalMag (s : State) : State :=
  if s.fe.powers.isEmpty then s
  else
    let i := quietest s.fe.powers
    let best := s.fe.powers.getD i 0
    let t := { s with fe := { s.fe with rcyc := BitVec.ofNat 3 (i + 1) } }
    t.recommend (i + 1 != fld (s.nvReg 0x18) 4 3 && dbAbove s.fe.present best (fld (s.few 1) 8 8)) (i + 1) (tenthDb best)

/-- R213, R214: the vortex threshold. -/
def State.evalVor (s : State) : State :=
  match s.fe.rms with
  | none => s
  | some rms =>
    let r := s.rvthOf rms
    let v := fld (s.few 0x38) 0 11
    let hy := fld (s.few 1) 8 8
    { s with fe := { s.fe with rvth := r } }.recommend
      (r.toNat != v && (dbAbove (r.toNat ^ 2) (v ^ 2) hy || dbAbove (v ^ 2) (r.toNat ^ 2) hy)) r.toNat (tenthDb (rms ^ 2))

/-- Policy applies the recommendation: an audited application (R214, R233, R412). -/
def State.applyAdapt (s : State) : State :=
  if !s.fe.nrec then s
  else if s.auditFull then s.refuseFull (if s.fe.modelLive = 1 then 0x18 else 0x38)
  else if s.fe.modelLive = 1 then
    let w := s.nvReg 0x18
    s.queueChange (.adapt true (BitVec.ofNat 16 (fld w 4 3)) (s.fe.rcyc.setWidth 16))
  else s.queueChange (.adapt false (BitVec.ofNat 16 (fld (s.few 0x38) 0 11)) (s.fe.rvth.setWidth 16))

end Sys2Proof.Machine
end

