-- ==== Sys2Proof/Machine/Loop.lean ====
section
/-! DEFINITION. Sys2Proof/Machine/Loop.lean: the loop interface (11_loop_interface.md): loop A target, alarms, trim and fallback, loop B,
the adaptive supply and the fold-back. Currents stand in nA, voltages in 10 mV, ΔT in 10^−9 K (log entry 13). -/

namespace Sys2Proof.Machine

open Sys2Proof.Config (key)

/-! ## Levels (R289, R293, R301) -/

/-- ALO in nA (R289). -/
def State.alo (s : State) : Nat := 3400000 + min (fld (s.nvReg 0x3A) 0 8) 200 * 1000

/-- AHI in nA (R289). -/
def State.ahi (s : State) : Nat := 21000000 + min (fld (s.nvReg 0x3A) 8 8) 200 * 10000

/-- PARK in nA (R289). -/
def State.park (s : State) : Nat := 3800000 + min (fld (s.lgw 0xF8C5) 0 10) 700 * 1000

/-- LP_CTL.ASRC as it acts: 2 acts as 0 in role T (R288). -/
def State.asrc (s : State) : Nat :=
  let a := fld (s.nvReg 0x38) 0 2
  if a = 2 ∧ s.pins.role = .T then 0 else a

/-- The trimmed code of a target current in nA (R293). -/
def State.trimCode (s : State) (i : Nat) : Word :=
  let m4 : Int := (s.lgd 0xF8C6).toNat
  let m20 : Int := (s.lgd 0xF8C8).toNat
  BitVec.ofInt 16 (clampInt 0 65535 (divRne (10667 * (m20 - m4) + ((i : Int) - m4) * 42666) (m20 - m4).toNat))

/-- LBLIM in mA, held to 22 to 72 (R301). -/
def State.lblim (s : State) : Nat := clampNat 22 72 (fld (s.lgw 0xF8CC) 0 7)

/-- Loop B runs in this role (R13, R300). -/
def State.loopBOn (s : State) : Bool :=
  s.pins.role == .M || s.pins.role == .TM || (s.pins.role == .H && bitAt (s.nvReg 0x38) 5)

/-- LB_GATE: on from RUN entry through DRAIN unless off for cooling (R300, R307). -/
def State.lbGate (s : State) : Bool := s.loopBOn && (s.pw.st == .run || s.pw.st == .drain) && !s.lp.lboff

/-- The limit in force on loop B in mA (R301, R307). -/
def State.limitB (s : State) : Nat := if s.lp.fold then 24 else s.lblim

/-- I_B in nA as R303 and R304 take it. -/
def State.iB (s : State) : Nat := if s.lp.bAbsent || s.lp.bNow then s.lblim * 1000000 else s.lp.ib

/-- I_cmd of R29 and R287 in nA; 3.40 mA while the fallback holds loop A (log entry 14). -/
def State.icmd (s : State) : Nat := if s.lp.driving then s.lp.target else 3400000

/-! ## Zero scale (R188) -/

/-- A DAC forced to zero scale: 0 loop, 1 auxiliary; causes 1 DRAIN, 2 HOLD, 3 BACKUP or OFF, 4 DAO open, 5 loop fault (log
entry 84). Every forcing is logged, of a DAC already at zero scale too (R188). -/
def State.zeroDac (s : State) (aux : Bool) (cause : Nat) : State :=
  (if aux then { s with ad := { s.ad with daAux := 0 } } else { s with ad := { s.ad with daLoop := 0 } }).logEv 0x0506
    (evData [(b2n aux, 0), (cause, 8)])

/-- Both DACs forced to zero scale. -/
def State.zeroDacs (s : State) (cause : Nat) : State := (s.zeroDac false cause).zeroDac true cause

/-! ## Loop A (R283 to R291) -/

/-- The word PVSEL selects (R284). -/
def State.pv (s : State) : F32 :=
  s.flowOf (match fld (s.nvReg 0x38) 2 2 with
    | 0 => s.fe.qvp
    | 1 => s.fe.qm
    | 2 => s.fe.qb
    | _ => s.fe.pe)

/-- I_map in mA (R284; 11, Edges when URV equals LRV). -/
def State.iMap (s : State) : F32 :=
  let lrv := s.lgd 0xF8C0
  let urv := s.lgd 0xF8C2
  if F32.eq lrv urv then (if F32.le lrv s.pv then F32.ofRatio 205 10 else F32.ofRatio 38 10)
  else F32.add (F32.ofInt 4) (F32.div (F32.mul (F32.ofInt 16) (F32.sub s.pv lrv)) (F32.sub urv lrv))

/-- The damping filter's next value, held to the range; −1, 0 or 1 for clamped low, not, high (R284). -/
def State.damped (s : State) : F32 × Int :=
  let m := s.iMap
  let damp := fld (s.lgw 0xF8C4) 0 9
  let f := match s.lp.filt with
    | none => m
    | some p => if damp = 0 then m else F32.add p (F32.mul (F32.sub m p) (F32.ofRatio 1 (damp * 100)))
  let lo := F32.ofRatio 38 10
  let hi := F32.ofRatio 205 10
  if F32.lt f lo then (lo, -1) else if F32.lt hi f then (hi, 1) else if F32.isFinite f then (f, 0) else (s.lp.filt.getD lo, 0)

/-- A tick's outcome for loop A. -/
structure LoopOut where
  /-- nA. -/
  target : Nat
  amode : BitVec 3
  /-- the code when it is not the target's trimmed one (R286). -/
  raw : Option Word
  filt : Option F32
deriving DecidableEq, Repr

/-- The target of one tick, by the precedence of R283. -/
def State.loopTargetNow (s : State) : LoopOut :=
  let src := s.asrc
  if s.lp.alarm != 0 && src != 3 then
    if s.lp.alarm = 1 then ⟨s.alo, 4, none, none⟩
    else if s.lp.alarm = 2 then ⟨s.ahi, 5, none, none⟩ else ⟨s.lp.holdAt, 6, none, none⟩
  else if src = 3 then ⟨s.park, 7, none, none⟩
  else if src = 1 then ⟨s.lp.hostTarget, 1, if s.lp.traw then s.lp.hostRaw else none, none⟩
  else if src = 2 then ⟨s.lp.repTarget, 1, none, none⟩
  else
    let (f, sat) := s.damped
    ⟨(F32.toInt (F32.mul f (F32.ofInt 1000000))).toNat, if sat < 0 then 2 else if 0 < sat then 3 else 1, none, some f⟩

/-- AMODE codes that are alarm levels (11, Registers). -/
def isAlarmMode (m : BitVec 3) : Bool := m == 4 || m == 5 || m == 6

/-- Events of a change of AMODE (R284, R290). -/
def State.amodeEvents (s : State) (before after : BitVec 3) : State :=
  let s1 := if before != after && (isAlarmMode before || isAlarmMode after) then
      (s.logEv 0x0901 (evData [(before.toNat, 0), (after.toNat, 8)])).irq 9 else s
  if (after == 2 || after == 3) && after != s1.lp.satIn then
    { s1 with lp := { s1.lp with satIn := after } }.logEv 0x0902 after.toNat
  else if after == 2 || after == 3 then s1 else { s1 with lp := { s1.lp with satIn := 0 } }

/-- The fallback takes loop A: an alarm level in force is left (R290, R296, R297). -/
def State.toFallback (s : State) : State :=
  { s with lp := { s.lp with driving := false, amode := 0 } }.amodeEvents s.lp.amode 0

/-- Loop A at a tick in RUN: the target, its code, AMODE (R283; 15: R408). -/
def State.loopATick (s : State) : State :=
  if !s.loopARole then s
  else if s.lp.faulted then { s with lp := { s.lp with driving := false, amode := 0 } }
  else
    let o := s.loopTargetNow
    let code := o.raw.getD (s.trimCode o.target)
    let t : State :=
      { s with
        lp := { s.lp with driving := true, timerOut := false, target := o.target, amode := o.amode, filt := o.filt,
                          apark := s.lp.alarm != 0 && s.asrc == 3,
                          rbCmd := s.lp.rbCmd + o.target, rbTicks := s.lp.rbTicks + 1 },
        ad := { s.ad with daLoop := code } }
    t.amodeEvents s.lp.amode o.amode

/-- A host write of DA_LOOP (R286). -/
def State.writeDaLoop (s : State) (v : Word) : State :=
  if s.asrc != 1 then s
  else if s.lp.traw then
    let c := if v.toNat < 9067 then 9067#16 else v
    let t := { s with lp := { s.lp with hostRaw := some c, hostTarget := c.toNat * 375 } }
    if t.lp.driving && t.lp.alarm == 0 then { t with ad := { t.ad with daLoop := c }, lp := { t.lp with target := c.toNat * 375 } } else t
  else
    let i := clampNat 3400000 23000000 (v.toNat * 375)
    let t := { s with lp := { s.lp with hostTarget := i, hostRaw := none } }
    if t.lp.driving && t.lp.alarm == 0 then { t with ad := { t.ad with daLoop := t.trimCode i }, lp := { t.lp with target := i } } else t

/-! ## Readback and fallback (R296, R297) -/

/-- The interval's accumulators start afresh. -/
def State.clearReadback (s : State) : State :=
  { s with lp := { s.lp with rbSum := 0, rbN := 0, rbCmd := 0, rbTicks := 0 } }

/-- The two means differ by more than 0.250 mA (R296). -/
def State.readbackBad (s : State) : Bool :=
  8 ≤ s.lp.rbN && 0 < s.lp.rbTicks &&
  250000 * (s.lp.rbN * s.lp.rbTicks) < (s.lp.rbSum * (s.lp.rbTicks : Int) - (s.lp.rbCmd * s.lp.rbN : Nat)).natAbs

/-- A loop fault (R296). -/
def State.loopFault (s : State) : State :=
  let read := (s.lp.rbSum / ((s.lp.rbN * 1000 : Nat) : Int)).toNat
  let cmd := s.lp.rbCmd / (s.lp.rbTicks * 1000)
  let s0 := s.toFallback
  let s1 := { s0 with lp := { s0.lp with lflt := true, faulted := true, filt := none, lfCnt := satInc s0.lp.lfCnt } }
  let s2 := (s1.pinned 9 0xF8D4 s1.lp.lfCnt).zeroDac false 5
  (s2.logEv 0x0903 (evData [(read % 65536, 0), (cmd, 16)])).irq 9

/-- The check of every 500 ms (R296). -/
def State.readback (s : State) : State :=
  if bitAt (s.nvReg 0x38) 6 && s.lp.driving && s.readbackBad then s.loopFault.clearReadback else s.clearReadback

/-- LOWV (R299): v in 10 mV. -/
def State.lowvTest (s : State) (v : Nat) : State :=
  if !s.lp.lowv && v < 950 then
    ({ s with lp := { s.lp with lowv := true } }.logEv 0x0906 (evData [(0, 0), (v, 16)])).irq 9
  else if s.lp.lowv && 970 ≤ v then { s with lp := { s.lp with lowv := false } } else s

/-! ## Loop B (R300 to R303, R309) -/

/-- REMB of a mean current in nA (R302). -/
def rembOf (i : Nat) (ovr : Bool) : BitVec 2 :=
  if ovr || 21000000 < i then 3
  else if i < 3600000 then 2
  else if i < 3800000 || 20500000 < i then 1 else 0

/-- The decode of a 100 ms interval (R302, R303). -/
def State.decodeB (s : State) : State :=
  if s.lp.bN = 0 then { s with lp := { s.lp with bAbsent := true, bSum := 0, bOvr := false } }
  else
    let i := (s.lp.bSum / (s.lp.bN : Int)).toNat
    let remb := rembOf i s.lp.bOvr
    let run := if i < 1000000 then s.lp.openRun + 1 else 0
    let lbopen := decide (5 ≤ run)
    let lbsht := remb == 3 && decide (500 ≤ s.lp.clRun)
    let changed := remb != s.lp.remb || lbopen != s.lp.lbopen || lbsht != s.lp.lbsht
    let t := { s with lp := { s.lp with ib := i, bAbsent := false, bSum := 0, bN := 0, bOvr := false, remb := remb, openRun := run,
                                        lbopen := lbopen, lbsht := lbsht } }
    if changed then
      (t.logEv 0x0907 (evData [(remb.toNat, 0), (b2n lbopen, 8), (b2n lbsht, 9), (i / 1000, 16)])).irq 9
    else t

/-- The repeated target of a channel 9 result in nA (R309). -/
def State.repeatOf (s : State) (i : Int) (ovr : Bool) : Nat :=
  if ovr || 21000000 < i then s.ahi
  else if i < 3600000 then s.alo
  else if i < 3800000 then 3800000
  else if 20500000 < i then 20500000 else i.toNat

/-! ## Adaptive supply (R304, R305) -/

/-- V_req in 10 mV, before its clamp (R304). -/
def State.vreqNow (s : State) : Nat :=
  fld (s.lgw 0xF8CA) 0 12 + (divRne ((s.iB * fld (s.lgw 0xF8CB) 0 12 : Nat) : Int) 10000000).toNat + 100

/-- HDRM (R305): set while R62 clamps the target, cleared by a V_req below 30.000 V. -/
def State.hdrmTest (s : State) (v : Nat) : State :=
  if !s.lp.hdrm && 3000 < s.reg.loopTarget && 3000 ≤ v then
    ({ s with lp := { s.lp with hdrm := true } }.logEv 0x0906 (evData [(1, 0), (v, 16)])).irq 9
  else if s.lp.hdrm && v < 3000 then { s with lp := { s.lp with hdrm := false } } else s

/-- The target at a tick: rising at once but held at the limit, falling counted for ADAPTIVE_TARGET_FALL (R304). -/
def State.adaptiveTick (s : State) : State :=
  if s.reg.src != 2 || !(s.pins.role == .M || s.pins.role == .TM) then s
  else
    let v := s.vreqNow
    let falls := decide (v + 10 < s.reg.loopTarget)
    { s with
      reg := { s.reg with loopTarget := if s.lp.lbcl then s.reg.loopTarget else max v s.reg.loopTarget },
      lp := { s.lp with vreq := v, fallRun := if falls then s.lp.fallRun + 1 else 0, vreqMax := if falls then max v s.lp.vreqMax else 0 } }.hdrmTest v

/-! ## Fold-back (R306 to R308) -/

/-- TFOLD and TALM in K; a TALM at or below TFOLD acts as TFOLD + 1 (R307). -/
def State.foldAt (s : State) : Nat × Nat :=
  let f := fld (s.lgw 0xF8CF) 0 8
  let a := fld (s.lgw 0xF8CF) 8 8
  (f, if a ≤ f then f + 1 else a)

/-- The dissipation in 10^−11 W (R306). -/
def State.dissipation (s : State) : Nat :=
  if s.lp.lbcl then s.pins.vaux * s.iB
  else
    let drop : Int := (s.pins.vaux : Int) - (fld (s.lgw 0xF8CA) 0 12 : Nat) -
      divRne ((s.iB * fld (s.lgw 0xF8CB) 0 12 : Nat) : Int) 10000000
    drop.toNat * s.iB

/-- ΔT after one more tick (R306). -/
def State.dtNext (s : State) : Nat :=
  let goal : Int := ((s.dissipation * fld (s.lgw 0xF8CD) 0 12 / 1000 : Nat) : Int)
  let tau := max 1 (fld (s.lgw 0xF8CE) 0 8)
  ((s.lp.dT : Int) + divRne (goal - (s.lp.dT : Int)) (tau * 1000)).toNat

/-- LP_THERM.DTE: ΔT in 0.5 K, saturating. -/
def dteOf (dT : Nat) : Nat := min 255 (dT / 500000000)

/-- A fold-back event (R307, R310). -/
def State.foldEvent (s : State) (code : Nat) : State :=
  s.logEv 0x0908 (evData [(code, 0), (dteOf s.lp.dT, 16)])

/-- Step 1 of R307: the limit folds to 24 mA. -/
def State.foldNow (s : State) : State :=
  if s.lp.fold then s else ({ s with lp := { s.lp with fold := true } }.foldEvent 1).irq 14

/-- The thermal model and its steps at a tick (R306, R307). -/
def State.foldTick (s : State) : State :=
  if !s.loopBOn then s
  else
    let dT := s.dtNext
    let (f, a) := s.foldAt
    let cool : Bool := decide ((dT : Int) < ((f : Int) - 10) * 1000000000)
    let s1 := { s with lp := { s.lp with dT := dT, clRun := if s.lp.lbcl then s.lp.clRun + 1 else 0,
                                         coolRun := if cool && decide (s.iB < 24000000) then s.lp.coolRun + 1 else 0 } }
    let s2 := if f * 1000000000 ≤ dT then s1.foldNow else s1
    let s3 := if s2.lp.fold && !s2.lp.lboff && decide (a * 1000000000 ≤ dT) then
        ({ s2 with lp := { s2.lp with lbth := true, lboff := true } }.foldEvent 2).irq 14 else s2
    if s3.lp.lboff && cool then { s3 with lp := { s3.lp with lboff := false } }.foldEvent 3 else s3

/-- Loop B has been turned off in role H: its status reads 0, and what it measured is void (R17; 11, Edges). -/
def State.loopBIdle (s : State) : State :=
  if s.loopBOn then s
  else
    { s with lp := { s.lp with lbopen := false, lbsht := false, remb := 0, lbcl := false, fold := false, lbth := false, lboff := false, dT := 0,
                               bSum := 0, bN := 0, bOvr := false, bNow := false, ib := 0, bAbsent := false, openRun := 0, clRun := 0,
                               coolRun := 0 } }

/-- The die warning and its end; die in 0.1 °C (R308). -/
def State.dieWarn (s : State) (die : Int) : State :=
  if !s.lp.dwarn && 1250 ≤ die then
    let t := ({ s with lp := { s.lp with dwarn := true } }.logEv 0x0909 (BitVec.ofInt 16 die).toNat).irq 14
    if t.loopBOn then t.foldNow else t
  else if s.lp.dwarn && die ≤ 1200 then { s with lp := { s.lp with dwarn := false } } else s

/-! ## Meanings -/

/-- READBACK_CHECK (R296). -/
def execReadbackCheck (s : State) : Host.Outcome State Fault Refusal := .next (s.when (s.running && s.loopARole) State.readback)

/-- LOOP_FAULT_RETRY (R296): 10.0 s after a loop fault loop A is driven again and checked afresh. -/
def execLoopFaultRetry (s : State) : Host.Outcome State Fault Refusal :=
  .next (s.when (s.running && s.lp.faulted) (fun t =>
    { t with lp := { t.lp with faulted := false } }.clearReadback.loopATick))

/-- FALLBACK_TIMEOUT (R297): the fallback has taken loop A; CORE restarts the timer and drives again at the next tick. -/
def execFallbackTimeout (ms : Nat) (s : State) : Host.Outcome State Fault Refusal :=
  .next (s.when (s.running && s.loopARole) (fun t =>
    let u := t.toFallback
    { u with lp := { u.lp with timerOut := true } }.logEv 0x0905 ms))

/-- LOWV (R299). -/
def execLowv (v : Nat) (s : State) : Host.Outcome State Fault Refusal := .next (s.when (s.running && s.loopARole) (fun t => t.lowvTest v))

/-- LOOP_B_DECODE (R302). -/
def execLoopBDecode (s : State) : Host.Outcome State Fault Refusal := .next (s.when (s.coreOn && s.loopBOn) State.decodeB)

/-- LOOP_B_LIMIT (R301). -/
def execLoopBLimit (acts : Bool) (s : State) : Host.Outcome State Fault Refusal :=
  .next (s.when (s.coreOn && s.loopBOn) (fun t => { t with lp := { t.lp with lbcl := acts } }))

/-- ADAPTIVE_TARGET_FALL (R304): V_req has stayed more than 0.10 V below the target for 1.0 s. -/
def execAdaptiveTargetFall (s : State) : Host.Outcome State Fault Refusal :=
  .next (s.when (s.coreOn && decide (1000 ≤ s.lp.fallRun) && !s.lp.lbcl) (fun t =>
    { t with reg := { t.reg with loopTarget := t.lp.vreqMax }, lp := { t.lp with fallRun := 0, vreqMax := 0 } }))

/-- FOLD_RELEASE (R307, step 4): once the die warning has cleared (R308). -/
def execFoldRelease (s : State) : Host.Outcome State Fault Refusal :=
  .next (s.when (s.coreOn && s.lp.fold && !s.lp.dwarn && decide (10000 ≤ s.lp.coolRun)) (fun t =>
    { t with lp := { t.lp with fold := false, lbth := false } }.foldEvent 0))

/-- DIE_WARNING (R308). -/
def execDieWarning (die : Int) (s : State) : Host.Outcome State Fault Refusal := .next (s.when s.coreOn (fun t => t.dieWarn die))

/-- REPEATER_TIMEOUT (R309): 1.0 s without a channel 9 result. -/
def execRepeaterTimeout (s : State) : Host.Outcome State Fault Refusal :=
  .next (s.when (s.running && s.pins.role == .TM && s.asrc == 2) (fun t => { t with lp := { t.lp with repTarget := t.alo } }))

end Sys2Proof.Machine
end

