-- ==== Sys2Proof/Machine/Convert.lean ====
section
/-! DEFINITION. Sys2Proof/Machine/Convert.lean: the converter, the DACs and the NCO (07_conversion.md). -/

namespace Sys2Proof.Machine

open Sys2Proof.Config (key)

/-! ## Conversions (R165 to R174) -/

/-- AD_CTL.EN (07, Registers). -/
def State.adEn (s : State) : Bool := bitAt (s.nvReg 0x2C) 8

/-- A channel's CHCFG word: 0 for the channels with fixed scaling (R166, R172). -/
def State.chCfg (s : State) (ch : Nat) : Word := if ch < 8 then s.lgw (0xF842 + ch) else 0

/-- A conversion starts: channel, rate, gain and reference as they stand (R166). -/
def State.startConv (s : State) (ch : BitVec 4) (rate : BitVec 4) : State :=
  { s with ad := { s.ad with runs := true, curCh := ch, curRate := rate, curCfg := s.chCfg ch.toNat, curHalf := s.xb.pol, tag := none } }

/-- The next conversion of CALIB, or the next one of RUN and DRAIN while EN stands, or none (R165, R180). -/
def State.nextConv (s : State) : State :=
  if s.pw.st == .calib then
    if s.ad.n13 < 8 then s.startConv 13 3
    else if s.ad.n14 < 8 then s.startConv 14 3
    else { s with ad := { s.ad with runs := false } }
  else if s.runOrDrain && s.adEn then s.startConv s.ad.ch (BitVec.ofNat 4 (fld (s.nvReg 0x2C) 4 4))
  else { s with ad := { s.ad with runs := false } }

/-- The length of a conversion in ADC cycles: codes 12 to 15 act as 11 (R170). -/
def rateCycles (rate : BitVec 4) : Nat :=
  [128, 256, 512, 1024, 2048, 4096, 10240, 17067, 20480, 40960, 102400].getD rate.toNat 136533

/-- A code held to 24 bits, and whether it was clipped (R171). -/
def clip24 (x : Int) : BitVec 24 × Bool :=
  if 8388607 < x then (0x7FFFFF#24, true) else if x < -8388608 then (0x800000#24, true) else (BitVec.ofInt 24 x, false)

/-- The result code of a conversion (R171, R172). -/
def State.codeOf (s : State) (env : ConvEnv) : BitVec 24 × Bool :=
  let ch := s.ad.curCh.toNat
  if ch < 8 then
    let g := 2 ^ fld s.ad.curCfg 0 3
    let ref : Int := if bitAt s.ad.curCfg 3 then env.ref else 2048000000
    if ref ≤ 0 then (if 0 ≤ env.x then (0x7FFFFF#24, true) else (0x800000#24, true))
    else clip24 (divRne (env.x * (g : Nat) * 8388608) ref.toNat)
  else if ch = 8 then clip24 (divRne (env.x * 8388608) 24576000)
  else if ch = 9 then
    if s.pins.role == .T || s.pins.role == .H then (0, false) else clip24 (divRne (env.x * 8388608) 24576000)
  else if ch = 10 then clip24 (divRne (env.x * 8388608) 32768000)
  else if ch = 11 then clip24 (divRne (env.x * 8388608) 65536000)
  else if ch = 12 then clip24 (divRne (env.x * 32768) 1000)
  else clip24 env.x

/-- The input in V that a code of channels 0 to 7 stands for (R171, R197). -/
def State.voltsOf (s : State) (env : ConvEnv) (code : BitVec 24) : F32 :=
  let ref : Int := if bitAt s.ad.curCfg 3 then env.ref else 2048000000
  F32.div (F32.mul (F32.ofInt code.toInt) (F32.ofRatio ref 1000000000)) (F32.ofInt (2 ^ fld s.ad.curCfg 0 3 * 8388608))

/-- A clipped result: OVRS, OVRCNT, the interrupt, the second's summary (R173). -/
def State.overrange (s : State) : State :=
  let t := { s with ad := { s.ad with ovrs := true, ovrCnt := satInc s.ad.ovrCnt, secOvr := s.ad.secOvr + 1,
                                      secMask := s.ad.secMask ||| BitVec.ofNat 16 (2 ^ s.ad.curCh.toNat) } }
  let u := t.pinned 5 0xF84A t.ad.ovrCnt
  if u.ad.ovie then u.irq 4 else u

/-- The result on show (R174, R175, R177). -/
def State.showResult (s : State) (code : BitVec 24) (ovr : Bool) : State :=
  { s with ad := { s.ad with seq := s.ad.seq + 1#16, data := code, dataCh := s.ad.curCh, unrel := false, ovr := ovr, isNew := true,
                             tagged := s.ad.tag.isSome, mark := s.ad.tag.getD 0 } }

/-- A SEQ lies in a range: never when last + 1 = first (R176). -/
def inRange (first last seq : Word) : Bool := first != last + 1#16 && decide ((seq - first).toNat ≤ (last - first).toNat)

/-- Results after the SEQ at which the oldest pending tooth was validated may still be marked unreliable (R176). -/
def State.inDoubt (s : State) (seq : Word) : Bool :=
  match s.orr.pend.getLast? with
  | some p => inRange (p.seen + 1#16) s.ad.seq seq
  | none => false

/-- The held results of an input, newest first: those in doubt and the newest that is not (R176, R202). -/
def State.heldBack {α : Type} (s : State) (seqOf : α → Word) (l : List α) : List α :=
  l.takeWhile (fun r => s.inDoubt (seqOf r)) ++ (l.dropWhile (fun r => s.inDoubt (seqOf r))).take 1

/-- The flow engine and the loop interface take a result: pressure, temperature, common mode, the estimator's idle-interval results of
channel 0 more than 1 ms after the commutation, channel 3, loop currents (R197, R201, R202, R212, R213, R296, R302, R309). -/
def State.takeResult (s : State) (env : ConvEnv) (code : BitVec 24) (ovr : Bool) : State :=
  let ch := s.ad.curCh.toNat
  if ch = 1 then
    let t := { s with fe := { s.fe with pHeld := s.heldBack Prod.fst ((s.ad.seq, code) :: s.fe.pHeld), pStale := false } }
    { t with fe := { t.fe with stale := t.staleNow } }
  else if ch = 2 then
    let ref : Int := if bitAt s.ad.curCfg 3 then env.ref else 2048000000
    let t := { s with fe := { s.fe with tHeld := s.heldBack Prod.fst ((s.ad.seq, code, ref, fld s.ad.curCfg 0 3) :: s.fe.tHeld),
                                        tStale := false } }
    { t with fe := { t.fe with stale := t.staleNow } }
  else if ch = 4 then
    { s with fe := { s.fe with
        ch4 := (s.pw.ticks, s.ad.seq, s.voltsOf env code) :: s.fe.ch4.filter (fun p => s.within p.1 2000) } }.emptyByCommon
  else if ch = 0 && s.takesIdle && s.ad.curHalf == 0 && s.xb.pol == 0 && decide (1000 < env.sinceCommute) then
    { s with fe := { s.fe with idle := (s.voltsOf env code :: s.fe.idle).take 256 } }
  else if ch = 3 && s.takesVor then { s with fe := { s.fe with vor := (s.voltsOf env code :: s.fe.vor).take 256 } }
  else if ch = 8 then
    { s with lp := { s.lp with rbSum := s.lp.rbSum + divRne (code.toInt * 24576000) 8388608, rbN := s.lp.rbN + 1 } }
  else if ch = 9 then
    let i := divRne (code.toInt * 24576000) 8388608
    let t := { s with lp := { s.lp with bSum := s.lp.bSum + i, bN := s.lp.bN + 1, bOvr := s.lp.bOvr || ovr, bNow := ovr, repTarget := s.repeatOf i ovr },
                      fe := { s.fe with bStale := false } }
    let u := { t with fe := { t.fe with stale := t.staleNow } }
    if u.feLoopB then u.loopBTotalise code (rateCycles s.ad.curRate) else u
  else if ch = 12 then { s with ad := { s.ad with dieCode := some code } }
  else s

/-- The result joins those the flow engine holds: those of the pair, and the last 64 (R176, R195). -/
def State.keepResult (s : State) (env : ConvEnv) (code : BitVec 24) (ovr : Bool) : State :=
  let r : Result := { seq := s.ad.seq, ch := s.ad.curCh, code := code, ovr := ovr, sinceCommute := env.sinceCommute,
                      half := s.ad.curHalf, v := s.voltsOf env code }
  { s with ad := { s.ad with results := r :: (s.ad.results.filter (fun x => x.half != 0) ++
                                              s.ad.results.filter (fun x => x.half == 0)).take (max 63 (s.ad.results.filter (fun x => x.half != 0)).length) } }

/-- A CALIB conversion: its code counts toward the mean of its channel (R180). -/
def State.calibResult (s : State) (code : BitVec 24) : State :=
  if s.ad.curCh = 13 then { s with ad := { s.ad with cal13 := s.ad.cal13 + code.toInt, n13 := s.ad.n13 + 1 } }
  else { s with ad := { s.ad with cal14 := s.ad.cal14 + code.toInt, n14 := s.ad.n14 + 1 } }

/-- A conversion ends and the next starts (R165, R174). -/
def State.convEnd (s : State) (env : ConvEnv) : State :=
  let (code, ovr) := s.codeOf env
  let s1 := s.showResult code ovr
  let s2 := if ovr then s1.overrange else s1
  let s3 := if s2.ad.drie then s2.irq 4 else s2
  let s4 := if s.pw.st == .calib then s3.calibResult code else (s3.keepResult env code ovr).takeResult env code ovr
  s4.nextConv

/-! ## The unreliable mark (R176) -/

/-- R176: the results after SEQ at_ up to the present one are marked, and the flow engine discards them. -/
def State.markUnreliable (s : State) (at_ : Word) : State :=
  let first := at_ + 1#16
  let last := s.ad.seq
  let bad := fun (r : Result) => inRange first last r.seq
  let kept := s.ad.results.filter (fun r => !bad r)
  { s with
    ad := { s.ad with unrFirst := first, unrLast := last, unrel := s.ad.unrel || inRange first last s.ad.seq, results := kept },
    fe := { s.fe with pHeld := s.fe.pHeld.filter (fun r => !inRange first last r.1), tHeld := s.fe.tHeld.filter (fun r => !inRange first last r.1),
                      ch4 := s.fe.ch4.filter (fun p => !inRange first last p.2.1) } }

/-! ## Orrery actions on the converter (R124, R167, R168, R175) -/

/-- Event 0x0502: the reserved channel is selected: 0 by the host, n + 1 by entry n (R168). -/
def State.channel15 (s : State) (ch : BitVec 4) (who : Nat) : State := if ch = 15 then s.logEv 0x0502 who else s

/-- Set converter channel: takes effect at the next start (R124). -/
def State.setChannel (s : State) (ch : BitVec 4) (n : Nat) : State := ({ s with ad := { s.ad with ch := ch } }).channel15 ch (n + 1)

/-- Sample tag on the conversion in progress (R175). -/
def State.sampleTag (s : State) (mark : Word) : State := if s.ad.runs then { s with ad := { s.ad with tag := some mark } } else s

/-! ## NCO (R189 to R191) -/

/-- TN_CTL.EN: the tone modem has the NCO (R190). -/
def State.tnEn (s : State) : Bool := bitAt (s.nvReg 0x40) 0

/-- The tone modem has the NCO: while it is enabled, and until a transmission begun before has ended (R190, R313). -/
def State.ncoTaken (s : State) : Bool := s.tnEn || s.tn.tx.isSome

/-- The frequency word in force: 0 starts the ramp at the last non-zero frequency, any other ends a ramp and keeps the phase (R191). -/
def Ad.tune (a : Ad) (fw : BitVec 24) : Ad :=
  if fw = 0 then { a with fw := 0, ncoRamp := a.fw != 0 || a.ncoRamp }
  else { a with fw := fw, ncoFw := fw, ncoRamp := false, ncoZero := false }

/-- A committed frequency word; without effect while the tone modem has the NCO (R190). -/
def State.setFw (s : State) (fw : BitVec 24) : State := if s.ncoTaken then s else { s with ad := s.ad.tune fw }

/-- The first multiple of 0x800000 after the phase: the next zero crossing (R191). -/
def nextZero (phase : BitVec 24) : BitVec 24 := BitVec.ofNat 24 ((phase.toNat / 0x800000 + 1) * 0x800000)

/-- The TONE cycles until the accumulator reaches or passes it. -/
def cyclesToZero (phase fw : BitVec 24) : Nat := (0x800000 - phase.toNat % 0x800000 + fw.toNat - 1) / fw.toNat

/-- The accumulator at the zero crossing, held there: the output is 0 (R191). -/
def Ad.atZero (a : Ad) : Ad := { a with phase := nextZero a.phase, ncoRamp := false, ncoZero := true }

/-- n TONE cycles of the NCO at its own frequency word: it advances, and a ramp ends at the zero crossing (07, Tone NCO; R191). -/
def Ad.ncoRun (n : Nat) (a : Ad) : Ad :=
  if a.ncoZero || a.ncoFw == 0 then a
  else if a.ncoRamp && decide (cyclesToZero a.phase a.ncoFw ≤ n) then a.atZero
  else { a with phase := BitVec.ofNat 24 (a.phase.toNat + n * a.ncoFw.toNat) }

/-- The first quarter of the sine table: round(2,047 · sin(2πk / 256)) for k = 0 to 64 (07, Tone NCO). -/
def sineQuarter : List Int :=
  [0, 50, 100, 151, 201, 251, 300, 350, 399, 449, 497, 546, 594, 642, 690, 737, 783, 830, 875, 920, 965, 1009,
   1052, 1095, 1137, 1179, 1219, 1259, 1299, 1337, 1375, 1411, 1447, 1483, 1517, 1550, 1582, 1614, 1644, 1674, 1702, 1729, 1756, 1781,
   1805, 1828, 1850, 1871, 1891, 1910, 1927, 1944, 1959, 1973, 1986, 1997, 2008, 2017, 2025, 2032, 2037, 2041, 2045, 2046, 2047]

/-- S[k]: the whole table from its first quarter, odd-symmetric (07, Tone NCO). -/
def sineTable (k : Nat) : Int :=
  let h := k % 128
  let v := sineQuarter.getD (if h ≤ 64 then h else 128 - h) 0
  if k % 256 < 128 then v else -v

/-- The amplitude A in loop DAC codes: 1,333 while the tone modem has the NCO, else NAMP (R189, R319). -/
def State.ncoAmp (s : State) : Nat := if s.ncoTaken then 1333 else fld (s.lgw 0xF841) 0 12

/-- S[k] at the accumulator's bits [23:16] (07, Tone NCO). -/
def State.ncoSine (s : State) : Int := sineTable (s.ad.phase.extractLsb' 16 8).toNat

/-- The sample added to the loop DAC code (R189). -/
def State.ncoSample (s : State) : Int := divRne (s.ncoSine * s.ncoAmp) 2047

/-- The tone modem serves loop B (R311). -/
def State.ncoOnB (s : State) : Bool :=
  s.ncoTaken && (s.pins.role == .M || s.pins.role == .H || (s.pins.role == .TM && s.tn.loopB))

/-- The code the loop DAC converts: DA_LOOP and the NCO's sample, clipped; on loop B the NCO adds nothing (R189). -/
def State.loopCode (s : State) : Nat := if s.ncoOnB then s.ad.daLoop.toNat else clampNat 0 65535 ((s.ad.daLoop.toNat : Int) + s.ncoSample).toNat

/-- LB_TX against its mean in µV: 500 mV peak to peak (R189, R320). -/
def State.lbTx (s : State) : Int := if s.ncoOnB then divRne (s.ncoSine * 250000) 2047 else 0

/-- A write of DA_NCO: SEL 0 holds, SEL 1 commits (R190). -/
def State.writeNco (s : State) (v : Word) : State :=
  let w := v &&& 0x8FFF#16
  let t := { s with ad := { s.ad with nco := w } }
  if bitAt v 15 then t.setFw (w.extractLsb' 0 12 ++ t.ad.ncoLow)
  else { t with ad := { t.ad with ncoLow := w.extractLsb' 0 12 } }

/-! ## Auxiliary DAC (R184 to R187) -/

/-- DAO is in current mode (R184). -/
def State.daoMode (s : State) : Bool := bitAt (s.lgw 0xF840) 0

/-- What DAO gives for the code in force: in voltage mode nV, 31.25 µV or with DGAIN 62.5 µV per code; in current mode pA, 30.518 nA
per code (R184). -/
def State.daoOut (s : State) : Nat :=
  s.ad.daAux.toNat * (if s.daoMode then 30518 else if bitAt (s.lgw 0xF840) 1 then 62500 else 31250)

/-- A write of parameter word 0 has changed DMODE or DGAIN against an earlier word: zero scale at once (R185). -/
def State.auxMode (s : State) (before : Word) : State :=
  if fld before 0 2 = fld (s.lgw 0xF840) 0 2 then s else { s with ad := { s.ad with daAux := 0 } }

/-- Compliance exceeded for 1.0 ms (R186). -/
def State.compliance (s : State) (mv : Nat) : State :=
  if s.daoMode && !s.ad.compl && 2600 < mv then
    ({ s with ad := { s.ad with compl := true } }.logEv 0x0503 mv).irq 4
  else s

/-- An open loop for 1.0 ms (R187). -/
def State.openLoop (s : State) (mv : Nat) : State :=
  if s.daoMode && 2850 ≤ mv then
    (({ s with ad := { s.ad with dopen := true } }.logEv 0x0504 s.ad.daAux.toNat).irq 4).zeroDac true 4
  else s

/-! ## CALIB (R180) -/

/-- Both means lie within their limits: channel 13 ± 0.50 % of 0x400000, channel 14 ± 64 codes (R172, R180). -/
def State.calib13Bad (s : State) : Bool := decide (8 * 4194304 * 5 < (s.ad.cal13 - 8 * 4194304).natAbs * 1000)

/-- The zero check fails (R172, R180). -/
def State.calib14Bad (s : State) : Bool := decide (8 * 64 < s.ad.cal14.natAbs)

/-- A failed check: CALF, its interrupt, event 0x0104 with channel and mean (R60, R180). -/
def State.calibFail (s : State) (ch : Nat) (sum : Int) : State :=
  ({ s with pw := { s.pw with calf := true } }.logEv 0x0104 (evData [(ch, 0), ((BitVec.ofInt 32 (divRne sum 8)).toNat, 16)])).irq 0

/-- The CALIB checks at their end (R180). -/
def State.calibCheck (s : State) : State :=
  let s1 := if s.ck.measFail || s.calib13Bad then s.calibFail 13 s.ad.cal13 else s
  if s.ck.measFail || s.calib14Bad then s1.calibFail 14 s.ad.cal14 else s1

/-! ## The second (R173) -/

/-- Event 0x0501 for a second in which a result overranged (R173). -/
def State.adSecond (s : State) : State :=
  if s.ad.secOvr = 0 then s
  else { s with ad := { s.ad with secOvr := 0, secMask := 0 } }.logEv 0x0501
    (evData [(s.ad.secMask.toNat, 0), (min 65535 s.ad.secOvr, 16)])

/-- R203, R201: an input's results have stopped for 2.0 s. -/
def State.inputStale (s : State) (k : InputKind) : State :=
  let n := match k with
    | .pressure => 1
    | .temperature => 2
    | .loopB => 9
  let t := match k with
    | .pressure => { s with fe := { s.fe with pStale := true, stale := true } }
    | .temperature => { s with fe := { s.fe with tStale := true, stale := true } }
    | .loopB => { s with fe := { s.fe with bStale := true, stale := true, qvp := 0 } }.setFlows 4 0
  (t.logEv 0x0604 n).irq 5

/-! ## Meanings -/

/-- CONVERSION_END (R174). -/
def execConversionEnd (env : ConvEnv) (s : State) : Host.Outcome State Fault Refusal :=
  .next (s.when (s.coreOn && s.ad.runs) (fun t => t.convEnd env))

/-- DAO_COMPLIANCE (R186). -/
def execDaoCompliance (mv : Nat) (s : State) : Host.Outcome State Fault Refusal := .next (s.when s.coreOn (fun t => t.compliance mv))

/-- DAO_COMPLIANCE_CLEAR (R186): DAO has stayed below 2.60 V for 1.0 ms. -/
def execDaoComplianceClear (s : State) : Host.Outcome State Fault Refusal :=
  .next (s.when s.coreOn (fun t => { t with ad := { t.ad with compl := false } }))

/-- DAO_OPEN_LOOP (R187). -/
def execDaoOpenLoop (mv : Nat) (s : State) : Host.Outcome State Fault Refusal := .next (s.when s.coreOn (fun t => t.openLoop mv))

/-- NCO_ZERO_STOP (R191): the accumulator reaches the next multiple of 0x800000. -/
def execNcoZeroStop (s : State) : Host.Outcome State Fault Refusal :=
  .next (s.when (s.coreOn && s.ad.ncoRamp) (fun t => { t with ad := t.ad.atZero }))

/-- MAG_PAIR_END (R196). -/
def execMagPairEnd (elapsed : Nat) (s : State) : Host.Outcome State Fault Refusal :=
  .next (s.when (s.running && s.feMag && s.xb.pairOpen) (fun t =>
    { (t.pairEnd elapsed) with xb := { (t.pairEnd elapsed).xb with pairOpen := false } }))

/-- INPUT_STALE (R203); loop B is an input while it is the source (R201). -/
def execInputStale (k : InputKind) (s : State) : Host.Outcome State Fault Refusal :=
  .next (s.when (s.running && s.feEn && (k != .loopB || s.fe.srcLive)) (fun t => t.inputStale k))

/-- ADAPT_EVALUATION (R214). -/
def execAdaptEvaluation (s : State) : Host.Outcome State Fault Refusal :=
  .next (s.when s.running (fun t => if t.takesIdle then t.evalMag else if t.takesVor then t.evalVor else t))

end Sys2Proof.Machine
end

