-- ==== Sys2Proof/Machine/Bridge.lean ====
section
/-! DEFINITION. Sys2Proof/Machine/Bridge.lean: the excitation bridge, the reservoir boost and the fault inputs
(06_excitation_bridge.md). Times stand in delay-line taps of 0.977 ns, 1,024 to the microsecond; the on-window d in 1/16 taps. The gate
outputs are functions of the state and of the place in the period, which no command carries. -/

namespace Sys2Proof.Machine

open Sys2Proof.Config (key)

/-! ## Bridge (R140 to R152) -/

/-- XB_CTL.BEN. -/
def State.xbEn (s : State) : Bool := bitAt (s.nvReg 0x22) 0

/-- XB_CTL.IREG. -/
def State.xbIreg (s : State) : Bool := bitAt (s.nvReg 0x22) 1

/-- ISET in sense codes. -/
def State.iset (s : State) : Nat := fld (s.lgw 0xF820) 0 10

/-- d as it stands, in 1/16 taps: XB_DUTY itself while IREG is 0 (R148). -/
def State.dNow (s : State) : Int := if s.xbIreg then s.xb.d else (s.xb.duty.toNat * 16 : Nat)

/-- The on-window in 1/16 taps: nothing while the bridge idles and with XB_DUTY or XB_PER at 0 (R140, R141, R148). -/
def State.window (s : State) : Nat := if s.xb.pol = 0 ∨ s.xb.duty = 0 ∨ s.xb.per = 0 then 0 else s.dNow.toNat

/-- The half in progress ends: its d is kept for the next half of its polarity (R148), a refresh pulse is abandoned and its count starts
afresh (R145; 06, Edges), and a conversion in progress no longer counts for it (R195). -/
def State.endHalf (s : State) : State :=
  { s with xb := { s.xb with dPos := if s.xb.pol = 1 then s.dNow else s.xb.dPos, dNeg := if s.xb.pol = 2 then s.dNow else s.xb.dNeg,
                             pol := 0, creg := false, inBand := 0, outBand := 0, openRun := 0, full := 0, refNow := false },
           ad := { s.ad with curHalf := 0 } }

/-- A half begins with a polarity and the d with which the last half of it ended (R148, R150). -/
def State.beginHalf (s : State) (m : BitVec 2) : State :=
  let t := s.endHalf
  let d := if m = 1 then t.xb.dPos else t.xb.dNeg
  { t with xb := { t.xb with pol := m, d := d, dNext := d } }

/-- A coil pair is granted (R34, R43, R89, R90, R151, R160). -/
def State.pairGranted (s : State) : Bool :=
  s.running && s.xbEn && decide (1400 ≤ s.pins.vres) && !s.pw.shedCoil && s.ck.swlk && !s.xb.fl.getLsbD 0 && !s.xb.fl.getLsbD 2

/-- A positive commutation starts a pair, or skips it and counts the skip (R151). -/
def State.commutePos (s : State) : State :=
  if s.pairGranted then
    let t := s.endHalf.clearPair
    { (t.beginHalf 1) with xb := { (t.beginHalf 1).xb with pair := true, negDone := false, pairOpen := false } }
  else
    let t := s.endHalf
    let u := { t with xb := { t.xb with pair := false, negDone := false } }
    if s.xbEn then { u with pw := { u.pw with skips := satInc u.pw.skips } } else u

/-- What a change of the mask does: positive starts or skips a pair, negative drives the pair granted, idle ends the half, and ends the
pair after its negative half (R150, R151). -/
def State.applyMask (s : State) (m : BitVec 2) : State :=
  if m = 1 then s.commutePos
  else if m = 2 then
    if s.xb.pair && s.running then
      { (s.beginHalf 2) with xb := { (s.beginHalf 2).xb with negDone := true, pairOpen := true } }
    else s.endHalf
  else
    let t := s.endHalf
    { t with xb := { t.xb with pair := t.xb.pair && !s.xb.negDone, negDone := false } }

/-- The output mask of a commutation: 0b11 acts as idle (R124, R150). -/
def maskOf (m : BitVec 2) : BitVec 2 := if m = 3 then 0 else m

/-- The commute-bridge action writes the mask, whether or not a pair is granted; the mask in force changes nothing (R150, R151; 06,
Worked example: POL = 0b10 with PAIR 0). -/
def State.commute (s : State) (m : BitVec 2) : State :=
  if maskOf m = s.xb.mask then s
  else
    let t := s.applyMask (maskOf m)
    { t with xb := { t.xb with mask := maskOf m } }

/-- A half cut short: PAIR clears, the bridge idles until the next grant, the cycle is truncated; the mask stays as the commutation
wrote it (R35, R152). -/
def State.cutHalf (s : State) : State :=
  if s.xb.pol = 0 && !s.xb.pair then s
  else
    let t := s.endHalf
    { t with xb := { t.xb with pair := false, negDone := false, pairOpen := false } }.truncPair

/-- The regulator's next on-window (R148). -/
def State.nextD (s : State) (ics : Nat) : Int :=
  let e : Int := (s.iset : Int) - ics
  let kp : Int := 2 ^ fld (s.lgw 0xF821) 0 4
  let ki : Int := 2 ^ fld (s.lgw 0xF821) 4 4
  clampInt 0 (s.xb.duty.toNat * 16 : Nat) (s.xb.d + kp * (e - s.xb.ePrev) + ki * e)

/-- The d at which the coil is driven as hard as the ceiling allows (R149). -/
def State.atCeiling (s : State) : Bool := decide (s.xb.duty.toNat * 16 ≤ s.window) && s.window != 0

/-- CREG and the open-coil count after a sample (R149). -/
def State.regulated (s : State) (ics : Nat) (ceiling : Bool) : State :=
  let band : Bool := decide (((ics : Int) - s.iset).natAbs * 50 ≤ s.iset)
  let inB := if band then s.xb.inBand + 1 else 0
  let outB := if band then 0 else s.xb.outBand + 1
  let run := if decide (ics * 8 < s.iset) && ceiling then s.xb.openRun + 1 else 0
  { s with xb := { s.xb with inBand := inB, outBand := outB, openRun := run,
                             creg := if 8 ≤ inB then true else if 8 ≤ outB then false else s.xb.creg } }

/-- A carrier peak: the sample, when the period has an on-window, and the next on-window into the duty shadow (R147, R148). A refresh
pulse about the valley before it is over (R145). -/
def State.carrierPeak (s : State) (sample : BitVec 10) : State :=
  let on := s.window != 0
  let ceil := s.atCeiling
  let s1 := if on then
      { s with xb := { s.xb with ics := sample, icsSum := s.xb.icsSum + sample.toNat, icsN := s.xb.icsN + 1 } } else s
  let ics := s1.xb.ics.toNat
  let s2 := if on then s1.regulated ics ceil else s1
  let s3 := { s2 with xb := { s2.xb with refNow := false } }
  if s.xbIreg && s.xb.pol != 0 then
    { s3 with xb := { s3.xb with dNext := s3.nextD ics, ePrev := (s3.iset : Int) - ics } }
  else if s.xbIreg then s3
  else { s3 with xb := { s3.xb with dNext := (s.xb.duty.toNat * 16 : Nat) } }

/-- The period counts as 100 % duty: its switching leg's low side does not turn on (R144). -/
def State.fullDuty (s : State) : Bool :=
  s.window != 0 && decide ((s.xb.per.toNat : Int) * 16 - s.window - 2 * (s.xb.dt.toNat : Int) * 16 < 16 * 16)

/-- A carrier valley, the period boundary: the 100 % count, the shadows with the computed on-window while HOLD is 0 (R142, R148), the
taps (R88), and after a lock the bridge's return (R89). -/
def State.carrierValley (s : State) : State :=
  let full := if s.fullDuty then s.xb.full + 1 else 0
  let t := { s with xb := { s.xb with full := full } }
  let u := if s.xb.hold then t
    else { t with xb := { t.xb with per := s.nvReg 0x24, duty := s.nvReg 0x26, dt := s.nvReg 0x28, d := s.xb.dNext } }
  let v := { u with ck := { u.ck with onHfo := u.ck.onHfo && !u.ck.swlk } }
  if v.ck.tapPend then { v with ck := { v.ck with tapPend := false, tapCount := v.ck.tapCount + 1 } } else v

/-- A bootstrap refresh after REFN full periods in a row: the pulse stands about the present valley, and the count starts afresh
(R145). -/
def State.refresh (s : State) : State :=
  let n := fld (s.lgw 0xF822) 0 8
  if n = 0 ∨ s.xb.full < n ∨ s.xb.pol = 0 then s
  else
    let t := { s with xb := { s.xb with full := 0, refNow := true, refCnt := satInc s.xb.refCnt } }
    t.pinned 4 0xF82E t.xb.refCnt

/-- t_R in taps: 50 × (REFW + 1) ns, rounded up to whole taps (R145). -/
def State.refTaps (s : State) : Nat := divCeil (50 * (fld (s.lgw 0xF822) 8 4 + 1) * 1024) 1000

/-! ## Gates of the bridge (R140, R141, R143 to R145, R150, R159, R162) -/

/-- The four gates of the bridge. -/
structure Gates where
  ah : Bool
  al : Bool
  bh : Bool
  bl : Bool
deriving DecidableEq, Repr

/-- All four gates low. -/
def Gates.low : Gates := ⟨false, false, false, false⟩

/-- The bridge has no lock or no boundary since one (R89), its group or FLT2's has tripped (R159), in a freeze too (R162). -/
def State.bridgeHeld (s : State) : Bool :=
  !s.ck.swlk || s.ck.onHfo || s.xb.fl.getLsbD 0 || s.xb.fl.getLsbD 2 || s.xb.frozenTrip.getLsbD 0 || s.xb.frozenTrip.getLsbD 2

/-- The on-window in whole taps, at most the period (R141, R148). -/
def State.windowTaps (s : State) : Nat := min s.xb.per.toNat (s.window / 16)

/-- The tap at which the on-window opens: it is centred on the carrier peak, which ceil(XB_PER / 2) taps after the valley is (R140,
R141). -/
def State.openTap (s : State) : Nat := (s.xb.per.toNat + 1) / 2 - (s.windowTaps + 1) / 2

/-- Taps from the nearest carrier valley. -/
def State.fromValley (s : State) (tap : Nat) : Nat := min tap (s.xb.per.toNat - tap)

/-- The switching leg's high side at a tap of the period: the on-window, less a refresh's t_R and its dead times about the valley
(R143, R145). -/
def State.legHigh (s : State) (tap : Nat) : Bool :=
  decide (s.openTap ≤ tap) && decide (tap < s.openTap + s.windowTaps) &&
  !(s.xb.refNow && decide (2 * s.fromValley tap < s.refTaps + 2 * s.xb.dt.toNat))

/-- The switching leg's low side at a tap: all the period with no on-window; the middle t_R of a refresh; in a period of 100 % duty
not; else from XB_DT taps after the window to XB_DT taps before it (R143 to R145). -/
def State.legLow (s : State) (tap : Nat) : Bool :=
  if s.windowTaps = 0 then true
  else if s.xb.refNow && decide (2 * s.fromValley tap < s.refTaps) then true
  else if s.fullDuty then false
  else decide (tap + s.xb.dt.toNat < s.openTap) || decide (s.openTap + s.windowTaps + s.xb.dt.toNat ≤ tap)

/-- XB_AH, XB_AL, XB_BH, XB_BL at a tap of the carrier period, so many taps after the last change of the mask: all low while the bridge
idles, is held, has XB_PER or XB_DUTY at 0, and for XB_DT taps after the change; else one leg switches and the other keeps its low side
on (R140, R141, R150). In a freeze nothing of this changes, so the gates keep their levels (R162). -/
def State.bridgeGates (s : State) (tap since : Nat) : Gates :=
  if s.xb.pol = 0 ∨ s.xb.per = 0 ∨ s.xb.duty = 0 ∨ s.bridgeHeld ∨ since < s.xb.dt.toNat then Gates.low
  else if s.xb.pol = 1 then ⟨s.legHigh tap, s.legLow tap, false, true⟩
  else ⟨false, true, s.legHigh tap, s.legLow tap⟩

/-- The coil is open (R149). -/
def State.coilOpen (s : State) : State :=
  if s.xb.openRun < 64 then s
  else
    let t := s.endHalf
    ({ t with xb := { t.xb with pair := false, negDone := false, openCoil := true } }.logEv 0x0406
      (evData [(s.xb.ics.toNat, 0), (s.dNow.toNat / 16, 16)])).irq 3

/-! ## Boost (R153 to R157) -/

/-- BRETRY. -/
def State.bretry (s : State) : Nat := fld (s.lgw 0xF825) 4 3

/-- The boost stops with a cause (1 check window, 2 limited run, 3 FLT1): a retry is scheduled, or the short latch set (R156). -/
def State.boostStop (s : State) (cause : Nat) : State :=
  let attempt := s.xb.batt.toNat + 1
  let t := { s with xb := { s.xb with brun := false, bfull := false, limRun := 0, last8 := [], batt := BitVec.ofNat 3 (min 7 attempt) } }
  if s.bretry + 1 ≤ attempt then
    ({ t with xb := { t.xb with bscl := true, bstate := 0 } }.logEv 0x0404 (evData [(cause, 0), (attempt, 8)])).irq 3
  else ({ t with xb := { t.xb with bstate := 3 } }.logEv 0x0403 (evData [(cause, 0), (attempt, 8)])).irq 3

/-- A fault input trips: flag, event with the mask in force, interrupt (R159). -/
def State.tripFlag (s : State) (n : Nat) : State :=
  ({ s with xb := { s.xb with fl := s.xb.fl ||| BitVec.ofNat 3 (2 ^ n), lvl := s.xb.lvl ||| BitVec.ofNat 3 (2 ^ n) } }.logEv 0x0401
    (evData [(n, 0), (s.xb.mask.toNat, 8)])).irq 3

/-- The boost may switch: no lock once reached is lost, FLT2's group has not tripped (R89, R90, R159). -/
def State.boostMay (s : State) : Bool := !s.ck.lost && !s.xb.fl.getLsbD 2

/-- A boost start, in RAILS or as a retry: FL[1] clears; an active FLT1 trips again at once (R156, R160). With TON at 0 the boost
idles (R157). -/
def State.boostStart (s : State) : State :=
  let t := { s with xb := { s.xb with fl := s.xb.fl &&& 0b101#3, limRun := 0, last8 := [], bfull := false, fullSeen := false, cyc := 0 } }
  if s.lgw 0xF826 = 0 then { t with xb := { t.xb with bstate := 0, brun := false } }
  else
    let u := { t with xb := { t.xb with bstate := 1, brun := t.boostMay } }
    if u.xb.lvl.getLsbD 1 then (u.tripFlag 1).boostStop 3 else u

/-- A time of the boost in taps: on the HFO in whole cycles of 62.5 ns, 64 taps (R90). -/
def State.boostTaps (s : State) (taps : Nat) : Nat := if s.ck.hfoBoost then (taps + 32) / 64 * 64 else taps

/-- TON in force, in taps. -/
def State.ton (s : State) : Nat := s.boostTaps (s.lgw 0xF826).toNat

/-- TOFF in force, in taps. -/
def State.toff (s : State) : Nat := s.boostTaps (s.lgw 0xF827).toNat

/-- BLIM in 0.1 mV, held to 20 to 250 mV. -/
def State.blim (s : State) : Nat := 10 * clampNat 20 250 (fld (s.lgw 0xF828) 0 8)

/-- BRS in 10 mΩ; 0 acts as 1. -/
def State.brs (s : State) : Nat := max 1 (fld (s.lgw 0xF829) 0 8)

/-- BMODE: constant off-time. -/
def State.bmode (s : State) : Bool := bitAt (s.lgw 0xF825) 0

/-- The on-time of a cycle: TON, or ended early when BST_CS reached BLIM (R154, R155). -/
def State.boostOn (s : State) (e : BoostEnv) : Nat := min s.ton (e.blimAt.getD s.ton)

/-- Taps of the on-time's end after which the first condition of R153 is met at the latest: 32 µs. -/
def demagTaps : Nat := 32768

/-- The taps from the turn-on to the point from which TOFF counts: BST_CS below BLIM / 16, at most 32 µs after the on-time (R153); in
constant off-time the on-time's end (R154). -/
def State.cycleEnd (s : State) (e : BoostEnv) : Nat :=
  if s.bmode then s.boostOn e else s.boostOn e + min demagTaps (e.lowAt.getD demagTaps)

/-- The cycle is limited (R155). -/
def State.limited (s : State) (e : BoostEnv) : Bool :=
  if s.bmode then decide (s.blim ≤ e.csOn)
  else (e.blimAt.any (fun n => decide (n < s.ton))) || (match e.lowAt with
    | some n => decide (demagTaps < n)
    | none => true)

/-- TOFF has passed since the cycle's end (R153, R154). -/
def State.cycleReady (s : State) (e : BoostEnv) : Bool := decide (s.cycleEnd e + s.toff ≤ e.elapsed)

/-- Role T: the grant since the turn-on, I_g × elapsed, is at least the charge of the cycle, the integral of BST_CS over BRS (R153). No
grant applies in the other roles. -/
def State.boostGrant (s : State) (e : BoostEnv) : Bool :=
  s.pins.role != .T || decide (((e.area * 10000 : Nat) : Int) ≤ s.pw.surplus * (e.elapsed * s.brs : Nat))

/-- A cycle is complete: it is judged and counted once (R155, R156). -/
def State.judgeCycle (s : State) (limited : Bool) : State :=
  let t := { s with xb := { s.xb with cyc := 2, last8 := (limited :: s.xb.last8).take 8, limRun := if limited then s.xb.limRun + 1 else 0 } }
  if limited then
    let u := { t with xb := { t.xb with limCnt := satInc t.xb.limCnt } }
    u.pinned 4 0xF82F u.xb.limCnt
  else t

/-- BST_G turns on: a period boundary of the boost, at which a tap calibration and, under lock, SWITCH timing take effect (R88, R90). -/
def State.turnOn (s : State) : State :=
  { s with xb := { s.xb with cyc := 1 },
           ck := { s.ck with hfoBoost := s.ck.hfoBoost && !s.ck.swlk, tapBoost := s.ck.tapBoost && !s.ck.swlk } }

/-- After a relock the boost resumes at its next period boundary (R89). -/
def State.boostResume (s : State) : State :=
  if !s.xb.brun && (s.xb.bstate == 1 || s.xb.bstate == 2) && !s.xb.bfull && s.boostMay then
    { s with xb := { s.xb with brun := true, cyc := 0 } }
  else s

/-- The boost at the moment at which a cycle may begin: the cycle in progress is judged once it is complete, and the next begins when
TOFF has passed and in role T the grant has paid for the last (R153 to R156). -/
def State.boostCycle (s : State) (e : BoostEnv) : State :=
  let t := s.boostResume
  if !t.xb.brun || t.ton == 0 then t
  else if t.xb.cyc = 0 then t.turnOn
  else
    let u := if t.xb.cyc = 1 && decide (t.cycleEnd e ≤ e.elapsed) then t.judgeCycle (t.limited e) else t
    if u.xb.cyc = 2 && u.cycleReady e && u.boostGrant e then u.turnOn else u

/-- BST_G, so many taps after a turn-on, with the highest BST_CS since then in 0.1 mV: on for TON taps or until BLIM is reached; low
while the boost does not switch and with FLT1 or FLT2 tripped, in a freeze too (R153 to R155, R159, R162). -/
def State.boostGate (s : State) (since peak : Nat) : Bool :=
  s.xb.brun && s.xb.cyc == 1 && decide (since < s.ton) && decide (peak < s.blim) &&
  !s.xb.frozenTrip.getLsbD 1 && !s.xb.frozenTrip.getLsbD 2

/-- The end of the check window; it passes when VRES has reached the stop voltage in it (R156; 06, Edges). -/
def State.boostCheck (s : State) : State :=
  if s.xb.bstate != 1 then s
  else if s.xb.bfull || s.xb.fullSeen then { s with xb := { s.xb with bstate := 2 } }
  else if s.xb.last8.isEmpty || (s.xb.last8.length == 8 && s.xb.last8.all id) then s.boostStop 1
  else { s with xb := { s.xb with bstate := 2 } }

/-- The boost restarts when VRES has fallen 0.5 V below the voltage at which it stopped (R33). -/
def State.boostRestart (s : State) : State :=
  if s.xb.bfull && decide (s.pins.vres + 50 ≤ s.xb.fullAt) then
    { s with xb := { s.xb with bfull := false, brun := s.boostMay && (s.xb.bstate == 1 || s.xb.bstate == 2), cyc := 0 } }
  else s

/-- The boost stops at VRES as it stands, 24.0 V ± 0.5 (R33). -/
def State.boostFull (s : State) : State :=
  if s.xb.brun && decide (2350 ≤ s.pins.vres) then
    { s with xb := { s.xb with brun := false, bfull := true, fullAt := s.pins.vres, fullSeen := true, cyc := 0 } }
  else s.boostRestart

/-- The boost ends with DRAIN or HOLD (R52, R54). -/
def State.boostOff (s : State) : State :=
  { s with xb := { s.xb with brun := false, bfull := false, bstate := 0, limRun := 0, last8 := [], cyc := 0 } }

/-- The keyed clear of BSCL (R157). -/
def State.boostClear (s : State) : State :=
  if !s.xb.bscl then s
  else ({ s with xb := { s.xb with bscl := false, batt := 0 } }.logEv 0x0405 0).boostStart

/-! ## Fault inputs (R159 to R162) -/

/-- What a tripped group's gates do: bridge halves end, the boost stops (R159). -/
def State.groupLow (s : State) (n : Nat) : State :=
  if n = 0 then s.cutHalf
  else if n = 1 then (if s.xb.bstate == 1 || s.xb.bstate == 2 then s.boostStop 3 else s)
  else
    let t := s.cutHalf
    { t with xb := { t.xb with brun := false, cyc := 0 } }

/-- Within 1.0 s of the group's automatic restart (R160). -/
def State.soonAfterAuto (s : State) (n : Nat) : Bool := s.xb.autoAt.any (fun p => p.1 == n && s.within p.2 1000)

/-- An input becomes active: its group goes low, flag and event; after an automatic restart less than 1.0 s ago the flag is kept
(R159, R160). -/
def State.faultTrip (s : State) (n : Nat) : State :=
  let t := (s.groupLow n).tripFlag n
  if s.soonAfterAuto n then
    ({ t with xb := { t.xb with kept := t.xb.kept ||| BitVec.ofNat 3 (2 ^ n) } }.logEv 0x0409 n).irq 3
  else t

/-- During a freeze: the group's gates go low without a clock (bridgeGates, boostGate); the flag and the event follow at its end
(R162). -/
def State.frozenFault (s : State) (n : Nat) : State :=
  { s with xb := { s.xb with frozenTrip := s.xb.frozenTrip ||| BitVec.ofNat 3 (2 ^ n) } }

/-- The trips a freeze held back (R162). -/
def State.releaseTrips (s : State) : State :=
  let f := s.xb.frozenTrip
  let t := { s with xb := { s.xb with frozenTrip := 0 } }
  [0, 1, 2].foldl (fun acc n => if f.getLsbD n then acc.faultTrip n else acc) t

/-- A group restarts: the boost at once, the bridge at the next grant (R160). -/
def State.groupRestart (s : State) (n : Nat) (host : Bool) : State :=
  let t := { s with xb := { s.xb with fl := s.xb.fl &&& ~~~(BitVec.ofNat 3 (2 ^ n)), kept := s.xb.kept &&& ~~~(BitVec.ofNat 3 (2 ^ n)) } }
  if n = 1 then t
  else
    let u := t.logEv 0x0402 (evData [(n, 0), (b2n host, 8)])
    if n = 2 && (u.xb.bstate == 1 || u.xb.bstate == 2) && !u.xb.bfull then { u with xb := { u.xb with brun := u.boostMay, cyc := 0 } } else u

/-- A write of ones to FL clears the flags whose inputs are inactive (R160). -/
def State.clearFlags (s : State) (bits : BitVec 3) : State :=
  [0, 1, 2].foldl (fun acc n =>
    if bits.getLsbD n && acc.xb.fl.getLsbD n && !acc.xb.lvl.getLsbD n then acc.groupRestart n true else acc) s

/-- FPOL: the active level of each input (R159). -/
def State.fpol (s : State) : BitVec 3 := (s.lgw 0xF824).extractLsb' 8 3

/-- The inputs whose filtered pin stands at its active level (R159). -/
def State.faultActive (s : State) : BitVec 3 := ~~~(s.pins.flt ^^^ s.fpol)

/-- The fault inputs as their pins stand: LVL follows them, and each that becomes active trips its group (R159, R160). -/
def State.faultLevels (s : State) : State :=
  let now := s.faultActive
  let rise := now &&& ~~~s.xb.lvl
  [0, 1, 2].foldl (fun acc n => if rise.getLsbD n then acc.faultTrip n else acc) { s with xb := { s.xb with lvl := now } }

/-- The filtered pin of an input, put at its active or its inactive level. -/
def State.fltPin (s : State) (n : Nat) (active : Bool) : State :=
  let b := BitVec.ofNat 3 (2 ^ n)
  { s with pins := { s.pins with flt := if active == s.fpol.getLsbD n then s.pins.flt ||| b else s.pins.flt &&& ~~~b } }

/-- An input has been inactive for 64 ms: the automatic restart where ARn allows it (R160). -/
def State.autoRestart (s : State) (n : Nat) : State :=
  let t := { s with xb := { s.xb with lvl := s.xb.lvl &&& ~~~(BitVec.ofNat 3 (2 ^ n)) } }
  let ar := if n = 0 then bitAt (s.nvReg 0x2A) 8 else if n = 2 then bitAt (s.nvReg 0x2A) 10 else false
  if ar && s.xb.fl.getLsbD n && !s.xb.kept.getLsbD n then
    let u := t.groupRestart n false
    { u with xb := { u.xb with autoAt := (n, s.pw.ticks) :: u.xb.autoAt.filter (fun p => p.1 != n) } }
  else t

/-! ## Meanings -/

/-- The bridge and boost have their clock: CORE and SWITCH run. -/
def State.xbOn (s : State) : Bool := s.coreOn && (s.pw.st != .wake)

/-- CARRIER_PEAK (R148). -/
def execCarrierPeak (ics : BitVec 10) (s : State) : Host.Outcome State Fault Refusal := .next (s.when s.runOrDrain (fun t => t.carrierPeak ics))

/-- CARRIER_VALLEY (R142). -/
def execCarrierValley (s : State) : Host.Outcome State Fault Refusal := .next (s.when s.runOrDrain State.carrierValley)

/-- BOOTSTRAP_REFRESH (R145). -/
def execBootstrapRefresh (s : State) : Host.Outcome State Fault Refusal := .next (s.when s.runOrDrain State.refresh)

/-- COIL_OPEN (R149). -/
def execCoilOpen (s : State) : Host.Outcome State Fault Refusal := .next (s.when s.runOrDrain State.coilOpen)

/-- BOOST_CYCLE_START (R153). -/
def execBoostCycleStart (e : BoostEnv) (s : State) : Host.Outcome State Fault Refusal := .next (s.when s.xbOn (fun t => t.boostCycle e))

/-- BOOST_CHECK_WINDOW_END (R156). -/
def execBoostCheckWindowEnd (s : State) : Host.Outcome State Fault Refusal := .next (s.when s.xbOn State.boostCheck)

/-- BOOST_LIMITED_RUN (R156). -/
def execBoostLimitedRun (s : State) : Host.Outcome State Fault Refusal :=
  .next (s.when (s.xbOn && s.xb.bstate == 2 && decide (64 ≤ s.xb.limRun)) (fun t => t.boostStop 2))

/-- BOOST_RETRY_TIMEOUT (R156). -/
def execBoostRetryTimeout (s : State) : Host.Outcome State Fault Refusal :=
  .next (s.when (s.xbOn && s.xb.bstate == 3) State.boostStart)

/-- BOOST_ATTEMPT_RESET (R156). -/
def execBoostAttemptReset (s : State) : Host.Outcome State Fault Refusal :=
  .next (s.when (s.xbOn && s.xb.bstate == 2 && s.xb.limRun == 0) (fun t => { t with xb := { t.xb with batt := 0 } }))

/-- FAULT_INPUT_TRIP (R159, R162). -/
def execFaultInputTrip (n : BitVec 2) (s : State) : Host.Outcome State Fault Refusal :=
  .next (if n = 3 then s
    else if s.hb.frzTs || s.hb.frzTest then (s.fltPin n.toNat true).frozenFault n.toNat
    else s.when s.xbOn (fun t => (t.fltPin n.toNat true).faultTrip n.toNat))

/-- FAULT_AUTO_RESTART (R160). -/
def execFaultAutoRestart (n : BitVec 2) (s : State) : Host.Outcome State Fault Refusal :=
  .next (if n = 3 then s else s.when s.xbOn (fun t => (t.fltPin n.toNat false).autoRestart n.toNat))

end Sys2Proof.Machine
end

