-- ==== Sys2Proof/Machine/Orrery.lean ====
section
/-! DEFINITION. Sys2Proof/Machine/Orrery.lean: the angle scheduler (05_orrery_angle_scheduler.md): tooth validation, retraction, position,
the event table, the tooth map, speed and standstill. Times are SWITCH cycles; predictions are exact quotients (log entry 16). -/

namespace Sys2Proof.Machine

open Sys2Proof.Config (key)

/-! ## Configuration (R107 to R111, R125, R136, R138) -/

/-- OR_CTL.SRC: 0 none, 1 ROTOR, 2 VORTEX, 3 MAINS (R107). -/
def State.orSrc (s : State) : Nat := fld (s.nvReg 0x18) 0 2

/-- OR_CTL.RUN: the event table is live (R125). -/
def State.orRun (s : State) : Bool := bitAt (s.nvReg 0x18) 2

/-- TPR as it acts: 0 for VORTEX, at most 512 (R109, R138). -/
def State.tpr (s : State) : Nat := if s.orSrc = 1 then min 512 (fld (s.orw 0x300) 0 10) else 0

/-- Teeth per revolution: 1,024 for MAINS, one for an unindexed source (R110, R111). -/
def State.teeth (s : State) : Nat := if s.orSrc = 3 then 1024 else max 1 s.tpr

/-- Live entries (R125). -/
def State.nev (s : State) : Nat := min 64 (fld (s.orw 0x301) 0 7)

/-- REJ in 0.01, held to 25 to 60 (R113, R138). -/
def State.rej (s : State) : Nat := clampNat 25 60 (fld (s.orw 0x302) 0 7)

/-- The window's length W (R131). -/
def State.avgW (s : State) : Nat := fld (s.nvReg 0x18) 10 5 + 1

/-- The map is in use: while MAPV and SYNC are set (R127). -/
def State.mapUsed (s : State) : Bool := s.orr.mapv && s.orr.sync && decide (1 ≤ s.tpr)

/-- The angle of tooth k in 1/65,536 revolution, from the map or nominal (R111, R127). -/
def State.toothAngle (s : State) (k : Nat) : Nat :=
  if s.mapUsed then (s.orw (0x100 + k)).toNat else (k * 65536 + s.teeth / 2) / s.teeth

/-- The tooth index after a step forward or back (R130). -/
def State.nextIdx (s : State) (rev : Bool) : Nat :=
  if rev then (if s.orr.tidx = 0 then s.teeth - 1 else s.orr.tidx - 1)
  else if s.teeth ≤ s.orr.tidx + 1 then 0 else s.orr.tidx + 1

/-- The next forward tooth is the index tooth: the step to it is the one that closes the revolution (R127, R130, R198). -/
def State.toIndex (s : State) (rev : Bool) : Bool := s.orr.idxNext && !rev

/-- The step to the next tooth in 1/65,536 revolution. -/
def State.stepAngle (s : State) (rev : Bool) : Nat :=
  let i := if s.toIndex rev then s.teeth - 1 else s.orr.tidx
  let j := if s.toIndex rev then 0 else s.nextIdx rev
  if rev then (if i ≤ j then s.toothAngle i + 65536 - s.toothAngle j else s.toothAngle i - s.toothAngle j)
  else if j ≤ i then s.toothAngle j + 65536 - s.toothAngle i else s.toothAngle j - s.toothAngle i

/-- The pitch of the next tooth as a fraction of the revolution: the map's, or nominal (R198). -/
def State.pitchOf (s : State) (rev : Bool) : Nat × Nat := if s.mapUsed then (s.stepAngle rev, 65536) else (1, s.teeth)

/-- The same pitch in 1/(65,536 · N) revolution, for the window. -/
def State.pitchUnits (s : State) (rev : Bool) : Nat := if s.mapUsed then s.stepAngle rev * s.teeth else 65536

/-! ## Window, prediction, speed (R113, R131 to R134) -/

/-- Sum of the window's intervals. -/
def sumDt (w : List Interval) : Nat := w.foldl (fun a i => a + i.dt) 0

/-- Sum of the window's pitches. -/
def sumPitch (w : List Interval) : Nat := w.foldl (fun a i => a + i.pitch) 0

/-- The prediction for the next tooth, as a quotient; none with an empty window. -/
def State.predict (s : State) (rev : Bool) : Option (Nat × Nat) :=
  if s.orr.window.isEmpty then none else some (s.pitchUnits rev * sumDt s.orr.window, sumPitch s.orr.window)

/-- The direction in which the position last moved. -/
def State.moving (s : State) : Bool :=
  match s.orr.pend.head? with
  | some p => p.rev
  | none => s.orr.dir

/-- An interval enters the window, which keeps the last W. -/
def State.pushInterval (s : State) (i : Interval) : State :=
  { s with orr := { s.orr with window := (i :: s.orr.window).take s.avgW } }

/-- OR_SPEED from the window, for a direction (R131, R133). -/
def State.respeedIn (s : State) (rev : Bool) : State :=
  let w := s.orr.window
  let u := if s.orSrc = 1 then s.teeth else 1
  let res := match fld (s.nvReg 0x18) 8 2 with
    | 0 => 1
    | 1 => 10
    | _ => 100
  let mag := divRne ((sumPitch w * 32000000 * u * res : Nat) : Int) (65536 * s.teeth * sumDt w)
  let v := if rev then -mag else mag
  { s with orr := { s.orr with speed := BitVec.ofInt 16 (clampInt (-32767) 32767 v),
                               spsat := decide (32767 < mag), spest := !w.isEmpty && decide (w.length < s.avgW) } }

/-- OR_SPEED from the window, in the direction in which the position last moved (R131). -/
def State.respeed (s : State) : State := s.respeedIn s.moving

/-! ## Position (R112, R118, R120) -/

/-- Of two positions the one farther on in a direction: the higher, in reverse the lower (R118, R120). -/
def farther (rev : Bool) (a b : Word48) : Word48 := if (if rev then newer 48 b a else newer 48 a b) then b else a

/-- The position reported and used for firing: the held one until the angle passes it (R118; mirrored in reverse, R120). -/
def State.position (s : State) : Word48 := farther s.moving s.orr.angle s.orr.held

/-- The revolution of a position. -/
def revOf (a : Word48) : Word32 := a.extractLsb' 16 32

/-- The fraction of a position. -/
def fracOf (a : Word48) : Nat := a.toNat % 65536

/-- θ at a time, before the hold (R120). -/
def State.theta (s : State) (now : Nat) : Word48 :=
  if s.orr.still then s.orr.angle
  else match s.predict s.moving with
    | none => s.orr.angle
    | some _ =>
      let p := s.stepAngle s.moving
      let x := (now - s.orr.tLast) * sumPitch s.orr.window / (sumDt s.orr.window * s.teeth)
      let d := BitVec.ofNat 48 (min x (p - 1))
      if s.moving then s.orr.angle - d else s.orr.angle + d

/-- The position at a time, held under R118. -/
def State.thetaHeld (s : State) (now : Nat) : Word48 := farther s.moving (s.theta now) s.orr.held

/-- The latest time known. -/
def State.seenAt (s : State) (now : Nat) : State := { s with orr := { s.orr with now := now } }

/-! ## Event table (R121 to R125) -/

/-- Entry n: angle, revolution offset, action, argument (R123). -/
structure Entry where
  angle : Nat
  revoff : Nat
  action : Nat
  both : Bool
  arg : Word32
deriving DecidableEq, Repr

/-- Entry n of the table (R123). -/
def State.entry (s : State) (n : Nat) : Entry :=
  let w1 := s.orw (4 * n + 1)
  { angle := (s.orw (4 * n)).toNat, revoff := fld w1 0 8, action := fld w1 8 7, both := bitAt w1 15,
    arg := dword (s.orw (4 * n + 2)) (s.orw (4 * n + 3)) }

/-- The entry qualifies in a revolution (R123). -/
def State.qualifies (s : State) (e : Entry) (r : Word32) : Bool :=
  let c := 2 ^ s.orr.cycle.toNat
  r.toNat % c == e.revoff * c / 256

/-- Entry n is live and has not fired in a revolution (R118, R121, R125). -/
def State.mayFire (s : State) (n : Nat) (r : Word32) : Bool :=
  s.orRun && decide (n < s.nev) && !((n, r) ∈ s.orr.fired) && s.qualifies (s.entry n) r

/-- A reserved action is logged once per entry (R124). -/
def State.reservedAction (s : State) (n code : Nat) : State :=
  if n ∈ s.orr.resLogged then s
  else { s with orr := { s.orr with resLogged := n :: s.orr.resLogged } }.logEv 0x030A (evData [(n, 0), (code, 8)])

/-- The interrupt action (R124). -/
def State.orrInterrupt (s : State) (n : Nat) (arg : Word32) : State :=
  { s with orr := { s.orr with intarg := loWord arg, intent := BitVec.ofNat 6 n, evi := true } }.irq 2

/-- The flow-engine update action (R124, R207). -/
def State.orrUpdate (s : State) : State :=
  { s with fe := { s.fe with updPos := s.position, updT := s.orr.tLast } }.feUpdateNow

/-- The action of entry n (R124). -/
def State.act (s : State) (n : Nat) (e : Entry) : State :=
  match e.action with
  | 0 => s
  | 1 => s.setChannel (e.arg.extractLsb' 0 4) n
  | 2 => s.commute (e.arg.extractLsb' 0 2)
  | 3 => s.sampleTag (loWord e.arg)
  | 4 => s.setFw (e.arg.extractLsb' 0 24)
  | 5 => s.orrUpdate
  | 6 => s.orrInterrupt n e.arg
  | k => s.reservedAction n k

/-- An event has fired on the newest pending tooth (R117). -/
def State.markFired (s : State) (n : Nat) (r : Word32) : State :=
  { s with orr := { s.orr with
      fired := (n, r) :: s.orr.fired,
      pend := match s.orr.pend with
        | [] => []
        | p :: ps => { p with fired := true } :: ps } }

/-- Entry n fires in a revolution. -/
def State.fire (s : State) (n : Nat) (r : Word32) : State := (s.markFired n r).act n (s.entry n)

/-- Entry n fires late (R122). -/
def State.fireLate (s : State) (n : Nat) (r : Word32) : State :=
  let t := s.fire n r
  let u := { t with orr := { t.orr with late := true, lateCnt := satInc t.orr.lateCnt, secLate := t.orr.secLate + 1 } }
  u.pinned 3 0x31B u.orr.lateCnt

/-- The revolution, if any, in which an entry's angle lies from position a up to before b, going forward (R122). -/
def crossedFwd (a b : Word48) (angle : Nat) : Option Word32 :=
  if revOf a = revOf b then (if fracOf a ≤ angle ∧ angle < fracOf b then some (revOf a) else none)
  else if fracOf a ≤ angle then some (revOf a)
  else if angle < fracOf b then some (revOf b) else none

/-- As crossedFwd, going back from a down to after b. -/
def crossedRev (a b : Word48) (angle : Nat) : Option Word32 :=
  if revOf a = revOf b then (if angle ≤ fracOf a ∧ fracOf b < angle then some (revOf a) else none)
  else if angle ≤ fracOf a then some (revOf a)
  else if fracOf b < angle then some (revOf b) else none

/-- The late-fires of a step of the position from a to b, in ascending entry order (R121, R122). -/
def State.lateFires (s : State) (a b : Word48) (rev : Bool) : State :=
  (List.range s.nev).foldl (fun acc n =>
    let e := acc.entry n
    let hit := if rev then (if e.both then crossedRev a b e.angle else none) else crossedFwd a b e.angle
    match hit with
    | some r => if acc.mayFire n r then acc.fireLate n r else acc
    | none => acc) s

/-- Entry n falls due at a position: it has been reached or passed in the direction of motion (R121). -/
def State.dueHere (s : State) (n : Nat) (pos : Word48) : Bool :=
  let e := s.entry n
  s.mayFire n (revOf pos) && (if s.moving then e.both && decide (fracOf pos ≤ e.angle) else decide (e.angle ≤ fracOf pos))

/-- A lower entry falls due at the same crossing and has not fired: entries fire in ascending order (R121). -/
def State.earlierDue (s : State) (n : Nat) (pos : Word48) : Bool :=
  (List.range n).any (fun m => (s.entry m).angle == (s.entry n).angle && (s.entry m).action != 0 && s.dueHere m pos)

/-- A crossing on time: entry n, with the action the command names, at a time (R121). -/
def State.dueAt (s : State) (n now : Nat) (action : Nat → Bool) : Bool :=
  let pos := s.thetaHeld now
  s.running && action (s.entry n).action && s.dueHere n pos && !s.earlierDue n pos

/-- What an entry that fires on time does: it is marked as fired in its revolution, then its action follows. -/
def State.onTime (s : State) (n : BitVec 6) (now : Nat) (action : Nat → Bool) (f : State → Entry → State) : State :=
  s.when (s.dueAt n.toNat now action) (fun t =>
    f ((t.markFired n.toNat (revOf (t.thetaHeld now))).seenAt now) (t.entry n.toNat))

/-! ## Learning (R128, R129) -/

/-- Learning ends without a map (R129). Causes: 1 speed, 2 reversal, 3 synthetic tooth, 4 retraction, 5 slip, 6 standstill,
7 seal, 8 audit log full. -/
def State.learnAbort (s : State) (cause : Nat) : State :=
  if s.orr.learn then
    { s with orr := { s.orr with learn := false, lrn := false, lrnArm := false, lrnRev := [], lrnAll := [] } }.logEv 0x0309 cause
  else s

/-- A revolution period differs from the first learned by more than 2 % (R129). -/
def departs (first r : List Nat) : Bool :=
  let a : Nat := first.foldl (· + ·) 0
  let b : Nat := r.foldl (· + ·) 0
  decide (2 * a < ((a : Int) - (b : Int)).natAbs * 100)

/-- Learning at the index tooth: it starts, or a revolution is complete (R128). -/
def State.learnIndex (s : State) : State :=
  if s.orr.lrnArm then { s with orr := { s.orr with lrnArm := false, lrn := true, lrnRev := [], lrnAll := [] } }
  else if s.orr.lrn then
    let r := s.orr.lrnRev.reverse
    if departs (s.orr.lrnAll.getLastD r) r then s.learnAbort 1
    else { s with orr := { s.orr with lrnAll := r :: s.orr.lrnAll, lrnRev := [] } }
  else s

/-- LRNREV as it acts (R138). -/
def State.lrnRevs (s : State) : Nat := max 8 (fld (s.orw 0x306) 0 8)

/-- A sum of fractions. -/
def addFrac (a b : Nat × Nat) : Nat × Nat := (a.1 * b.2 + b.1 * a.2, a.2 * b.2)

/-- a_k of the learned revolutions: 65,536 times the mean of the share of the first k intervals (R128). -/
def learnedAngle (revs : List (List Nat)) (k : Nat) : Word :=
  let f := revs.foldl (fun acc r => addFrac acc ((r.take k).foldl (· + ·) 0, r.foldl (· + ·) 0)) (0, 1)
  BitVec.ofInt 16 (divRne ((65536 * f.1 : Nat) : Int) (f.2 * revs.length))

/-- The learned map (R128). -/
def State.learnedMap (s : State) : List Word := (List.range s.tpr).map (learnedAngle s.orr.lrnAll)

/-- The pitch of tooth k of a map with n entries. -/
def pitchIn (map : List Word) (n k : Nat) : Nat :=
  (if k + 1 < n then (map.getD (k + 1) 0).toNat else 65536) - (map.getD k 0).toNat

/-- The largest pitch error of a map against the nominal pitch, in 1/65,536, rounded (R139: 0x0307). -/
def pitchError (map : List Word) : Nat :=
  let n := map.length
  (List.range n).foldl (fun acc k =>
    let e : Int := ((pitchIn map n k * n : Nat) : Int) - 65536
    max acc (divRne (e.natAbs : Int) n).toNat) 0

/-! ## Confirming and retracting (R114 to R119) -/

/-- A pending tooth is confirmed (R112, R114, R115, R208). -/
def State.confirmTooth (s : State) (p : Pending) : State :=
  let t := s.confirmInc p.inc
  { t with orr := { t.orr with tcnt := t.orr.tcnt + 1#48, dir := p.rev, hasDir := true, hasInt := true,
                               lastint := BitVec.ofNat 32 (min 0xFFFFFFFF p.d) } }

/-- Every pending tooth is confirmed, oldest first. -/
def State.confirmAll (s : State) : State :=
  let ps := s.orr.pend.reverse
  ps.foldl State.confirmTooth { s with orr := { s.orr with pend := [] } }

/-- Retracted figures gathered for the partner (R269). -/
def State.withdraw (s : State) (inc : List F32) : State :=
  if s.fram.anState = 3 then
    { s with an := { s.an with wd := List.zipWith F32.add s.an.wd inc, wdCount := s.an.wdCount + 1 } }
  else s

/-- A retraction of the newest pending tooth: position, window, counts, flags, increments, marks (R117, R118). now: the time at which
it is exposed. -/
def State.retract (s : State) (p : Pending) (now : Nat) : State :=
  let reached := s.thetaHeld now
  let t0 := s.dropPending p.inc
  let t1 := { t0 with orr := { t0.orr with
      pend := t0.orr.pend.drop 1, angle := p.before, tidx := p.idxBefore, held := reached, window := t0.orr.window.drop 1,
      idxNext := t0.orr.idxNext || p.index, idxFirst := t0.orr.idxFirst || p.first, tLast := p.t - p.d,
      retCnt := satInc t0.orr.retCnt, secRet := t0.orr.secRet + 1, retf := t0.orr.retf || p.fired } }
  let t2 := (t1.pinned 3 0x31A t1.orr.retCnt).markUnreliable p.seen
  let t3 := t2.withdraw p.inc
  (if p.fired then t3.irq 2 else t3).learnAbort 4

/-- The sum of two intervals lies within 0.80 to 1.20 × the prediction (R114). -/
def mergeFits (pred : Nat × Nat) (sum : Nat) : Bool :=
  decide (80 * pred.1 ≤ 100 * sum * pred.2) && decide (100 * sum * pred.2 ≤ 120 * pred.1)

/-! ## Index and map (R127, R130) -/

/-- The map's word k. -/
def State.mapAt (s : State) (k : Nat) : Nat := (s.orw (0x100 + k)).toNat

/-- The pitch that ends at tooth k; k = 0 closes the revolution. -/
def State.mapPitch (s : State) (k : Nat) : Int :=
  if k = 0 then 65536 - (s.mapAt (s.tpr - 1) : Int) else (s.mapAt k : Int) - (s.mapAt (k - 1) : Int)

/-- Tooth k of the map breaks a condition of R127. -/
def State.mapFails (s : State) (k : Nat) : Bool :=
  let p := s.mapPitch k * (s.tpr : Nat) * 2
  (k == 0 && s.mapAt 0 != 0) || decide (p < 65536) || decide (3 * 65536 < p)

/-- The check at an index tooth of a map written since the last one (R127). -/
def State.mapCheck (s : State) : State :=
  if !s.orr.mapDirty || s.tpr = 0 then s
  else match (List.range s.tpr).find? s.mapFails with
    | none => { s with orr := { s.orr with mapDirty := false, mapv := true } }
    | some k => { s with orr := { s.orr with mapDirty := false, mapv := false } }.logEv 0x0308 k

/-- The revolution boundary nearest to a position (R130). -/
def nearestRev (a : Word48) : Word48 := BitVec.ofNat 48 ((a.toNat + 32768) / 65536 * 65536)

/-- A new revolution with r mod 64 = 0 takes the CYCLE that is written (R123). -/
def State.takeCycle (s : State) (before : Word48) : State :=
  if revOf before != revOf s.orr.angle && (revOf s.orr.angle).toNat % 64 == 0 then
    { s with orr := { s.orr with cycle := BitVec.ofNat 3 (fld (s.nvReg 0x18) 4 3) } }
  else s

/-! ## Accepting a tooth (R112, R114, R120, R122) -/

/-- The position moves by one tooth: index, angle, and the hold at what was reached in this direction (R112, R118). -/
def State.moveTooth (s : State) (rev : Bool) (reached : Word48) : State :=
  let d := BitVec.ofNat 48 (s.stepAngle rev)
  let i := s.nextIdx rev
  let a := if rev then s.orr.angle - d else s.orr.angle + d
  let r := revOf s.orr.angle
  let r' := if rev then (if s.orr.tidx ≤ i then r - 1#32 else r) else if i ≤ s.orr.tidx then r + 1#32 else r
  let a' := if s.orr.sync && !s.orr.idxFirst then r' ++ BitVec.ofNat 16 (s.toothAngle i) else a
  { s with orr := { s.orr with angle := if s.toIndex rev then a else a', tidx := i,
                               held := if rev == s.moving then farther rev a' reached else a' } }

/-- The index tooth: index 0 at the nearest revolution boundary; a slip when another index was expected; learning and the map
check (R127, R128, R130). expected: the index the count gave it; reached: the position reached before it. -/
def State.indexTooth (s : State) (expected : Nat) (reached : Word48) : State :=
  let a := nearestRev s.orr.angle
  let first := s.orr.idxFirst
  let s1 := { s with orr := { s.orr with idxNext := false, idxFirst := false, tidx := 0, angle := a, held := farther false a reached } }
  let s2 := if first || expected = 0 then s1
    else
      let t := { s1 with orr := { s1.orr with slip := true, slipCnt := satInc s1.orr.slipCnt } }
      (((t.pinned 3 0x31D t.orr.slipCnt).logEv 0x0305 expected).irq 2).learnAbort 5
  s2.mapCheck.learnIndex

/-- Fired entries are remembered for the revolution of the reported position only (R118). -/
def State.pruneFired (s : State) : State :=
  { s with orr := { s.orr with fired := s.orr.fired.filter (fun p => p.2 == revOf s.position) } }

/-- An angle has been passed at a position, in a direction (R121, R125). -/
def passedAt (rev : Bool) (pos : Word48) (angle : Nat) : Bool := if rev then decide (fracOf pos ≤ angle) else decide (angle ≤ fracOf pos)

/-- The entries of some numbers whose angle this revolution has passed at a position, going in a direction, count as fired in it; the
others as not. -/
def State.passAt (s : State) (ns : List Nat) (rev : Bool) (pos : Word48) : State :=
  { s with orr := { s.orr with
      fired := (ns.filter (fun n => passedAt rev pos (s.entry n).angle)).map (fun n => (n, revOf pos)) ++
               s.orr.fired.filter (fun p => !(decide (p.1 ∈ ns) && p.2 == revOf pos)) } }

/-- The entries of some numbers whose angle the present revolution has already passed first fire in their next one (R125): judged at
the position of the latest time known (log entry 82). -/
def State.passEntries (s : State) (ns : List Nat) : State := s.passAt ns s.moving (s.thetaHeld s.orr.now)

/-- The w1c bits of a word written to OR_STAT clear. -/
def State.orStatClear (s : State) (v : Word) : State :=
  { s with orr := { s.orr with sflt := s.orr.sflt && !bitAt v 7, retf := s.orr.retf && !bitAt v 8, late := s.orr.late && !bitAt v 9,
                               synt := s.orr.synt && !bitAt v 10, slip := s.orr.slip && !bitAt v 11, evi := s.orr.evi && !bitAt v 12 } }

/-- ANGLE runs again: the write of OR_STAT it held takes effect (R98). -/
def State.orStatHeld (s : State) : State :=
  match s.orr.heldStat with
  | some v => { s with orr := { s.orr with heldStat := none } }.orStatClear v
  | none => s

/-- The first tooth after standstill (R132). -/
def State.resume (s : State) (rev : Bool) : State :=
  if s.orr.still then
    ({ s with orr := { s.orr with still := false, angrun := true } }.orStatHeld.logEv 0x0304 (b2n rev)).irq 2
  else s

/-- A tooth's interval, position and speed (R112, R120, R131); the index tooth's own effects (R127, R128, R130). Where it turns the
direction, what was reached going the other way is crossed back from there (R121). -/
def State.placeMove (s : State) (synthetic rev reversal : Bool) (t d : Nat) : State :=
  let reached := s.thetaHeld t
  let s0 := if rev != s.moving then s.passAt (List.range 64) rev reached else s
  let s1 := s0.resume rev
  let s2 := if s.orr.hasLast && !reversal then s1.pushInterval { dt := d, pitch := s.pitchUnits rev } else s1
  let s3 := if s2.orr.lrn then { s2 with orr := { s2.orr with lrnRev := d :: s2.orr.lrnRev } } else s2
  let s4 := s3.moveTooth rev reached
  (if s.toIndex rev && !synthetic then s4.indexTooth (s.nextIdx rev) reached else s4).respeedIn rev

/-- A tooth, real or synthetic, takes its place: position and speed, increments, late-fires (R112, R114, R122, R208). -/
def State.place (s : State) (synthetic rev reversal : Bool) (t d : Nat) (pred : Option (Nat × Nat)) : State :=
  let before := s.orr.angle
  let reached := s.thetaHeld t
  let from_ := if rev != s.moving then reached else s.position
  let index := s.toIndex rev && !synthetic
  let s5 := s.placeMove synthetic rev reversal t d
  let (inc, s6) := s5.toothIncrement (s.pitchOf rev) (1, s5.teeth) rev
  let p : Pending := { synthetic := synthetic, t := t, d := d, pred := pred, rev := rev, before := before, idxBefore := s.orr.tidx,
                       inc := inc, seen := s6.ad.seq, fired := false, reversal := reversal, index := index, first := index && s.orr.idxFirst,
                       reached := reached }
  let s7 := { s6 with orr := { s6.orr with pend := p :: s6.orr.pend, tLast := t, hasLast := true } }
  ((s7.lateFires from_ s7.position rev).takeCycle before).pruneFired

/-- A real tooth is accepted: the run of synthetic teeth ends (R113). -/
def State.acceptReal (s : State) (rev reversal : Bool) (t d : Nat) (pred : Option (Nat × Nat)) : State :=
  { s with orr := { s.orr with synrun := 0, sfltRun := false } }.place false rev reversal t d pred

/-- An edge dropped as noise (R113). -/
def State.reject (s : State) : State :=
  let t := { s with orr := { s.orr with rejCnt := satInc s.orr.rejCnt } }
  t.pinned 3 0x31C t.orr.rejCnt

/-- The previous tooth is resolved by a tooth in the same direction with a prediction: retracted and merged, or confirmed (R113,
R114). Gives the interval of the new tooth. -/
def State.resolvePrev (s : State) (t d : Nat) : Nat × State :=
  match s.orr.pend with
  | [] => (d, s)
  | p :: _ =>
    if p.synthetic then (d, s.confirmAll)
    else match p.pred with
      | some q => if mergeFits q (p.d + d) then (p.d + d, s.retract p t) else (d, s.confirmAll)
      | none => (d, s.confirmAll)

/-- A reversal tooth, followed by its return, is retracted and the return dropped: the position stands as it did before both (R116,
R118). -/
def State.dropRocking (s : State) (p : Pending) (t : Nat) : State :=
  let w := s.orr.window
  let u := s.retract p t
  ({ u with orr := { u.orr with window := w, tidx := p.idxBefore, held := p.reached } }.respeedIn (!p.rev)).passAt (List.range 64) (!p.rev) p.reached

/-- The tooth runs against the last confirmed tooth, or against the one it confirms when none is (R116). -/
def State.against (s : State) (rev : Bool) : Bool :=
  if s.orr.hasDir then rev != s.orr.dir
  else match s.orr.pend.head? with
    | some p => rev != p.rev
    | none => false

/-- An edge that is a tooth of a ROTOR or VORTEX source (R113, R116). -/
def State.tooth (s : State) (t : Nat) (rev : Bool) : State :=
  let d := t - s.orr.tLast
  let tmin := (s.orw 0x304).toNat
  if s.orr.hasLast && tmin != 0 && decide (d < tmin * 16) then s.reject
  else match s.orr.pend.find? (fun p => p.reversal), s.against rev with
    | some p, false => s.dropRocking p t
    | none, true =>
      let u := s.confirmAll
      ({ u with orr := { u.orr with window := [] } }.learnAbort 2).acceptReal rev true t d none
    | _, _ =>
      match s.predict rev with
      | none => s.confirmAll.acceptReal rev false t d none
      | some q =>
        if 100 * d * q.2 < s.rej * q.1 then s.reject
        else
          let (d', u) := s.resolvePrev t d
          u.acceptReal rev false t d' (some q)

/-- CK_CTL.MAINSEN. -/
def State.mainsEn (s : State) : Bool := s.ck.ctl.getLsbD 0

/-- The MAINS domain stops: MPLK and MFREE read 0 (R97). -/
def State.mainsHalt (s : State) : State :=
  { s with ck := { s.ck with mainsRun := false, mplk := false, mfree := false, pullIn := false } }

/-- A MAINS step: a forward tooth, accepted and confirmed at once (R110); none while the domain is stopped. With MAINSEN cleared the
domain stops at step 0 (04, Edges). -/
def State.mainsTooth (s : State) (t : Nat) : State :=
  if !s.ck.mainsRun then s
  else
    let u := (s.acceptReal false false t (t - s.orr.tLast) none).confirmAll
    if !s.mainsEn && u.orr.tidx == 0 then u.mainsHalt else u

/-- An edge of the source in use (R107 to R110). -/
def State.edge (s : State) (t : Nat) (rising bHigh : Bool) : State :=
  match s.orSrc with
  | 1 => if bHigh then s else s.tooth t (!rising)
  | 2 => if rising then s.tooth t false else s
  | 3 => s.mainsTooth t
  | _ => s

/-- A synthetic tooth is due at a time: more than 1.60 × the prediction since the last tooth (R113). -/
def State.synthDue (s : State) (now : Nat) : Bool :=
  match s.predict s.moving with
  | none => false
  | some q => (s.orSrc == 1 || s.orSrc == 2) && !s.orr.still && decide (s.orr.synrun < 3) &&
      decide (160 * q.1 < 100 * (now - s.orr.tLast) * q.2)

/-- The third synthetic tooth of a run (R115). -/
def State.sensorFault (s : State) : State :=
  let t := { s with orr := { s.orr with sflt := true, sfltRun := true } }.logEv 0x0301 (s.orr.tcnt.toNat % 2 ^ 32)
  if s.orr.sflt then t else t.irq 2

/-- A synthetic tooth is inserted, stamped at the prediction (R113, R115). -/
def State.insertSynthetic (s : State) : State :=
  match s.predict s.moving with
  | none => s
  | some q =>
    let d := (divRne (q.1 : Int) q.2).toNat
    let rev := s.moving
    let s1 := match s.orr.pend with
      | p :: _ => if p.synthetic then s else s.confirmAll
      | [] => s
    let s2 := { s1 with orr := { s1.orr with synrun := s.orr.synrun + 1, synt := true, synCnt := satInc s.orr.synCnt, secSyn := s.orr.secSyn + 1 } }
    let s3 := ((s2.pinned 3 0x319 s2.orr.synCnt).learnAbort 3).place true rev false (s.orr.tLast + d) d (some q)
    if s.orr.synrun + 1 = 3 then s3.sensorFault else s3

/-! ## Standstill (R119, R132) -/

/-- The time without a tooth after which standstill is declared, in SWITCH cycles (R132). -/
def State.stillAfter (s : State) : Nat :=
  let last := 4 * s.orr.lastint.toNat
  let ssto := fld (s.orw 0x303) 0 8 * 3200000
  if ssto = 0 then (if s.orr.hasInt then last else 64000000) else max ssto last

/-- Pending teeth at standstill: synthetic ones are retracted, newest first, others confirmed (R119, R132). The position they had
extrapolated to by then is what R118 holds. -/
def State.settle (s : State) : State :=
  let syn := s.orr.pend.filter (fun p => p.synthetic)
  if syn.isEmpty then s.confirmAll
  else
    let t := syn.foldl (fun acc p => acc.retract p (s.orr.tLast + s.stillAfter)) s
    let u := { t with orr := { t.orr with sflt := t.orr.sflt && !t.orr.sfltRun, sfltRun := false } }
    (u.logEv 0x0306 syn.length).confirmAll

/-- Standstill is declared (R132); the vortex factor starts from the curve's first point again (R199). -/
def State.standstill (s : State) : State :=
  let t := s.settle.learnAbort 6
  ({ t with orr := { t.orr with window := [], speed := 0, spest := false, spsat := false, still := true, angrun := false,
                                hasLast := false, synrun := 0 }, fe := { t.fe with fresh := true } }.logEv 0x0303 t.orr.lastint.toNat).irq 2

/-- A change of SRC, TPR or AVG takes effect: standstill, SYNC clear, afresh (05, Edges). -/
def State.orrRestart (s : State) : State :=
  let t := if s.orr.still then s else s.standstill
  { t with orr := { t.orr with sync := false, idxNext := false, idxFirst := false, tidx := 0, lastint := 0, hasInt := false, hasDir := false } }

/-- Each entry to RUN: standstill, SYNC clear, position as restored (R135). -/
def State.orrRun0 (s : State) : State :=
  { s with orr := { s.orr with still := true, sync := false, window := [], pend := [], hasLast := false, hasDir := false, hasInt := false,
                               held := s.orr.angle, fired := [],
                               cycle := BitVec.ofNat 3 (fld (s.nvReg 0x18) 4 3) } }.passEntries (List.range 64)

/-- The Orrery's time at a tick of 1.000 ms, 32,000 SWITCH cycles, while teeth come (R95). -/
def State.orrTick (s : State) : State := if s.orr.still then s else s.seenAt (s.orr.now + 32000)

/-- DRAIN entry: every provisional increment is discarded (R229). Gives whether any was. -/
def State.discardPending (s : State) : Bool × State :=
  if s.orr.pend.isEmpty then (false, s)
  else
    let vol := s.fe.pend.getD 1 0
    let t := { s with fe := { s.fe with pend := [0, 0, 0, 0] }, orr := { s.orr with pend := [] }, lg := { s.lg with disc := true } }
    (true, t.logEv 0x0705 (evData [(vol.toNat, 0), (s.orr.pend.length, 32)]))

/-- The Orrery's part of a second boundary: the summary of a second that had any (R139: 0x0302). -/
def State.orrSecond (s : State) : State :=
  let t := { s with orr := { s.orr with secRet := 0, secLate := 0, secSyn := 0 } }
  if s.orr.secRet = 0 ∧ s.orr.secLate = 0 ∧ s.orr.secSyn = 0 then t
  else t.logEv 0x0302 (evData [(min 65535 s.orr.secRet, 0), (min 65535 s.orr.secLate, 16), (min 65535 s.orr.secSyn, 32)])

/-! ## Meanings -/

/-- TOOTH_EDGE (R113). -/
def execToothEdge (t : Nat) (rising bHigh : Bool) (s : State) : Host.Outcome State Fault Refusal :=
  .next (s.when s.running (fun u => (u.edge t rising bHigh).seenAt t))

/-- SYNTHETIC_TOOTH (R113). -/
def execSyntheticTooth (now : Nat) (s : State) : Host.Outcome State Fault Refusal :=
  .next (s.when (s.running && s.synthDue now) (fun u => u.insertSynthetic.seenAt now))

/-- STANDSTILL (R132): the timeout has passed with no accepted tooth. MAINS reaches it only when its domain stops (R110). -/
def execStandstill (s : State) : Host.Outcome State Fault Refusal :=
  .next (s.when (s.running && !s.orr.still && !(s.orSrc == 3 && s.ck.mainsRun)) State.standstill)

/-- A commutation in DRAIN ends the half in flight, which R52 lets complete, and starts none (log entry 82). -/
def State.commuteDrain (s : State) (e : Entry) : State :=
  let m := maskOf (e.arg.extractLsb' 0 2)
  if e.action != 2 || m == s.xb.mask then s
  else
    let t := s.endHalf
    { t with xb := { t.xb with mask := m, pair := false, negDone := false } }

/-- ORR_COMMUTE_BRIDGE (R150). -/
def execOrrCommuteBridge (n : BitVec 6) (now : Nat) (s : State) : Host.Outcome State Fault Refusal :=
  .next (if s.runOrDrain && !s.running then s.when (s.xb.pol != 0) (fun t => t.commuteDrain (t.entry n.toNat))
    else s.onTime n now (· == 2) (fun t e => t.commute (e.arg.extractLsb' 0 2)))

/-- ORR_SAMPLE_TAG (R175). -/
def execOrrSampleTag (n : BitVec 6) (now : Nat) (s : State) : Host.Outcome State Fault Refusal :=
  .next (s.onTime n now (· == 3) (fun t e => t.sampleTag (loWord e.arg)))

/-- ORR_STEP_NCO (R190). -/
def execOrrStepNco (n : BitVec 6) (now : Nat) (s : State) : Host.Outcome State Fault Refusal :=
  .next (s.onTime n now (· == 4) (fun t e => t.setFw (e.arg.extractLsb' 0 24)))

/-- ORR_FE_UPDATE (R207). -/
def execOrrFeUpdate (n : BitVec 6) (now : Nat) (s : State) : Host.Outcome State Fault Refusal :=
  .next (s.onTime n now (· == 5) (fun t _ => t.orrUpdate))

/-- ORR_INTERRUPT (R124). -/
def execOrrInterrupt (n : BitVec 6) (now : Nat) (s : State) : Host.Outcome State Fault Refusal :=
  .next (s.onTime n now (· == 6) (fun t e => t.orrInterrupt n.toNat e.arg))

/-- ORR_RESERVED_ACTION (R124). -/
def execOrrReservedAction (n : BitVec 6) (now : Nat) (s : State) : Host.Outcome State Fault Refusal :=
  .next (s.onTime n now (fun a => decide (7 ≤ a)) (fun t e => t.reservedAction n.toNat e.action))

/-- INDEX_EDGE (R130): the next forward tooth is the index tooth; in reverse rotation TTH_Z is ignored. -/
def execIndexEdge (s : State) : Host.Outcome State Fault Refusal :=
  .next (s.when (s.running && s.orSrc == 1 && decide (1 ≤ s.tpr) && !s.moving) (fun u =>
    { u with orr := { u.orr with idxNext := true, idxFirst := u.orr.idxFirst || !u.orr.sync, sync := true } }))

/-- LEARN_ABORT (R129): a revolution period has left the band. -/
def execLearnAbort (s : State) : Host.Outcome State Fault Refusal := .next (s.when s.running (fun t => t.learnAbort 1))

end Sys2Proof.Machine
end

