-- ==== Sys2Proof/Machine/Regulator.lean ====
section
/-! DEFINITION. Sys2Proof/Machine/Regulator.lean: the auxiliary regulator (03_auxiliary_regulator.md). Setpoints stand in 10 mV, the
internal target in 0.1 mV, times of a period in taps of 0.977 ns, 1,024 to the microsecond (R71, R88). -/

namespace Sys2Proof.Machine

open Sys2Proof.Config (key)

/-! ## Setpoint (R61 to R65, R82) -/

/-- SRC as it acts: 2 only in roles M and TM, 3 as 0 (R63). -/
def State.regSrc (s : State) : Nat :=
  if s.reg.src = 1 then 1 else if s.reg.src = 2 && (s.pins.role == .M || s.pins.role == .TM) then 2 else 0

/-- The selected setpoint in 10 mV, held to 80 to 3,000 (R62, R63). Under SRC 2 it is the code until RUN is reached and the loop
interface has supplied a target (R82). -/
def State.regSelected (s : State) : Nat :=
  clampNat 80 3000
    (if s.regSrc = 1 then fld (s.lgw (0xF807 + s.pins.vsel.toNat)) 0 12
     else if s.regSrc = 2 && (s.pw.st == .run || s.pw.st == .drain) && s.reg.loopTarget != 0 then s.reg.loopTarget
     else s.reg.code.toNat)

/-- The target a soft start aims at (R63, R66). -/
def State.regAim (s : State) : Nat := if s.regSrc = 2 then clampNat 80 3000 s.reg.code.toNat else s.regSelected

/-- SLEW in 0.1 mV/µs; codes above 100 act as 100 (R65). -/
def State.regSlew (s : State) : Nat := min 100 (fld (s.lgw 0xF802) 0 7)

/-- A target moved toward another by at most a step. -/
def stepTo (goal step x : Nat) : Nat := if x ≤ goal then min goal (x + step) else max goal (x - step)

/-- The soft-start time in microseconds (R66). -/
def State.regTss (s : State) : Nat := 500 * 2 ^ min 4 (fld (s.lgw 0xF803) 0 3)

/-- The internal target of a ramp at its microsecond: on the straight line from VAUX_FB to the target aimed at (R66). -/
def State.regRampAt (s : State) (us : Nat) : Nat :=
  let u : Int := (min us s.regTss : Nat)
  ((s.reg.rampFrom : Int) + (((s.reg.aim * 100 : Nat) : Int) - s.reg.rampFrom) * u / (s.regTss : Nat)).toNat

/-- The internal target after so many microseconds: on the ramp (R66), in regulation slewed (R65), else as it stands. -/
def State.regSlewed (s : State) (us : Nat) : State :=
  if s.reg.state = 1 then
    { s with reg := { s.reg with rampUs := min s.regTss (s.reg.rampUs + us), target := s.regRampAt (s.reg.rampUs + us) } }
  else if s.reg.state = 2 then
    { s with reg := { s.reg with target := stepTo (s.regSelected * 100) (s.regSlew * us) s.reg.target } }
  else s

/-- A clamped code is logged once (R62, R71): each pair of an item and a code once until the next WAKE (log entry 79). item: PW_VSET's
address or the block word. -/
def State.regClamped (s : State) (item : Nat) (code : Word) (bad : Bool) : State :=
  if bad && !s.reg.clamped.contains (item, code) then
    { s with reg := { s.reg with clamped := (item, code) :: s.reg.clamped } }.logEv 0x0207 (evData [(item, 0), (code.toNat, 16)])
  else s

/-- A setpoint code outside 80 to 3,000 (R62). -/
def setpointBad (c : Nat) : Bool := decide (c < 80) || decide (3000 < c)

/-- What a committed word of the regulator block brings: the clamp log, SYNCLK without SYNCEN (R62, R71, R72). -/
def State.regWord (s : State) (a : Nat) (w : Word) : State :=
  if a = 0xF800 then s.regClamped a w (decide (fld w 0 11 < 250) || decide (1000 < fld w 0 11))
  else if a = 0xF801 then (if bitAt w 7 then s else { s with reg := { s.reg with synclk := false } })
  else if 0xF807 ≤ a ∧ a ≤ 0xF80A then s.regClamped a w (setpointBad (fld w 0 12))
  else s

/-! ## Soft start, stops, latches (R66 to R70, R77 to R79) -/

/-- The regulator may switch: line roles, RAILS to DRAIN. -/
def State.regOn (s : State) : Bool := s.lineRole && s.coreOn && s.pw.st != .wake

/-- A phase-1 period boundary: FSW and PHASE as written take effect, clamped (R71, R72), with the tap calibration and, under lock,
SWITCH timing (R88, R90). The model takes these boundaries at starts and governor ticks (log entry 75). -/
def State.regBoundary (s : State) : State :=
  { s with reg := { s.reg with fsw := clampNat 250 1000 (fld (s.lgw 0xF800) 0 11), phase := min 71 (fld (s.lgw 0xF801) 0 7) },
           ck := { s.ck with hfoReg := s.ck.hfoReg && !s.ck.swlk, tapReg := s.ck.tapReg && !s.ck.swlk } }

/-- A soft start from a voltage in 10 mV: the target it aims at is taken now (R66); none while OVL is set (R78). -/
def State.regStart (s : State) (vaux : Nat) : State :=
  if s.aon.ovl then { s with reg := { s.reg with state := 0, stepEnded := true } }
  else { s with reg := { s.reg with state := 1, target := vaux * 100, aim := s.regAim, rampFrom := vaux * 100, rampUs := 0 } }.regBoundary

/-- The fault record's 16 words at LG 0xF810 (03, fault record). -/
def State.faultWords (s : State) (cause : Nat) (latched : Bool) (e : RegEnv) : List Word :=
  let stops := satInc (s.lgw 0xF81A)
  let time : Word32 := if s.pw.rtclost then 0xFFFFFFFF#32 else s.aon.rtc
  [pack [(cause, 0), (s.pw.st.code, 8), (s.reg.att.toNat, 12), (b2n latched, 15)], BitVec.ofNat 16 e.vline, BitVec.ofNat 16 e.vaux,
   BitVec.ofNat 16 (s.reg.target / 100), BitVec.ofNat 16 e.cs1, BitVec.ofNat 16 e.cs2, BitVec.ofInt 16 e.die,
   loWord time, hiWord time, s.aon.sub.setWidth 16, stops, 0, 0, 0, 0, 0]

/-- The fault record overwritten (R79). -/
def State.faultRecord (s : State) (cause : Nat) (latched : Bool) (e : RegEnv) : State :=
  s.nvPutAll ((List.range 16).map (fun i => (key 3 (0xF810 + i), (s.faultWords cause latched e).getD i 0)))

/-- A stop under R67 or R68: record, then a retry or, after the retries, the short latch. -/
def State.regFail (s : State) (cause : Nat) (e : RegEnv) : State :=
  let last := decide (fld (s.lgw 0xF803) 4 3 ≤ s.reg.att.toNat)
  let data := evData [(cause, 0), (s.reg.att.toNat, 8)]
  let t := s.faultRecord cause last e
  if last then ({ t with reg := { t.reg with state := 0, scl := true, stepEnded := true } }.logEv 0x0202 data).irq 1
  else ({ t with reg := { t.reg with state := 3, stepEnded := true } }.logEv 0x0201 data).irq 1

/-- The ramp ends at the target it aimed at: with VAUX_FB below 30 % of it the attempt has failed (R66, R67). A target changed
during the ramp is slewed to from there (R65, R66). -/
def State.regRampEnd (s : State) (e : RegEnv) : State :=
  let t := { s with reg := { s.reg with target := s.reg.aim * 100, rampUs := s.regTss } }
  if e.vaux * 10 < s.reg.aim * 3 then t.regFail 1 e
  else { t with reg := { t.reg with state := 2, stepEnded := true } }

/-- The retry wait ends: the next attempt (R67). -/
def State.regRetry (s : State) (vaux : Nat) : State := { s with reg := { s.reg with att := s.reg.att + 1 } }.regStart vaux

/-- Under-voltage in regulation: below 70 % of the internal target (R68). -/
def State.regUnder (s : State) (e : RegEnv) : State := if e.vaux * 1000 < s.reg.target * 7 then s.regFail 2 e else s

/-- OVTH's reference in 0.1 mV: the internal target, in a ramp the target it aims at (R77). -/
def State.ovRef (s : State) : Nat := if s.reg.state = 1 then s.reg.aim * 100 else s.reg.target

/-- Over-voltage: latch, record, and with the latch the crowbar of regGates (R77, R78). -/
def State.regOver (s : State) (e : RegEnv) : State :=
  if s.aon.ovl || decide (e.vaux * 10000 ≤ (110 + fld (s.lgw 0xF803) 8 4) * s.ovRef) then s
  else
    let t := s.faultRecord 3 true e
    ({ t with reg := { t.reg with state := 0, stepEnded := true }, aon := { t.aon with ovl := true } }.logEv 0x0203 e.vaux).irq 1

/-- The keyed clear of OVL and SCL; it begins a soft start from VAUX as last seen (R70, R78). -/
def State.regClear (s : State) : State :=
  if !s.aon.ovl && !s.reg.scl then s
  else
    let t := { s with reg := { s.reg with scl := false, att := 0 }, aon := { s.aon with ovl := false } }.logEv 0x0204
      (evData [(b2n s.aon.ovl, 0), (b2n s.reg.scl, 1)])
    if t.regOn then t.regStart t.pins.vaux else t

/-- The regulator stops with CORE: entry to BACKUP or HOLD (03, Edges). -/
def State.regStop (s : State) : State := { s with reg := { s.reg with state := 0, synclk := false } }

/-- The input-power estimate in mW: VAUX × (I1 + I2) / 0.90, I = CS / RSNS (R81); the part of the quotient below 1 mW is dropped
(log entry 79). -/
def State.regPower (s : State) (vaux cs1 cs2 : Nat) : Nat :=
  let r := fld (s.lgw 0xF806) 0 12
  if r = 0 || !s.lineRole then 0 else vaux * (cs1 + cs2) * 100 / (9 * r)

/-! ## The gates (R61, R67, R71, R72, R74, R77, R78, R90) -/

/-- A time in taps rounded to the nearest whole HFO cycle of 62.5 ns, 64 taps (R90). -/
def hfoTaps (taps : Nat) : Nat := (taps + 32) / 64 * 64

/-- The switching frequency in Hz: that of SYNC while locked (R72), else FSW (R71, R73). -/
def State.regHz (s : State) : Nat := if s.reg.synclk then s.reg.syncHz else s.reg.fsw * 1000

/-- The period in taps, in whole HFO cycles on the HFO (R71, R72, R90); the part of a tap below one is dropped (log entry 79). -/
def State.regPeriod (s : State) : Nat :=
  let p := 1024000000 / s.regHz
  if s.ck.hfoReg then hfoTaps p else p

/-- The turn-on of phase 1 after a SYNC rising edge, in taps: PHASE × 5° (R72). -/
def State.regLead (s : State) : Nat :=
  let p := s.regPeriod * s.reg.phase / 72
  if s.ck.hfoReg then hfoTaps p else p

/-- The turn-on of phase 2 after that of phase 1, in taps: half a period (R71, R72). -/
def State.regOffset (s : State) : Nat :=
  let p := s.regPeriod / 2
  if s.ck.hfoReg then hfoTaps p else p

/-- The valley limit of a phase in 0.1 mV, held to 5 to 100 mV (R74). -/
def State.ilim (s : State) (second : Bool) : Nat := 10 * clampNat 5 100 (fld (s.lgw (if second then 0xF805 else 0xF804)) 0 8)

/-- The taps for which a turn-on is delayed: while the sense voltage, tap by tap from the turn-on instant, has not fallen below the
limit (R74). -/
def valleyDelay (ilim : Nat) : List Nat → Nat
  | [] => 0
  | c :: cs => if c < ilim then 0 else 1 + valleyDelay ilim cs

/-- How one phase stands in its period, as the power stage shows it: the taps since its turn-on instant, the on-time in taps that the
voltage loop asks for (the loop is analog: R76, log entry 73), the sense voltage in 0.1 mV at each tap from that instant, and whether
the current of its low side has reached zero. -/
structure PhaseView where
  tap : Nat
  on : Nat
  cs : List Nat
  zero : Bool
deriving DecidableEq, Repr

/-- The high side of a phase is on: from its turn-on, delayed by its own limit when the sense voltage exceeds that at the instant, for
the on-time, at most 96 % of the period (R74, R76). -/
def State.phaseHigh (s : State) (second : Bool) (v : PhaseView) : Bool :=
  let at_ := if s.ilim second < v.cs.headD 0 then valleyDelay (s.ilim second) v.cs else 0
  decide (at_ ≤ v.tap) && decide (v.tap < at_ + min v.on (s.regPeriod * 96 / 100))

/-- The gates of the regulator. -/
structure RegGates where
  ph1hg : Bool
  ph1lg : Bool
  ph2hg : Bool
  ph2lg : Bool
deriving DecidableEq, Repr

/-- PH1_HG, PH1_LG, PH2_HG and PH2_LG. With OVL set and VLINE (10 mV) at 4.5 V or more the low sides are on in every sequencer state
(R77, R78); all are low in role T (R61), while the regulator is stopped or waits to retry (R67) and where it does not run; else each
phase switches, its low side on beside its high side and in a ramp only until its current is zero (R66, R74). -/
def State.regGates (s : State) (vline : Nat) (v1 v2 : PhaseView) : RegGates :=
  if !s.lineRole then ⟨false, false, false, false⟩
  else if s.aon.ovl then ⟨false, decide (450 ≤ vline), false, decide (450 ≤ vline)⟩
  else if s.reg.state = 1 ∨ s.reg.state = 2 then
    let h1 := s.phaseHigh false v1
    let h2 := s.phaseHigh true v2
    ⟨h1, !h1 && !(s.reg.state == 1 && v1.zero), h2, !h2 && !(s.reg.state == 1 && v2.zero)⟩
  else ⟨false, false, false, false⟩

/-! ## Meanings -/

/-- REG_RAMP_END (R67). -/
def execRegRampEnd (e : RegEnv) (s : State) : Host.Outcome State Fault Refusal :=
  .next (s.when (s.regOn && s.reg.state == 1) (fun t => t.regRampEnd e))

/-- REG_RETRY_TIMEOUT (R67). -/
def execRegRetryTimeout (vaux : Nat) (s : State) : Host.Outcome State Fault Refusal :=
  .next (s.when (s.regOn && s.reg.state == 3) (fun t => t.regRetry vaux))

/-- REG_UNDERVOLTAGE (R68). -/
def execRegUndervoltage (e : RegEnv) (s : State) : Host.Outcome State Fault Refusal :=
  .next (s.when (s.regOn && s.reg.state == 2) (fun t => t.regUnder e))

/-- REG_ATTEMPT_COUNT_RESET (R68). -/
def execRegAttemptCountReset (s : State) : Host.Outcome State Fault Refusal :=
  .next (s.when (s.regOn && s.reg.state == 2) (fun t => { t with reg := { t.reg with att := 0 } }))

/-- REG_OVERVOLTAGE (R77). -/
def execRegOvervoltage (e : RegEnv) (s : State) : Host.Outcome State Fault Refusal :=
  .next (s.when s.regOn (fun t => t.regOver e))

/-- SETPOINT_CHANGE (R65, R66): the internal target moves for the microseconds that no tick has counted. -/
def execSetpointChange (us : Nat) (s : State) : Host.Outcome State Fault Refusal := .next (s.when s.regOn (fun t => t.regSlewed us))

/-- VSEL_CHANGE (R64): read in every role but T. -/
def execVselChange (v : BitVec 2) (s : State) : Host.Outcome State Fault Refusal :=
  .next (s.when (s.lineRole && s.aonOn) (fun t => { t with pins := { t.pins with vsel := v } }))

/-- SYNC is in range: 200 kHz to 1.2 MHz (R72). -/
def syncInRange (hz : Nat) : Bool := decide (200000 ≤ hz) && decide (hz ≤ 1200000)

/-- SYNC_LOCK (R72, R73): each phase switches at the SYNC frequency; a relock after a loss is logged. -/
def execSyncLock (hz : Nat) (s : State) : Host.Outcome State Fault Refusal :=
  .next (s.when (s.regOn && bitAt (s.lgw 0xF801) 7 && !s.reg.synclk && syncInRange hz) (fun t =>
    let u := { t with reg := { t.reg with synclk := true, syncHz := hz, syncLost := false } }
    if t.reg.syncLost then u.logEv 0x0206 1 else u))

/-- SYNC_LOSS (R73). -/
def execSyncLoss (s : State) : Host.Outcome State Fault Refusal :=
  .next (s.when (s.regOn && s.reg.synclk) (fun t =>
    ({ t with reg := { t.reg with synclk := false, syncLost := true } }.logEv 0x0206 0).irq 1))

end Sys2Proof.Machine
end

