-- ==== Sys2Proof/Machine/Clock.lean ====
section
/-! DEFINITION. Sys2Proof/Machine/Clock.lean: the clocks, the MAINS PLL, the RTC and line time (04_clock_domains_and_timebases.md). -/

namespace Sys2Proof.Machine

/-! ## Crystal and PLLs (R85 to R90) -/

/-- CALF set, with SY_IRQ[0] when it was clear (R60). -/
def State.setCalf (s : State) : State := if s.pw.calf then s else { s with pw := { s.pw with calf := true } }.irq 0

/-- AON moves to the LFO; with CORE stopped the event and interrupt wait for the next WAKE (R87, R106). -/
def State.xtalFail (s : State) : State :=
  let t := { s with aon := { s.aon with xtalf := true, xtalfs := true } }
  if s.coreOn then (t.logEv 0x010C s.pw.st.code).irq 0
  else { t with aon := { t.aon with xtalPend := true, xtalState := s.pw.st } }

/-- The report a stopped CORE owed (R87). -/
def State.xtalReport (s : State) : State :=
  if s.aon.xtalPend then ({ s with aon := { s.aon with xtalPend := false } }.logEv 0x010C s.aon.xtalState.code).irq 0 else s

/-- CALIB to DRAIN: the states with the SWITCH and MAINS PLLs (R83). -/
def State.pllOn (s : State) : Bool := s.coreOn && (s.pw.st == .calib || s.pw.st == .run || s.pw.st == .drain)

/-- The SWITCH PLL locks. Bridge, boost and regulator move to SWITCH timing at their next period boundaries: the carrier valley, the
boost cycle, the regulator's boundary (R89, R90); a bridge that idles for no lost lock or with no carrier has nothing to wait for.
A lock after a loss or timeout is logged (R88, R89). -/
def State.switchLock (s : State) : State :=
  let t := { s with ck := { s.ck with swlk := true, lost := false, onHfo := s.ck.lost && s.xb.per != 0, swMissed := false } }
  if s.ck.swMissed then (t.logEv 0x010A 1).irq 0 else t

/-- The SWITCH PLL loses lock: bridge and boost idle, the regulator moves to the HFO, the coil cycle is truncated (R89, R90). -/
def State.switchLoss (s : State) : State :=
  let t := s.cutHalf
  ({ t with ck := { t.ck with swlk := false, lost := true, onHfo := true, hfoBoost := true, hfoReg := true, swMissed := true },
            xb := { t.xb with brun := false } }.logEv 0x010A 0).irq 0

/-- A tap calibration: each channel that uses the taps takes it up at its own next period boundary (R88). -/
def State.tapCalibrate (s : State) : State :=
  { s with ck := { s.ck with tapPend := true, tapBoost := true, tapReg := s.lineRole } }

/-! ## MAINS PLL (R92 to R94) -/

/-- CK_CTL.MAINSFR. -/
def State.mainsFr (s : State) : Bool := s.ck.ctl.getLsbD 1

/-- CK_STAT.MFREQ: 45.0 Hz + 0.2 Hz × code; 0 before the first lock or loss (04, Registers). The part below 0.2 Hz is dropped and the
code held to its seven bits; between a lock and the next loss or lock it stays at the frequency of the lock (log entry 80). -/
def State.mfreq (s : State) : Nat := min 127 ((s.ck.mainsF - 450000) / 2000)

/-- The reference is absent: free-run, slewing to 50.000 Hz at the ticks (R93). freq in 0.01 Hz; the event's data are packed item after
item, the lock bit at 0 and the frequency at 16 (log entry 80). -/
def State.mainsLost (s : State) (freq : Nat) : State :=
  ({ s with ck := { s.ck with mplk := false, mfree := true, pullIn := false, mainsF := freq * 100 } }.logEv 0x0109
    (evData [(0, 0), (freq, 16)])).irq 0

/-- Free-run by MAINSFR: while set, as an absent reference (R93). -/
def State.mainsForce (s : State) : State :=
  if s.mainsEn && s.mainsFr && s.pllOn && !(s.ck.mfree && !s.ck.pullIn) then
    s.mainsLost (if s.ck.mainsF = 0 then 5000 else s.ck.mainsF / 100)
  else s

/-- MAINSEN as written: the domain starts where it may run; cleared while locked with the Orrery on MAINS, it stops at the next
step 0 (mainsTooth), else at once, and MPLK and MFREE read 0 (R83, R97; 04, Edges; log entry 80). -/
def State.mainsSwitch (s : State) : State :=
  if s.mainsEn then { s with ck := { s.ck with mainsRun := s.pllOn } }
  else if s.ck.mainsRun && s.ck.mplk && s.orSrc == 3 then s else s.mainsHalt

/-- The free-run slews at 0.5 Hz/s: toward 50 Hz, or while it pulls in toward the reference (R93, R94). -/
def State.mainsTick (s : State) : State :=
  if s.ck.mfree then
    { s with ck := { s.ck with mainsF := stepTo (if s.ck.pullIn then s.ck.mainsRef else 500000) 5 s.ck.mainsF } }
  else s

/-! ## RTC and line time (R102 to R104) -/

/-- The signed step of the RTC to a value, as 48 bits; the reserved value when none was held (R102). -/
def State.rtcStep (s : State) (v : Word32) : Word48 :=
  if s.aon.tv then BitVec.ofInt 48 ((v.toNat : Int) - s.aon.rtc.toNat) else 0x800000000000#48

/-- The value an RTC write commits: without a held low word, the present low seconds (R102). -/
def State.rtcTarget (s : State) (low : Option Word) (hi : Word) : Word32 := dword (low.getD (loWord s.aon.rtc)) hi

/-- The RTC takes a value: TV set, sub-second 0, the event with the step; a head whose line time is not valid takes it from the new
value (R102, R103). The group of 125 ticks starts afresh with the second (log entry 76). -/
def State.setRtc (s : State) (v : Word32) : State :=
  let t := ({ s with aon := { s.aon with rtc := v, sub := 0, tv := true }, ck := { s.ck with disc := 0, discPhase := 0, tickPos := 0 } }.logEv
    0x010B (s.rtcStep v).toNat).irq 0
  if s.isHead && !s.ck.ltv && (s.pw.st == .run || s.pw.st == .drain) then
    { t with ck := { t.ck with lsec := v, lcyc := 0, ltv := true } }
  else t

/-- AON cycles by which the RTC leads line time at its second boundary (R104). -/
def State.rtcLead (s : State) : Int := ((s.aon.rtc - s.ck.lsec).toInt) * 32768 + s.aon.sub.toNat

/-- The comparison at a line-time second boundary: slew up to 0.5 s, step above it or with no valid time (R104). -/
def State.discipline (s : State) : State :=
  if !s.aon.tv || 16384 < s.rtcLead.natAbs then s.audited 0x78 (.rtc (some (loWord s.ck.lsec)) (hiWord s.ck.lsec))
  else { s with ck := { s.ck with disc := s.rtcLead } }

/-- AON cycles of one tick: 125 ticks span 4,096, 96 of 33 and 29 of 32 (R39). -/
def tickCycles (pos : Nat) : Nat := 4096 * (pos + 1) / 125 - 4096 * pos / 125

/-- One AON cycle in 64 dropped or added while the discipline slews (R104). A slew once begun goes on until aligned, also when RTCDISC
is cleared or line time becomes not valid (log entry 81). -/
def State.discTick (s : State) (cycles : Nat) : Nat × State :=
  if s.ck.disc = 0 then (cycles, { s with ck := { s.ck with discPhase := 0 } })
  else if s.ck.discPhase + cycles < 64 then (cycles, { s with ck := { s.ck with discPhase := s.ck.discPhase + cycles } })
  else
    let t := { s with ck := { s.ck with discPhase := s.ck.discPhase + cycles - 64,
                                        disc := if 0 < s.ck.disc then s.ck.disc - 1 else s.ck.disc + 1 } }
    (if 0 < s.ck.disc then cycles - 1 else cycles + 1, t)

/-- The AON sub-second count after one tick (R39, R102). -/
def State.aonTick (s : State) : State :=
  let (n, t) := s.discTick (tickCycles s.ck.tickPos)
  { t with ck := { t.ck with tickPos := (s.ck.tickPos + 1) % 125 },
           aon := { t.aon with sub := BitVec.ofNat 15 (min 32767 (t.aon.sub.toNat + n)) } }

/-- LINE runs: RUN and DRAIN unless receive is shed on every port; port A is always enabled (R13, R83). -/
def State.lineOn (s : State) : Bool := (s.pw.st == .run || s.pw.st == .drain) && !s.pw.shedRx1

/-- STEER a step of at most 0.1 ppm nearer to what the pilots call for, one step per tick (log entry 81); without lock it holds its last
value (R91). -/
def State.steerStep (s : State) : State :=
  if !s.ck.linelk then s
  else { s with ck := { s.ck with steer := if s.ck.steer ≤ s.ck.steerGoal then min s.ck.steerGoal (s.ck.steer + 10)
                                      else max s.ck.steerGoal (s.ck.steer - 10) } }

/-- The steering that acts: none in role H (R91). -/
def State.steerNow (s : State) : Int := if s.pins.role = .H then 0 else s.ck.steer

/-- The LINE cycles of a tick, 400 as the steering stretches them, and the part of a cycle that stays over in 10^−8 cycles (R91). -/
def State.lineCycles (s : State) : Nat × Int :=
  let f := s.ck.lfrac + 400 * s.steerNow
  ((400 + f / 100000000).toNat, f % 100000000)

/-- Line time moves on by one tick of LINE cycles (R91, R103). -/
def State.lineTick (s : State) : State :=
  if !s.lineOn then s
  else
    let (n, f) := s.lineCycles
    let t := { s with ck := { s.ck with lfrac := f } }.steerStep
    if t.ck.lcyc + n < 400000 then { t with ck := { t.ck with lcyc := t.ck.lcyc + n } }
    else { t with ck := { t.ck with lcyc := t.ck.lcyc + n - 400000, lsec := t.ck.lsec + 1#32 } }

/-- The head's line time is set from its RTC on entering RUN when that is valid: the cycles are the sub-second in units of 1/400,000 s,
the rest dropped (R103; log entry 81). -/
def State.headTime (s : State) : State :=
  if s.isHead && s.aon.tv then
    { s with ck := { s.ck with lsec := s.aon.rtc, lcyc := s.aon.sub.toNat * 400000 / 32768, ltv := true } }
  else s

/-! ## Meanings -/

/-- XTAL_FAIL (R87). -/
def execXtalFail (s : State) : Host.Outcome State Fault Refusal := .next (s.when (s.aonOn && !s.aon.xtalf) State.xtalFail)

/-- XTAL_RETURN (R87). -/
def execXtalReturn (s : State) : Host.Outcome State Fault Refusal :=
  .next (s.when (s.aonOn && s.aon.xtalf) (fun t => { t with aon := { t.aon with xtalf := false } }))

/-- MEAS_PLL_TIMEOUT (R85). -/
def execMeasPllTimeout (s : State) : Host.Outcome State Fault Refusal :=
  .next (s.when (s.coreOn && s.pw.st == .rails) (fun t => { t with ck := { t.ck with measFail := true } }.setCalf))

/-- SWITCH_PLL_LOCK (R88). -/
def execSwitchPllLock (s : State) : Host.Outcome State Fault Refusal := .next (s.when (s.pllOn && !s.ck.swlk) State.switchLock)

/-- SWITCH_PLL_LOCK_TIMEOUT (R88). -/
def execSwitchPllLockTimeout (s : State) : Host.Outcome State Fault Refusal :=
  .next (s.when (s.coreOn && s.pw.st == .calib && !s.ck.swlk) (fun t =>
    (({ t with ck := { t.ck with swMissed := true } }.setCalf).logEv 0x010A 0).irq 0))

/-- SWITCH_PLL_LOSS (R89). -/
def execSwitchPllLoss (s : State) : Host.Outcome State Fault Refusal := .next (s.when (s.pllOn && s.ck.swlk) State.switchLoss)

/-- TAP_CALIBRATION (R88): in CALIB and RUN, against the SWITCH cycle, so only under lock. -/
def execTapCalibration (s : State) : Host.Outcome State Fault Refusal :=
  .next (s.when (s.coreOn && (s.pw.st == .calib || s.pw.st == .run) && s.ck.swlk) State.tapCalibrate)

/-- MAINS_LOCK (R92, R94). -/
def execMainsLock (freq : Nat) (s : State) : Host.Outcome State Fault Refusal :=
  .next (s.when (s.pllOn && s.mainsEn && !s.mainsFr && !s.ck.mplk && (!s.ck.mfree || s.ck.pullIn)) (fun t =>
    ({ t with ck := { t.ck with mplk := true, mfree := false, pullIn := false, mainsF := freq * 100 } }.logEv 0x0109
      (evData [(1, 0), (freq, 16)])).irq 0))

/-- MAINS_REF_ABSENT (R93). -/
def execMainsRefAbsent (freq : Nat) (s : State) : Host.Outcome State Fault Refusal :=
  .next (s.when (s.pllOn && s.mainsEn && !(s.ck.mfree && !s.ck.pullIn)) (fun t => t.mainsLost freq))

/-- MAINS_REF_RETURN (R94). -/
def execMainsRefReturn (freq : Nat) (s : State) : Host.Outcome State Fault Refusal :=
  .next (s.when (s.pllOn && s.mainsEn && !s.mainsFr && s.ck.mfree) (fun t =>
    { t with ck := { t.ck with pullIn := true, mainsRef := freq * 100 } }))

/-- RTC_DISCIPLINE (R104): at a line-time second boundary, in a role other than H. -/
def execRtcDiscipline (s : State) : Host.Outcome State Fault Refusal :=
  .next (s.when (s.runOrDrain && s.pins.role != .H && s.ck.ltv && s.ck.ctl.getLsbD 2) State.discipline)

end Sys2Proof.Machine
end

