-- ==== Sys2Proof/Machine/Line.lean ====
section
/-! DEFINITION. Sys2Proof/Machine/Line.lean: the multi-carrier line (13_descant_line.md): carriers, tables, loading, grants, frames on
the line, training and retrain. -/

namespace Sys2Proof.Machine

open Sys2Proof.Config (key)

/-! ## Ports and roles (R13, R18 to R21) -/

/-- The other port. -/
def otherPort (p : Port) : Port := if p = .A then .B else .A

/-- DS_CTL.PBEN. -/
def State.pben (s : State) : Bool := bitAt (s.nvReg 0x46) 0

/-- Port A is always enabled, port B by PBEN (R13). -/
def State.portOn (s : State) (p : Port) : Bool := p == .A || s.pben

/-- A node addressed in a system; the head always is (DS_STAT.JOINED). -/
def State.inSystem (s : State) : Bool := s.isHead || s.fram.joined

/-- A bridge: roles M, TM and H as node, joined, with both ports enabled (R20). -/
def State.isBridge (s : State) : Bool := !s.isHead && s.lineRole && s.pben && s.fram.joined

/-- This EWT is the upstream node, and agent, of the segment on a port (R388). -/
def State.agentOn (s : State) (p : Port) : Bool :=
  s.portOn p && (s.isHead || (s.isBridge && p == otherPort s.fram.upPort))

/-- The port stands in service: role T attaches to one port (R19). -/
def State.portUsed (s : State) (p : Port) : Bool :=
  s.portOn p && (s.pins.role != .T ||
    (if s.fram.joined then p == s.fram.upPort else match s.dn.hearing with | some q => p == q | none => true))

/-- Receive on a port runs (R43, R363): step 5 sheds the second port, then the first; port A is the first. -/
def State.rxOn (s : State) (p : Port) : Bool :=
  s.coreOn && s.lineOn && s.portUsed p && !(p == .B && s.pw.shedRx2)

/-- The own line index on a port: 0 as upstream node (R358). -/
def State.ownIdx (s : State) (p : Port) : BitVec 6 := if s.agentOn p then 0 else s.fram.lidx

/-- The own address; the head holds 0 (R367). -/
def State.ownAddr (s : State) : BitVec 12 := if s.isHead then 0 else s.fram.addr

/-- This node transmits on a port: a DMT frame, a search frame or training symbols (R347). -/
def State.sendingOn (s : State) (p : Port) : Bool :=
  s.dl.onLine.any (fun x => x.1.port == p) || s.dl.searchOn.any (fun x => x.1.port == p) || s.dl.burst.any (fun b => b.port == p && b.wait == 0)

/-- Nothing of this node's own is on the line, and no training symbols are due. -/
def State.lineFree (s : State) : Bool := s.dl.onLine.isNone && s.dl.searchOn.isNone && s.dl.burst.isNone

/-- A DMT frame may be sent at all: R340's lock, TXOFF, no transmission elsewhere (R347); the DMT frame before it on the port has ended,
since the line was clear. -/
def State.mayDmt (s : State) (p : Port) : Bool :=
  s.running && s.lineOn && s.portUsed p && !s.dl.txoff && (s.agentOn p || s.ck.linelk) &&
  !s.sendingOn (otherPort p) && s.dl.searchOn.isNone && s.dl.burst.isNone

/-! ## Policy shed (R410) -/

/-- A rule's action is in force (R406). -/
def Rule.inForce (r : Rule) : Bool := r.state == 2 || r.state == 3 || r.state == 4

/-- Rule n's ACTION (R402). -/
def State.ruleAction (s : State) (n : Nat) : Nat := fld (s.plw (8 * n + 5)) 0 4

/-- Some rule with this action is in force. -/
def State.actionOn (s : State) (a : Nat) : Bool :=
  (List.range 32).any (fun n => (s.pl.rules.getD n {}).inForce && s.ruleAction n == a)

/-! ## Carriers, mask, tables (R334, R341, R345, R348, R349) -/

/-- The 60 data carriers in ascending order (R334). -/
def dataCarriers : List Nat := (List.range 64).filterMap (fun i => if i % 16 = 8 then none else some (16 + i))

/-- A carrier's byte of a window block laid out as the tables (13, Registers). -/
def State.carrierByte (s : State) (base k : Nat) : Byte :=
  let w := s.dsw (base + (k - 16) / 2)
  if k % 2 = 0 then loByte w else hiByte w

/-- The mask block of a port. -/
def maskBase (p : Port) : Nat := 0x1010 + 0x40 * (Port.code p)

/-- A data carrier is a notch (R354). -/
def State.notched (s : State) (p : Port) (k : Nat) : Bool := (s.carrierByte (maskBase p) k).extractLsb' 0 5 == 31#5

/-- Usable data carriers of a port (R341). -/
def State.usable (s : State) (p : Port) : List Nat := dataCarriers.filter (fun k => !s.notched p k)

/-- Robust bits per symbol (R345). -/
def State.robustBits (s : State) (p : Port) : Nat := 2 * (s.usable p).length

/-- The table slot's block. -/
def slotBase (p : Port) (slot : Nat) : Nat := 0x0800 * (Port.code p) + 0x20 * slot

/-- A table's bits on a carrier: TXB in the low nibble, RXB in the high (13, Registers). -/
def State.tableBits (s : State) (rx : Bool) (p : Port) (slot k : Nat) : Nat :=
  let b := s.carrierByte (slotBase p slot) k
  if rx then (b.extractLsb' 4 4).toNat else (b.extractLsb' 0 4).toNat

/-- B: bits per symbol of a table. -/
def State.tableB (s : State) (rx : Bool) (p : Port) (slot : Nat) : Nat := ((s.usable p).map (s.tableBits rx p slot)).foldl (· + ·) 0

/-- The generation of a valid table (R349). -/
def State.genOf (s : State) (rx : Bool) (p : Port) (slot : Nat) : Option Nat :=
  (s.fram.gens.find? (fun g => g.1 == (p == .B) && g.2.1 == slot && g.2.2.1 == rx)).map (fun g => g.2.2.2)

/-- A table's generation set, or the table made invalid. -/
def State.setGen (s : State) (rx : Bool) (p : Port) (slot : Nat) (g : Option Nat) : State :=
  let rest := s.fram.gens.filter (fun x => !(x.1 == (p == .B) && x.2.1 == slot && x.2.2.1 == rx))
  { s with fram := { s.fram with gens := match g with | some n => (p == .B, slot, rx, n) :: rest | none => rest } }

/-- One nibble of a carrier's byte replaced. -/
def putNibble (rx : Bool) (b : Byte) (v : Nat) : Byte :=
  if rx then (b &&& 0x0F#8) ||| BitVec.ofNat 8 (v % 16 * 16) else (b &&& 0xF0#8) ||| BitVec.ofNat 8 (v % 16)

/-- A table stored: bits of carriers 16 to 79 in order (R349, R350). -/
def State.storeTable (s : State) (rx : Bool) (p : Port) (slot gen : Nat) (bits : List Nat) : State :=
  let at_ (k : Nat) : Byte := putNibble rx (s.carrierByte (slotBase p slot) k) (bits.getD (k - 16) 0)
  (s.nvPutAll ((List.range 32).map (fun j =>
    (key 4 (slotBase p slot + j), wordOf (at_ (17 + 2 * j)) (at_ (16 + 2 * j)))))).setGen rx p slot (some gen)

/-- Every table of a port becomes invalid (R353). -/
def State.dropTables (s : State) (p : Port) : State :=
  { s with fram := { s.fram with gens := s.fram.gens.filter (fun g => g.1 != (p == .B)) }, dl := { s.dl with rxPend := s.dl.rxPend.filter (fun r => r.1 != p) } }

/-- T(b) in 0.1 dB (R348). -/
def loadThreshold : List (Nat × Nat) := [(1, 98), (2, 146), (3, 183), (4, 216), (5, 247), (6, 278), (7, 308), (8, 339)]

/-- Port parameter word of the DS window. -/
def State.dsParam (s : State) (p : Port) (a : Nat) : Word := s.dsw (a + 0x40 * (Port.code p))

/-- MARGIN in 0.1 dB; above 150 as 150. -/
def State.margin (s : State) (p : Port) : Nat := min 150 (s.dsParam p 0x1030).toNat

/-- BMAX: 0 as 1, above 8 as 8. -/
def State.bmax (s : State) (p : Port) : Nat := clampNat 1 8 (fld (s.dsParam p 0x1031) 0 4)

/-- NTR held to 8 to 128. -/
def State.ntr (s : State) (p : Port) : Nat := clampNat 8 128 (s.dsParam p 0x1034).toNat

/-- Bits for a carrier from its SNR in 0.5 dB (R348). -/
def State.loadBits (s : State) (p : Port) (snr : Nat) : Nat :=
  ((loadThreshold.filter (fun t => decide (t.1 ≤ s.bmax p) && decide (t.2 + s.margin p ≤ 5 * snr))).map (fun t => t.1)).foldl max 0

/-- A value per data carrier spread over carriers 16 to 79, pilots at zero. -/
def spread {α : Type} (zero : α) (xs : List α) : List α :=
  (List.range 64).map (fun i => if i % 16 = 8 then zero else xs.getD (dataCarriers.idxOf (16 + i)) zero)

/-! ## Events -/

/-- A line event with its interrupt (R366). -/
def State.dslEvent (s : State) (code : Word) (data : Nat) : State := (s.logEv code data).irq 11

/-- A clamped value, refused mask or discarded queue (R366: 0x0B07). -/
def State.dslClamp (s : State) (word : Nat) (v : Word) : State := s.dslEvent 0x0B07 (evData [(word, 0), (v.toNat, 16)])

/-! ## Grants and frames (R34, R36, R37, R341, R346, R347) -/

/-- A grant of the protected or the bulk class now (R34, R37, R42, R410). -/
def State.granted (s : State) (prot : Bool) : Bool :=
  s.running &&
  (if prot then decide (1200 ≤ s.pins.vres) && decide (s.pw.lineShed < 4)
   else decide (1600 ≤ s.pins.vres) && s.pw.lineShed == 0 && !s.actionOn 6 && decide (s.pw.txSymbols * 900 < fld (pack [(s.pw.txduty.toNat, 0)]) 0 4 * 62500))

/-- Symbols of a frame at B bits (R341). -/
def frameSymbols (len bits : Nat) : Nat := if len = 0 then 2 else 2 + divCeil (8 * (len + 4)) bits

/-- The loading a queued frame takes: LOAD 1 with a valid and better table of its one peer, outside training (R349, R351, R352). -/
def State.loadFor (s : State) (q : QFrame) : Option Nat :=
  match q.peer with
  | none => none
  | some i =>
    match s.genOf false q.port i.toNat with
    | none => none
    | some g =>
      if s.robustBits q.port < s.tableB false q.port i.toNat && !s.dl.training.any (fun t => t.port == q.port && t.peer == i) &&
          !s.dl.robust.contains (q.port, i) then some g else none

/-- Symbols the frame takes. -/
def State.symbolsOf (s : State) (q : QFrame) : Nat :=
  frameSymbols q.frame.payload.length
    (match s.loadFor q, q.peer with | some _, some i => s.tableB false q.port i.toNat | _, _ => s.robustBits q.port)

/-- The first queued frame of a port that holds a grant; without valid line time a node sends TIME only (R384). -/
def State.nextFrame (s : State) (p : Port) : Option QFrame :=
  s.dl.queue.find? (fun q => q.port == p && s.granted q.prot && (s.isHead || s.ck.ltv || q.frame.type == 0x0B#8))

/-- A time T: seconds and LINE cycles, 4 bytes each (R370). -/
def timeBytes (sec : Word32) (cyc : Nat) : List Byte := bytesBE 4 sec.toNat ++ bytesBE 4 cyc

/-- A TIME frame takes T1, as a reply T3, at the start of its S1 (R380). -/
def State.stampTime (s : State) (f : DFrame) : DFrame × State :=
  if f.type ≠ 0x0B#8 then (f, s)
  else if f.flags.getLsbD 4 then ({ f with payload := f.payload.take 16 ++ timeBytes s.ck.lsec s.ck.lcyc }, s)
  else ({ f with payload := timeBytes s.ck.lsec s.ck.lcyc }, { s with dn := { s.dn with timeT1 := some (s.ck.lsec, s.ck.lcyc) } })

/-- The carriers, loading, mask and FIR in force on a port; slot: the table of LOAD 1 (R342, R349, R354). -/
def State.shapeOf (s : State) (p : Port) (rxidx : BitVec 6) (slot : Option Nat) : Shape :=
  { txidx := s.ownIdx p, rxidx := rxidx, carriers := s.usable p,
    bits := (s.usable p).map (fun k => match slot with | some i => s.tableBits false p i k | none => 2),
    mask := (List.range 64).map (fun i => ((s.carrierByte (maskBase p) (16 + i)).extractLsb' 0 5).toNat),
    fir := (List.range 16).map (fun i => s.dsParam p (0x1000 + i)) }

/-- A DMT frame begins (R346, R347); the one before has ended, since the line was clear. All its symbols count in the RTC second in which
it begins (R37; log entry 77). -/
def State.startFrame (s : State) (p : Port) : State :=
  match s.nextFrame p with
  | none => s
  | some q =>
    let n := s.symbolsOf q
    let (load, gen) := match s.loadFor q with | some g => (true, g) | none => (false, 0)
    let (f, t) := s.stampTime q.frame
    let h := t.shapeOf p (q.peer.getD 0) (if load then q.peer.map (fun (i : BitVec 6) => i.toNat) else none)
    { t with dl := { t.dl with queue := t.dl.queue.erase q, onLine := some ({ q with frame := f }, n * 720, load, gen), shape := h },
             pw := { t.pw with txSymbols := if q.prot then t.pw.txSymbols else t.pw.txSymbols + n } }

/-- An IDX byte's index (R358). -/
def idxByte (b : Byte) : BitVec 6 := b.extractLsb' 0 6

/-- Byte i of a payload. -/
def payAt (l : List Byte) (i : Nat) : Byte := l.getD i 0

/-- A search kind of the protected class (R387). -/
def protectedKind (k : Byte) : Bool := k.toNat < 0x40

/-- µs of a search frame: (10 + LEN) × 0.8333 ms (R357). -/
def searchTime (f : SFrame) : Nat := divCeil ((10 + f.payload.length) * 2500) 3

/-- µs from now to the first symbol boundary at least one symbol away (R336, R350). -/
def State.boundaryWait (s : State) : Nat :=
  let c := s.ck.lsec.toNat * 400000 + s.ck.lcyc
  (divCeil (c + 288) 288 * 288 - c) * 5 / 2

/-- The TABLE-ACK to a peer has ended: the new TXB is in use from here, and the training is complete (R350). -/
def State.trainDone (s : State) (p : Port) (peer : BitVec 6) : State :=
  match s.dl.training.find? (fun t => t.port == p && t.peer == peer && t.gen.isSome) with
  | none => s
  | some x =>
    { s with dl := { s.dl with training := s.dl.training.erase x, failed := s.dl.failed.erase (p, peer),
                               robust := s.dl.robust.erase (p, peer) } }.dslEvent 0x0B03
      (evData [(Port.code p, 0), (peer.toNat, 8), (s.tableB false p peer.toNat, 16), (x.gen.getD 0, 32)])

/-- A search frame has ended: after a TRAIN its training symbols are due, after a TABLE-ACK the training is done (R350). -/
def State.searchSent (s : State) (f : SFrame) : State :=
  let t := { s with dl := { s.dl with searchOn := none } }
  let peer := idxByte (payAt f.payload 0)
  if f.kind = 0x40 then
    { t with dl := { t.dl with
        burst := some { port := f.port, peer := peer, symbols := (payAt f.payload 2).toNat, wait := s.boundaryWait, left := 0 } } }
  else if f.kind = 0x42 then t.trainDone f.port peer
  else t

/-- The training symbols begin with a bulk grant, and count against TXDUTY; without one none is sent (R34, R37, R350). -/
def State.burstBegin (s : State) (b : Burst) : State :=
  if s.granted false && !s.dl.txoff then
    { s with dl := { s.dl with burst := some { b with wait := 0, left := b.symbols * 720 }, shape := s.shapeOf b.port b.peer none },
             pw := { s.pw with txSymbols := s.pw.txSymbols + b.symbols } }
  else { s with dl := { s.dl with burst := none } }

/-- The training symbols after one tick. -/
def State.burstTick (s : State) : State :=
  match s.dl.burst with
  | none => s
  | some b =>
    if 1000 < b.wait then { s with dl := { s.dl with burst := some { b with wait := b.wait - 1000 } } }
    else if 0 < b.wait then s.burstBegin b
    else { s with dl := { s.dl with burst := if b.left ≤ 1000 then none else some { b with left := b.left - 1000 } } }

/-- The search frame on the line after one tick. -/
def State.searchOnTick (s : State) : State :=
  match s.dl.searchOn with
  | none => s
  | some (f, us) => if us ≤ 1000 then s.searchSent f else { s with dl := { s.dl with searchOn := some (f, us - 1000) } }

/-- What is on the line after one tick. -/
def State.onLineTick (s : State) : State :=
  let t := s.burstTick.searchOnTick
  match t.dl.onLine with
  | none => t
  | some (q, us, load, gen) =>
    { t with dl := { t.dl with onLine := if us ≤ 1000 then none else some (q, us - 1000, load, gen) } }

/-- Event 0x0106 of a transmission cut short: 1 bulk, 2 protected (R36, R60). -/
def State.cutEvent (s : State) (prot : Bool) : State := s.logEv 0x0106 (evData [(if prot then 2 else 1, 0), (s.pins.vres, 16)])

/-- Bulk symbols that will not be sent come off the second's count again (R37: the symbols already sent). -/
def State.unsent (s : State) (us : Nat) : State := { s with pw := { s.pw with txSymbols := s.pw.txSymbols - us / 720 } }

/-- The DMT frame on the line is cut. -/
def State.cutDmt (s : State) : State :=
  match s.dl.onLine with
  | none => s
  | some (q, us, _, _) =>
    ({ s with dl := { s.dl with onLine := none } }.unsent (if q.prot then 0 else us)).cutEvent q.prot

/-- The search frame on the line is cut. -/
def State.cutSearch (s : State) : State :=
  match s.dl.searchOn with
  | none => s
  | some (f, _) =>
    let t := { s with dl := { s.dl with searchOn := none } }.cutEvent (protectedKind f.kind)
    if f.kind = 0x42 then t.trainDone f.port (idxByte (payAt f.payload 0)) else t

/-- The training symbols are cut; symbols that have not begun do not begin, and nothing is logged. -/
def State.cutBurst (s : State) : State :=
  match s.dl.burst with
  | none => s
  | some b =>
    let t := { s with dl := { s.dl with burst := none } }
    if 0 < b.wait then t else (t.unsent b.left).cutEvent false

/-- What is on the line is cut, with its event (R34, R36, R60). -/
def State.cutFrame (s : State) : State := s.cutDmt.cutSearch.cutBurst

/-- Bulk transmission on the line is aborted (R36). -/
def State.cutBulk (s : State) : State :=
  let t := if s.dl.onLine.any (fun x => !x.1.prot) then s.cutDmt else s
  (if t.dl.searchOn.any (fun x => !protectedKind x.1.kind) then t.cutSearch else t).cutBurst

/-- A search frame queued (R357). -/
def State.sendSearch (s : State) (p : Port) (kind : Byte) (payload : List Byte) : State :=
  { s with dl := { s.dl with squeue := s.dl.squeue ++ [{ port := p, kind := kind, payload := payload }] } }

/-- The line of a port is busy: CSA, CSB (R346). -/
def State.busy (s : State) (p : Port) : Bool := if p = .A then s.dl.csa else s.dl.csb

/-- The line of a port has been clear for the wait of R346. -/
def State.lineClear (s : State) (p : Port) : State :=
  if p = .A then { s with dl := { s.dl with csa := false } } else { s with dl := { s.dl with csb := false } }

/-- At a tick the first search frame with a grant begins on its port, when the port is in service, its line is clear, and nothing of this
node's is on the line (R13, R19, R346, R347, R387). -/
def State.searchTick (s : State) : State :=
  if s.dl.txoff || !s.lineFree || !s.running then s
  else match s.dl.squeue.find? (fun f => s.portUsed f.port && !s.busy f.port && s.granted (protectedKind f.kind)) with
    | some f => { s with dl := { s.dl with squeue := s.dl.squeue.erase f, searchOn := some (f, searchTime f) } }
    | none => s

/-! ## Received frames: what every one brings (R337, R352, R373) -/

/-- The receiver learns the line index of a source (R373). -/
def State.learnIdx (s : State) (p : Port) (src : BitVec 12) (i : BitVec 6) : State :=
  if p = .A then { s with dl := { s.dl with idxA := (src, i) :: s.dl.idxA.filter (fun x => x.1 != src) } }
  else { s with dl := { s.dl with idxB := (src, i) :: s.dl.idxB.filter (fun x => x.1 != src) } }

/-- The line index known for an address on a port (R373). -/
def State.idxOf (s : State) (p : Port) (a : BitVec 12) : Option (BitVec 6) :=
  (if p = .A then s.dl.idxA else s.dl.idxB).lookup a

/-- The pending RXB of a peer becomes the committed one (R350); completion is logged. -/
def State.commitRx (s : State) (p : Port) (peer : BitVec 6) : State :=
  match s.dl.rxPend.find? (fun r => r.1 == p && r.2.1 == peer) with
  | none => s
  | some (_, _, gen, bits) =>
    let t := s.storeTable true p peer.toNat gen bits
    { t with dl := { t.dl with rxPend := t.dl.rxPend.filter (fun r => !(r.1 == p && r.2.1 == peer)) } }.dslEvent 0x0B03
      (evData [((Port.code p), 0), (peer.toNat, 8), (t.tableB true p peer.toNat, 16), (gen, 32)])

/-- Failures in a row of a peer's LOAD 1 frames (R352). -/
def State.failsOf (s : State) (p : Port) (peer : BitVec 6) : Nat :=
  ((s.dl.fails.find? (fun x => x.1 == p && x.2.1 == peer)).map (fun x => x.2.2)).getD 0

/-- That number replaced. -/
def State.setFails (s : State) (p : Port) (peer : BitVec 6) (n : Nat) : State :=
  let rest := s.dl.fails.filter (fun x => !(x.1 == p && x.2.1 == peer))
  { s with dl := { s.dl with fails := if n = 0 then rest else (p, peer, n) :: rest } }

/-- A LOAD 1 frame's GEN (R350, R352): pending commits, committed passes, any other drops the frame and is cause 4 of a retrain. -/
def State.genCheck (s : State) (f : RxFrame) : Bool × State :=
  if !f.load then (true, s)
  else if s.dl.rxPend.any (fun r => r.1 == f.port && r.2.1 == f.txidx && r.2.2.1 == f.gen.toNat) then
    (true, (s.commitRx f.port f.txidx).setFails f.port f.txidx 0)
  else if s.genOf true f.port f.txidx.toNat == some f.gen.toNat then (true, s.setFails f.port f.txidx 0)
  else (false, { s with dl := { s.dl with stale := (f.port, f.txidx) :: s.dl.stale.erase (f.port, f.txidx) } })

/-- A port's S1 stamp and counts. -/
def State.live (s : State) (p : Port) : PortLive := if p = .A then s.dl.liveA else s.dl.liveB

/-- A port's S1 stamp and counts changed. -/
def State.setLive (s : State) (p : Port) (f : PortLive → PortLive) : State :=
  if p = .A then { s with dl := { s.dl with liveA := f s.dl.liveA } } else { s with dl := { s.dl with liveB := f s.dl.liveB } }

/-- Stamp, count and index of a received frame (R337, R373). -/
def State.stampFrame (s : State) (f : RxFrame) : State :=
  let t := (s.learnIdx f.port f.frame.src f.txidx)
  let u := t.setLive f.port (fun (l : PortLive) => { l with s1sec := f.sec, s1cyc := f.cyc, frCnt := satInc l.frCnt })
  u.pinned 11 (0x10C6 + 0x80 * Port.code f.port) (u.live f.port).frCnt

/-! ## Training and retrain (R350 to R353) -/

/-- An index as a byte. -/
def byteOfIdx (i : BitVec 6) : Byte := i.setWidth 8

/-- TRAIN goes out toward a peer and training is in progress (R350). -/
def State.sendTrain (s : State) (p : Port) (peer : BitVec 6) (sent : Nat) : State :=
  let rest := s.dl.training.filter (fun t => !(t.port == p && t.peer == peer))
  { s with dl := { s.dl with training := rest ++ [({ port := p, peer := peer, sent := sent } : Training)] } }.sendSearch p 0x40
    [byteOfIdx peer, byteOfIdx (s.ownIdx p), BitVec.ofNat 8 (s.ntr p)]

/-- Training toward a peer may begin: in the system, transmit allowed, none in progress (R350, R358). -/
def State.mayTrain (s : State) (p : Port) (peer : BitVec 6) : Bool :=
  s.running && s.lineOn && s.portUsed p && s.inSystem && !s.dl.txoff && !s.dl.training.any (fun t => t.port == p && t.peer == peer)

/-- TRAIN_START's condition: a unicast frame for the peer waits and no TXB is valid (R350). -/
def State.trainDue (s : State) (p : Port) (peer : BitVec 6) : Bool :=
  (s.genOf false p peer.toNat).isNone && !s.dl.failed.contains (p, peer) &&
  s.dl.queue.any (fun q => q.port == p && q.peer == some peer)

/-- No TABLE came: TRAIN again twice, then failure for the oldest training (R351). -/
def State.trainTimeout (s : State) : State :=
  match s.dl.training.find? (fun t => t.gen.isNone) with
  | none => s
  | some t =>
    if t.sent < 3 then s.sendTrain t.port t.peer (t.sent + 1)
    else { s with dl := { s.dl with training := s.dl.training.erase t, failed := (t.port, t.peer) :: s.dl.failed } }.dslEvent 0x0B04
      (evData [((Port.code t.port), 0), (t.peer.toNat, 8)])

/-- A TRAIN for this node: the symbols that follow are measured (R350). -/
def State.rxTrainFrame (s : State) (r : RxSearch) : State :=
  if idxByte (payAt r.payload 0) = s.ownIdx r.port then
    { s with dl := { s.dl with rxTrain := some (r.port, idxByte (payAt r.payload 1), (payAt r.payload 2).toNat) } }
  else s

/-- Two bits lists as TABLE's 32 bytes: carrier 16 + 2j in the high nibble (R358). -/
def tableBytes (bits : List Nat) : List Byte :=
  (List.range 32).map (fun j => BitVec.ofNat 8 (bits.getD (2 * j) 0 % 16 * 16 + bits.getD (2 * j + 1) 0 % 16))

/-- The bits of carriers 16 to 79 from TABLE's 32 bytes. -/
def tableOfBytes (bs : List Byte) : List Nat :=
  (bs.map (fun b => [(b.extractLsb' 4 4).toNat, (b.extractLsb' 0 4).toNat])).flatten

/-- NOISE bytes of a port (R365). -/
def State.noiseBytes (s : State) (p : Port) : List Byte := if p = .A then s.dl.noiseA else s.dl.noiseB

/-- The training symbols have been measured: RXB with the next GEN is pending, TABLE goes out (R348, R350). -/
def State.trainingEnd (s : State) (p : Port) (snr : List Byte) : State :=
  match s.dl.rxTrain with
  | none => s
  | some (q, peer, _) =>
    if q ≠ p then s
    else
      let full := spread 0#8 snr
      let bits := (List.range 64).map (fun i =>
        if i % 16 = 8 || s.notched p (16 + i) then 0 else s.loadBits p (full.getD i 0).toNat)
      let gen := match s.genOf true p peer.toNat with | some g => (g + 1) % 16 | none => 1
      let t := { s with dl := { s.dl with
        rxTrain := none,
        trainNoise := (p, peer, s.noiseBytes p) :: s.dl.trainNoise.filter (fun r => !(r.1 == p && r.2.1 == peer)),
        rxPend := (p, peer, gen, bits) :: s.dl.rxPend.filter (fun r => !(r.1 == p && r.2.1 == peer)) } }
      let u := if p = .A then { t with dl := { t.dl with snrA := full, peerA := peer } } else { t with dl := { t.dl with snrB := full, peerB := peer } }
      u.sendSearch p 0x41 ([byteOfIdx peer, byteOfIdx (s.ownIdx p), BitVec.ofNat 8 gen, BitVec.ofNat 8 (s.margin p)] ++ tableBytes bits)

/-- A TABLE for this node's training: TXB is stored, TABLE-ACK goes out, at whose end TXB is used (R350). -/
def State.rxTable (s : State) (r : RxSearch) : State :=
  let peer := idxByte (payAt r.payload 1)
  if idxByte (payAt r.payload 0) = s.ownIdx r.port && s.dl.training.any (fun t => t.port == r.port && t.peer == peer) then
    let gen := (payAt r.payload 2).toNat % 16
    let t := s.storeTable false r.port peer.toNat gen (tableOfBytes (slice r.payload 4 32))
    let heard (x : Training) : Training := if x.port == r.port && x.peer == peer then { x with gen := some gen } else x
    { t with dl := { t.dl with training := t.dl.training.map heard } }.sendSearch r.port 0x42
      [byteOfIdx peer, byteOfIdx (s.ownIdx r.port), payAt r.payload 2]
  else s

/-- A TABLE-ACK commits the pending RXB it names (R350). -/
def State.rxTableAck (s : State) (r : RxSearch) : State :=
  let peer := idxByte (payAt r.payload 1)
  if idxByte (payAt r.payload 0) = s.ownIdx r.port &&
      s.dl.rxPend.any (fun x => x.1 == r.port && x.2.1 == peer && x.2.2.1 == (payAt r.payload 2).toNat % 16) then
    s.commitRx r.port peer
  else s

/-- A RETRAIN for this node: its direction toward the sender is trained again (R350, R352). -/
def State.rxRetrain (s : State) (r : RxSearch) : State :=
  let peer := idxByte (payAt r.payload 1)
  if idxByte (payAt r.payload 0) = s.ownIdx r.port then
    let t := { s with dl := { s.dl with rtrq := true } }
    if t.mayTrain r.port peer then t.sendTrain r.port peer 1 else t
  else s

/-- Carriers loaded in the RXB of a peer (R352). -/
def State.loadedRx (s : State) (p : Port) (peer : BitVec 6) : List Nat :=
  (s.usable p).filter (fun k => s.tableBits true p peer.toNat k != 0)

/-- Cause 2: on 4 or more loaded carriers the SNR lies below T(b) + MARGIN − RTDROP; snr: a byte per data carrier, 0.5 dB (R352). -/
def State.snrLow (s : State) (p : Port) (peer : BitVec 6) (snr : List Byte) : Bool :=
  let need (k : Nat) : Nat := (loadThreshold.lookup (s.tableBits true p peer.toNat k)).getD 0 + s.margin p
  decide (4 ≤ ((s.loadedRx p peer).filter (fun k =>
    decide (5 * ((spread 0#8 snr).getD (k - 16) 0).toNat + (s.dsParam p 0x1033).toNat < need k))).length)

/-- Cause 3: the noise of 4 or more loaded carriers has risen by RTDROP above its value at the peer's training (R352). -/
def State.noiseRise (s : State) (p : Port) (peer : BitVec 6) : Bool :=
  match s.dl.trainNoise.find? (fun r => r.1 == p && r.2.1 == peer) with
  | none => false
  | some (_, _, was) =>
    !was.isEmpty && decide (4 ≤ ((s.loadedRx p peer).filter (fun k =>
      decide (5 * (was.getD (k - 16) 0).toNat + (s.dsParam p 0x1033).toNat ≤ 5 * ((s.noiseBytes p).getD (k - 16) 0).toNat))).length)

/-- The condition of a retrain trigger's cause, 1 to 4 (R352). RTFAIL 0 acts as 1. -/
def State.retrainDue (s : State) (p : Port) (peer : BitVec 6) (cause : Nat) (snr : List Byte) : Bool :=
  if cause = 1 then decide (max 1 (fld (s.dsParam p 0x1032) 0 4) ≤ s.failsOf p peer)
  else if cause = 2 then s.snrLow p peer snr
  else if cause = 3 then s.noiseRise p peer
  else cause == 4 && s.dl.stale.contains (p, peer)

/-- The condition has been answered. -/
def State.retrainTaken (s : State) (p : Port) (peer : BitVec 6) (cause : Nat) : State :=
  if cause = 1 then s.setFails p peer 0
  else if cause = 4 then { s with dl := { s.dl with stale := s.dl.stale.erase (p, peer) } } else s

/-- A retrain trigger: at most one RETRAIN per peer in 10 s; in between LOAD 0 only (R352). -/
def State.retrainTrigger (s : State) (p : Port) (peer : BitVec 6) (cause : Nat) : State :=
  if s.dl.retrainAt.any (fun r => r.1 == p && r.2.1 == peer && s.within r.2.2 10000) then
    { s with dl := { s.dl with robust := (p, peer) :: s.dl.robust.erase (p, peer) } }
  else
    let t := { s with dl := { s.dl with
      rtrq := true,
      retrainAt := (p, peer, s.pw.ticks) :: s.dl.retrainAt.filter (fun r => !(r.1 == p && r.2.1 == peer)) } }.setLive p
        (fun (l : PortLive) => { l with rtCnt := satInc l.rtCnt })
    ((t.pinned 11 (0x10C8 + 0x80 * Port.code p) (t.live p).rtCnt).sendSearch p 0x43 [byteOfIdx peer, byteOfIdx (s.ownIdx p), BitVec.ofNat 8 cause]).dslEvent 0x0B02
      (evData [((Port.code p), 0), (peer.toNat, 8), (cause, 16)])

/-- The peers of which a port holds an RXB. -/
def State.peersOf (s : State) (p : Port) : List (BitVec 6) :=
  s.fram.gens.filterMap (fun g => if g.1 == (p == .B) && g.2.2.1 then some (BitVec.ofNat 6 g.2.1) else none)

/-- DS_CTL.RTRN: every peer on both ports, as far as they are in service (R13, R19, R352, cause 5). -/
def State.retrainEvery (s : State) : State :=
  let one (p : Port) (t : State) : State := if t.portUsed p then (t.peersOf p).foldl (fun u i => u.retrainTrigger p i 5) t else t
  one .B (one .A s)

/-! ## Mask and parameters (R345, R353, R354) -/

/-- The port a per-port parameter word belongs to. -/
def dsPortOf (a : Nat) : Port := if a < 0x1040 then .A else .B

/-- The word is in a mask block. -/
def isMaskWord (a : Nat) : Bool := (decide (0x1010 ≤ a) && decide (a ≤ 0x102F)) || (decide (0x1050 ≤ a) && decide (a ≤ 0x106F))

/-- A mask word's change as its commit: refused below 50 usable carriers; a changed notch set drops the tables (R353, R354).
write: how the word enters FRAM. -/
def State.maskWrite (s : State) (a : Nat) (w : Word) (write : State → State) : State :=
  let p := dsPortOf a
  let t := s.nvPut (key 4 a) w
  if (t.usable p).length < 50 then s.dslClamp a w
  else
    let u := write s
    if t.usable p = s.usable p then u else u.dropTables p

/-- What another committed parameter word of the line brings: NTR's clamp (13, Edges). -/
def State.dlWord (s : State) (a : Nat) (w : Word) : State :=
  if (a = 0x1034 ∨ a = 0x1074) ∧ (w.toNat < 8 ∨ 128 < w.toNat) then s.dslClamp a w else s

/-- PBEN cleared: port B is off, what was queued for it is discarded, and its trainings and its search end (R13; 13, Edges). -/
def State.pbenOff (s : State) : State :=
  if s.pben then s
  else
    let t := { s with
      dl := { s.dl with queue := s.dl.queue.filter (fun q => q.port != Port.B), squeue := s.dl.squeue.filter (fun f => f.port != Port.B),
                        training := s.dl.training.filter (fun x => x.port != Port.B),
                        rxTrain := s.dl.rxTrain.filter (fun x => x.1 != Port.B) },
      dn := { s.dn with segs := s.dn.segs.filter (fun g => g.port != Port.B) } }
    if s.dl.queue.any (fun q => q.port == Port.B) || s.dl.squeue.any (fun f => f.port == Port.B) then t.dslClamp 0x46 0 else t

/-! ## DS_STAT (R97, R98) -/

/-- The w1c bits of a word written to DS_STAT clear. -/
def State.dsStatClear (s : State) (v : Word) : State :=
  { s with dl := { s.dl with rtrq := s.dl.rtrq && !bitAt v 3, herr := s.dl.herr && !bitAt v 6 },
           dn := { s.dn with vio := s.dn.vio && !bitAt v 14, swl := s.dn.swl && !bitAt v 15 } }

/-- LINE runs again: the write of DS_STAT it held takes effect (R98). -/
def State.dsStatHeld (s : State) : State :=
  match s.dl.heldStat with
  | some v => if s.lineOn then { s with dl := { s.dl with heldStat := none } }.dsStatClear v else s
  | none => s

/-! ## Drops and noise (R357, R365, R366) -/

/-- A dropped frame is counted, of a peer's LOAD 1 frames too; the second's event follows at the boundary (R352, R357, R366). -/
def State.dropFrame (s : State) (k : DropKind) : State :=
  match k with
  | .header p =>
    let t := { s with dl := { s.dl with herr := true, secHdr := s.dl.secHdr + 1 } }.setLive p
      (fun (l : PortLive) => { l with hdrErr := satInc l.hdrErr })
    t.pinned 11 (0x10C7 + 0x80 * Port.code p) (t.live p).hdrErr
  | .payload p peer load =>
    let t := { s with dl := { s.dl with secPay := s.dl.secPay + 1 } }
    if load then t.setFails p peer (t.failsOf p peer + 1) else t
  | .search => { s with dl := { s.dl with secSearch := s.dl.secSearch + 1 } }
  | .reservedKind _ => s

/-- The line's part of a second boundary: event 0x0B05 for a second with drops; the excess of TXDUTY carries over (R37, R366). -/
def State.lineSecond (s : State) : State :=
  let cap := s.pw.txduty.toNat * 62500 / 900
  let t := { s with dl := { s.dl with secHdr := 0, secPay := 0, secSearch := 0 }, pw := { s.pw with txSymbols := s.pw.txSymbols - cap } }
  if s.dl.secHdr = 0 ∧ s.dl.secPay = 0 ∧ s.dl.secSearch = 0 then t
  else t.dslEvent 0x0B05 (evData [(min 65535 s.dl.secHdr, 0), (min 65535 s.dl.secPay, 16), (min 65535 s.dl.secSearch, 32)])

/-- A search frame's level on its port (R359). -/
def State.latchRssi (s : State) (r : RxSearch) : State :=
  if r.port = .A then { s with dl := { s.dl with rssiA := r.rssi } } else { s with dl := { s.dl with rssiB := r.rssi } }

/-- A search frame taken: receive runs, and the port does not transmit (R346); the level is latched first. -/
def State.takeSearch (s : State) (r : RxSearch) (f : State → State) : State :=
  s.when (s.rxOn r.port && !s.sendingOn r.port) (fun t => f (t.latchRssi r))

/-! ## Meanings -/

/-- NOISE_BLOCK_TRANSFORM (R365). -/
def execNoiseBlockTransform (b : NoiseBlock) (s : State) : Host.Outcome State Fault Refusal :=
  .next (s.when s.runOrDrain (fun t => match b with
    | .converter => t.converterBlock
    | .line p noise =>
      t.when (t.rxOn p) (fun u =>
        if p = .A then { u with dl := { u.dl with noiseA := spread 0#8 noise } }
        else { u with dl := { u.dl with noiseB := spread 0#8 noise } })))

/-- LINE_LOCK (R339): the steering the pilots call for, held to ±200 ppm (R91). -/
def execLineLock (steer : Int) (s : State) : Host.Outcome State Fault Refusal :=
  .next (s.when (!s.isHead && s.coreOn && s.lineOn && !s.ck.linelk) (fun t =>
    let v := clampInt (-20000) 20000 steer
    { t with ck := { t.ck with linelk := true, steerGoal := v } }.dslEvent 0x0B01 (evData [(1, 0), ((BitVec.ofInt 16 v).toNat, 16)])))

/-- LINE_LOCK_LOST (R339): steering holds its last value (R91). -/
def execLineLockLost (s : State) : Host.Outcome State Fault Refusal :=
  .next (s.when (!s.isHead && s.coreOn && s.ck.linelk) (fun t =>
    let p := t.fram.upPort
    let u := { t with ck := { t.ck with linelk := false } }.setLive p (fun (l : PortLive) => { l with lockLost := satInc l.lockLost })
    (u.pinned 11 (0x10C9 + 0x80 * Port.code p) (u.live p).lockLost).dslEvent 0x0B01 (evData [(0, 0), ((BitVec.ofInt 16 t.ck.steer).toNat, 16)])))

/-- TRAIN_START (R350). -/
def execTrainStart (p : Port) (peer : BitVec 6) (s : State) : Host.Outcome State Fault Refusal :=
  .next (s.when (s.mayTrain p peer && s.trainDue p peer) (fun t => t.sendTrain p peer 1))

/-- TRAIN (R350). -/
def execTrain (r : RxSearch) (s : State) : Host.Outcome State Fault Refusal := .next (s.takeSearch r (fun t => t.rxTrainFrame r))

/-- TRAINING_SYMBOLS_END (R350). -/
def execTrainingSymbolsEnd (p : Port) (snr : List Byte) (s : State) : Host.Outcome State Fault Refusal :=
  .next (s.when (s.rxOn p) (fun t => t.trainingEnd p snr))

/-- TABLE (R350). -/
def execTable (r : RxSearch) (s : State) : Host.Outcome State Fault Refusal := .next (s.takeSearch r (fun t => t.rxTable r))

/-- TABLE_ACK (R350). -/
def execTableAck (r : RxSearch) (s : State) : Host.Outcome State Fault Refusal := .next (s.takeSearch r (fun t => t.rxTableAck r))

/-- TRAIN_TIMEOUT (R351). -/
def execTrainTimeout (s : State) : Host.Outcome State Fault Refusal := .next (s.when s.running State.trainTimeout)

/-- TRAIN_RETRY (R351). -/
def execTrainRetry (p : Port) (peer : BitVec 6) (s : State) : Host.Outcome State Fault Refusal :=
  .next (s.when (s.dl.failed.contains (p, peer) && s.mayTrain p peer) (fun t =>
    { t with dl := { t.dl with failed := t.dl.failed.erase (p, peer) } }.sendTrain p peer 1))

/-- RETRAIN (R352). -/
def execRetrain (r : RxSearch) (s : State) : Host.Outcome State Fault Refusal := .next (s.takeSearch r (fun t => t.rxRetrain r))

/-- RETRAIN_TRIGGER (R352): causes 1 to 4, each with its condition. -/
def execRetrainTrigger (p : Port) (peer : BitVec 6) (cause : BitVec 3) (snr : List Byte) (s : State) : Host.Outcome State Fault Refusal :=
  .next (s.when (s.rxOn p && s.inSystem && s.retrainDue p peer cause.toNat snr) (fun t =>
    (t.retrainTaken p peer cause.toNat).retrainTrigger p peer cause.toNat))

end Sys2Proof.Machine
end

