-- ==== Sys2Proof/Machine/Ledger.lean ====
section
/-! DEFINITION. Sys2Proof/Machine/Ledger.lean: banks, recovery, snapshots, the event ring, the seal, keys (09_ledger_audit_and_seal.md).
The effect of an audited change stands in Audit.lean. -/

namespace Sys2Proof.Machine

open Sys2Proof.Config (key)

/-! ## Recovery at WAKE (R226 to R228, R490) -/

/-- The extent of the audit log: the highest slot with a non-zero CODE, plus 1 (R490). -/
def auditExtent (log : List (Nat × LogEntry)) : Nat := (log.map (fun e => if e.2.code = 0#16 then 0 else e.1 + 1)).foldl max 0

/-- The 16 bytes a slot of the audit log holds; zeros when empty (R490). -/
def auditSlot (log : List (Nat × LogEntry)) (n : Nat) : List Byte :=
  match log.lookup n with | some e => e.bytes | none => List.replicate 16 0

/-- The chain extended over n slots from a first one (R235, R490). -/
def State.chainOver (s : State) : Nat → Nat → List Byte → List Byte
  | _, 0, c => c
  | at_, n + 1, c => s.chainOver (at_ + 1) n (chainNext s.ledgerKey s.fram.serial c (auditSlot s.fram.audit at_))

/-- A bank of the two: validity under the present key (R226). -/
def State.bankOk (s : State) (b : Bool) : Bool := bankValid s.ledgerKey s.fram.serial b (if b then s.fram.bankB else s.fram.bankA)

/-- The bytes of a bank. -/
def State.bankOf (s : State) (b : Bool) : List Byte := if b then s.fram.bankB else s.fram.bankA

/-- The bank recovery chooses: the valid one with the larger SEQ (R226). -/
def State.chosen (s : State) : Option Bool :=
  if s.bankOk false && s.bankOk true then some (decide (leAt s.fram.bankA 4 4 < leAt s.fram.bankB 4 4))
  else if s.bankOk false then some false else if s.bankOk true then some true else none

/-- ACOUNT and ACHAIN settled against the log (R490). -/
def State.settleAudit (s : State) (count : Nat) (chain : List Byte) : State :=
  let ext := auditExtent s.fram.audit
  if count < ext then { s with lg := { s.lg with acount := ext, achain := s.chainOver count (ext - count) chain } }
  else
    let t := { s with lg := { s.lg with acount := count, achain := chain } }
    if ext < count then (t.logEv 0x070C (evData [(count, 0), (ext, 16)])).irq 6 else t

/-- Recovery with a chosen bank (R225 to R227). -/
def State.recoverFrom (s : State) (b : Bool) : State :=
  let bs := s.bankOf b
  let seq := BitVec.ofNat 32 (leAt bs 4 4)
  let ok := s.bankOk (!b)
  let step : Word32 := BitVec.ofNat 32 (leAt (s.bankOf (!b)) 4 4)
  let t := { s with
    lg := { s.lg with
      totals := bankTotals bs, totalsDone := bankTotals bs, seq := seq, seqDone := seq,
      timeDone := BitVec.ofNat 32 (leAt bs 8 4), unaud := BitVec.ofNat 16 (leAt bs 0x0E 2), sweep := BitVec.ofNat 32 (leAt bs 0xAC 4),
      cdig := slice bs 0xB0 8, bank := b, recov := pack [(b2n b, 0), (b2n ok, 1), (b2n (!ok), 2)] },
    orr := { s.orr with
      tcnt := BitVec.ofNat 48 (leAt bs 0xA0 6), angle := BitVec.ofNat 48 (leAt bs 0xA6 2 + leAt bs 0xA8 4 * 65536) } }
  let w := t.settleAudit (leAt bs 0xB8 2) (slice bs 0xC0 8)
  let u := if seq = 0xFFFFFFFF#32 then w.exhaust else w
  if ok && seq == step + 1#32 then u
  else ({ u with lg := { u.lg with torn := true } }.logEv 0x0701 (evData [(b2n b, 0), (seq.toNat, 8), (b2n ok, 40)])).irq 6

/-- Recovery with no valid bank: LBAD (R228, R490). -/
def State.recoverNone (s : State) : State :=
  let ext := auditExtent s.fram.audit
  let t := { s with lg := { s.lg with
    lbad := true, recov := 8, acount := ext, achain := s.chainOver 0 ext (List.replicate 8 0),
    seq := BitVec.ofNat 32 (max (leAt s.fram.bankA 4 4) (leAt s.fram.bankB 4 4)) } }
  (t.logEv 0x0702 (evData [(leAt s.fram.bankA 4 2, 0), (leAt s.fram.bankB 4 2, 16), (ext, 32)])).irq 6

/-- Bank recovery, one step of WAKE (R226). -/
def State.recover (s : State) : State := match s.chosen with | some b => s.recoverFrom b | none => s.recoverNone

/-! ## Snapshots and commits (R224, R237) -/

/-- The slot of the next snapshot (R237). -/
def State.snapSlot (s : State) : Nat := s.fram.snapCount % 64

/-- The snapshot of one sweep (R237): number, line-time seconds; FLAGS, SEQ, totals and ACOUNT of the latch instant's commit. -/
def State.writeSnap (s : State) (d : BankData) (sw : Word32 × Word32) : State :=
  let body := snapBody d.flags sw.1 sw.2 d.seq d.totals d.acount
  let t := { s with
    fram := { s.fram with
      snaps := (s.snapSlot, snapBytes s.ledgerKey s.fram.serial body) :: s.fram.snaps.filter (fun e => e.1 != s.snapSlot),
      snapCount := s.fram.snapCount + 1 },
    lg := { s.lg with snap := true } }
  t.irq 6

/-- The snapshots of a commit's sweeps. -/
def State.writeSnaps (s : State) (d : BankData) (sweeps : List (Word32 × Word32)) : State :=
  sweeps.foldl (fun t sw => t.writeSnap d sw) s

/-- Under LBAD a sweep makes no commit, but its snapshot of zero totals, with the SEQ of the last attempted commit (09, Edges). -/
def State.snapUnderLbad (s : State) (sweeps : List (Word32 × Word32)) : State :=
  s.writeSnaps { (s.bankData 0 false s.lg.seq) with totals := List.replicate 12 0 } sweeps

/-- A commit stands in its bank: what later readers see of it (R224, R251, R273). -/
def State.commitDone (s : State) (c : Commit) : State :=
  let t := { s with
    fram := if c.toB then { s.fram with bankB := c.bytes } else { s.fram with bankA := c.bytes },
    lg := { s.lg with
      cur := none, bank := c.toB, seqDone := c.data.seq, timeDone := c.data.time, totalsDone := c.data.totals,
      past := (({ time := c.data.time, fwd := (c.data.totals.take 4).map (fun x => x / 2 ^ 32) } : Past) :: s.lg.past).take 16 } }
  let u := if s.lg.cie then t.irq 6 else t
  u.writeSnaps c.data c.sweeps

/-- The oldest waiting commit begins (R224, R247, R249); when SEQ has ended, none does, and the snapshots of the waiting sweeps are
written with the last SEQ (R225, R237). -/
def State.nextCommit (s : State) : State :=
  match s.lg.waiting with
  | [] => s
  | w :: rest =>
    if s.lg.lbad then
      (w :: rest).foldl (fun t x => t.writeSnaps { x.data with seq := s.lg.seq } x.sweeps) { s with lg := { s.lg with waiting := [] } }
    else { s with lg := { s.lg with waiting := rest } }.beginCommit w

/-- COMMIT_COMPLETE: the rows are written (R224). -/
def State.commitComplete (s : State) : State := match s.lg.cur with | some c => (s.commitDone c).nextCommit | none => s

/-- Two commits in a row with one REASON (R247, R249, R278). -/
def State.twoCommits (s : State) (reason : Byte) : State := (s.trigger reason false []).trigger reason false []

/-! ## The event ring (R231, R232) -/

/-- The oldest buffered entry is written; the drops are reported when space returns (R232). -/
def State.writeEvent (s : State) : State :=
  match s.ev.buf with
  | [] => s
  | e :: rest =>
    let seq := s.fram.eventSeq + 1#32
    let t := { s with
      fram := { s.fram with
        events := ({ e with seq := seq } :: s.fram.events).take 1024, eventSeq := seq,
        eventWrap := s.fram.eventWrap || s.fram.events.length == 1024 },
      ev := { s.ev with buf := rest } }.irq 7
    if t.ev.drops = 0 then t else { t with ev := { t.ev with drops := 0 } }.logEv 0x0708 t.ev.drops

/-! ## Seal (R238 to R243, R56) -/

/-- Words held for a sealed multi-word item are dropped when the seal closes (R242). -/
def State.dropHeld (s : State) : State := { s with hb := { s.hb with held := s.hb.held.filter (fun h => h.1 / 0x10000 == 6 || h.1 == key 3 0xF8C0 || h.1 == key 3 0xF8C2) } }

/-- A key load ends without a change (R245): slot and cause in 0x0F05. -/
def State.abortLoad (s : State) (cause : Nat) : State :=
  if s.sc.ldg then { s with sc := { s.sc with ldg := false, words := [] } }.logEv 0x0F05 (evData [(s.sc.ldSlot.toNat, 0), (cause, 8)]) else s

/-- A held word or pair as event data: window word, value. -/
def Change.whatValue : Change → Nat
  | .word k v => evData [(k % 0x10000, 0), (v.toNat, 16)]
  | .pair k lo hi => evData [(k % 0x10000, 0), ((dword lo hi).toNat, 16)]
  | _ => 0

/-- Writes of sealed words that PHOLD holds are refused when the seal closes (08, Edges: 0x0609). -/
def State.refuseHeld (s : State) : State :=
  if s.fe.heldWrites.isEmpty then s
  else { s with fe := { s.fe with heldWrites := [] } }.logEv 0x0609 ((s.fe.heldWrites.map Change.whatValue).headD 0)

/-- A ceremony ends without completion: STATE as before, 0x0802 with the cause (R255). -/
def State.abortCeremony (s : State) (cause : Nat) : State :=
  if s.fram.anState = 1 then
    ({ s with fram := { s.fram with anState := s.an.before },
              an := { s.an with hasPeer := false, sentConfirm := false, gotConfirm := none, wantRestore := false } }.logEv 0x0802 cause).irq 8
  else s

/-- SC_CTL.SEAL takes a level: SEALCH, SY_IRQ[15]; closing ends what needs the seal open (R129, R239, R242, R245, R255). -/
def State.setSeal (s : State) (isOpen : Bool) : State :=
  let t := { s with aon := { s.aon with sealOpen := isOpen }, sc := { s.sc with sealch := true } }.irq 15
  if isOpen then t else (((t.dropHeld.abortLoad 1).refuseHeld).abortCeremony 2).learnAbort 7

/-- A seal change that the full log cannot take: the event log has it, UNAUD counts it (R236). -/
def State.sealUnaudited (s : State) (isOpen : Bool) (n : Nat) : State :=
  ({ s with lg := { s.lg with unaud := satAdd s.lg.unaud n } }.logEv (if isOpen then 0x0F02 else 0x0F03) 0).setSeal isOpen

/-- A change of the filtered level in RUN or DRAIN (R239). -/
def State.sealEdge (s : State) (isOpen : Bool) : State :=
  let t := { s with aon := { s.aon with sealLevel := isOpen } }
  if s.auditFull then t.sealUnaudited isOpen 1 else t.queueChange (.seal isOpen)

/-- A change in another state is counted and held (R56, R240). -/
def State.sealHeld (s : State) (isOpen : Bool) : State :=
  { s with aon := { s.aon with sealLevel := isOpen, sealCount := min 255 (s.aon.sealCount + 1) } }

/-- RUN entry: the held count, then the net level (R236, R240). -/
def State.sealAtRun (s : State) : State :=
  let n := s.aon.sealCount
  let differs := s.aon.sealLevel != s.aon.sealOpen
  if s.auditFull then
    let t := if n = 0 then s
      else { s with aon := { s.aon with sealCount := 0 }, lg := { s.lg with unaud := satAdd s.lg.unaud n } }.logEv 0x0F08 n
    if differs then t.sealUnaudited s.aon.sealLevel (if n = 0 then 1 else 0) else t
  else
    let t := if n = 0 then s else s.queueChange (.sealCount n)
    if differs then t.queueChange (.seal s.aon.sealLevel) else t

/-! ## Keys (R245 to R247) -/

/-- The check value of a key: first 4 bytes of the HMAC over sixteen zeros (R246). -/
def kcv (k : Option (List Byte)) : List Byte := match k with | some key => (hmac key (List.replicate 16 0)).take 4 | none => List.replicate 4 0

/-- A key load starts for the slot written; a running one is aborted; slots 2 and 3 are refused (R245). -/
def State.startLoad (s : State) : State :=
  let t := s.abortLoad 6
  if 2 ≤ t.sc.slot.toNat then t.logEv 0x0F05 (evData [(t.sc.slot.toNat, 0), (4, 8)])
  else { t with sc := { t.sc with ldg := true, ldSlot := t.sc.slot, words := [] } }

/-- The key bytes of eight words: low byte first (R245). -/
def keyBytes (ws : List Word) : List Byte := (ws.map (fun w => [loByte w, hiByte w])).flatten

/-- One key word; the eighth makes the change (R245). -/
def State.keyWord (s : State) (w : Word) : State :=
  if !s.sc.ldg then s
  else
    let ws := s.sc.words ++ [w]
    if ws.length < 8 then { s with sc := { s.sc with words := ws } }
    else
      let t := { s with sc := { s.sc with ldg := false, words := [] } }
      if ws.all (fun x => x == 0#16) then t.logEv 0x0F05 (evData [(t.sc.ldSlot.toNat, 0), (3, 8)])
      else if t.auditFull then t.refuseFull 0x6A
      else t.queueChange (.key (t.sc.ldSlot == 1) (keyBytes ws))

/-- A load cut by DRAIN: reported at the next WAKE (09, Edges). -/
def State.cutLoad (s : State) : State :=
  if s.sc.ldg then { s with sc := { s.sc with ldg := false, words := [], cutLoad := some s.sc.ldSlot } } else s

/-! ## Meanings -/

/-- EVENT_ENTRY_WRITE (R232): in RUN and DRAIN. -/
def execEventEntryWrite (s : State) : Host.Outcome State Fault Refusal := .next (s.when s.runOrDrain State.writeEvent)

/-- A seal that closes in a freeze is remembered for its end (R444). -/
def State.sealFrozen (s : State) (isOpen : Bool) : State :=
  if (s.hb.frzTs || s.hb.frzTest) && !isOpen then { s with hb := { s.hb with frzClosed := true } } else s

/-- SEAL_CHANGE (R239): audited in RUN and DRAIN, in a freeze too, after which the row is written; counted and held in the other states in
which AON has power (R240). -/
def execSealChange (isOpen : Bool) (s : State) : Host.Outcome State Fault Refusal :=
  .next (s.when (isOpen != s.aon.sealLevel) (fun t =>
    let u := t.sealFrozen isOpen
    if u.pw.st == .run || u.pw.st == .drain then u.sealEdge isOpen
    else if u.aonOn then u.sealHeld isOpen
    else { u with aon := { u.aon with sealLevel := isOpen } }))

/-- KEY_LOAD_TIMEOUT (R245). -/
def execKeyLoadTimeout (s : State) : Host.Outcome State Fault Refusal := .next (s.when s.coreOn (fun t => t.abortLoad 2))

end Sys2Proof.Machine
end

