-- ==== Sys2Proof/Machine/Network.lean ====
section
/-! DEFINITION. Sys2Proof/Machine/Network.lean: Descant addressing, frames, requests, line time, the receive and transmit FIFOs
(14_descant_network.md). Search epochs and sweeps stand in Search.lean. -/

namespace Sys2Proof.Machine

open Sys2Proof.Config (key)

/-! ## Events and violations (R400, R401) -/

/-- A network event with its interrupt (R401). -/
def State.dnEvent (s : State) (code : Word) (data : Nat) : State := (s.logEv code data).irq 12

/-- DVIOLIM. -/
def State.dviolim (s : State) : Nat := fld (s.dsw 0x2007) 0 8

/-- Every violation counts in VIOCNT (R400). -/
def State.dnCount (s : State) : State :=
  let t := { s with dn := { s.dn with vioCnt := satInc s.dn.vioCnt } }
  t.pinned 12 0x2020 t.dn.vioCnt

/-- The log of a violation class, once per second, with its interrupt. -/
def State.dnLogOnce (s : State) (code : Word) (data : Nat) : State :=
  if s.hb.secCodes.contains code then s else (s.logOnce code data).irq 12

/-- A violation: logged once per second, counted, escalating with DVIOLIM in 60 s (R400). -/
def State.dnVio (s : State) (code : Word) (data : Nat) : State :=
  let st := stampIn s.pw.ticks s.dn.vioAt
  let t := { s with dn := { s.dn with vioAt := st.take 255, vio := s.dn.vio || (s.dviolim != 0 && decide (s.dviolim ≤ st.length)) } }
  t.dnCount.dnLogOnce code data

/-- The own address heard as another's: VIO at once (R400: 0x0C19). -/
def State.dnConflict (s : State) (f : RxFrame) : State :=
  { s with dn := { s.dn with vio := true } }.dnCount.dnLogOnce 0x0C19 f.frame.type.toNat

/-! ## Sending (R368, R370, R373, R374) -/

/-- The next sequence number (R374). -/
def State.nextSeq (s : State) : Word × State := (s.dn.seq + 1#16, { s with dn := { s.dn with seq := s.dn.seq + 1#16 } })

/-- Protected types of R34 and R370; rsp: a reply. -/
def protectedType (type : Byte) (rsp : Bool) : Bool :=
  [0x05#8, 0x06#8, 0x08#8, 0x09#8, 0x0A#8, 0x0B#8].contains type || (type == 0x07#8 && rsp)

/-- The ports a frame for an address leaves on: a bridge's downstream set or upstream; the head's where the address was heard, else
every enabled port (R372, R373). -/
def State.portsFor (s : State) (dest : BitVec 12) : List Port :=
  if s.isHead then
    let known := [Port.A, Port.B].filter (fun p => s.portOn p && (s.idxOf p dest).isSome)
    if known.isEmpty then [Port.A, Port.B].filter s.portOn else known
  else if s.isBridge && s.dn.down.contains dest then [otherPort s.fram.upPort]
  else [s.fram.upPort]

/-- A frame queued on a port with its peer (R349, R373). -/
def State.queueOn (s : State) (p : Port) (f : DFrame) : State :=
  let q : QFrame := { port := p, frame := f, prot := protectedType f.type (f.flags.getLsbD 4),
                      peer := if f.flags.getLsbD 3 then none else s.idxOf p f.dest }
  { s with dl := { s.dl with queue := s.dl.queue ++ [q] } }

/-- A frame queued on the ports of its destination; ALL frames on every enabled port. -/
def State.sendFrame (s : State) (f : DFrame) : State :=
  (if f.flags.getLsbD 3 then [Port.A, Port.B].filter s.portOn else s.portsFor f.dest).foldl (fun t p => t.queueOn p f) s

/-- A frame of this node's own with the next SEQ (R374). -/
def State.originate (s : State) (dest : BitVec 12) (type : Byte) (flags : BitVec 5) (payload : List Byte) : DFrame × State :=
  let (n, t) := s.nextSeq
  let f : DFrame := { dest := dest, src := t.ownAddr, type := type, seq := n, flags := flags, payload := payload }
  (f, t.sendFrame f)

/-- A request whose reply is awaited (R375). -/
def State.sendRequest (s : State) (dest : BitVec 12) (type : Byte) (payload : List Byte) (host : Bool) : State :=
  let (f, t) := s.originate dest type 0 payload
  { t with dn := { t.dn with reqs := t.dn.reqs ++ [{ frame := f, port := (t.portsFor dest).headD .A, tries := 0, host := host }] } }

/-- A reply to a received request on its port, kept for repeats (R374, R376). -/
def State.replyTo (s : State) (f : RxFrame) (payload : List Byte) : State :=
  let r : DFrame := { dest := f.frame.src, src := f.frame.dest, type := f.frame.type, seq := f.frame.seq, flags := 0x10, payload := payload }
  let kept : Stored := { src := f.frame.src, seq := f.frame.seq, crc := crc32 f.frame.payload, reply := r, at_ := s.pw.ticks }
  { (s.queueOn f.port r) with dn := { (s.queueOn f.port r).dn with stored := (kept :: s.dn.stored.filter (fun x => x.src != f.frame.src)).take 8 } }

/-- A NACK naming a received frame (R370, R371). -/
def State.nackTo (s : State) (f : RxFrame) (code : Byte) : State :=
  let (n, t) := s.nextSeq
  t.queueOn f.port
    { dest := f.frame.src, src := t.ownAddr, type := 0x0A, seq := n, flags := 0, payload := [f.frame.type] ++ bytesBE 2 f.frame.seq.toNat ++ [code] }

/-- A field or length invalid for the type (R400: 0x0C12). -/
def State.badField (s : State) (f : RxFrame) : State :=
  (s.dnVio 0x0C12 (evData [(f.frame.type.toNat, 0), (f.frame.payload.length, 8)])).nackTo f 0x02

/-- A head-only type from another node (R400: 0x0C15). -/
def State.notHead (s : State) (f : RxFrame) : State :=
  (s.dnVio 0x0C15 (evData [(f.frame.src.toNat, 0), (f.frame.type.toNat, 16)])).nackTo f 0x06

/-! ## The receive FIFO (R378, R379) -/

/-- The bytes of an entry: SRC, TYPE, FLAGS, SEQ, LEN, payload (R379). -/
def entryBytes (f : DFrame) : List Byte :=
  bytesBE 2 f.src.toNat ++ [f.type, f.flags.setWidth 8] ++ bytesBE 2 f.seq.toNat ++ bytesBE 2 f.payload.length ++ f.payload

/-- The bytes as FIFO words, EOF on the last. -/
def fifoWords : List Byte → List Word
  | [] => []
  | [b] => [b.setWidth 16 ||| 0x0200#16]
  | b :: bs => b.setWidth 16 :: fifoWords bs

/-- The receive FIFO of 4,120 bytes can take an entry. -/
def State.dnFits (s : State) (f : DFrame) : Bool := decide (s.dn.rxf.length + (entryBytes f).length ≤ 4120)

/-- An entry enters the receive FIFO whole; one that does not fit is lost. -/
def State.dnPush (s : State) (f : DFrame) : State :=
  if s.dnFits f then { s with dn := { s.dn with rxf := s.dn.rxf ++ fifoWords (entryBytes f) } } else s

/-! ## What every received frame brings (R372, R373, R388, R400) -/

/-- The segment table's block of a port. -/
def segBase (p : Port) : Nat := 0x3000 + 0x200 * Port.code p

/-- A segment-table entry: serial low 48 bits, address, agent flag, when valid (R388). -/
def State.segEntry (s : State) (p : Port) (i : Nat) : Option (Word48 × BitVec 12 × Bool) :=
  let a := segBase p + 8 * (i - 1)
  let w := s.dsw (a + 3)
  if bitAt w 15 then
    some (s.dsw (a + 2) ++ s.dsw (a + 1) ++ s.dsw a, w.extractLsb' 0 12, bitAt w 12)
  else none

/-- The words of a segment entry written. -/
def State.putSeg (s : State) (p : Port) (i : Nat) (ws : List Word) : State :=
  s.nvPutAll ((List.range 8).map (fun j => (key 4 (segBase p + 8 * (i - 1) + j), ws.getD j 0)))

/-- A segment entry removed; its line index is free again (R388). -/
def State.dropSeg (s : State) (p : Port) (i : Nat) : State := s.putSeg p i []

/-- The valid line indices of a segment, ascending. -/
def State.segIdxs (s : State) (p : Port) : List Nat :=
  (List.range 63).filterMap (fun j => if (s.segEntry p (j + 1)).isSome then some (j + 1) else none)

/-- The line index of an address on a segment. -/
def State.segOf (s : State) (p : Port) (a : BitVec 12) : Option Nat :=
  (s.segIdxs p).find? (fun i => (s.segEntry p i).any (fun e => e.2.1 == a))

/-- A source heard on a bridge: its downstream set, and its segment table when the source has moved upstream (R372, R388). -/
def State.heardFrom (s : State) (p : Port) (a : BitVec 12) : State :=
  if !s.isBridge then s
  else if p = s.fram.upPort then
    let t := { s with dn := { s.dn with down := s.dn.down.erase a } }
    match t.segOf (otherPort p) a with | some i => t.dropSeg (otherPort p) i | none => t
  else if s.dn.down.contains a then s else { s with dn := { s.dn with down := a :: s.dn.down } }

/-- The frame is for this node: its address while in the system, or every node. -/
def State.forMe (s : State) (f : DFrame) : Bool := s.inSystem && (f.flags.getLsbD 3 || f.dest == s.ownAddr)

/-- A DMT frame with good CRCs: what reception brings whatever its type, then its own effect when it is for this node
(R336 to R342, R352, R372, R373, R400). -/
def State.takeFrame (s : State) (f : RxFrame) (h : State → State) : State :=
  if !s.rxOn f.port || s.sendingOn f.port then s
  else
    let (ok, t) := s.genCheck f
    if !ok then t
    else
      let u := (t.stampFrame f).heardFrom f.port f.frame.src
      if u.inSystem && f.frame.src == u.ownAddr then u.dnConflict f
      else if 1024 < f.frame.payload.length then u.dnVio 0x0C11 f.frame.payload.length
      else if f.frame.flags.getLsbD 0 || (f.frame.flags.getLsbD 3 && f.frame.src != 0) then u.dnVio 0x0C13 f.frame.src.toNat
      else if u.forMe f.frame then h u else u

/-- A repeat of a source's last request within 2 s: its stored reply goes again (R376; R400: 0x0C1C). -/
def State.orRepeat (s : State) (f : RxFrame) (h : State → State) : State :=
  match s.dn.stored.find? (fun x => x.src == f.frame.src && x.seq == f.frame.seq && x.crc == crc32 f.frame.payload &&
      x.reply.type == f.frame.type && s.within x.at_ 2000) with
  | some x => s.dnCount.queueOn f.port x.reply
  | none => h s

/-- The request a reply or NACK answers (R374, R375): by its own fields. -/
def State.openReq (s : State) (type : Byte) (seq : Word) (src : BitVec 12) : Option Request :=
  s.dn.reqs.find? (fun r => r.frame.type == type && r.frame.seq == seq && r.frame.dest == src)

/-- A request settled. -/
def State.closeReq (s : State) (r : Request) : State := { s with dn := { s.dn with reqs := s.dn.reqs.erase r } }

/-- A reply that matches no request (R400: 0x0C18). -/
def State.strayReply (s : State) (f : RxFrame) : State := s.dnVio 0x0C18 (evData [(f.frame.src.toNat, 0), (f.frame.seq.toNat, 16)])

/-- A reply: settled with its request, else a violation. -/
def State.takeReply (s : State) (f : RxFrame) (h : Request → State → State) : State :=
  match s.openReq f.frame.type f.frame.seq f.frame.src with
  | some r => h r (s.closeReq r)
  | none => s.strayReply f

/-! ## Host frames (R379) -/

/-- LEN of the frame at the head of the transmit FIFO. -/
def State.txLen (s : State) : Nat := beAt s.dn.txf 4 2

/-- A whole host frame stands in the transmit FIFO. -/
def State.hostFrameReady (s : State) : Bool := decide (6 ≤ s.dn.txf.length) && (decide (1024 < s.txLen) || decide (s.txLen + 6 ≤ s.dn.txf.length))

/-- The host may issue a type (R379); ALL only from the head (R373). -/
def State.hostMay (s : State) (type : Byte) (flags : Byte) : Bool :=
  ([0x01#8, 0x02#8, 0x03#8].contains type || (s.isHead && [0x06#8, 0x07#8].contains type)) && (s.isHead || !flags.getLsbD 3) && s.inSystem

/-- A bit of the transmit FIFO's frame: requests await a reply, REPORT and ALL frames do not (R374). -/
def State.hostSend (s : State) (dest : BitVec 12) (type flags : Byte) (payload : List Byte) : State :=
  if type = 0x03#8 ∨ flags.getLsbD 3 then (s.originate dest type (flags.extractLsb' 0 5 &&& 0x08#5) payload).2
  else s.sendRequest dest type payload true

/-! ## Line time (R380 to R384) -/

/-- A time in LINE cycles. -/
def lineCount (sec : Word32) (cyc : Nat) : Int := (sec.toNat : Int) * 400000 + cyc

/-- θ added to line time (R381). -/
def State.addTheta (s : State) (θ : Int) : State :=
  let n := (lineCount s.ck.lsec s.ck.lcyc + θ) % ((2 ^ 32 * 400000 : Nat) : Int)
  { s with ck := { s.ck with lsec := BitVec.ofNat 32 (n.toNat / 400000), lcyc := n.toNat % 400000 } }

/-- A TIME request goes upstream; T1 is stamped as it starts (R380). -/
def State.sendTime (s : State) : State := s.sendRequest s.fram.upaddr 0x0B (timeBytes s.ck.lsec s.ck.lcyc) false

/-- The answer to a TIME (R380): by the agent of the port alone. -/
def State.answerTime (s : State) (f : RxFrame) : State :=
  if !s.agentOn f.port then s
  else if f.frame.payload.length ≠ 8 then s.badField f
  else if (s.segOf f.port f.frame.src).isNone then s.nackTo f 0x0A
  else if !s.ck.ltv then s.nackTo f 0x09
  else s.replyTo f (f.frame.payload ++ timeBytes f.sec f.cyc.toNat ++ timeBytes s.ck.lsec s.ck.lcyc)

/-- θ and D of an exchange: T1, T2, T3 from the reply, T4 its stamp (R380). -/
def timeResult (f : RxFrame) : Int × Int :=
  let t (i : Nat) : Int := lineCount (BitVec.ofNat 32 (beAt f.frame.payload (8 * i) 4)) (beAt f.frame.payload (8 * i + 4) 4)
  let t4 := lineCount f.sec f.cyc.toNat
  (((t 1 - t 0) + (t 2 - t4)) / 2, ((t4 - t 0) - (t 2 - t 1)) / 2)

/-- A TIME reply (R380, R381). -/
def State.takeTime (s : State) (f : RxFrame) : State :=
  let (θ, d) := timeResult f
  let s := { s with dn := { s.dn with timeT1 := none } }
  if f.frame.payload.length ≠ 24 then s
  else if d < 0 || 60 < d then s.dnVio 0x0C1B (BitVec.ofInt 48 d).toNat
  else
    let t := { s with dn := { s.dn with offs := BitVec.ofInt 16 (clampInt (-32768) 32767 θ), dly := BitVec.ofInt 16 d } }
    if !t.ck.ltv then
      let u := t.addTheta θ
      { u with ck := { u.ck with ltv := true } }.dnEvent 0x0C08 (BitVec.ofInt 48 θ).toNat
    else if 2 < θ.natAbs then { t with ck := { t.ck with lpend := θ } } else t

/-- θ at the line-time second boundary (R381). -/
def State.lineTimeStep (s : State) : State :=
  let θ := s.ck.lpend
  let t := { s with ck := { s.ck with lpend := 0 } }.addTheta θ
  if 400 < θ.natAbs then t.dnEvent 0x0C08 (BitVec.ofInt 48 θ).toNat else t

/-- Data of 0x0C01: 1 joined or 0 left, address, LIDX, HOPS. -/
def State.joinData (s : State) (v : Nat) : Nat :=
  evData [(v, 0), (s.fram.addr.toNat, 8), (s.fram.lidx.toNat, 24), (s.fram.hops.toNat, 32)]

/-- An announcement discarded (R396): causes 1 lead, 2 instant passed, 3 no line time, 4 left RUN. -/
def State.dropAnnounce (s : State) (number : Word32) (cause : Nat) : State := s.dnEvent 0x0C0A (evData [(number.toNat, 0), (cause, 32)])

/-- Every announcement held is discarded with a cause (R396). -/
def State.dropAnnounces (s : State) (cause : Nat) : State :=
  s.dn.pend.foldl (fun t a => t.dropAnnounce a.number cause) { s with dn := { s.dn with pend := [] } }

/-- The node leaves the system, its line time and its part in a search end; the head never leaves (R383, R396). -/
def State.leaveSystem (s : State) : State :=
  if s.isHead || !s.fram.joined then s
  else
    let t := (s.dropAnnounces 3).dnEvent 0x0C01 (s.joinData 0)
    { t with fram := { t.fram with joined := false, addr := 0 }, ck := { t.ck with ltv := false, lpend := 0 },
             dl := { t.dl with queue := [], squeue := [], training := [] },
             dn := { t.dn with reqs := [], hearing := none, timeT1 := none, phase0 := none, segs := [] } }

/-! ## Relaying (R362, R372) -/

/-- A received frame goes on to the other port (R372). -/
def State.relays (s : State) (f : RxFrame) : Bool :=
  if s.isHead then
    s.pins.role == .H && s.pben && !f.frame.flags.getLsbD 3 && f.frame.dest != 0 && (s.idxOf (otherPort f.port) f.frame.dest).isSome
  else if !s.isBridge then false
  else if f.port = s.fram.upPort then f.frame.flags.getLsbD 3 || s.dn.down.contains f.frame.dest
  else !f.frame.flags.getLsbD 3 && f.frame.dest != s.fram.addr && !s.dn.down.contains f.frame.dest

/-- A bridge relays: RLY set, a JOIN reply's address enters the downstream set (R372). -/
def State.relay (s : State) (f : RxFrame) : State :=
  let (ok, t) := s.genCheck f
  if !ok then t
  else
    let u := (t.learnIdx f.port f.frame.src f.txidx).heardFrom f.port f.frame.src
    if !u.relays f then u
    else
      let joinReply := f.frame.type == 0x05#8 && f.frame.flags.getLsbD 4 && f.port == u.fram.upPort && u.isBridge
      let a : BitVec 12 := BitVec.ofNat 12 (beAt f.frame.payload 8 2)
      let v := if joinReply && !u.dn.down.contains a then { u with dn := { u.dn with down := a :: u.dn.down } } else u
      v.queueOn (otherPort f.port) { f.frame with flags := f.frame.flags ||| 0x02#5 }

/-! ## Meanings -/

/-- FRAME_RELAY (R372). -/
def execFrameRelay (f : RxFrame) (s : State) : Host.Outcome State Fault Refusal :=
  .next (s.when (s.rxOn f.port && !s.sendingOn f.port && s.running) (fun t => t.relay f))

/-- REPORT (R378): whole to the receive FIFO, or NACK 0x04. -/
def execReport (f : RxFrame) (s : State) : Host.Outcome State Fault Refusal :=
  .next (s.when (f.frame.type == 0x03#8) (fun t => t.takeFrame f (fun u =>
    if u.dnFits f.frame then u.dnPush f.frame else u.nackTo f 0x04)))

/-- TIME_INTERVAL (R380): a joined node other than the head, on its upstream port's grid. -/
def execTimeInterval (s : State) : Host.Outcome State Fault Refusal :=
  .next (s.when (s.running && !s.isHead && s.fram.joined && s.ck.linelk) State.sendTime)

/-- TIME (R380). -/
def execTime (f : RxFrame) (s : State) : Host.Outcome State Fault Refusal :=
  .next (s.when (f.frame.type == 0x0B#8 && !f.frame.flags.getLsbD 4) (fun t => t.takeFrame f (fun u => u.orRepeat f (fun v => v.answerTime f))))

/-- TIME_REPLY (R381). -/
def execTimeReply (f : RxFrame) (s : State) : Host.Outcome State Fault Refusal :=
  .next (s.when (f.frame.type == 0x0B#8 && f.frame.flags.getLsbD 4) (fun t => t.takeFrame f (fun u => u.takeReply f (fun _ v => v.takeTime f))))

/-- LINE_TIME_STEP (R381). -/
def execLineTimeStep (s : State) : Host.Outcome State Fault Refusal :=
  .next (s.when (s.coreOn && s.lineOn && s.ck.ltv && s.ck.lpend != 0) State.lineTimeStep)

/-- LEAVE_LOCK_TIMEOUT (R383). -/
def execLeaveLockTimeout (s : State) : Host.Outcome State Fault Refusal := .next (s.when (s.running && !s.ck.linelk) State.leaveSystem)

/-- DESCANT_RESERVED_TYPE (R400). -/
def execDescantReservedType (f : RxFrame) (s : State) : Host.Outcome State Fault Refusal :=
  .next (s.when (f.frame.type == 0#8 || decide (0x0B < f.frame.type.toNat)) (fun t => t.takeFrame f (fun u =>
    (u.dnVio 0x0C10 (evData [(f.frame.type.toNat, 0), (f.frame.src.toNat, 8)])).nackTo f 0x01)))

/-- DESCANT_FRAME_DROPPED (R366); a reserved search kind is a violation (R400: 0x0C1A). -/
def execDescantFrameDropped (k : DropKind) (s : State) : Host.Outcome State Fault Refusal :=
  .next (s.when (s.coreOn && s.lineOn) (fun t => match k with
    | .reservedKind kind => t.dnVio 0x0C1A kind.toNat
    | k => t.dropFrame k))

/-- DESCANT_REPLY (R379): a READ or WRITE reply for the host. -/
def execDescantReply (f : RxFrame) (s : State) : Host.Outcome State Fault Refusal :=
  .next (s.when ((f.frame.type == 0x01#8 || f.frame.type == 0x02#8) && f.frame.flags.getLsbD 4) (fun t =>
    t.takeFrame f (fun u => u.takeReply f (fun r v => if r.host then v.dnPush f.frame else v))))

end Sys2Proof.Machine
end

