-- ==== Sys2Proof/Machine/Dmt.lean ====
section
/-! DEFINITION. Sys2Proof/Machine/Dmt.lean: what stands on the line while a DMT frame, training symbols or a search frame is sent, bit for
bit: header, line tag, scrambler, constellations, mask, FIR, pilots (R338, R341 to R344, R350, R354, R357, R368, R369). The transform itself
and the voltages it makes are analogue (log entry 73); carriers carry exact points here. -/

namespace Sys2Proof.Machine

/-! ## Bits -/

/-- The n low bits of a number, most significant first. -/
def bitsBE (n v : Nat) : List Bool := (List.range n).map (fun i => v.testBit (n - 1 - i))

/-- The bits of bytes, each most significant first. -/
def bitsOfBytes (l : List Byte) : List Bool := l.flatMap (fun b => bitsBE 8 b.toNat)

/-- A number from bits, most significant first. -/
def natOfBits (l : List Bool) : Nat := l.foldl (fun n b => 2 * n + b2n b) 0

/-! ## Scrambler (R343) -/

/-- The bit x^15 + x^14 + 1 feeds back: the sequence's next bit (R343; log entry 88). -/
def scrBit (r : BitVec 15) : Bool := r.getLsbD 14 ^^ r.getLsbD 13

/-- The register after one bit. -/
def scrNext (r : BitVec 15) : BitVec 15 := r <<< 1 ||| (if scrBit r then 1#15 else 0#15)

/-- Bits scrambled by the sequence from a register on. -/
def scramble : BitVec 15 → List Bool → List Bool
  | _, [] => []
  | r, b :: bs => (b ^^ scrBit r) :: scramble (scrNext r) bs

/-- The register at the first bit of S1 and of H (R341, R343). -/
def scrSeed : BitVec 15 := 0x7FFF#15

/-! ## Frame bits (R341, R342, R368, R369) -/

/-- Bits [79:16] of the network header as 8 bytes (R368). -/
def headerBytes (f : DFrame) : List Byte :=
  bytesBE 8 (f.dest.toNat * 2 ^ 52 + f.src.toNat * 2 ^ 40 + f.type.toNat * 2 ^ 32 + f.seq.toNat * 2 ^ 16 +
    f.payload.length % 2 ^ 11 * 2 ^ 5 + f.flags.toNat)

/-- The 80 bits of the network header, HCRC last (R368). -/
def headerBits (f : DFrame) : List Bool := bitsOfBytes (headerBytes f ++ bytesBE 2 (crc16 (headerBytes f)).toNat)

/-- The 20 bits of the line tag (R342). -/
def tagBits (h : Shape) (load : Bool) (gen : Nat) : List Bool :=
  bitsBE 20 (h.txidx.toNat * 2 ^ 14 + h.rxidx.toNat * 2 ^ 8 + b2n load * 2 ^ 7 + gen % 16 * 2 ^ 3)

/-- The payload and its CRC-32; nothing with LEN 0 (R341, R369). -/
def payloadBits (f : DFrame) : List Bool :=
  if f.payload.isEmpty then [] else bitsOfBytes (f.payload ++ bytesBE 4 (crc32 f.payload).toNat)

/-- Bits filled up with zeros to whole symbols of b bits (R341). -/
def padTo (b : Nat) (l : List Bool) : List Bool := l ++ List.replicate (divCeil l.length b * b - l.length) false

/-! ## Constellations (R344) -/

/-- One carrier of a symbol: its in-phase and quadrature amplitudes before scaling, with the number of bits that chose them. -/
structure Point where
  carrier : Nat
  bits : Nat
  i : Int
  q : Int
deriving DecidableEq, Repr

/-- The number whose Gray code, most significant bit first, these bits are. -/
def grayDecode (l : List Bool) : Nat :=
  (l.foldl (fun (a : Bool × Nat) b => let v := a.1 ^^ b; (v, 2 * a.2 + b2n v)) (false, 0)).2

/-- The amplitude 2n − (2^m − 1) of a group of m bits; 0 for none (R344). -/
def amplitude (l : List Bool) : Int := 2 * (grayDecode l : Int) - (2 ^ l.length - 1 : Int)

/-- The point of a carrier's bits: the first ⌈b/2⌉ in phase, the rest in quadrature (R344). -/
def pointOf (k : Nat) (l : List Bool) : Point :=
  let n := (l.length + 1) / 2
  { carrier := k, bits := l.length, i := amplitude (l.take n), q := if l.length = 1 then 0 else amplitude (l.drop n) }

/-- Mean energy of a constellation of b bits: a point over its root has unit mean energy (R344). -/
def meanEnergy (b : Nat) : Nat := (4 ^ ((b + 1) / 2) - 1) / 3 + (4 ^ (b / 2) - 1) / 3

/-- One symbol's points: carriers ascending, each with its bits; carriers of 0 bits are skipped (R344). -/
def symbolPoints : List (Nat × Nat) → List Bool → List Point
  | [], _ => []
  | (_, 0) :: cs, l => symbolPoints cs l
  | (k, b) :: cs, l => pointOf k (l.take b) :: symbolPoints cs (l.drop b)

/-- As many symbols' points as the bits fill. -/
def symbolsFrom (cs : List (Nat × Nat)) (b : Nat) : Nat → List Bool → List (List Point)
  | 0, _ => []
  | n + 1, l => symbolPoints cs (l.take b) :: symbolsFrom cs b n (l.drop b)

/-! ## What is on the line -/

/-- Robust loading: 2 bits on every usable carrier (R341, R345). -/
def Shape.robust (h : Shape) : List (Nat × Nat) := h.carriers.map (fun k => (k, 2))

/-- The loading of the P symbols. -/
def Shape.loading (h : Shape) : List (Nat × Nat) := h.carriers.zip h.bits

/-- Bits per symbol of a loading. -/
def loadOf (l : List (Nat × Nat)) : Nat := (l.map (fun c => c.2)).foldl (· + ·) 0

/-- S1: the scrambler's first bits on every usable carrier (R341). -/
def Shape.s1 (h : Shape) : List Point :=
  symbolPoints h.robust (scramble scrSeed (List.replicate (loadOf h.robust) false))

/-- Every symbol of a frame: S1, H and P1 to Pn (R341 to R344). -/
def Shape.symbols (h : Shape) (f : DFrame) (load : Bool) (gen : Nat) : List (List Point) :=
  let hb := loadOf h.robust
  let pb := loadOf h.loading
  let head := padTo hb (headerBits f ++ tagBits h load gen)
  let pay := padTo pb (payloadBits f)
  let l := scramble scrSeed (head ++ pay)
  h.s1 :: symbolsFrom h.robust hb (head.length / hb) (l.take head.length) ++ symbolsFrom h.loading pb (pay.length / pb) (l.drop head.length)

/-- The symbols of the DMT frame on the line (R341). -/
def State.lineSymbols (s : State) : List (List Point) :=
  match s.dl.onLine with
  | some (q, _, load, gen) => s.dl.shape.symbols q.frame load gen
  | none => []

/-- The training symbols on the line: copies of S1 (R350). -/
def State.burstSymbols (s : State) : List (List Point) :=
  match s.dl.burst with
  | some b => if b.wait = 0 then List.replicate b.symbols s.dl.shape.s1 else []
  | none => []

/-- dB by which the mask lowers a carrier; a notch on a pilot acts as 30 dB (R354). -/
def Shape.maskDb (h : Shape) (k : Nat) : Nat := min 30 (h.mask.getD (k - 16) 0)

/-- The pilots: carrier, and phase in quarter turns at each symbol boundary; 3 dB above the data carriers (R338). -/
def pilots : List (Nat × Nat) := [(24, 0), (40, 1), (56, 2), (72, 3)]

/-- The pilots a port sends: those of the upstream node of its segment, while the port transmits (R338). -/
def State.pilotsOn (s : State) (p : Port) : List (Nat × Nat) :=
  if s.runOrDrain && s.lineOn && s.agentOn p && !s.dl.txoff then pilots else []

/-- One output of the FIR in µV from the sixteen newest samples, newest first: taps with 2^14 = 1.0, clipped at ±3.60 V (R354). -/
def Shape.firOut (h : Shape) (x : List Int) : Int :=
  clampInt (-3600000) 3600000 (((h.fir.zip x).map (fun c => c.1.toInt * c.2)).foldl (· + ·) 0 / 16384)

/-! ## Search channel (R357) -/

/-- LEN to the last payload byte (R357). -/
def SFrame.body (f : SFrame) : List Byte := [BitVec.ofNat 8 f.payload.length, f.kind] ++ f.payload

/-- A search frame's bytes (R357). -/
def SFrame.bytes (f : SFrame) : List Byte :=
  [0xAA#8, 0xAA#8, 0xAA#8, 0xAA#8, 0xB3#8, 0x8F#8] ++ f.body ++ bytesBE 2 (crc16 f.body).toNat

/-- The frequency of a search bit in Hz: a 1 is the upper (R357). -/
def searchHz (b : Bool) : Nat := if b then 22400 else 17600

/-- The bits of the search frame on the line (R357). -/
def State.searchBits (s : State) : List Bool :=
  match s.dl.searchOn with
  | some (f, _) => bitsOfBytes f.bytes
  | none => []

end Sys2Proof.Machine
end

