-- ==== Sys2Proof/Machine/Search.lean ====
section
/-! DEFINITION. Sys2Proof/Machine/Search.lean: search epochs, joining, the node table, sweeps and their collection
(14_descant_network.md R385 to R399, R484). -/

namespace Sys2Proof.Machine

open Sys2Proof.Config (key)

/-! ## Node table (14, Registers; R393, R484) -/

/-- The serial of a node-table entry. -/
def State.nodeSerial (s : State) (n : Nat) : Word48 := s.ntw (4 * n + 2) ++ s.ntw (4 * n + 1) ++ s.ntw (4 * n)

/-- Word 3 of an entry. -/
def State.nodeWord (s : State) (n : Nat) : Word := s.ntw (4 * n + 3)

/-- STATE of an entry: 0 free, 1 present, 2 present bridge, 3 departed, 4 reserved. -/
def State.nodeState (s : State) (n : Nat) : Nat := fld (s.nodeWord n) 5 3

/-- A field of word 3 replaced. -/
def State.putNode (s : State) (n lo width v : Nat) : State :=
  s.nvPut (key 6 (4 * n + 3)) (merge (mask lo width) (s.nodeWord n) (pack [(v, lo)]))

/-- An entry is present (R398). -/
def State.present (s : State) (n : Nat) : Bool := s.nodeState n == 1 || s.nodeState n == 2

/-- The addresses that hold a node-table entry in a state, ascending. -/
def State.nodesIn (s : State) (f : Nat → Bool) : List (BitVec 12) :=
  (List.range 4095).filterMap (fun i => if f (s.nodeState (i + 1)) then some (BitVec.ofNat 12 (i + 1)) else none)

/-- A host write of word 3 commits the held serial words and STATE 0 or 4, over 0, 3 or 4 only (R484). held: words 0 to 2. -/
def State.nodeCommit (s : State) (n : Nat) (held : List Word) (w : Word) : State :=
  let st := fld w 5 3
  let now := s.nodeState n
  if (st = 0 || st = 4) && (now = 0 || now = 3 || now = 4) then
    let w3 := merge (mask 5 3) (s.nodeWord n) (pack [(st, 5)])
    if s.hb.nvr && (bufferRow s.hb.rows (key 6 (4 * n + 3)) w3).isSome then
      ((List.range 3).map (fun i => (key 6 (4 * n + i), held.getD i (s.ntw (4 * n + i)))) ++ [(key 6 (4 * n + 3), w3)]).foldl
        (fun t p => t.nvWrite 0x50 (4 * n + 3) p.1 p.2) s
    else s.nvWrite 0x50 (4 * n + 3) (key 6 (4 * n + 3)) w3
  else s.dnEvent 0x0C0C (4 * n + 3)

/-! ## Collection (R398, R399) -/

/-- COLLECT goes to an address (R398). -/
def State.sendCollect (s : State) (number : Word32) (a : BitVec 12) (host : Bool) : State :=
  s.sendRequest a 0x07 (bytesBE 4 number.toNat) host

/-- The record of a sweep closes: SWL and event 0x0C0B; a late collection closes in silence (R399). Data: 12 bits each. -/
def State.closeRecord (s : State) (c : Collect) : State :=
  if c.late then s
  else
    { s with dn := { s.dn with swl := true } }.dnEvent 0x0C0B
      (evData [(c.number.toNat % 4096, 0), (s.dn.counts.getD 0 0, 12), (s.dn.counts.getD 1 0, 24), (s.dn.counts.getD 2 0, 36)])

/-- Counts of the last record: collected, uncollected, not announced, overwritten. -/
def countUp (cs : List Nat) (i : Nat) : List Nat := setAt cs i (cs.getD i 0 + 1)

/-- A late result moves its entry from uncollected. -/
def countMove (cs : List Nat) (i : Nat) : List Nat := setAt (countUp cs i) 1 (((countUp cs i).getD 1 0) - (if i = 1 then 2 else 1))

/-- An entry's result: SWST 1 collected, 2 uncollected, 3 not announced, 4 overwritten; MISSED (R399). -/
def State.settleEntry (s : State) (c : Collect) (a : BitVec 12) (swst : Nat) : State :=
  let n := a.toNat
  let missed := fld (s.nodeWord n) 11 5
  let i := if swst = 1 then 0 else if swst = 2 then 1 else if swst = 3 then 2 else 3
  let ofLast := c.number == s.fram.lastSweep
  let t := if c.late && !ofLast then s else s.putNode n 8 3 swst
  let u := if swst = 2 then (if c.late then t else t.putNode n 11 5 (min 31 (missed + 1)))
    else if c.late && !ofLast then t else t.putNode n 11 5 0
  if c.late then (if ofLast then { u with dn := { u.dn with counts := countMove u.dn.counts i } } else u)
  else { u with dn := { u.dn with counts := countUp u.dn.counts i } }

/-- The first collection goes on to its next address; departed ones are uncollected at once; an empty list closes (R398, R399).
The fuel bounds the entries passed over in one step. -/
def State.collectNext : Nat → State → State
  | 0, s => s
  | fuel + 1, s =>
    match s.dn.collects with
    | [] => s
    | c :: rest =>
      match c.todo with
      | [] => State.collectNext fuel ({ s with dn := { s.dn with collects := rest } }.closeRecord c)
      | a :: todo =>
        let c' : Collect := { c with todo := todo }
        if s.present a.toNat then
          { s with dn := { s.dn with collects := { c' with asked := some a } :: rest } }.sendCollect c.number a false
        else
          State.collectNext fuel ({ s with dn := { s.dn with collects := { c' with asked := none } :: rest } }.settleEntry c a 2)

/-- The asked address is settled and the collection goes on. -/
def State.collectSettle (s : State) (swst : Nat) : State :=
  match s.dn.collects with
  | [] => s
  | c :: rest =>
    match c.asked with
    | none => s
    | some a =>
      let t := { s with dn := { s.dn with collects := { c with asked := none } :: rest } }.settleEntry c a swst
      State.collectNext 8200 t

/-- A collection joins the line; the first begins at once. -/
def State.addCollect (s : State) (c : Collect) : State :=
  let t := { s with dn := { s.dn with collects := s.dn.collects ++ [c] } }
  if s.dn.collects.isEmpty then State.collectNext 8200 t else t

/-- An entry with MISSED above 0 has become present: its last MISSED sweeps, at most 31, are collected (R399). -/
def State.collectMissed (s : State) (a : BitVec 12) : State :=
  let missed := fld (s.nodeWord a.toNat) 11 5
  (List.range missed).foldl (fun t i =>
    t.addCollect { number := t.fram.lastSweep - BitVec.ofNat 32 (missed - 1 - i), todo := [a], asked := none, counts := [], late := true }) s

/-- COLLECT_START: every entry present now or at the announcement (R398). -/
def State.collectStart (s : State) : State :=
  let all := s.nodesIn (fun st => st == 1 || st == 2)
  let gone := s.dn.sweepSet.filter (fun a => !all.contains a)
  let todo := (List.range 4096).filterMap (fun i =>
    let a := BitVec.ofNat 12 i
    if all.contains a || gone.contains a then some a else none)
  { s with dn := { s.dn with counts := [0, 0, 0, 0] } }.addCollect
    { number := s.lg.sweep, todo := todo, asked := none, counts := [], late := false }

/-- A COLLECT reply: the entry's result, when the head collects, and the entry in the FIFO; without room the COLLECT is repeated later
(R379, R399). -/
def State.collectReply (s : State) (r : Request) (f : RxFrame) : State :=
  if s.dnFits f.frame then
    let st := (payAt f.frame.payload 4).toNat
    let t := s.dnPush f.frame
    if r.host then t else t.collectSettle (if st = 0 then 1 else if st = 2 then 4 else 3)
  else
    { s with dn := { s.dn with
        collectRepeat := s.dn.collectRepeat ++ [(BitVec.ofNat 32 (beAt r.frame.payload 0 4), r.frame.dest, r.host)] } }

/-- Room in the FIFO again: the COLLECT it could not take is repeated (R379). -/
def State.collectAgain (s : State) : State :=
  match s.dn.collectRepeat with
  | [] => s
  | (n, a, host) :: rest =>
    if s.dn.rxf.length + 141 ≤ 4120 then { s with dn := { s.dn with collectRepeat := rest } }.sendCollect n a host else s

/-- The snapshot of a sweep number (R237, R398). -/
def State.snapOf (s : State) (number : Word32) : Option (List Byte) :=
  (s.fram.snaps.find? (fun e => leAt e.2 4 4 == number.toNat)).map (fun e => e.2)

/-- The answer to a COLLECT (R398): STATUS 0 with the snapshot, 2 older than a full ring, else 1. -/
def State.answerCollect (s : State) (f : RxFrame) : State :=
  if f.frame.src ≠ 0 then s.notHead f
  else if f.frame.payload.length ≠ 4 then s.badField f
  else
    let n : Word32 := BitVec.ofNat 32 (beAt f.frame.payload 0 4)
    match s.snapOf n with
    | some b => s.replyTo f (f.frame.payload ++ [0] ++ b)
    | none =>
      let old := s.fram.snaps.length == 64 && s.fram.snaps.all (fun e => newer 32 n (BitVec.ofNat 32 (leAt e.2 4 4)))
      s.replyTo f (f.frame.payload ++ [if old then 2 else 1])

/-! ## Sweeps (R395 to R397) -/

/-- LINE cycles from now to an instant: negative when it has passed. -/
def State.until (s : State) (sec : Word32) (cyc : Nat) : Int := lineCount sec cyc - lineCount s.ck.lsec s.ck.lcyc

/-- The head announces a sweep for an instant: SWREP copies 50 ms apart, held by the head too (R395). lead in ms. -/
def State.announce (s : State) (sec : Word32) (cyc lead : Nat) : State :=
  let number := (if newer 32 s.lg.sweep s.fram.lastSweep then s.fram.lastSweep else s.lg.sweep) + 1#32
  let payload := bytesBE 4 number.toNat ++ timeBytes sec cyc ++ bytesBE 2 lead
  let (f, t) := s.originate 0 0x06 0x08 payload
  let copies := max 1 (fld (s.dsw 0x2006) 0 2)
  let u := { t with dn := { t.dn with copies := t.dn.copies ++ (List.range (copies - 1)).map (fun i => (f, t.pw.ticks + 50 * (i + 1))) } }
  { u with fram := { u.fram with lastSweep := number },
           dn := { u.dn with pend := (if 4 ≤ u.dn.pend.length then u.dn.pend.drop 1 else u.dn.pend) ++ [{ number := number, sec := sec, cyc := cyc }],
                             sweepSet := u.nodesIn (fun st => st == 1 || st == 2) } }

/-- The copies of a SWEEP that are due go out (R395). -/
def State.copiesTick (s : State) : State :=
  let due := s.dn.copies.filter (fun c => decide (c.2 ≤ s.pw.ticks))
  if due.isEmpty || !s.running then s
  else due.foldl (fun t c => t.sendFrame c.1) { s with dn := { s.dn with copies := s.dn.copies.filter (fun c => decide (s.pw.ticks < c.2)) } }

/-- The next instant at which line-time minutes are a multiple of SWPER, with SWLEAD (R395). -/
def State.sweepIssue (s : State) : State :=
  let per := (s.dsw 0x2004).toNat * 60
  if per = 0 then s else s.announce (BitVec.ofNat 32 ((s.ck.lsec.toNat / per + 1) * per)) 0 (max 10 (s.dsw 0x2005).toNat * 10)

/-- A host SWEEP with its lead in ms (R379, R395). -/
def State.hostSweep (s : State) (lead : Nat) : State :=
  if lead < 100 || !s.ck.ltv then s.dnEvent 0x0C0C 0x06
  else
    let at_ := lineCount s.ck.lsec s.ck.lcyc + lead * 400
    s.announce (BitVec.ofNat 32 (at_.toNat / 400000)) (at_.toNat % 400000) lead

/-- A received SWEEP (R396, R400). -/
def State.takeSweep (s : State) (f : RxFrame) : State :=
  let p := f.frame.payload
  let number : Word32 := BitVec.ofNat 32 (beAt p 0 4)
  let sec : Word32 := BitVec.ofNat 32 (beAt p 4 4)
  let lead := beAt p 12 2
  if f.frame.src ≠ 0 then s.notHead f
  else if p.length ≠ 14 then s.badField f
  else if lead < 100 then
    let t := (s.dnVio 0x0C16 number.toNat).dropAnnounce number 1
    if f.frame.flags.getLsbD 3 then t else t.nackTo f 0x07
  else if newer 32 number s.lg.sweep then s.dnVio 0x0C17 (evData [(number.toNat % 2 ^ 24, 0), (s.lg.sweep.toNat % 2 ^ 24, 24)])
  else if number == s.lg.sweep || s.dn.pend.any (fun a => a.number == number) then s
  else if !s.ck.ltv then s.dropAnnounce number 3
  else if s.until sec (beAt p 8 4) ≤ 0 then s.dropAnnounce number 2
  else { s with dn := { s.dn with pend := (if 4 ≤ s.dn.pend.length then s.dn.pend.drop 1 else s.dn.pend) ++
           [{ number := number, sec := sec, cyc := beAt p 8 4 }] } }

/-- The earliest instant held. -/
def earliest : List Announce → Option Announce
  | [] => none
  | a :: as =>
    match earliest as with
    | none => some a
    | some b => if lineCount b.sec b.cyc < lineCount a.sec a.cyc then some b else some a

/-- SWEEP_LATCH: every announcement of the earliest instant in one commit, a snapshot each; beside: the commit of a trigger in the same CORE
cycle takes them (R224, R237, R397). -/
def State.sweepLatch (s : State) (beside : Bool) : State :=
  match earliest s.dn.pend with
  | none => s
  | some a =>
    let now := s.dn.pend.filter (fun x => x.sec == a.sec && x.cyc == a.cyc)
    let sweeps := now.map (fun x => (x.number, x.sec))
    let last := (now.getLast?.map (fun x => x.number)).getD a.number
    let t := { s with
      dn := { s.dn with pend := s.dn.pend.filter (fun x => !(x.sec == a.sec && x.cyc == a.cyc)), swl := true },
      lg := { s.lg with sweep := last }, fram := { s.fram with lastSweep := if s.isHead then s.fram.lastSweep else last } }
    let u := if t.lg.lbad then t.snapUnderLbad sweeps else if beside then t.joinTrigger last sweeps else t.trigger 2 false sweeps
    now.foldl (fun acc x => acc.dnEvent 0x0C09 x.number.toNat) u

/-! ## Segment search (R386 to R391) -/

/-- The head's SERIAL low 48 bits as this EWT knows it (R386). -/
def State.sysId (s : State) : Word48 := if s.isHead then s.fram.serial.setWidth 48 else s.dn.sysid

/-- HOPS of the segment on a port this EWT is agent of (R394). -/
def State.segHopsOf (s : State) : Nat := if s.isHead then 0 else s.fram.hops.toNat + 1

/-- A BEACON goes out (R386, R389). -/
def State.sendBeacon (s : State) (g : Segment) (phase : Nat) : State :=
  s.sendSearch g.port 0x00 (bytesBE 2 g.epoch.toNat ++ bytesBE 6 s.sysId.toNat ++ bytesBE 2 s.ownAddr.toNat ++
    [BitVec.ofNat 8 s.segHopsOf, BitVec.ofNat 8 phase])

/-- The search on a port. -/
def State.segOn (s : State) (p : Port) : Option Segment := s.dn.segs.find? (fun g => g.port == p)

/-- The search on its port replaced. -/
def State.putSegment (s : State) (g : Segment) : State :=
  { s with dn := { s.dn with segs := g :: s.dn.segs.filter (fun x => x.port != g.port) } }

/-- The SEARCH reply's payload (R370, R389). -/
def State.searchResult (s : State) (g : Segment) : List Byte :=
  bytesBE 2 g.epoch.toNat ++ [BitVec.ofNat 8 (s.segIdxs g.port).length, BitVec.ofNat 8 g.joined] ++
  (g.departed.map (fun a => bytesBE 2 a.toNat)).flatten

/-- The search ends: PHASE 2, and a bridge's reply to the head (R389). -/
def State.endSegment (s : State) (g : Segment) : State :=
  let g' : Segment := { g with done := true, query := none, joining := none, assign := none }
  let t := (s.putSegment g').sendBeacon g' 2
  if t.isHead then { t with dn := { t.dn with departed := t.dn.departed ++ g.departed, cut := t.dn.cut || g.cut } }
  else t.sendFrame { dest := 0, src := t.ownAddr, type := 0x04, seq := g.seq, flags := 0x10, payload := t.searchResult g' }

/-- A QUERY goes out and its window opens (R386, R390). -/
def State.sendQuery (s : State) (g : Segment) (mode : Bool) (l : Nat) (prefix_ : Word64) : State :=
  (s.putSegment { g with query := some (mode, l, prefix_), answers := [] }).sendSearch g.port 0x01
    (bytesBE 2 g.epoch.toNat ++ [BitVec.ofNat 8 (b2n mode * 128 + l)] ++ bytesBE 8 prefix_.toNat)

/-- The next query of a search: the roll call, then the discovery stack, then the end (R389). -/
def State.nextQuery (s : State) (g : Segment) : State :=
  match g.roll with
  | i :: _ =>
    match s.segEntry g.port i with
    | some e => s.sendQuery g true 64 (e.1.setWidth 64)
    | none => s.endSegment g
  | [] =>
    if g.cut then s.endSegment g
    else match g.stack with
      | [] => s.endSegment g
      | (l, p) :: rest => s.sendQuery { g with stack := rest } false l p

/-- The search of a port begins: PHASE 0, roll call (R389). -/
def State.startSegment (s : State) (p : Port) (epoch seq : Word) : State :=
  let g : Segment := { port := p, roll := s.segIdxs p, tries := 0, stack := [(0, 0)], query := none, answers := [], joining := none,
                       assign := none, departed := [], joined := 0, cut := false, done := false, epoch := epoch, seq := seq }
  ((s.putSegment g).sendBeacon g 0).nextQuery g

/-- The roll call's answer to one window: the entry is passed, asked again, or removed as departed (R389). -/
def State.rollWindow (s : State) (g : Segment) (silent : Bool) : State :=
  match g.roll with
  | [] => s
  | i :: rest =>
    if !silent then s.nextQuery { g with roll := rest, tries := 0 }
    else if g.tries < 3 then s.nextQuery { g with tries := g.tries + 1 }
    else
      let a := (s.segEntry g.port i).map (fun e => e.2.1)
      let t := s.dropSeg g.port i
      t.nextQuery { g with roll := rest, tries := 0, departed := g.departed ++ a.toList }

/-- The two longer prefixes of a collision (R389): bit l from the top set and clear. -/
def children (l : Nat) (p : Word64) : List (Nat × Word64) :=
  [(l + 1, p &&& ~~~(1#64 <<< (63 - l))), (l + 1, p ||| (1#64 <<< (63 - l)))]

/-- What a window showed (R390); carrier: carrier outside a valid ANSWER. -/
def judge (answers : List (List Byte)) (carrier : Bool) : WindowKind :=
  match answers with
  | [] => if carrier then .collision else .silent
  | [_] => if carrier then .collision else .single
  | _ => .collision

/-! ## Joining (R393, R394) -/

/-- The entry whose serial matches, in any state, or the lowest free entry above 0 (R393). -/
def State.allocate (s : State) (serial : Word48) : Option Nat :=
  match (List.range 4095).find? (fun i => s.nodeSerial (i + 1) == serial) with
  | some i => some (i + 1)
  | none => ((List.range 4095).find? (fun i => s.nodeState (i + 1) == 0)).map (fun i => i + 1)

/-- The head's allocation: the address, or the NACK code of R22's limit (R393). -/
def State.admitNode (s : State) (serial : Word64) (hops segn : Nat) : Sum Nat Byte :=
  if 16 < hops then .inr 0x12
  else if 64 < segn then .inr 0x11
  else match s.allocate (serial.setWidth 48) with | some n => .inl n | none => .inr 0x10

/-- The entry of an admitted node: serial, HOPS, present; a rejoin while present is logged; missed sweeps follow (R393, R399). -/
def State.enterNode (s : State) (n : Nat) (serial : Word64) (hops : Nat) : State :=
  let was := s.present n
  let t := (s.nvPutAll [(key 6 (4 * n), serial.extractLsb' 0 16), (key 6 (4 * n + 1), serial.extractLsb' 16 16),
                        (key 6 (4 * n + 2), serial.extractLsb' 32 16)]).putNode n 0 5 hops
  if was then t.dnEvent 0x0C0D n
  else
    let u := t.putNode n 5 3 1
    ({ u with dn := { u.dn with arrived := u.dn.arrived ++ [BitVec.ofNat 12 n] } }).collectMissed (BitVec.ofNat 12 n)

/-- The lowest free line index of a segment (R394). -/
def State.freeIdx (s : State) (p : Port) : Option Nat := (List.range 63).find? (fun j => (s.segEntry p (j + 1)).isNone) |>.map (· + 1)

/-- ASSIGN goes out: an address with a line index, or a refusal with ADDR[15] (R386, R394). -/
def State.sendAssign (s : State) (g : Segment) (serial : Word64) (addr : Nat) (idx : Nat) : State :=
  s.sendSearch g.port 0x03 (bytesBE 8 serial.toNat ++ bytesBE 2 addr ++ [BitVec.ofNat 8 idx, BitVec.ofNat 8 s.segHopsOf] ++ bytesBE 2 g.epoch.toNat)

/-- The agent has the head's answer for the node it is joining (R394). -/
def State.assigned (s : State) (g : Segment) (res : Sum Nat Byte) : State :=
  match g.joining with
  | none => s
  | some (serial, _) =>
    match res with
    | .inr code => (s.sendAssign g serial (0x8000 + code.toNat) 0).nextQuery { g with joining := none }
    | .inl a =>
      match s.freeIdx g.port with
      | none => (s.sendAssign g serial (0x8000 + 0x11) 0).nextQuery { g with joining := none }
      | some i =>
        (s.putSegment { g with assign := some (BitVec.ofNat 12 a, BitVec.ofNat 6 i, 1) }).sendAssign g serial a i

/-- A single unaddressed node: JOIN to the head, or the head's own allocation (R393). -/
def State.joinNode (s : State) (g : Segment) (answer : List Byte) : State :=
  let serial : Word64 := BitVec.ofNat 64 (beAt answer 0 8)
  let g' : Segment := { g with joining := some (serial, (payAt answer 9).getLsbD 0), query := none }
  let segn := (s.segIdxs g.port).length + 2
  let t := s.putSegment g'
  if s.isHead then
    match s.admitNode serial 0 segn with
    | .inl n => (t.enterNode n serial 0).assigned g' (.inl n)
    | .inr c => t.assigned g' (.inr c)
  else t.sendRequest 0 0x05 (bytesBE 8 serial.toNat ++ [BitVec.ofNat 8 s.segHopsOf, BitVec.ofNat 8 segn]) false

/-- A query window closes (R389, R390). An ANSWER that is not joined counts as silence in the roll call. -/
def State.windowEnd (s : State) (g : Segment) (carrier : Bool) : State :=
  match g.query with
  | none => s
  | some (true, _, _) => s.rollWindow { g with query := none } (!carrier && !g.answers.any (fun a => (payAt a 9).getLsbD 1))
  | some (false, l, p) =>
    match judge g.answers carrier with
    | .silent => s.nextQuery { g with query := none }
    | .collision => s.nextQuery { g with query := none, stack := if l < 64 then children l p ++ g.stack else g.stack }
    | .single => s.joinNode { g with stack := (l, p) :: g.stack } (g.answers.headD [])

/-- ASSIGN-ACK: the entry enters the segment table (R388, R394). -/
def State.assignAck (s : State) (g : Segment) (serial : Word64) (addr : BitVec 12) : State :=
  match g.joining, g.assign with
  | some (sn, agent), some (a, i, _) =>
    if sn = serial && a = addr then
      let t := s.putSeg g.port i.toNat
        [serial.extractLsb' 0 16, serial.extractLsb' 16 16, serial.extractLsb' 32 16,
         pack [(a.toNat, 0), (b2n agent, 12), (1, 15)], i.setWidth 16]
      let u := if s.isHead && agent then t.putNode a.toNat 5 3 2 else t
      u.nextQuery { g with joining := none, assign := none, joined := g.joined + 1 }
    else s
  | _, _ => s

/-- No ASSIGN-ACK in 100 ms: twice again, then the index is free and the search goes on (R394). -/
def State.assignTimeout (s : State) (g : Segment) : State :=
  match g.joining, g.assign with
  | some (sn, _), some (a, i, n) =>
    if n < 3 then (s.putSegment { g with assign := some (a, i, n + 1) }).sendAssign g sn a.toNat i.toNat
    else s.nextQuery { g with joining := none, assign := none }
  | _, _ => s

/-- The node's side of ASSIGN (R23, R387, R394): it adopts, or records the refusal, after which it is silent in that epoch; an ACK goes only
from 12.0 V. -/
def State.takeAssign (s : State) (r : RxSearch) : State :=
  let serial : Word64 := BitVec.ofNat 64 (beAt r.payload 0 8)
  let addr := beAt r.payload 8 2
  if r.payload.length ≠ 14 || serial ≠ s.fram.serial || s.isHead then s
  else if 0x8000 ≤ addr then
    (if s.fram.joined then s
     else { s with dn := { s.dn with refused := some (BitVec.ofNat 16 (beAt r.payload 12 2)) } }.dnEvent 0x0C06 (addr % 256))
  else
    let a : BitVec 12 := BitVec.ofNat 12 addr
    let ack (t : State) : State := if 1200 ≤ t.pins.vres then t.sendSearch r.port 0x04 (bytesBE 8 serial.toNat ++ bytesBE 2 addr) else t
    if s.fram.joined then (if s.fram.addr = a then ack s else s)
    else
      let t := { s with
        fram := { s.fram with
          addr := a, lidx := idxByte (payAt r.payload 10), hops := BitVec.ofNat 5 (payAt r.payload 11).toNat, joined := true,
          upPort := r.port, upaddr := s.dn.agent },
        dn := { s.dn with defer := false, hearing := some r.port } }
      ack (t.dnEvent 0x0C01 (t.joinData 1))

/-! ## Epochs (R385, R391, R392) -/

/-- An epoch begins (R385): SEARCH to all, the head's own segments, the bridges expected. -/
def State.startEpoch (s : State) : State :=
  let e := s.dn.epochNo + 1#16
  let t := { s with dn := { s.dn with epochNo := e, epr := true, arrived := [], departed := [], cut := false, segs := [],
                                      await := (s.nodesIn (fun st => st == 2)).map (fun a => (a, 0)) } }
  let (f, u) := t.originate 0 0x04 0x08 (bytesBE 2 e.toNat)
  ([Port.A, Port.B].filter u.portOn).foldl (fun acc p => acc.startSegment p e f.seq) u

/-- A SEARCH at an agent (R385, R391): an ALL one starts the search, a unicast one asks for its result. -/
def State.takeSearchMsg (s : State) (f : RxFrame) : State :=
  let e : Word := BitVec.ofNat 16 (beAt f.frame.payload 0 2)
  let p := otherPort s.fram.upPort
  if f.frame.src ≠ 0 then s.notHead f
  else if f.frame.payload.length ≠ 2 then s.badField f
  else if !s.isBridge then s
  else match s.segOn p with
    | some g =>
      if g.epoch = e then (if f.frame.flags.getLsbD 3 || !g.done then s else s.replyTo f (s.searchResult g)) else s.startSegment p e f.frame.seq
    | none => s.startSegment p e f.frame.seq

/-- A SEARCH reply at the head: the bridge has answered (R391, R392). -/
def State.searchReply (s : State) (f : RxFrame) : State :=
  let p := f.frame.payload
  if beAt p 0 2 ≠ s.dn.epochNo.toNat || !s.dn.epr then s
  else
    let gone := (List.range ((p.length - 4) / 2)).map (fun i => BitVec.ofNat 12 (beAt p (4 + 2 * i) 2))
    let t := if s.nodeState f.frame.src.toNat = 1 then s.putNode f.frame.src.toNat 5 3 2 else s
    { t with dn := { t.dn with await := t.dn.await.filter (fun x => x.1 != f.frame.src), departed := t.dn.departed ++ gone,
                               reqs := t.dn.reqs.filter (fun r => !(r.frame.type == 0x04#8 && r.frame.dest == f.frame.src)) } }

/-- A bridge has not replied: asked up to 3 times more, then departed (R391). -/
def State.bridgeTimeout (s : State) (b : BitVec 12) : State :=
  match s.dn.await.lookup b with
  | none => s
  | some n =>
    if n < 3 then
      ({ s with dn := { s.dn with await := s.dn.await.map (fun (x : BitVec 12 × Nat) => if x.1 = b then (b, n + 1) else x) } }).originate b 0x04 0
        (bytesBE 2 s.dn.epochNo.toNat) |>.2
    else { s with dn := { s.dn with await := s.dn.await.filter (fun x => x.1 != b), departed := s.dn.departed ++ [b] } }

/-- One departed address: the entry, the event (R392). -/
def State.departNode (s : State) (a : BitVec 12) : State :=
  (s.putNode a.toNat 5 3 3).dnEvent 0x0C04 (evData [(a.toNat, 0), ((s.nodeSerial a.toNat).toNat % 2 ^ 32, 16)])

/-- One arrival of the epoch (R392). -/
def State.arriveNode (s : State) (a : BitVec 12) : State :=
  s.dnEvent 0x0C03 (evData [(a.toNat, 0), ((s.nodeSerial a.toNat).toNat % 2 ^ 32, 16)])

/-- Every agent has replied or departed. -/
def State.epochOver (s : State) : Bool := s.isHead && s.dn.epr && s.dn.await.isEmpty && s.dn.segs.all (fun g => g.done)

/-- The epoch ends (R392): an address that departed and has joined again in the epoch has arrived. -/
def State.endEpoch (s : State) : State :=
  let gone := s.dn.departed.filter (fun a => !s.dn.arrived.contains a && s.present a.toNat)
  let dirty := !gone.isEmpty || !s.dn.arrived.isEmpty || s.dn.cut
  let t := s.dn.arrived.foldl State.arriveNode (gone.foldl State.departNode s)
  { t with dn := { t.dn with epr := false, dirty := dirty, follow := if dirty then t.dn.follow + 1 else 0 } }.dnEvent 0x0C02
    (evData [(t.dn.epochNo.toNat, 0), (b2n dirty, 16), (s.dn.arrived.length % 4096, 24), (gone.length % 4096, 36)])

/-- EPOCH_START's condition: role H, none in progress, SEPOCH or a dirty follow-up, at most 8 in a row (R385). -/
def State.epochDue (s : State) : Bool :=
  s.running && s.isHead && !s.dn.epr && ((s.dsw 0x2000) != 0 || (s.dn.dirty && decide (s.dn.follow ≤ 8)))

/-! ## The node's side of a search (R19, R21, R390, R391) -/

/-- What a node keeps of a BEACON of its system: the segment, and whether it heard the epoch's PHASE 0 (R386, R391). -/
def State.hearBeacon (s : State) (r : RxSearch) : State :=
  let epoch : Word := BitVec.ofNat 16 (beAt r.payload 0 2)
  let phase := (payAt r.payload 11).toNat
  let t := { s with dn := { s.dn with hearing := some r.port, sysid := BitVec.ofNat 48 (beAt r.payload 2 6),
                                      agent := BitVec.ofNat 12 (beAt r.payload 8 2), segHops := payAt r.payload 10 } }
  if phase = 0 then { t with dn := { t.dn with phase0 := some epoch, defer := false } }
  else if phase = 1 && !t.fram.joined && t.dn.phase0 != some epoch && !t.dn.defer then
    { t with dn := { t.dn with defer := true } }.dnEvent 0x0C05 epoch.toNat
  else t

/-- A head that hears another is head no more: its epoch, its beacons and frames still queued, and its line time end (R21, R103; log entry
87). -/
def State.yieldHead (s : State) (r : RxSearch) : State :=
  let t := s.dropAnnounces 3
  { t with
    dn := { t.dn with otherHead := some r.port, epr := false, segs := [], await := [], reqs := [], copies := [] },
    dl := { t.dl with queue := [], squeue := [] },
    ck := { t.ck with ltv := false, lpend := 0 } }.dnEvent 0x0C07 (beAt r.payload 2 6)

/-- A BEACON heard (R19, R21, R386, R391). -/
def State.takeBeacon (s : State) (r : RxSearch) : State :=
  if r.payload.length ≠ 12 then s
  else if s.isHead then
    if beAt r.payload 2 6 = s.fram.serial.toNat % 2 ^ 48 then s else (s.yieldHead r).hearBeacon r
  else if s.agentOn r.port then s
  else if (if s.fram.joined then r.port == s.fram.upPort else (s.dn.hearing.getD r.port) == r.port) then s.hearBeacon r
  else s

/-- The top l bits of the prefix are the serial's (R390). -/
def prefixMatch (l : Nat) (p serial : Word64) : Bool := l == 0 || (p >>> (64 - l)) == (serial >>> (64 - l))

/-- A QUERY heard: the ANSWER at once, or silence below 12.0 V (R23, R387, R390, R391). -/
def State.takeQuery (s : State) (r : RxSearch) (vres : Nat) : State :=
  let epoch : Word := BitVec.ofNat 16 (beAt r.payload 0 2)
  let b := (payAt r.payload 2).toNat
  let mode := decide (128 ≤ b)
  let who := s.fram.joined || (s.dn.phase0 == some epoch && s.dn.refused != some epoch)
  if r.payload.length ≠ 11 || s.isHead || s.agentOn r.port || !s.portUsed r.port || !who || (!mode && s.fram.joined) then s
  else if !prefixMatch (min 64 (b % 128)) (BitVec.ofNat 64 (beAt r.payload 3 8)) s.fram.serial then s
  else if vres < 1200 then s
  else s.sendSearch r.port 0x02 (bytesBE 8 s.fram.serial.toNat ++
    [BitVec.ofNat 8 (Role.code s.pins.role), pack [(b2n (s.lineRole && s.pben), 0), (b2n s.fram.joined, 1)] |> loByte])

/-! ## Host frames and timeouts (R375, R379) -/

/-- The frame at the head of the transmit FIFO is issued or discarded (R379). -/
def State.issueHostFrame (s : State) : State :=
  let b := s.dn.txf
  let dest : BitVec 12 := BitVec.ofNat 12 (beAt b 0 2)
  let type := payAt b 2
  let flags := payAt b 3
  let payload := slice b 6 s.txLen
  let t := { s with dn := { s.dn with txf := b.drop (s.txLen + 6) } }
  if 1024 < s.txLen || !s.hostMay type flags || (type == 0x06#8 && payload.length != 2) then t.dnEvent 0x0C0C type.toNat
  else if type = 0x06 then t.hostSweep (beAt payload 0 2)
  else t.hostSend dest type flags payload

/-- The head's or agent's own request has failed for good: a collection settles uncollected, a joining is given up (R389, R399). -/
def State.requestFailed (s : State) (r : Request) : State :=
  if r.frame.type = 0x07 then s.collectSettle 2
  else if r.frame.type = 0x05 then
    match s.dn.segs.find? (fun g => g.joining.any (fun j => j.1 == BitVec.ofNat 64 (beAt r.frame.payload 0 8)) && g.assign.isNone) with
    | some g => s.nextQuery { g with joining := none }
    | none => s
  else if r.frame.type = 0x0B then { s with dn := { s.dn with timeT1 := none } }
  else s

/-- No reply within NRTO: resent with RTY, up to NRETRY times; then RTXCNT, and a NACK 0x08 entry for the host (R375). -/
def State.requestTimeout (s : State) (seq : Word) : State :=
  match s.dn.reqs.find? (fun r => r.frame.seq == seq) with
  | none => s
  | some r =>
    if r.tries < fld (s.dsw 0x2003) 0 3 then
      let f := { r.frame with flags := r.frame.flags ||| 0x04#5 }
      let g := if r.frame.type = 0x0B then { f with payload := timeBytes s.ck.lsec s.ck.lcyc } else f
      { s with dn := { s.dn with
          reqs := s.dn.reqs.map (fun (x : Request) => if x.frame.seq == seq then { r with frame := g, tries := r.tries + 1 } else x) } }.queueOn r.port g
    else
      let t := { s.closeReq r with dn := { (s.closeReq r).dn with rtxCnt := satInc s.dn.rtxCnt } }
      let u := t.pinned 12 0x2021 t.dn.rtxCnt
      if r.host then
        u.dnPush { dest := u.ownAddr, src := r.frame.dest, type := 0x0A, seq := seq, flags := 0,
                   payload := [r.frame.type] ++ bytesBE 2 seq.toNat ++ [0x08] }
      else u.requestFailed r

/-- Discovery stops 20 s after PHASE 0: a roll call and a joining under way are finished first (R389). -/
def State.discoveryTimeout (s : State) (p : Port) : State :=
  match s.segOn p with
  | some g =>
    if g.done then s
    else if g.roll.isEmpty && g.joining.isNone then s.endSegment { g with cut := true }
    else s.putSegment { g with cut := true }
  | none => s

/-- The head's answer to a JOIN (R393). -/
def State.answerJoin (s : State) (f : RxFrame) : State :=
  let p := f.frame.payload
  if !s.isHead then s
  else if p.length ≠ 10 then s.badField f
  else
    let serial : Word64 := BitVec.ofNat 64 (beAt p 0 8)
    match s.admitNode serial (payAt p 8).toNat (payAt p 9).toNat with
    | .inl n => (s.enterNode n serial (payAt p 8).toNat).replyTo f (bytesBE 8 serial.toNat ++ bytesBE 2 n)
    | .inr c => s.nackTo f c

/-- The segment search that waits for the head's answer about a serial (R394). -/
def State.joiningOf (s : State) (serial : Word64) : Option Segment :=
  s.dn.segs.find? (fun g => g.joining.any (fun j => j.1 == serial) && g.assign.isNone)

/-- An effect on the running search of a port this EWT is agent of. -/
def State.onSegment (s : State) (p : Port) (f : Segment → State → State) : State :=
  match s.segOn p with
  | some g => if g.done then s else f g s
  | none => s

/-- An ANSWER in a window is noted; outside one it is a violation (R390, R400: 0x0C1A). -/
def State.takeAnswer (s : State) (r : RxSearch) : State :=
  match s.segOn r.port with
  | some g =>
    if g.query.isSome && r.payload.length == 10 then s.putSegment { g with answers := g.answers ++ [r.payload] }
    else s.dnVio 0x0C1A 0x02
  | none => s.dnVio 0x0C1A 0x02

/-! ## Meanings -/

/-- HOST_FRAME_ISSUE (R379). -/
def execHostFrameIssue (s : State) : Host.Outcome State Fault Refusal :=
  .next (s.when (s.runOrDrain && s.hostFrameReady) State.issueHostFrame)

/-- REQUEST_TIMEOUT (R375). -/
def execRequestTimeout (seq : Word) (s : State) : Host.Outcome State Fault Refusal := .next (s.when s.coreOn (fun t => t.requestTimeout seq))

/-- EPOCH_START (R385). -/
def execEpochStart (s : State) : Host.Outcome State Fault Refusal := .next (s.when s.epochDue State.startEpoch)

/-- SEARCH (R389, R391). -/
def execSearch (f : RxFrame) (s : State) : Host.Outcome State Fault Refusal :=
  .next (s.when (f.frame.type == 0x04#8 && !f.frame.flags.getLsbD 4) (fun t => t.takeFrame f (fun u => u.orRepeat f (fun v => v.takeSearchMsg f))))

/-- BEACON_SEND (R389): PHASE 1 while the search runs. -/
def execBeaconSend (p : Port) (s : State) : Host.Outcome State Fault Refusal :=
  .next (s.when (s.running && s.agentOn p) (fun t => t.onSegment p (fun g u => u.sendBeacon g 1)))

/-- BEACON (R391). -/
def execBeacon (r : RxSearch) (s : State) : Host.Outcome State Fault Refusal := .next (s.takeSearch r (fun t => t.takeBeacon r))

/-- QUERY (R390). -/
def execQuery (r : RxSearch) (vres : Nat) (s : State) : Host.Outcome State Fault Refusal := .next (s.takeSearch r (fun t => t.takeQuery r vres))

/-- QUERY_WINDOW_END (R390). -/
def execQueryWindowEnd (p : Port) (carrier : Bool) (s : State) : Host.Outcome State Fault Refusal :=
  .next (s.when s.running (fun t => t.onSegment p (fun g u => u.windowEnd g carrier)))

/-- SEARCH_ANSWER (R390). -/
def execSearchAnswer (r : RxSearch) (s : State) : Host.Outcome State Fault Refusal := .next (s.takeSearch r (fun t => t.takeAnswer r))

/-- DISCOVERY_TIMEOUT (R389). -/
def execDiscoveryTimeout (p : Port) (s : State) : Host.Outcome State Fault Refusal := .next (s.when s.running (fun t => t.discoveryTimeout p))

/-- SEARCH_REPLY_TIMEOUT (R391). -/
def execSearchReplyTimeout (bridge : BitVec 12) (s : State) : Host.Outcome State Fault Refusal :=
  .next (s.when (s.running && s.isHead && s.dn.epr) (fun t => t.bridgeTimeout bridge))

/-- EPOCH_END (R392). -/
def execEpochEnd (s : State) : Host.Outcome State Fault Refusal := .next (s.when (s.running && s.epochOver) State.endEpoch)

/-- JOIN (R393). -/
def execJoin (f : RxFrame) (s : State) : Host.Outcome State Fault Refusal :=
  .next (s.when (f.frame.type == 0x05#8 && !f.frame.flags.getLsbD 4) (fun t => t.takeFrame f (fun u => u.orRepeat f (fun v => v.answerJoin f))))

/-- ASSIGN (R394). -/
def execAssign (r : RxSearch) (s : State) : Host.Outcome State Fault Refusal :=
  .next (s.takeSearch r (fun t => t.when (t.running && !t.agentOn r.port) (fun u => u.takeAssign r)))

/-- ASSIGN_ACK (R394). -/
def execAssignAck (r : RxSearch) (s : State) : Host.Outcome State Fault Refusal :=
  .next (s.takeSearch r (fun t => t.onSegment r.port (fun g u =>
    u.assignAck g (BitVec.ofNat 64 (beAt r.payload 0 8)) (BitVec.ofNat 12 (beAt r.payload 8 2)))))

/-- ASSIGN_TIMEOUT (R394). -/
def execAssignTimeout (p : Port) (s : State) : Host.Outcome State Fault Refusal :=
  .next (s.when s.running (fun t => t.onSegment p (fun g u => u.assignTimeout g)))

/-- SWEEP_ISSUE (R395). -/
def execSweepIssue (s : State) : Host.Outcome State Fault Refusal := .next (s.when (s.running && s.isHead && s.ck.ltv) State.sweepIssue)

/-- SWEEP (R396). -/
def execSweep (f : RxFrame) (s : State) : Host.Outcome State Fault Refusal :=
  .next (s.when (f.frame.type == 0x06#8) (fun t => t.takeFrame f (fun u => u.takeSweep f)))

/-- SWEEP_LATCH (R397). -/
def execSweepLatch (beside : Bool) (s : State) : Host.Outcome State Fault Refusal :=
  .next (s.when (s.running && s.ck.ltv) (fun t => t.sweepLatch beside))

/-- COLLECT_START (R398). -/
def execCollectStart (s : State) : Host.Outcome State Fault Refusal := .next (s.when (s.running && s.isHead) State.collectStart)

/-- COLLECT (R398). -/
def execCollect (f : RxFrame) (s : State) : Host.Outcome State Fault Refusal :=
  .next (s.when (f.frame.type == 0x07#8 && !f.frame.flags.getLsbD 4) (fun t => t.takeFrame f (fun u => u.orRepeat f (fun v => v.answerCollect f))))

/-- COLLECT_REPLY (R379, R399). -/
def execCollectReply (f : RxFrame) (s : State) : Host.Outcome State Fault Refusal :=
  .next (s.when (f.frame.type == 0x07#8 && f.frame.flags.getLsbD 4) (fun t => t.takeFrame f (fun u => u.takeReply f (fun r v => v.collectReply r f))))

/-- JOIN_REPLY (R394). -/
def execJoinReply (f : RxFrame) (s : State) : Host.Outcome State Fault Refusal :=
  .next (s.when (f.frame.type == 0x05#8 && f.frame.flags.getLsbD 4) (fun t => t.takeFrame f (fun u => u.takeReply f (fun _ v =>
    match v.joiningOf (BitVec.ofNat 64 (beAt f.frame.payload 0 8)) with
    | some g => v.assigned g (.inl (beAt f.frame.payload 8 2))
    | none => v))))

/-- SEARCH_REPLY (R392). -/
def execSearchReply (f : RxFrame) (s : State) : Host.Outcome State Fault Refusal :=
  .next (s.when (f.frame.type == 0x04#8 && f.frame.flags.getLsbD 4) (fun t => t.takeFrame f (fun u =>
    if u.isHead && u.dn.epr && beAt f.frame.payload 0 2 == u.dn.epochNo.toNat then u.searchReply f else u.strayReply f)))

end Sys2Proof.Machine
end

