-- ==== Sys2Proof/Machine/Antiphon.lean ====
section
/-! DEFINITION. Sys2Proof/Machine/Antiphon.lean: the Antiphon mirrored pair: ceremony, exchanges, mirror, divergence, restore,
violations (10_antiphon_pair.md). The effect of its audited changes stands in Audit.lean. -/

namespace Sys2Proof.Machine

open Sys2Proof.Config (key)

/-! ## Parameters and events (10, Registers; R281, R282) -/

/-- AN_CTL.EN. -/
def State.anEn (s : State) : Bool := bitAt (s.nvReg 0x52) 0

/-- PERIOD in 0.25 s: codes above 40 act as 40 (R261). -/
def State.anPeriod (s : State) : Nat := min 40 (fld (s.nvReg 0x52) 1 6)

/-- PADDR. -/
def State.paddr (s : State) : BitVec 12 := (s.lgw 0xF880).extractLsb' 0 12

/-- LOSSN: 0 acts as 1. -/
def State.lossn (s : State) : Nat := max 1 (fld (s.lgw 0xF881) 0 8)

/-- DQ. -/
def State.dq (s : State) : Nat := fld (s.lgw 0xF882) 0 2

/-- DLIM in 0.01 %: above 10,000 acts as 10,000. -/
def State.dlim (s : State) : Nat := min 10000 (fld (s.lgw 0xF883) 0 14)

/-- DMIN in thousands of units. -/
def State.dmin (s : State) : Nat := (s.lgd 0xF884).toNat

/-- VIOLIM. -/
def State.violim (s : State) : Nat := fld (s.lgw 0xF886) 0 8

/-- An Antiphon event with its interrupt (R282). -/
def State.anEvent (s : State) (code : Word) (data : Nat) : State := (s.logEv code data).irq 8

/-- A violation counts (R281). -/
def State.anCount (s : State) : State :=
  let t := { s with an := { s.an with vioCnt := satInc s.an.vioCnt } }
  t.pinned 8 0xF89F t.an.vioCnt

/-- A class that VIOLIM escalates (R281). -/
def State.anVio (s : State) (code : Word) (data : Nat) : State :=
  let st := stampIn s.pw.ticks s.an.vioAt
  { s with an := { s.an with vioAt := st.take 255, vio := s.an.vio || (s.violim != 0 && decide (s.violim ≤ st.length)) } }.anCount.logOnce code data

/-- PERIOD's code as it stands (10, Registers). -/
def State.anCode (s : State) : BitVec 6 := (s.nvReg 0x52).extractLsb' 1 6

/-- A message of the pair that this node itself has queued (R370). -/
def State.ownAntiphon (s : State) (q : QFrame) : Bool :=
  (q.frame.type == 0x08#8 || q.frame.type == 0x09#8) && q.frame.src == s.ownAddr

/-- Queued messages of the pair with these KINDs are discarded unsent. -/
def State.dropAntiphon (s : State) (kinds : List Byte) : State :=
  { s with dl := { s.dl with queue := s.dl.queue.filter (fun q => !(s.ownAntiphon q && kinds.contains (payAt q.frame.payload 1))) } }

/-- The KINDs of the exchange, with NOTICE and RETRACT; and of the ceremony and the restore besides (R263, R269). -/
def pairKinds : List Byte := [0x01, 0x02, 0x05, 0x07]

/-- Every KIND. -/
def allKinds : List Byte := [0x01, 0x02, 0x03, 0x04, 0x05, 0x06, 0x07]

/-- EN or PERIOD has changed: STATE stays with what they allow, and where exchanges stop no message of theirs is sent (R254, R257,
R261). -/
def State.anActivate (s : State) : State :=
  let on := s.anEn && s.anPeriod != 0 && s.fram.aseq != 0xFFFFFFFF#32
  let st := s.fram.anState
  if st = 2 ∨ st = 3 ∨ st = 4 then
    let t := { s with fram := { s.fram with anState := if !on then 2 else if st = 2 then 3 else st } }
    if on then t else t.dropAntiphon pairKinds
  else s

/-- Exchanges run: RUN, line time, STATE 3 or 4, EN, PERIOD not 0, ASEQ left, no restore under way (R257, R265, R277). -/
def State.exchOk (s : State) : Bool :=
  s.running && s.ck.ltv && (s.fram.anState == 3 || s.fram.anState == 4) && s.anEn && s.anPeriod != 0 &&
  s.fram.aseq != 0xFFFFFFFF#32 && s.an.restoreWait.isNone

/-- This EWT calls: its SERIAL is the smaller (R257). -/
def State.caller (s : State) : Bool := decide (s.fram.serial < s.fram.pserial)

/-! ## Messages (R263 to R265) -/

/-- The pair key. -/
def State.pairKey (s : State) : List Byte := s.fram.key1.getD []

/-- TAG over a message body for a receiver's SERIAL (R264). -/
def State.anTag (s : State) (body : List Byte) (receiver : Word64) : List Byte := tag8 s.pairKey (body ++ bytesBE 8 receiver.toNat)

/-- A received message's tag holds for a receiver's SERIAL (R264); an empty slot holds none. -/
def State.anTagOk (s : State) (p : List Byte) (receiver : Word64) : Bool :=
  s.fram.key1.isSome && p.drop (p.length - 8) == s.anTag (p.take (p.length - 8)) receiver

/-- The ALARM byte (R263). -/
def State.anAlarm (s : State) : Byte :=
  BitVec.ofNat 8 (b2n s.fe.alm + 2 * b2n (s.lp.amode == 4 || s.lp.amode == 5) + 4 * b2n s.fe.wet + 8 * b2n s.fe.empty +
    16 * b2n s.fe.stale + 32 * b2n s.lg.lbad + 64 * b2n s.fram.stale + 128 * b2n s.aon.sealOpen)

/-- INCR: forward integer increases since the previous CALL or ANSWER, 4 bytes each, saturating (R263). -/
def State.anIncr (s : State) : List Byte :=
  ((List.range 4).map (fun i => bytesBE 4 (min 0xFFFFFFFF (s.lg.totalsDone.getD i 0 / 2 ^ 32 - s.fram.anBase.getD i 0)))).flatten

/-- The twelve totals as a message carries them (R263). -/
def totalsBE (ts : List Nat) : List Byte := (ts.map (fun t => bytesBE 8 (t / 2 ^ 32) ++ bytesBE 4 (t % 2 ^ 32))).flatten

/-- Four binary32 values as a message carries them. -/
def floatsBE (fs : List F32) : List Byte := (fs.map (fun (x : F32) => bytesBE 4 x.toNat)).flatten

/-- A CALL, ANSWER or NOTICE of 228 bytes as it is queued: its ASEQ and TAG are 0 until it is sent (R263, R265). -/
def State.anMessage (s : State) (kind : Byte) (ack ackc : Word32) (ltsec : Word32) : List Byte :=
  [0x01, kind, s.anCode.setWidth 8, s.anAlarm] ++ bytesBE 8 s.fram.serial.toNat ++ bytesBE 4 0 ++
    bytesBE 4 ack.toNat ++ bytesBE 4 ackc.toNat ++ bytesBE 4 s.lg.seqDone.toNat ++ bytesBE 4 s.lg.timeDone.toNat ++
    bytesBE 4 ltsec.toNat ++ s.lg.cdig ++ totalsBE s.lg.totalsDone ++ s.anIncr ++ floatsBE s.fe.pend ++ List.replicate 8 0

/-- At the last ASEQ: STATE 2, event 0x080E, and no further message (R265). -/
def State.aseqEnd (s : State) : State :=
  if s.fram.aseq = 0xFFFFFFFF#32 then ({ s with fram := { s.fram with anState := 2 } }.dropAntiphon allKinds).anEvent 0x080E 0 else s

/-- A payload of this node's own goes out in an ANTIPHON or RETRACT frame, while ASEQ is not exhausted (R258, R265, R370). -/
def State.anSend (s : State) (type : Byte) (dest : BitVec 12) (payload : List Byte) : State :=
  if s.fram.aseq = 0xFFFFFFFF#32 then s else (s.originate dest type 0 payload).2

/-- A CALL or ANSWER is queued (R258, R259). -/
def State.anExchange (s : State) (dest : BitVec 12) (kind : Byte) (ack ackc : Word32) (ltsec : Word32) : State :=
  s.anSend 0x08 dest (s.anMessage kind ack ackc ltsec)

/-- The message as it is sent, with the next ASEQ and its TAG (R264, R265). -/
def State.anStamped (s : State) (p : List Byte) : List Byte :=
  let body := patch (p.take (p.length - 8)) 0x0C (bytesBE 4 (s.fram.aseq + 1#32).toNat)
  body ++ s.anTag body s.fram.pserial

/-- A queued message of this node's own that still has to take its ASEQ. -/
def State.unstamped (s : State) (q : QFrame) : Bool :=
  s.ownAntiphon q && pairKinds.contains (payAt q.frame.payload 1) && beAt q.frame.payload 0x0C 4 == 0

/-- A message goes out: ASEQ rises by 1; INCR counts from a CALL or ANSWER on (R263, R265). -/
def State.anStamp (s : State) (q : QFrame) : State :=
  let m := s.anStamped q.frame.payload
  let k := payAt m 1
  { s with
    dl := { s.dl with queue := s.dl.queue.replace q { q with frame := { q.frame with payload := m } } },
    fram := { s.fram with aseq := s.fram.aseq + 1#32,
                          anBase := if k = 0x01 ∨ k = 0x02 then (List.range 4).map (fun i => beAt m (0x2C + 12 * i) 8) else s.fram.anBase },
    an := { s.an with lastCall := if k = 0x01 then s.fram.aseq + 1#32 else s.an.lastCall,
                      lastAnswer := if k = 0x02 then m else s.an.lastAnswer, resent := if k = 0x02 then false else s.an.resent } }

/-- The frame that a port's grant now lets go begins; a message of the pair takes its ASEQ first, and none is sent after the last
(R265, R346). -/
def State.frameGo (s : State) (p : Port) : State :=
  match s.nextFrame p with
  | none => s
  | some q =>
    if !s.unstamped q then s.startFrame p
    else if s.fram.aseq = 0xFFFFFFFF#32 then { s with dl := { s.dl with queue := s.dl.queue.erase q } }
    else ((s.anStamp q).startFrame p).aseqEnd

/-- An ANSWER to a received message (R259). -/
def State.anAnswer (s : State) (f : RxFrame) (ack ackc : Word32) : State :=
  if s.exchOk then s.anExchange f.frame.src 0x02 ack ackc (BitVec.ofNat 32 (beAt f.frame.payload 0x20 4)) else s

/-- A HELLO or CONFIRM of 36 bytes (R263, R264). -/
def State.anHello (s : State) (kind : Byte) (peer : Word64) : List Byte :=
  let body := [0x01, kind, BitVec.ofNat 8 (b2n s.an.wantRestore), 0] ++ bytesBE 8 s.fram.serial.toNat ++ bytesBE 8 peer.toNat ++
    kcv s.fram.key1 ++ bytesBE 4 s.ck.lsec.toNat
  body ++ s.anTag body peer

/-! ## Mirror (R267, R268) -/

/-- Sizes of the message fields; true: a number, stored least significant byte first. CDIG and TAG are byte strings. -/
def mirrorLayout : List (Nat × Bool) :=
  List.replicate 4 (1, true) ++ [(8, true)] ++ List.replicate 6 (4, true) ++ [(8, false)] ++
  (List.replicate 12 [(8, true), (4, true)]).flatten ++ List.replicate 8 (4, true) ++ [(8, false)]

/-- A message between Descant order and FRAM order (R267). -/
def flipFields : List (Nat × Bool) → List Byte → List Byte
  | [], _ => []
  | (n, num) :: ls, bs => (if num then (bs.take n).reverse else bs.take n) ++ flipFields ls (bs.drop n)

/-- MTAG: keyed with slot 0 over the slot's first 0xF8 bytes and the local SERIAL (R267). -/
def State.mtag (s : State) (body : List Byte) : List Byte := tag8 s.ledgerKey (body ++ bytesLE 8 s.fram.serial.toNat)

/-- A slot of the mirror. -/
def State.mirror (s : State) (one : Bool) : List Byte := if one then s.fram.mirror1 else s.fram.mirror0

/-- The slot's MTAG verifies. -/
def State.mirrorOk (s : State) (one : Bool) : Bool := slice (s.mirror one) 0xF8 8 == s.mtag ((s.mirror one).take 0xF8)

/-- The newest valid slot (R267). -/
def State.newestMirror (s : State) : Option Bool :=
  if s.mirrorOk false && s.mirrorOk true then some (decide (leAt s.fram.mirror0 0xEE 4 < leAt s.fram.mirror1 0xEE 4))
  else if s.mirrorOk false then some false else if s.mirrorOk true then some true else none

/-- A slot written with its MTAG. -/
def State.putMirror (s : State) (one : Bool) (body : List Byte) : State :=
  let b := body.take 0xF8 ++ s.mtag (body.take 0xF8)
  { s with fram := if one then { s.fram with mirror1 := b } else { s.fram with mirror0 := b } }

/-- A bit of the STATE word of the newest slot set (R274, R277). -/
def State.markMirror (s : State) (bit : Nat) : State :=
  match s.newestMirror with
  | none => s
  | some one =>
    let b := s.mirror one
    s.putMirror one (patch b 0xEC (bytesLE 2 (leAt b 0xEC 2 ||| 2 ^ bit)))

/-- The mirrored message in Descant order. -/
def State.mirrored (s : State) (one : Bool) : List Byte := flipFields mirrorLayout ((s.mirror one).take 228)

/-- A message enters the slot that does not hold the newest (R267). -/
def State.mirrorMessage (s : State) (p : List Byte) : State :=
  let one := match s.newestMirror with | some o => !o | none => false
  let n := s.fram.mseq + 1#32
  { s with fram := { s.fram with mseq := n } }.putMirror one
    (flipFields mirrorLayout p ++ bytesLE 4 s.ck.lsec.toNat ++ bytesLE 4 s.lg.seqDone.toNat ++ bytesLE 2 0 ++ bytesLE 4 n.toNat ++
      List.replicate 6 0)

/-- TOTALS of a message: integer · 2^32 + fraction. -/
def messageTotals (p : List Byte) : List Nat :=
  (List.range 12).map (fun n => beAt p (0x2C + 12 * n) 8 * 2 ^ 32 + beAt p (0x34 + 12 * n) 4)

/-- Their integers. -/
def messageInts (p : List Byte) : List Nat := (messageTotals p).map (fun t => t / 2 ^ 32)

/-- R268's condition on CSEQ and TOTALS. -/
def State.notBelow (s : State) (p : List Byte) : Bool :=
  decide (s.fram.rxcseq.toNat ≤ beAt p 0x18 4) && ((messageInts p).zip s.fram.rxtotals).all (fun x => decide (x.2 ≤ x.1))

/-! ## Divergence (R272, R273) -/

/-- The own commit with a given TIME among the last 16 (R273). -/
def State.commitAt (s : State) (time : Word32) : Option Past :=
  if time = 0xFFFFFFFF#32 then none else s.lg.past.find? (fun c => c.time == time)

/-- A reference setting is in line for its audit row. -/
def State.drefQueued (s : State) : Bool := s.lg.queue.any (fun c => match c with | .dref _ _ _ => true | _ => false)

/-- The reference that waits is taken from a message once an own commit has its CTIME (R272). -/
def State.takeRef (s : State) (p : List Byte) : State :=
  match s.fram.drefPend with
  | none => s
  | some cause =>
    if s.drefQueued then s
    else match s.commitAt (BitVec.ofNat 32 (beAt p 0x1C 4)) with
      | none => s
      | some c =>
        if s.auditFull then { s with fram := { s.fram with drefPend := none } }.refuseFull 0x52
        else s.queueChange (.dref cause (BitVec.ofNat 64 (c.fwd.getD s.dq 0)) (BitVec.ofNat 64 ((messageInts p).getD s.dq 0)))

/-- DIV follows DVAL (R273). -/
def State.setDiv (s : State) (v : Nat) : State :=
  let t := { s with an := { s.an with dval := BitVec.ofNat 16 v } }
  if s.dlim < v then (if s.an.div then t else { t with an := { t.an with div := true } }.anEvent 0x0805 (evData [(1, 0), (v, 8)]))
  else if s.an.div && decide (10 * v ≤ 9 * s.dlim) then { t with an := { t.an with div := false } }.anEvent 0x0805 (evData [(0, 0), (v, 8)])
  else t

/-- The divergence at a mirrored CALL or ANSWER (R273). -/
def State.diverge (s : State) (p : List Byte) : State :=
  if s.fram.stale then s
  else if s.dlim = 0 then { s with an := { s.an with div := false } }
  else if s.fram.drefPend.isSome || s.drefQueued then s
  else match s.commitAt (BitVec.ofNat 32 (beAt p 0x1C 4)) with
    | none => { s with an := { s.an with dskip := true } }
    | some c =>
      let b : Int := (((messageInts p).getD s.dq 0 : Nat) : Int) - s.fram.drefp.toNat
      let a : Int := ((c.fwd.getD s.dq 0 : Nat) : Int) - s.fram.drefl.toNat
      let m := max a b
      if m ≤ 0 ∨ m < ((s.dmin * 1000 : Nat) : Int) then s
      else s.setDiv (min 0xFFFF ((a - b).natAbs * 10000 / m.toNat))

/-! ## Received messages (R268, R279, R281) -/

/-- Length of a message by its KIND; RETRACT frames carry KIND 7 alone. -/
def anLength (retract : Bool) (kind : Nat) : Option Nat :=
  if retract then (if kind = 7 then some 48 else none)
  else if kind = 1 ∨ kind = 2 ∨ kind = 5 then some 228
  else if kind = 3 ∨ kind = 4 then some 36
  else if kind = 6 then some 238 else none

/-- VER, KIND and length are known (R281: 0x0812). -/
def anWellFormed (type : Byte) (p : List Byte) : Bool :=
  payAt p 0 == 0x01#8 && anLength (type == 0x09#8) (payAt p 1).toNat == some p.length

/-- The sender's SERIAL in a message. -/
def anSender (p : List Byte) : Word64 := BitVec.ofNat 64 (beAt p 4 8)

/-- An ANTIPHON or RETRACT frame of a KIND, in RUN (R262, R281: 0x0812). -/
def State.anFrame (s : State) (f : RxFrame) (kind : Byte) (h : List Byte → State → State) : State :=
  s.when (f.frame.type == 0x08#8 || f.frame.type == 0x09#8) (fun t => t.takeFrame f (fun v =>
    let p := f.frame.payload
    if !v.running then v
    else if !anWellFormed f.frame.type p then
      (v.anVio 0x0812 (evData [((payAt p 0).toNat, 0), ((payAt p 1).toNat, 8), (p.length, 16)])).nackTo f 0x82
    else if payAt p 1 = kind then h p v else v))

/-- A tag that fails under PSERIAL: 0x0810, and STATE 5 at the third in a row from PADDR (R279, R281). -/
def State.badTag (s : State) (f : RxFrame) (aseq : Nat) : State :=
  let t := s.anCount.logOnce 0x0810 aseq
  if f.frame.src = t.paddr ∧ t.fram.anState ≠ 5 then
    if 2 ≤ t.an.tagFails then
      (({ t with fram := { t.fram with anState := 5 }, an := { t.an with tagFails := 0 } }.dropAntiphon allKinds).logEv 0x0F09 0).irq 15
    else { t with an := { t.an with tagFails := t.an.tagFails + 1 } }
  else t

/-- A valid message from a new address: PADDR follows (10, Edges). -/
def State.followAddr (s : State) (f : RxFrame) : State :=
  if f.frame.src = s.paddr then s
  else (s.nvPut (key 3 0xF880) (merge (mask 0 12) (s.lgw 0xF880) (f.frame.src.setWidth 16))).anEvent 0x0807
    (evData [(s.paddr.toNat, 0), (f.frame.src.toNat, 16)])

/-- A message of the running pair: SERIAL, tag, STATE 3 or 4 (R257, R268, R279, R281). -/
def State.fromPartner (s : State) (f : RxFrame) (h : State → State) : State :=
  let p := f.frame.payload
  let alien (t : State) : State := (t.anVio 0x0811 ((anSender p).toNat % 2 ^ 48)).nackTo f 0x81
  if s.fram.anState = 0 then alien s
  else
    let ok := s.anTagOk p s.fram.serial
    let mine := anSender p == s.fram.pserial
    if !ok then (if mine then s.badTag f (beAt p 0x0C 4) else s)
    else
      let t := if f.frame.src = s.paddr then { s with an := { s.an with tagFails := 0 } } else s
      if !mine then alien t
      else if t.fram.anState = 3 ∨ t.fram.anState = 4 then h (t.followAddr f) else t

/-- A mirrored message: STALE is clear; after a loss STATE 3 and 0x0804; a CALL or ANSWER ends the run of missed exchanges (R260, R275). -/
def State.partnerBack (s : State) (exchange : Bool) : State :=
  let t := { s with an := { s.an with misses := if exchange then 0 else s.an.misses }, fram := { s.fram with stale := false } }
  if s.fram.anState = 4 then { t with fram := { t.fram with anState := 3 } }.anEvent 0x0804 s.an.misses else t

/-- A changed partner CDIG is logged (10, Edges). -/
def State.seeCdig (s : State) (p : List Byte) : State :=
  match s.newestMirror with
  | some one =>
    if s.fram.rxaseq != 0#32 && slice (s.mirrored one) 0x24 8 != slice p 0x24 8 then s.anEvent 0x0806 (beAt p 0x26 6) else s
  | none => s

/-- A message is mirrored and becomes the last mirrored one (R267, R268, R270). -/
def State.takeMirror (s : State) (p : List Byte) : State :=
  let t := (s.seeCdig p).mirrorMessage p
  { t with fram := { t.fram with rxaseq := BitVec.ofNat 32 (beAt p 0x0C 4), rxcseq := BitVec.ofNat 32 (beAt p 0x18 4),
                                 rxtotals := messageInts p },
           an := { t.an with ppend := (List.range 4).map (fun i => (BitVec.ofNat 32 (beAt p (0xCC + 4 * i) 4) : F32)) } }.partnerBack (payAt p 1 == 0x01#8 || payAt p 1 == 0x02#8)

/-- The common checks of CALL, ANSWER and NOTICE: ASEQ, then an own check, then CSEQ and TOTALS (R268, R281). same: the answer to an
equal ASEQ; own: none passes, else the refusal; low: what a rollback draws; h: the message is mirrored. -/
def State.anSequence (s : State) (p : List Byte) (same : State → State) (own : State → Option State) (low : State → State)
    (h : State → State) : State :=
  let a := beAt p 0x0C 4
  if a = s.fram.rxaseq.toNat then same s
  else if a < s.fram.rxaseq.toNat then s.anVio 0x0814 (evData [(a % 2 ^ 24, 0), (s.fram.rxaseq.toNat % 2 ^ 24, 24)])
  else match own s with
    | some t => t
    | none =>
      if s.notBelow p then h (s.takeMirror p)
      else
        low ({ s with an := { s.an with rollb := true } }.anCount.logOnce 0x0815
          (evData [(beAt p 0x18 4 % 2 ^ 24, 0), (s.fram.rxcseq.toNat % 2 ^ 24, 24)]))

/-- The PERIOD of a CALL against the own: 0x081A once per change (R261, R281). -/
def State.seePeriod (s : State) (p : List Byte) : State :=
  let theirs : BitVec 6 := (payAt p 2).extractLsb' 0 6
  let ours : BitVec 6 := s.anCode
  let t := { s with an := { s.an with callPeriod := theirs } }
  if theirs = ours then { t with an := { t.an with perSeen := none } }
  else
    let u := { t with an := { t.an with perSeen := some (theirs, ours) } }.anCount
    if s.an.perSeen = some (theirs, ours) then u else u.logEv 0x081A (evData [(theirs.toNat, 0), (ours.toNat, 8)])

/-- A CALL at the answerer (R259, R281). -/
def State.takeCall (s : State) (f : RxFrame) (spacing : Nat) : State :=
  let p := f.frame.payload
  if s.caller || !s.exchOk then s
  else s.anSequence p
    (fun t => if t.an.resent || t.an.lastAnswer.isEmpty then t
              else { t with an := { t.an with resent := true } }.anSend 0x08 f.frame.src t.an.lastAnswer)
    (fun t => if spacing < 200 && t.fram.rxaseq != 0#32 then some ((t.anVio 0x0817 spacing).nackTo f 0x83) else none)
    (fun t => t.anAnswer f t.fram.rxaseq t.fram.rxcseq)
    (fun t =>
      let u := { t with an := { t.an with awaiting := false } }.seePeriod p
      ((u.anAnswer f u.fram.rxaseq u.fram.rxcseq).takeRef p).diverge p)

/-- An ANSWER at the caller, or the acknowledgement of a RESTORE (R259, R277, R281). -/
def State.takeAnswerMsg (s : State) (f : RxFrame) : State :=
  let p := f.frame.payload
  let ackseq : Word32 := BitVec.ofNat 32 (beAt p 0x10 4)
  let restored := s.an.restoreWait.any (fun r => r.1 == ackseq)
  if !s.running || !s.ck.ltv then s
  else s.anSequence p id
    (fun t => if restored || (t.caller && ackseq == t.an.lastCall) then none else some (t.anVio 0x0816 ackseq.toNat))
    id
    (fun t =>
      let u := (({ t with an := { t.an with awaiting := false } }.takeRef p).diverge p)
      if restored then { u with an := { u.an with restoreWait := none }, fram := { u.fram with drefPend := some 1 } } else u)

/-- A NOTICE (R271). -/
def State.takeNotice (s : State) (f : RxFrame) : State :=
  if !s.running || !s.ck.ltv then s
  else s.anSequence f.frame.payload id (fun _ => none) id (fun t => { t with an := { t.an with pnot := true } }.irq 8)

/-- A RETRACT: PPEND less WD (R270, R281). -/
def State.takeRetract (s : State) (f : RxFrame) : State :=
  let p := f.frame.payload
  let a := beAt p 0x0C 4
  if beAt p 2 2 = 0 then (s.anVio 0x0812 (evData [(1, 0), (7, 8), (p.length, 16)])).nackTo f 0x82
  else if a ≤ s.fram.rxaseq.toNat then s.anVio 0x0818 a
  else
    { s with an := { s.an with
        pret := true,
        ppend := (List.range 4).map (fun i => F32.sub (s.an.ppend.getD i 0) (BitVec.ofNat 32 (beAt p (0x18 + 4 * i) 4))) } }

/-! ## Ceremony (R253 to R256, R276, R277) -/

/-- CER after the unlock with the seal open: STATE 1, unless RST is refused (R254, R276). -/
def State.armCeremony (s : State) : State :=
  if s.startUp then s.logEv 0x070B 0x52
  else if s.auditFull then s.refuseFull 0x52
  else if s.an.rst && !s.lg.lbad && s.lg.totalsDone.any (fun t => t != 0) then s.anEvent 0x0802 5
  else if !s.running then s
  else
    let t := s.dropAntiphon pairKinds
    { t with
      an := { t.an with
        before := if s.fram.anState = 1 then s.an.before else s.fram.anState,
        peer := 0, hasPeer := false, sentConfirm := false, gotConfirm := none, peerIntent := 0, wantRestore := s.an.rst,
        restoreWait := none, awaiting := false },
      fram := { t.fram with anState := 1 } }

/-- A pairing is in line for its audit row. -/
def State.pairQueued (s : State) : Bool := s.lg.queue.any (fun c => match c with | .paired _ _ => true | _ => false)

/-- The ceremony is complete: the pairing is audited (R254); a full log ends it (R236). -/
def State.ceremonyDone (s : State) : State :=
  if s.an.hasPeer && s.an.sentConfirm && s.an.gotConfirm == some s.an.peer && !s.pairQueued then
    if s.auditFull then { s with fram := { s.fram with anState := s.an.before }, an := { s.an with hasPeer := false } }.refuseFull 0x52
    else s.queueChange (.paired s.an.peer (s.an.peerIntent == 1))
  else s

/-- A HELLO or CONFIRM outside STATE 1 (R281: 0x0819). -/
def State.notArmed (s : State) (f : RxFrame) : State :=
  (s.anVio 0x0819 ((anSender f.frame.payload).toNat % 2 ^ 48)).nackTo f 0x84

/-- A HELLO (R254, R255). -/
def State.takeHello (s : State) (f : RxFrame) : State :=
  let p := f.frame.payload
  if s.fram.anState ≠ 1 then s.notArmed f
  else if anSender p = s.fram.serial then s.abortCeremony 7
  else if f.frame.src ≠ s.paddr || !s.anTagOk p 0 then s
  else
    let t := { s with an := { s.an with peer := anSender p, hasPeer := true, peerIntent := payAt p 2, peerSeq := f.frame.seq } }
    let u := t.anSend 0x08 t.paddr (t.anHello 0x04 t.an.peer)
    { u with an := { u.an with sentConfirm := u.fram.aseq != 0xFFFFFFFF#32 } }.ceremonyDone

/-- A CONFIRM (R254). -/
def State.takeConfirm (s : State) (f : RxFrame) : State :=
  let p := f.frame.payload
  if s.fram.anState ≠ 1 then s.notArmed f
  else if f.frame.src ≠ s.paddr || !s.anTagOk p s.fram.serial || beAt p 0x0C 8 ≠ s.fram.serial.toNat then s
  else { s with an := { s.an with gotConfirm := some (anSender p), peerIntent := payAt p 2, peerSeq := f.frame.seq } }.ceremonyDone

/-- UNPAIR after the unlock with the seal open (R256). -/
def State.askUnpair (s : State) : State := s.audited 0x52 (.dissolve 1)

/-- DRST after the unlock with the seal open: from the newest mirrored CALL or ANSWER (R272); without a pairing nothing is set. -/
def State.askDref (s : State) : State :=
  if s.startUp then s.logEv 0x070B 0x52
  else if s.auditFull then s.refuseFull 0x52
  else if s.fram.anState = 2 ∨ s.fram.anState = 3 ∨ s.fram.anState = 4 then
    let t := { s with fram := { s.fram with drefPend := some 2 } }
    match t.newestMirror with
    | some one =>
      let p := t.mirrored one
      if t.fram.rxaseq != 0#32 && (payAt p 1 == 0x01#8 || payAt p 1 == 0x02#8) then t.takeRef p else t
    | none => t
  else s

/-- The survivor serves a restore: the RESTORE with its newest slot and the audit entry, or NACK 0x86 (R277); none when ASEQ is exhausted
(R265). -/
def State.serveRestore (s : State) : State :=
  if s.fram.aseq = 0xFFFFFFFF#32 then s
  else match s.newestMirror with
  | none =>
    let (n, t) := s.nextSeq
    t.sendFrame { dest := t.paddr, src := t.ownAddr, type := 0x0A, seq := n, flags := 0, payload := [0x08] ++ bytesBE 2 t.an.peerSeq.toNat ++ [0x86] }
  | some one =>
    let m := s.mirrored one
    let body := patch m 1 [0x06] ++ bytesBE 2 (leAt (s.mirror one) 0xEC 2)
    let cseq : Word32 := BitVec.ofNat 32 (beAt m 0x18 4)
    let t := s.anSend 0x08 s.paddr (body ++ s.anTag body s.fram.pserial)
    let u := { t with an := { t.an with restoreWait := some (BitVec.ofNat 32 (beAt m 0x0C 4), cseq) } }
    if u.auditFull then u.refuseFull 0x52 else u.queueChange (.served cseq)

/-- A RESTORE at the replacement (R276, R278, R281: 0x081B). -/
def State.takeRestore (s : State) (f : RxFrame) : State :=
  let p := f.frame.payload
  let cseq : Word32 := BitVec.ofNat 32 (beAt p 0x18 4)
  let refuse (t : State) : State := (t.anVio 0x081B cseq.toNat).nackTo f 0x85
  if !s.anTagOk p s.fram.serial then s
  else if !s.an.wantRestore || s.fram.anState = 0 || s.fram.anState = 1 then refuse s
  else if !s.lg.lbad && s.lg.totalsDone.any (fun t => t != 0) then refuse { s with an := { s.an with wantRestore := false } }
  else if !s.aon.sealOpen then s.logEv 0x0F01 0x52
  else if s.auditFull then s.refuseFull 0x52
  else { s with an := { s.an with wantRestore := false } }.queueChange
    (.restored cseq (anSender p) (messageTotals p) (BitVec.ofNat 32 (beAt p 0x0C 4)))

/-- The acknowledgement of a RESTORE goes out once both commits stand (R278); none while PERIOD is 0 (R261). -/
def State.sendRestoreAck (s : State) : State :=
  match s.an.restoreAck with
  | some (a, c) =>
    if s.lg.cur.isNone && s.lg.waiting.isEmpty && s.running then
      let t := { s with an := { s.an with restoreAck := none } }
      if t.anPeriod = 0 then t else t.anExchange s.paddr 0x02 a c s.ck.lsec
    else s
  | none => s

/-! ## Exchanges (R258 to R260, R269, R271, R274) -/

/-- A RETRACT still unsent at an exchange instant is dropped, be it queued or not; the retractions it counts are logged (R269). -/
def State.dropRetract (s : State) : State :=
  let queued := (s.dl.queue.filter (fun q => s.ownAntiphon q && payAt q.frame.payload 1 == 0x07#8)).map (fun q => beAt q.frame.payload 2 2)
  let n := queued.foldl (· + ·) s.an.wdCount
  if n = 0 then s
  else ({ s with an := { s.an with wd := [0, 0, 0, 0], wdCount := 0 } }.dropAntiphon [0x07]).anEvent 0x080C n

/-- An exchange instant: the caller's CALL; the answerer begins to wait (R258, R260). -/
def State.exchange (s : State) : State :=
  let t := s.dropRetract
  let u := { t with an := { t.an with awaiting := true } }
  if u.caller then u.anExchange u.paddr 0x01 u.fram.rxaseq u.fram.rxcseq u.ck.lsec else u

/-- A missed exchange: a CALL that VRES has not let go is skipped (R258); the LOSSNth declares the partner lost (R260, R274). -/
def State.miss (s : State) : State :=
  let t := { s with an := { s.an with awaiting := false, missCnt := satInc s.an.missCnt, miss := true, misses := s.an.misses + 1 } }.dropAntiphon [0x01]
  let u := t.pinned 8 0xF89E t.an.missCnt
  if u.fram.anState = 3 ∧ u.lossn ≤ u.an.misses then
    ({ u with fram := { u.fram with anState := 4, stale := true } }.markMirror 0).anEvent 0x0803 u.fram.rxaseq.toNat
  else u

/-- A RETRACT of what was withdrawn since the last one (R269). -/
def State.sendRetract (s : State) : State :=
  let u := s.anSend 0x09 s.paddr ([0x01, 0x07] ++ bytesBE 2 (min 65535 s.an.wdCount) ++ bytesBE 8 s.fram.serial.toNat ++ bytesBE 4 0 ++
    bytesBE 6 s.orr.tcnt.toNat ++ [0, 0] ++ floatsBE s.an.wd ++ List.replicate 8 0)
  { u with an := { u.an with wd := [0, 0, 0, 0], wdCount := 0, retractAt := some u.pw.ticks } }

/-- A NOTICE (R271, R411). -/
def State.sendNotice (s : State) : State :=
  let u := s.anSend 0x08 s.paddr (s.anMessage 0x05 s.fram.rxaseq s.fram.rxcseq s.ck.lsec)
  { u with an := { u.an with noticeDue := false, noticeAt := some u.pw.ticks } }

/-- A spacing in ms since a stamp has passed. -/
def State.spaced (s : State) (at_ : Option Nat) (ms : Nat) : Bool := match at_ with | some t => !s.within t ms | none => true

/-! ## NACKs (R371, R379) -/

/-- A received NACK (R371, R379, R383, R394, R399): by the request it names; codes 0x80 and above are Antiphon's (R277, R281). -/
def State.takeNack (s : State) (f : RxFrame) : State :=
  let p := f.frame.payload
  let type := payAt p 0
  let code := payAt p 3
  if p.length ≠ 4 then s.badField f
  else if type = 0x08 ∨ type = 0x09 then
    if code = 0x86 && s.an.wantRestore then { s with an := { s.an with wantRestore := false } }.anEvent 0x0802 6
    else if code = 0x85 then { s with an := { s.an with restoreWait := none } }
    else s
  else match s.openReq type (BitVec.ofNat 16 (beAt p 1 2)) f.frame.src with
    | some r =>
      let t := s.closeReq r
      if r.host then t.dnPush f.frame
      else if type = 0x0B then
        let u := { t with dn := { t.dn with timeT1 := none } }
        if code = 0x0A then u.leaveSystem else u
      else if type = 0x05 then
        match t.joiningOf (BitVec.ofNat 64 (beAt r.frame.payload 0 8)) with
        | some g => t.assigned g (.inr code)
        | none => t
      else t.requestFailed r
    | none => if type = 0x03 then s.dnPush f.frame else s.strayReply f

/-! ## Meanings -/

/-- DMT_FRAME_START (R346): the line has been clear for the wait. -/
def execDmtFrameStart (p : Port) (s : State) : Host.Outcome State Fault Refusal :=
  .next (s.when (s.mayDmt p) (fun t => (t.lineClear p).frameGo p))

/-- COMMIT_COMPLETE (R224); the acknowledgement of a RESTORE follows its second commit (R278). -/
def execCommitComplete (s : State) : Host.Outcome State Fault Refusal :=
  .next (s.when s.runOrDrain (fun t => t.commitComplete.sendRestoreAck))

/-- HELLO_SEND (R254). -/
def execHelloSend (s : State) : Host.Outcome State Fault Refusal :=
  .next (s.when (s.running && s.fram.anState == 1) (fun t => t.anSend 0x08 t.paddr (t.anHello 0x03 0)))

/-- HELLO (R254). -/
def execHello (f : RxFrame) (s : State) : Host.Outcome State Fault Refusal := .next (s.anFrame f 0x03 (fun _ t => t.takeHello f))

/-- CONFIRM (R254). -/
def execConfirm (f : RxFrame) (s : State) : Host.Outcome State Fault Refusal := .next (s.anFrame f 0x04 (fun _ t => t.takeConfirm f))

/-- CEREMONY_TIMEOUT (R255). -/
def execCeremonyTimeout (s : State) : Host.Outcome State Fault Refusal := .next (s.when s.coreOn (fun t => t.abortCeremony 1))

/-- EXCHANGE_INSTANT (R258). -/
def execExchangeInstant (s : State) : Host.Outcome State Fault Refusal := .next (s.when s.exchOk State.exchange)

/-- CALL (R259). -/
def execCall (f : RxFrame) (spacing : Nat) (s : State) : Host.Outcome State Fault Refusal :=
  .next (s.anFrame f 0x01 (fun _ t => t.fromPartner f (fun u => u.takeCall f spacing)))

/-- ANSWER (R259). -/
def execAnswer (f : RxFrame) (s : State) : Host.Outcome State Fault Refusal :=
  .next (s.anFrame f 0x02 (fun _ t => t.fromPartner f (fun u => u.takeAnswerMsg f)))

/-- EXCHANGE_MISS (R260). -/
def execExchangeMiss (s : State) : Host.Outcome State Fault Refusal := .next (s.when (s.exchOk && s.an.awaiting) State.miss)

/-- RETRACT_SEND (R269): STATE 3, at most one in 100 ms. -/
def execRetractSend (s : State) : Host.Outcome State Fault Refusal :=
  .next (s.when (s.exchOk && s.fram.anState == 3 && s.an.wdCount != 0 && s.spaced s.an.retractAt 100) State.sendRetract)

/-- RETRACT (R270). -/
def execRetract (f : RxFrame) (s : State) : Host.Outcome State Fault Refusal :=
  .next (s.anFrame f 0x07 (fun _ t => t.fromPartner f (fun u => u.takeRetract f)))

/-- NOTICE_SEND (R411): at most one in 1.0 s; dropped when STATE has left 3. -/
def execNoticeSend (s : State) : Host.Outcome State Fault Refusal :=
  .next (s.when (s.an.noticeDue && s.spaced s.an.noticeAt 1000) (fun t =>
    if t.exchOk && t.fram.anState == 3 then t.sendNotice else { t with an := { t.an with noticeDue := false } }))

/-- NOTICE (R271). -/
def execNotice (f : RxFrame) (s : State) : Host.Outcome State Fault Refusal :=
  .next (s.anFrame f 0x05 (fun _ t => t.fromPartner f (fun u => u.takeNotice f)))

/-- RESTORE (R278). -/
def execRestore (f : RxFrame) (s : State) : Host.Outcome State Fault Refusal := .next (s.anFrame f 0x06 (fun _ t => t.takeRestore f))

/-- RESTORE_ACK_TIMEOUT (R277). -/
def execRestoreAckTimeout (s : State) : Host.Outcome State Fault Refusal :=
  .next (s.when s.coreOn (fun t => match t.an.restoreWait with
    | some (_, c) => { t with an := { t.an with restoreWait := none } }.anVio 0x081B c.toNat
    | none => t))

/-- DESCANT_NACK (R371). -/
def execDescantNack (f : RxFrame) (s : State) : Host.Outcome State Fault Refusal :=
  .next (s.when (f.frame.type == 0x0A#8) (fun t => t.takeFrame f (fun u => u.takeNack f)))

end Sys2Proof.Machine
end

