-- ==== Sys2Proof/Machine/Tone.lean ====
section
/-! DEFINITION. Sys2Proof/Machine/Tone.lean: the loop tone modem and Cantus frames (12_loop_tone_modem.md). READ and WRITE, which reach
the registers, stand in Remote.lean. -/

namespace Sys2Proof.Machine

/-! ## Placement (R311 to R313) -/

/-- The modem acts as a device on loop A: role T, and TM while it serves loop A (R311). -/
def State.tnDevice (s : State) : Bool := s.pins.role == .T || (s.pins.role == .TM && !s.tn.loopB)

/-- The loop it serves runs (R13, R311). -/
def State.tnLoop (s : State) : Bool := s.tnDevice || s.loopBOn

/-- The modem runs (R313): EN, or the reply to the WRITE that cleared it is still owed. -/
def State.tnOn (s : State) : Bool := s.running && (s.tnEn || s.tn.stopAfter) && !s.pw.shedTone && s.tnLoop

/-- Fast mode; pass-through works in compatible mode (R331). -/
def State.tnFast (s : State) : Bool := bitAt (s.nvReg 0x40) 1 && !s.tn.pt

/-- TN_CTL.LSEL. -/
def State.lsel (s : State) : Bool := bitAt (s.nvReg 0x40) 3

/-- TN_CTL.HOSTCMD. -/
def State.hostCmd (s : State) : Bool := bitAt (s.nvReg 0x40) 4

/-- POLLADR. -/
def State.pollAdr (s : State) : Nat := fld (s.lgw 0xF900) 0 4

/-- PRE, held to 2 to 20. -/
def State.preamble (s : State) : Nat := clampNat 2 20 (fld (s.lgw 0xF900) 4 5)

/-- RETRY. -/
def State.tnRetry (s : State) : Nat := fld (s.lgw 0xF901) 4 3

/-- PLINT. -/
def State.plint (s : State) : Nat := fld (s.lgw 0xF903) 0 8

/-- TVIOLIM. -/
def State.tviolim (s : State) : Nat := fld (s.lgw 0xF904) 0 8

/-- The addresses of PLMAP. -/
def State.plmap (s : State) : List Nat := (List.range 16).filter (fun n => n != 0 && bitAt (s.lgw 0xF902) n)

/-! ## Events and violations (R332, R333) -/

/-- A tone event with its interrupt (R333). -/
def State.tnEvent (s : State) (code : Word) (data : Nat) : State := (s.logEv code data).irq 10

/-- A violation counts in VIOCNT (R332). -/
def State.tnCount (s : State) : State :=
  let t := { s with tn := { s.tn with vioCnt := satInc s.tn.vioCnt } }
  t.pinned 10 0xF90C t.tn.vioCnt

/-- A violation: counted, escalating with TVIOLIM in 60 s, logged once per second with its interrupt (R332). -/
def State.tnVio (s : State) (code : Word) (data : Nat) : State :=
  let st := stampIn s.pw.ticks s.tn.vioAt
  let t := { s with tn := { s.tn with vioAt := st.take 255, vio := s.tn.vio || (s.tviolim != 0 && decide (s.tviolim ≤ st.length)) } }.tnCount
  if t.hb.secCodes.contains code then t else (t.logOnce code data).irq 10

/-! ## The wave (R314 to R316, R319, R331) -/

/-- TONE cycles of a bit, 64, or of a symbol, 24 (R314, R316). -/
def symCycles (fast : Bool) : Nat := if fast then 24 else 64

/-- A byte as an 11-bit character: start bit 0, eight data bits least significant first, odd parity, stop bit 1 (R315). -/
def charBits (b : Byte) : List Nat :=
  let d := (List.range 8).map (fun i => b2n (b.getLsbD i))
  [0] ++ d ++ [(d.sum + 1) % 2, 1]

/-- A byte as four bit pairs, the most significant first (R316). -/
def bytePairs (b : Byte) : List Nat := [b.toNat / 64, b.toNat / 16 % 4, b.toNat / 4 % 4, b.toNat % 4]

/-- Bytes as they leave: characters without idle bits, or bit pairs without framing (R315, R316). -/
def waveSyms (fast : Bool) (bs : List Byte) : List Nat := (bs.map (if fast then bytePairs else charBits)).flatten

/-- The level of a bit pair: 0b00 +3, 0b01 +1, 0b11 −1, 0b10 −3 (R316). -/
def pairLevel (p : Nat) : Int := [3, 1, -3, -1].getD p 0

/-- The first half of the Gaussian pulse of 72 TONE cycles, BT 0.5, in 1/65,536; the second half mirrors it (R316; log entry 85). -/
def gaussHalf : List Int :=
  [7, 13, 24, 42, 71, 119, 194, 311, 485, 741, 1107, 1618, 2313, 3236, 4432, 5944, 7809, 10053,
   12687, 15704, 19074, 22749, 26657, 30711, 34814, 38864, 42762, 46420, 49761, 52730, 55289, 57416, 59106, 60362, 61192, 61605]

/-- The Gaussian pulse at its TONE cycle i (R316). -/
def gaussAt (i : Nat) : Int := gaussHalf.getD (if i < 36 then i else 71 - i) 0

/-- The offset of a symbol shaped by its pulse at cycle i; no symbol, no offset (R316: 131,072 per level). -/
def shaped (syms : List Nat) (k : Option Nat) (i : Nat) : Int :=
  match k.bind (fun j => syms[j]?) with
  | some p => pairLevel p * 131072 * gaussAt i
  | none => 0

/-- The frequency word at a TONE cycle: mark 0x040000 or space 0x075555 (R314), or the centre 0x1AAAAB and the three symbols whose pulses
reach the cycle (R316). -/
def Wave.fwAt (w : Wave) (c : Nat) : BitVec 24 :=
  if w.fast then
    let n := c / 24
    let i := c % 24
    let prev := if n = 0 then none else some (n - 1)
    BitVec.ofInt 24 (0x1AAAAB + divRne (shaped w.syms prev (i + 48) + shaped w.syms (some n) (i + 24) + shaped w.syms (some (n + 1)) i) 65536)
  else if w.syms.getD (c / 64) 1 = 1 then 0x040000 else 0x075555

/-- The TONE cycles the transmission takes. -/
def Wave.cycles (w : Wave) : Nat := w.syms.length * symCycles w.fast

/-- The accumulator after n more TONE cycles, from cycle c on: each adds its frequency word, and the phase is kept (R191, R314). -/
def Wave.phaseAfter (w : Wave) : Nat → Nat → BitVec 24 → BitVec 24
  | 0, _, p => p
  | n + 1, c, p => Wave.phaseAfter w n (c + 1) (p + w.fwAt c)

/-- A transmission ends or is cut: the NCO runs on to the next zero crossing (R191, R313, R319). -/
def State.waveStop (s : State) : State :=
  match s.tn.tx with
  | some w => { s with tn := { s.tn with tx := none },
                       ad := { s.ad with fw := 0, ncoFw := w.fwAt (w.cyc - 1), ncoRamp := true, ncoZero := false } }
  | none => s

/-- A transmission begins, from the phase the NCO holds (R319). -/
def State.waveStart (s : State) (w : Wave) : State :=
  { s with tn := { s.tn with tx := some w }, ad := s.ad.tune (w.fwAt 0) }

/-- n TONE cycles: a transmission goes on or ends in them, or the NCO runs by itself (R189, R191, R314, R316). -/
def State.toneCycles (s : State) (n : Nat) : State :=
  match s.tn.tx with
  | none => { s with ad := s.ad.ncoRun n }
  | some w =>
    let k := min n (w.cycles - w.cyc)
    let v := { w with cyc := w.cyc + k }
    let t := { s with tn := { s.tn with tx := some v },
                      ad := { s.ad with phase := w.phaseAfter k w.cyc s.ad.phase, fw := w.fwAt (v.cyc - 1) } }
    if v.cyc = w.cycles then { t.waveStop with ad := t.waveStop.ad.ncoRun (n - k) } else t

/-- The TONE cycles of a governor tick: 76.8 of them, the fifths left over carried on (R83; log entry 83). -/
def State.toneTick (s : State) : State :=
  if s.runOrDrain then
    { s with ad := { s.ad with toneFrac := (s.ad.toneFrac + 384) % 5 } }.toneCycles ((s.ad.toneFrac + 384) / 5)
  else s

/-- The modem is enabled: it takes the NCO, which runs on to a zero crossing and holds there (R190, R319; 07, Edges). -/
def State.tnTakeNco (s : State) : State := { s with ad := s.ad.tune 0 }

/-! ## The equaliser (R317, R318) -/

/-- The nearest of −3, −1, +1, +3; a value midway between two goes to the upper one (R317; log entry 85). -/
def nearestLevel (y : Rat) : Int := if y < -2 then -3 else if y < 0 then -1 else if y < 2 then 1 else 3

/-- A tap held within ±1.999 (R317). -/
def tapHeld (t : Rat) : Rat := if 1999 / 1000 < t then 1999 / 1000 else if t < -1999 / 1000 then -1999 / 1000 else t

/-- Σ of the products of two lists, element by element. -/
def dot (a b : List Rat) : Rat := ((a.zip b).map (fun p => p.1 * p.2)).sum

/-- The equaliser in a frame: taps, the last 8 inputs and the last 4 symbols, newest first, Σ e² and the symbols taken. -/
structure Equaliser where
  /-- the taps. -/
  taps : Taps
  /-- x(n), x(n − 1), … -/
  x : List Rat := List.replicate 8 0
  /-- a(n − 1), a(n − 2), … -/
  a : List Rat := List.replicate 4 0
  /-- the sum of e². -/
  sum : Rat := 0
  /-- symbols taken. -/
  count : Nat := 0
deriving DecidableEq, Repr

/-- One symbol: y(n), the decision or the known symbol, the error, the taps' update with mu = 2^−MU (R317). -/
def Equaliser.step (mu : Nat) (q : Equaliser) (x : Rat) (known : Option Int) : Equaliser :=
  let xs := (x :: q.x).take 8
  let y := dot q.taps.c xs - dot q.taps.b q.a
  let a : Rat := (known.getD (nearestLevel y) : Int)
  let e := a - y
  let m : Rat := 1 / (2 ^ mu : Nat)
  { taps := { c := (q.taps.c.zip xs).map (fun p => tapHeld (p.1 + m * e * p.2)),
              b := (q.taps.b.zip q.a).map (fun p => tapHeld (p.1 - m * e * p.2)) },
    x := xs, a := (a :: q.a).take 4, sum := q.sum + e * e, count := q.count + 1 }

/-- The symbols the receiver knows: preamble and sync word (R317, R322). -/
def knownLevels : List Int := (waveSyms true [0x22, 0x22, 0x22, 0x22, 0x2D, 0xD4]).map pairLevel

/-- A frame through the equaliser: trained on the preamble and the sync word, decision-directed from the header on (R317). -/
def equalise (mu : Nat) (taps : Taps) (soft : List Int) : Equaliser :=
  soft.zipIdx.foldl (fun q p => q.step mu ((p.1 : Rat) / 4096) knownLevels[p.2]?) { taps := taps }

/-- EQMSE: the mean of e² in 2^−12, cut off below that unit and saturating (R318; log entry 85). -/
def Equaliser.mse (q : Equaliser) : Word := BitVec.ofNat 16 (min 0xFFFF ((q.sum * 4096).floor.toNat / max 1 q.count))

/-- MU as it acts: 4 to 11 (12, Edges). -/
def State.tnMu (s : State) : Nat := clampNat 4 11 (fld (s.lgw 0xF901) 0 4)

/-- The taps a fast frame starts from: those of the last good frame on that loop with WARM, else c[3] = 1 (R317). -/
def State.tnTaps (s : State) : Taps :=
  if !bitAt (s.nvReg 0x40) 5 then {} else if s.tnDevice then s.tn.tapsA else s.tn.tapsB

/-- A good fast frame leaves its taps and EQMSE (R317, R318). -/
def State.tnEqualise (s : State) (soft : List Int) : State :=
  if s.tnFast then
    let q := equalise s.tnMu s.tnTaps soft
    { s with tn := { s.tn with eqmse := q.mse, tapsA := if s.tnDevice then q.taps else s.tn.tapsA,
                               tapsB := if s.tnDevice then s.tn.tapsB else q.taps } }
  else s

/-! ## Frames (R322 to R325) -/

/-- The bytes the CRC covers. -/
def cantusBody (f : CFrame) : List Byte :=
  [BitVec.ofNat 8 f.data.length, f.addr, f.cmd] ++ bytesBE 2 f.seq.toNat ++ f.data

/-- A frame as put on the loop: preamble, sync, body, CRC (R322). -/
def State.wireBytes (s : State) (f : CFrame) : List Byte :=
  (if s.tnFast then List.replicate 4 0x22#8 else List.replicate s.preamble 0xFF#8) ++ [0x2D, 0xD4] ++ cantusBody f ++
    bytesBE 2 (crc16 (cantusBody f)).toNat

/-- A frame the modem sends: its bytes, and the wave that carries them (R314, R316, R322). -/
def State.tnSend (s : State) (f : CFrame) : State :=
  { s with tn := { s.tn with sent := s.wireBytes f } }.waveStart { fast := s.tnFast, syms := waveSyms s.tnFast (s.wireBytes f), cyc := 0 }

/-- A received frame as FIFO words, EOF on the last: LEN, ADDR, CMD, SEQ, DATA (12, TN_FIFO). -/
def cantusWords (f : CFrame) : List Word := fifoWords (cantusBody f)

/-- The receive FIFO of 528 bytes can take a frame. -/
def State.tnFits (s : State) (f : CFrame) : Bool := decide (s.tn.rxf.length + (cantusBody f).length ≤ 528)

/-- A frame enters the receive FIFO, or is dropped whole (12, Edges; R333). -/
def State.tnPush (s : State) (f : CFrame) : State :=
  if s.tnFits f then { s with tn := { s.tn with rxf := s.tn.rxf ++ cantusWords f } }.irq 10
  else { s with tn := { s.tn with ovf := true } }.tnEvent 0x0A03 f.data.length

/-- LEN of the frame at the head of the transmit FIFO. -/
def State.tnLen (s : State) : Nat := (payAt s.tn.txf 0).toNat

/-- LEN + 3 bytes stand in the transmit FIFO (R327, R328). -/
def State.tnReady (s : State) : Bool := !s.tn.txf.isEmpty && decide (s.tnLen + 3 ≤ s.tn.txf.length)

/-- That frame with a SEQ. -/
def State.tnFrame (s : State) (seq : Word) : CFrame :=
  { addr := payAt s.tn.txf 1, cmd := payAt s.tn.txf 2, seq := seq, data := slice s.tn.txf 3 s.tnLen, rssi := 0, soft := [] }

/-- It leaves the FIFO; further bytes begin the next one (12, Edges). -/
def State.tnTake (s : State) : State := { s with tn := { s.tn with txf := s.tn.txf.drop (s.tnLen + 3) } }

/-- TXBUSY: something is to be sent (12, Registers). -/
def State.tnBusy (s : State) : Bool :=
  s.tn.tx.isSome || s.tnOn && (s.tn.reply.isSome || (s.tn.pt && !s.tn.txf.isEmpty) || (!s.tnDevice && !s.tn.pt && s.tnReady && s.tn.req.isNone) ||
    (s.tnDevice && !s.tn.pt && s.tn.hostSeq.isSome && s.tnReady))

/-! ## Reception (R321, R324 to R326) -/

/-- What every valid frame brings: the latched level, in fast mode the equaliser's taps and EQMSE, RXCNT (R317, R318, R321). -/
def State.tnHeard (s : State) (f : CFrame) : State :=
  let t := { s with tn := { s.tn with rssi := f.rssi, rxCnt := satInc s.tn.rxCnt } }.tnEqualise f.soft
  t.pinned 10 0xF90A t.tn.rxCnt

/-- A request of a command: a master on loop B counts it as a violation, a device takes its own (R325, R332: 0x0A17). -/
def State.tnRequest (s : State) (f : CFrame) (cmd : Bool) (h : State → State) : State :=
  s.when (s.tnOn && !s.tn.pt && cmd && !f.addr.getLsbD 7) (fun t =>
    let u := t.tnHeard f
    if !u.tnDevice then u.tnVio 0x0A17 f.addr.toNat
    else if (f.addr.extractLsb' 0 4).toNat = u.pollAdr then h u else u)

/-- The reply to a request (R324, R326). -/
def cantusReply (f : CFrame) (cmd : Byte) (data : List Byte) : CFrame :=
  { addr := f.addr ||| 0x80#8, cmd := cmd, seq := f.seq, data := data, rssi := 0, soft := [] }

/-- The request's CRC, by which a repeat is known (R326). -/
def cantusCrc (f : CFrame) : Word := crc16 (cantusBody f)

/-- An executed request's reply waits for the turnaround gap and is kept for 2 s (R326). -/
def State.tnReply (s : State) (f : CFrame) (data : List Byte) : State :=
  let r := cantusReply f f.cmd data
  { s with tn := { s.tn with reply := some r, stored := some (f.seq, cantusCrc f, r, s.pw.ticks) } }

/-- A NACK waits to be sent (R325). -/
def State.tnNack (s : State) (f : CFrame) (code : Byte) : State :=
  { s with tn := { s.tn with reply := some (cantusReply f 0x7F [f.cmd, code]) } }

/-- LEN or an address wrong for the command (R332: 0x0A14). -/
def State.tnBad (s : State) (f : CFrame) : State :=
  (s.tnVio 0x0A14 (evData [(f.cmd.toNat, 0), (f.data.length, 8)])).tnNack f 0x02

/-- A repeat within 2 s gets the stored reply (R326; R332: 0x0A19), else the request is executed. -/
def State.tnOnce (s : State) (f : CFrame) (h : State → State) : State :=
  match s.tn.stored with
  | some (seq, crc, r, at_) =>
    if seq = f.seq && crc = cantusCrc f && s.within at_ 2000 then { s.tnCount with tn := { s.tnCount.tn with reply := some r } } else h s
  | none => h s

/-- IDENTIFY's data (R325): ID, SERIAL, role, poll and Descant addresses. -/
def State.identity (s : State) : List Byte :=
  [0x44, 0x22] ++ bytesBE 8 s.fram.serial.toNat ++ [BitVec.ofNat 8 (Role.code s.pins.role), BitVec.ofNat 8 s.pollAdr] ++
    bytesBE 2 (if s.inSystem then s.ownAddr.toNat else 0xFFFF)

/-- A command of 0x80 to 0xFF (R327, R332). -/
def State.tnHostCommand (s : State) (f : CFrame) : State :=
  if !s.hostCmd then (s.tnVio 0x0A13 f.cmd.toNat).tnNack f 0x01
  else if s.tnFits f then { s.tnPush f with tn := { (s.tnPush f).tn with hostSeq := some (f.seq, cantusCrc f) } }
  else (s.tnVio 0x0A15 f.cmd.toNat).tnNack f 0x04

/-- The reply that was waiting goes out; a modem disabled by its WRITE stops (R326; 12, Edges). -/
def State.tnReplySend (s : State) : State :=
  match s.tn.reply with
  | some r => let t := s.tnSend r
              { t with tn := { t.tn with reply := none, stopAfter := false } }
  | none => s

/-- The host's reply goes out with the request's SEQ (R327). -/
def State.tnHostReply (s : State) : State :=
  match s.tn.hostSeq with
  | some (seq, crc) =>
    let r := s.tnFrame seq
    let t := (s.tnSend r).tnTake
    { t with tn := { t.tn with hostSeq := none, stored := some (seq, crc, r, t.pw.ticks) } }
  | none => s

/-! ## The master (R328 to R330) -/

/-- A request goes out: a new SEQ (R324, R328). -/
def State.tnIssue (s : State) (f : CFrame) (watch : Bool) : State :=
  let g := { f with seq := s.tn.txseq + 1#16 }
  let t := s.tnSend g
  { t with tn := { t.tn with txseq := g.seq, req := some g, attempts := 1, reqWatch := watch, cd := false, jamEpisode := false } }

/-- IDENTIFY for the next address of the round, unless a host request waits (R330). -/
def State.watchNext (s : State) : State :=
  match s.tn.watch with
  | [] => s
  | a :: rest =>
    if s.tnReady || s.tn.req.isSome then s
    else { s with tn := { s.tn with watch := rest } }.tnIssue
      { addr := BitVec.ofNat 8 a, cmd := 0x00, seq := 0, data := [], rssi := 0, soft := [] } true

/-- PRESENT's bit for an address. -/
def presentBit (f : CFrame) : Nat := (f.addr.extractLsb' 0 4).toNat

/-- A watch poll's answer (R330). -/
def State.watchSeen (s : State) (f : CFrame) : State :=
  if bitAt s.tn.present (presentBit f) then s
  else { s with tn := { s.tn with present := s.tn.present ||| BitVec.ofNat 16 (2 ^ presentBit f) } }.tnEvent 0x0A04 (presentBit f)

/-- A reply at the master (R329, R332: 0x0A16). -/
def State.tnMasterReply (s : State) (f : CFrame) : State :=
  match s.tn.req with
  | some r =>
    if r.seq = f.seq && f.addr.extractLsb' 0 4 == r.addr.extractLsb' 0 4 then
      let t := { s with tn := { s.tn with req := none } }.tnPush f
      (if s.tn.reqWatch then t.watchSeen f else t).watchNext
    else s.tnVio 0x0A16 (evData [(f.seq.toNat, 0), (f.addr.toNat, 16)])
  | none => s.tnVio 0x0A16 (evData [(f.seq.toNat, 0), (f.addr.toNat, 16)])

/-- The reply timeout: again, or after RETRY resends TOUT (R329); a watched address has departed (R330). -/
def State.tnTimeout (s : State) : State :=
  match s.tn.req with
  | none => s
  | some r =>
    if s.tn.attempts ≤ s.tnRetry then
      let t := s.tnSend r
      { t with tn := { t.tn with attempts := s.tn.attempts + 1 } }
    else
      let t := { s with tn := { s.tn with req := none, tout := true, toCnt := satInc s.tn.toCnt } }
      let u := (t.pinned 10 0xF90E t.tn.toCnt).tnEvent 0x0A05 (evData [(presentBit r, 0), (s.tn.attempts, 8)])
      (if s.tn.reqWatch then
        { u with tn := { u.tn with present := u.tn.present &&& ~~~(BitVec.ofNat 16 (2 ^ presentBit r)) } } else u).watchNext

/-! ## Control (R312, R313; 12, Edges) -/

/-- The modem is idle: no frame in transmission, no reply owed or awaited (R312). -/
def State.tnIdle (s : State) : Bool := s.tn.tx.isNone && s.tn.reply.isNone && s.tn.req.isNone && s.tn.hostSeq.isNone

/-- LSEL takes effect (R312). -/
def State.switchLoop (s : State) : State :=
  { s with tn := { s.tn with loopB := s.lsel, txf := [], watch := [] } }.tnEvent 0x0A06 (evData [(b2n s.lsel, 0), (s.tn.txf.length, 8)])

/-- What is in progress ends, a transmission through the zero-crossing stop: disable, shed, DRAIN (R313). -/
def State.tnCut (s : State) : State :=
  { s with tn := { s.tn with reply := none, req := none, hostSeq := none, watch := [], cd := false, stopAfter := false } }.waveStop

/-- EN cleared: a WRITE's own reply is still sent (12, Edges). -/
def State.tnDisable (s : State) (w : Writer) : State :=
  if w = .cantus then { s with tn := { s.tn with stopAfter := true, req := none, hostSeq := none, watch := [] } } else s.tnCut

/-- TONE runs: the modem is enabled and not shed, in RUN and DRAIN (R83). -/
def State.toneRun (s : State) : Bool := (s.pw.st == .run || s.pw.st == .drain) && s.tnEn && !s.pw.shedTone

/-- The w1c bits of a word written to TN_STAT clear. -/
def State.tnStatClear (s : State) (v : Word) : State :=
  { s with tn := { s.tn with tout := s.tn.tout && !bitAt v 4, vio := s.tn.vio && !bitAt v 5, ovf := s.tn.ovf && !bitAt v 6,
                             jam := s.tn.jam && !bitAt v 7 } }

/-- TONE runs again: the write of TN_STAT it held takes effect (R98). -/
def State.tnStatHeld (s : State) : State :=
  match s.tn.heldStat with
  | some v => if s.toneRun then { s with tn := { s.tn with heldStat := none } }.tnStatClear v else s
  | none => s

/-- Step 6 of R43 in or out of force (R313). -/
def State.toneShed (s : State) (on : Bool) : State :=
  if s.pw.shedTone = on then s
  else
    let t := { s with pw := { s.pw with shedTone := on } }.tnEvent 0x0A08 (b2n on)
    if on then t.tnCut else t.tnStatHeld

/-- A committed parameter word: clamped PRE and MU are logged (12, Edges). -/
def State.tnWord (s : State) (a : Nat) (w : Word) : State :=
  let pre := fld w 4 5
  let mu := fld w 0 4
  if a = 0xF900 ∧ (pre < 2 ∨ 20 < pre) then s.tnEvent 0x0A07 (evData [(a, 0), (pre, 16)])
  else if a = 0xF901 ∧ (mu < 4 ∨ 11 < mu) then s.tnEvent 0x0A07 (evData [(a, 0), (mu, 16)])
  else s

/-! ## Meanings -/

/-- LOOP_SWITCH (R312). -/
def execLoopSwitch (s : State) : Host.Outcome State Fault Refusal :=
  .next (s.when (s.running && s.pins.role == .TM && s.lsel != s.tn.loopB && s.tnIdle) State.switchLoop)

/-- IDENTIFY (R325). -/
def execIdentify (f : CFrame) (s : State) : Host.Outcome State Fault Refusal :=
  .next (s.tnRequest f (f.cmd == 0x00#8) (fun t => t.tnOnce f (fun u =>
    if f.data.isEmpty then u.tnReply f u.identity else u.tnBad f)))

/-- CANTUS_HOST_COMMAND (R327). -/
def execCantusHostCommand (f : CFrame) (s : State) : Host.Outcome State Fault Refusal :=
  .next (s.tnRequest f (decide (0x80 ≤ f.cmd.toNat)) (fun t => t.tnOnce f (fun u => u.tnHostCommand f)))

/-- CANTUS_UNKNOWN_COMMAND (R332: 0x0A13). -/
def execCantusUnknownCommand (f : CFrame) (s : State) : Host.Outcome State Fault Refusal :=
  .next (s.tnRequest f (decide (3 ≤ f.cmd.toNat) && decide (f.cmd.toNat < 0x80)) (fun t => (t.tnVio 0x0A13 f.cmd.toNat).tnNack f 0x01))

/-- CANTUS_REPLY_SEND (R326). -/
def execCantusReplySend (s : State) : Host.Outcome State Fault Refusal := .next (s.when (s.tnOn && s.tnDevice) State.tnReplySend)

/-- HOST_REPLY_SEND (R327). -/
def execHostReplySend (s : State) : Host.Outcome State Fault Refusal :=
  .next (s.when (s.tnOn && s.tnDevice && !s.tn.pt && s.tnReady) State.tnHostReply)

/-- MASTER_REQUEST_SEND (R328). -/
def execMasterRequestSend (s : State) : Host.Outcome State Fault Refusal :=
  .next (s.when (s.tnOn && !s.tnDevice && !s.tn.pt && s.tnReady && s.tn.req.isNone) (fun t => (t.tnTake).tnIssue (t.tnFrame 0) false))

/-- MASTER_REPLY (R329); a device ignores another's reply (R332). -/
def execMasterReply (f : CFrame) (s : State) : Host.Outcome State Fault Refusal :=
  .next (s.when (s.tnOn && !s.tn.pt && f.addr.getLsbD 7) (fun t => if t.tnDevice then t.tnHeard f else (t.tnHeard f).tnMasterReply f))

/-- REPLY_TIMEOUT (R329). -/
def execReplyTimeout (s : State) : Host.Outcome State Fault Refusal := .next (s.when (s.tnOn && !s.tnDevice) State.tnTimeout)

/-- LINE_JAM (R328, R332: 0x0A18): once per episode. -/
def execLineJam (s : State) : Host.Outcome State Fault Refusal :=
  .next (s.when (s.tnOn && !s.tnDevice && !s.tn.pt && (s.tnReady || !s.tn.watch.isEmpty) && s.tn.req.isNone) (fun t =>
    let u := { t with tn := { t.tn with jam := true, cd := true, jamEpisode := true } }.tnCount
    if t.tn.jamEpisode then u else u.tnEvent 0x0A18 0))

/-- WATCH_POLL (R330): a round begins. -/
def execWatchPoll (s : State) : Host.Outcome State Fault Refusal :=
  .next (s.when (s.tnOn && !s.tnDevice && !s.tn.pt && s.plint != 0) (fun t => { t with tn := { t.tn with watch := t.plmap } }.watchNext))

/-- The bits still to be sent when further characters come: without the mark at the end, but for the bits of it that have begun
(R315, R331). -/
def Wave.unsent (w : Wave) : List Nat := w.syms.take (max (w.syms.length - 11) ((w.cyc + 63) / 64))

/-- Pass-through: the characters in the FIFO follow those in transmission, or start the carrier; mark for one character time after the
last (R331). -/
def State.passTx (s : State) : State :=
  let more := waveSyms false s.tn.txf ++ List.replicate 11 1
  let t := { s with tn := { s.tn with sent := s.tn.txf, txf := [] } }
  match s.tn.tx with
  | some w => { t with tn := { t.tn with tx := some { w with syms := w.unsent ++ more } } }
  | none => t.waveStart { fast := false, syms := more, cyc := 0 }

/-- An 11-bit character as received, bit 0 first in time: its byte, and whether its start, parity or stop bit is wrong (R315, R331). -/
def charOf (c : BitVec 11) : Byte × Bool :=
  let b : Byte := c.extractLsb' 1 8
  (b, (List.range 11).map (fun i => b2n (c.getLsbD i)) != charBits b)

/-- Pass-through: a received character enters the FIFO with its error (R331). -/
def State.passRx (s : State) (c : BitVec 11) : State :=
  if s.tn.rxf.length < 528 then { s with tn := { s.tn with rxf := s.tn.rxf ++ [pack [((charOf c).1.toNat, 0), (b2n (charOf c).2, 8)]] } }
  else { s with tn := { s.tn with ovf := true } }.tnEvent 0x0A03 1

/-- PASSTHROUGH_TX (R331): the characters in the FIFO go out. -/
def execPassthroughTx (s : State) : Host.Outcome State Fault Refusal :=
  .next (s.when (s.tnOn && s.tn.pt && !s.tn.txf.isEmpty) State.passTx)

/-- PASSTHROUGH_RX (R331): a character of 11 bits, the first received in bit 0. -/
def execPassthroughRx (c : BitVec 11) (s : State) : Host.Outcome State Fault Refusal :=
  .next (s.when (s.tnOn && s.tn.pt) (fun t => t.passRx c))

/-- CANTUS_CRC_FAILURE (R323, R332: 0x0A10). -/
def execCantusCrcFailure (s : State) : Host.Outcome State Fault Refusal :=
  .next (s.when (s.tnOn && !s.tn.pt) (fun t =>
    let u := { t with tn := { t.tn with crcCnt := satInc t.tn.crcCnt } }
    (u.pinned 10 0xF90B u.tn.crcCnt).tnVio 0x0A10 (evData [(1, 0), (u.tn.crcCnt.toNat, 16)])))

/-- CANTUS_RECEIVE_ABORT (R332: 0x0A11, 0x0A12). -/
def execCantusReceiveAbort (k : AbortKind) (bytes : Nat) (s : State) : Host.Outcome State Fault Refusal :=
  .next (s.when (s.tnOn && !s.tn.pt) (fun t => match k with
    | .carrier => { t with tn := { t.tn with cd := false } }.tnVio 0x0A11 bytes
    | .parity => t.when (!t.tnFast) (fun u => u.tnVio 0x0A12 bytes)))

end Sys2Proof.Machine
end

