-- ==== Sys2Proof/Machine/Policy.lean ====
section
/-! DEFINITION. Sys2Proof/Machine/Policy.lean: the policy engine: sources, conditions, rule states, actions, alarm level
(15_policy_alarms_and_long_run.md R402 to R416, R421). -/

namespace Sys2Proof.Machine

open Sys2Proof.Config (key)

/-! ## A rule's fields (R402) -/

/-- PL_CTL.EN. -/
def State.plEn (s : State) : Bool := bitAt (s.nvReg 0x6E) 0

/-- SRC. -/
def State.ruleSrc (s : State) (n : Nat) : Nat := fld (s.plw (8 * n)) 0 8

/-- CMP. -/
def State.ruleCmp (s : State) (n : Nat) : Nat := fld (s.plw (8 * n)) 8 3

/-- LATCH. -/
def State.ruleLatch (s : State) (n : Nat) : Bool := bitAt (s.plw (8 * n)) 11

/-- IRQ. -/
def State.ruleIrq (s : State) (n : Nat) : Bool := bitAt (s.plw (8 * n)) 12

/-- THR. -/
def State.ruleThr (s : State) (n : Nat) : F32 := dword (s.plw (8 * n + 1)) (s.plw (8 * n + 2))

/-- PERS in ms. -/
def State.rulePers (s : State) (n : Nat) : Nat := (s.plw (8 * n + 3)).toNat

/-- RELP in ms. -/
def State.ruleRelp (s : State) (n : Nat) : Nat := (s.plw (8 * n + 4)).toNat

/-- EN. -/
def State.ruleEn (s : State) (n : Nat) : Bool := bitAt (s.plw (8 * n + 5)) 15

/-- A source code of R403. -/
def sourceKnown (c : Nat) : Bool := decide (c ≤ 0x20) || (decide (0x40 ≤ c) && decide (c ≤ 0x4C))

/-- The rule is inactive: CMP 6 or 7, a reserved source or action (R404). -/
def State.ruleInactive (s : State) (n : Nat) : Bool := decide (6 ≤ s.ruleCmp n) || !sourceKnown (s.ruleSrc n) || decide (9 ≤ s.ruleAction n)

/-- Rule n's run state. -/
def State.ruleAt (s : State) (n : Nat) : Rule := s.pl.rules.getD n {}

/-- Rule n's run state replaced. -/
def State.setRule (s : State) (n : Nat) (r : Rule) : State := { s with pl := { s.pl with rules := setAt s.pl.rules n r } }

/-! ## Sources and conditions (R43, R403, R404) -/

/-- PW_GOV.SHED: the highest step of R43 in force; a policy shed alone shows step 1 (R410). -/
def State.shedCode (s : State) : Nat :=
  if s.pw.shedTone then 6 else if s.pw.shedRx1 || s.pw.shedRx2 then 5 else if s.pw.shedProt then 4
  else if s.pw.shedCoil then 3 else if s.pw.shedLevel then 2 else if s.pw.shedBulk || s.actionOn 6 then 1 else 0

/-- The flag sources 0x01 to 0x20 (R403). -/
def State.flagSource (s : State) (c : Nat) : Bool :=
  [false, s.orr.sflt, s.xb.fl.getLsbD 2, s.xb.openCoil, s.ad.ovrs, s.ad.dopen,
   s.fe.wet, s.fe.empty, s.fe.stale, s.fe.range, s.fe.ferr, s.fe.nrec, s.lg.lbad,
   s.an.div, s.fram.stale, s.fram.anState == 5, s.an.vio, s.an.pnot, s.an.rollb,
   s.lp.lowv, s.lp.hdrm, s.lp.lbopen, s.lp.lbsht, s.lp.lbth, s.lp.lflt,
   s.tn.jam, s.tn.vio, s.dn.vio, s.pw.calf, s.lp.dwarn, decide (1984 ≤ s.lg.acount), s.aon.sealOpen, decide (4 ≤ s.shedCode)].getD c false

/-- A source's value (R403). -/
def State.source (s : State) (c : Nat) : F32 :=
  if c ≤ 0x20 then F32.ofInt (b2n (s.flagSource c))
  else if c = 0x40 then F32.ofInt s.lp.remb.toNat
  else if c = 0x41 then s.flowOf s.fe.qvc
  else if c = 0x42 then s.flowOf s.fe.qm
  else if c = 0x43 then s.flowOf s.fe.qb
  else if c = 0x44 then s.flowOf s.fe.pe
  else if c = 0x45 then s.fe.p
  else if c = 0x46 then s.fe.t
  else if c = 0x47 then (match s.ad.dieCode with | some d => F32.ofRatio d.toInt 32768 | none => 0)
  else if c = 0x48 then F32.ofRatio s.pins.vres 100
  else if c = 0x49 then F32.ofInt (sInt s.orr.speed)
  else if c = 0x4A then F32.ofInt s.an.dval.toNat
  else if c = 0x4B then F32.ofRatio s.lp.ib 1000000
  else if s.pins.role = .T then F32.ofRatio s.pw.budget 1000 else 0

/-- CMP's condition (R404). -/
def ruleCond (cmp : Nat) (v thr : F32) : Bool :=
  if cmp = 1 then !F32.eq v 0
  else if cmp = 2 then F32.lt thr v
  else if cmp = 3 then F32.lt v thr
  else if cmp = 4 then F32.lt thr (F32.abs v)
  else if cmp = 5 then F32.eq v thr
  else false

/-! ## Alarm level and freeze (R408, R409) -/

/-- The prevailing rule and its action: the lowest with 1 or 2, else the lowest with 3 (R408). -/
def State.prevailing (s : State) : Option (Nat × Nat) :=
  let on (f : Nat → Bool) : Option Nat := (List.range 32).find? (fun n => (s.ruleAt n).inForce && f (s.ruleAction n))
  match on (fun a => a == 1 || a == 2) with
  | some n => some (n, s.ruleAction n)
  | none => (on (fun a => a == 3)).map (fun n => (n, 3))

/-- Loop A driven at once to a new level: the tick that resolves it (R283, R408). -/
def State.driveAlarm (s : State) : State :=
  if s.lp.driving then { s.loopATick with lp := { s.loopATick.lp with rbCmd := s.lp.rbCmd, rbTicks := s.lp.rbTicks } } else s

/-- The alarm level follows the rules in force; a hold freezes the target in force, never below 3.40 mA (R287, R290, R408). Roles M and H have none. -/
def State.resolveAlarm (s : State) : State :=
  let a : BitVec 2 := if s.loopARole then (match s.prevailing with | some (_, k) => BitVec.ofNat 2 k | none => 0) else 0
  if a = s.lp.alarm then s
  else { s with lp := { s.lp with alarm := a, holdAt := if a = 3 then max 3400000 s.lp.target else s.lp.holdAt } }.driveAlarm

/-- FE_CTL.ALM follows the rules with action 4 (R409). -/
def State.resolveFreeze (s : State) : State := { s with fe := { s.fe with alm := s.actionOn 4 } }

/-- A NOTICE is due at an assertion or release of action 7 in STATE 3 (R411). -/
def State.notify (s : State) (n : Nat) : State :=
  if s.ruleAction n = 7 ∧ s.fram.anState = 3 then { s with an := { s.an with noticeDue := true } } else s

/-! ## Assertion and release (R406, R407, R412, R413) -/

/-- Data of 0x0D01 and 0x0D02. -/
def State.ruleData (s : State) (n : Nat) : Nat := evData [(n, 0), (s.ruleAction n, 8), ((s.ruleAt n).value.toNat, 16)]

/-- The log of an assertion: at most 8 of one rule in a second, the rest counted (R413). -/
def State.logAssert (s : State) (n : Nat) : State :=
  let r := s.ruleAt n
  if r.secLogs < 8 then (s.setRule n { r with secLogs := r.secLogs + 1 }).logEv 0x0D01 (s.ruleData n)
  else
    let t := { s with pl := { s.pl with asserts := satInc s.pl.asserts } }
    t.pinned 13 0x108 t.pl.asserts

/-- An assertion: its action, its log, its interrupt. -/
def State.ruleAssert (s : State) (n : Nat) : State :=
  let t := s.setRule n { s.ruleAt n with state := 2, count := 0, dueOn := false, dueOff := false }
  let u := (if t.ruleAction n = 5 then t.applyAdapt else t).notify n
  let v := (u.resolveFreeze.resolveAlarm).logAssert n
  if v.ruleIrq n || v.ruleAction n == 8 then v.irq 13 else v

/-- The rule's action ends: IDLE, the release logged (R406). -/
def State.ruleEnd (s : State) (n : Nat) : State :=
  let r := s.ruleAt n
  let x := s.setRule n { r with state := 0, count := 0, dueOn := false, dueOff := false }
  let t := { x with fram := { x.fram with latched := x.fram.latched &&& ~~~(1#32 <<< n) } }
  if r.inForce then
    let u := ((t.notify n).resolveFreeze.resolveAlarm).logEv 0x0D02 (s.ruleData n)
    if u.ruleIrq n then u.irq 13 else u
  else t

/-- A release that is due: LATCHED with LATCH, else the end (R406). -/
def State.ruleRelease (s : State) (n : Nat) : State :=
  let r := s.ruleAt n
  if s.ruleLatch n then
    let x := s.setRule n { r with state := 4, count := 0, dueOff := false }
    { x with fram := { x.fram with latched := x.fram.latched ||| (1#32 <<< n) } }
  else s.ruleEnd n

/-- A changed rule is IDLE, inactive ones are named (R404, R406). -/
def State.ruleChanged (s : State) (n : Nat) : State :=
  if s.ruleInactive n then
    (s.setRule n { s.ruleAt n with state := 5 }).logEv 0x0D05 (evData [(n, 0), (s.ruleCmp n, 8), (s.ruleSrc n, 16), (s.ruleAction n, 24)])
  else s

/-! ## Evaluation (R405, R416) -/

/-- One rule's step at a tick: cond is its condition now, pers and relp its persistences, latch its LATCH (R405, R406). -/
def Rule.step (r : Rule) (cond : Bool) (v : F32) (pers relp : Nat) (latch : Bool) : Rule :=
  let r := { r with cond := cond, value := v }
  if r.state = 0 then
    if !cond then { r with dueOn := false, count := 0 }
    else if pers = 0 then { r with dueOn := true } else { r with state := 1, count := 0, dueOn := false }
  else if r.state = 1 then
    if !cond then { r with state := 0, count := 0, dueOn := false } else { r with count := r.count + 1, dueOn := decide (pers ≤ r.count + 1) }
  else if r.state = 2 then
    if cond then { r with dueOff := false, count := 0 }
    else if latch || relp == 0 then { r with dueOff := true } else { r with state := 3, count := 0 }
  else if r.state = 3 then
    if cond then { r with state := 2, count := 0, dueOff := false } else { r with count := r.count + 1, dueOff := decide (relp ≤ r.count + 1) }
  else r

/-- A LATCHED rule whose ACK was taken ends at this tick (R406). -/
def State.ackTick (s : State) : State :=
  let due := (List.range 32).filter (fun n => s.pl.ack.getLsbD n && (s.ruleAt n).state == 4)
  due.foldl State.ruleEnd { s with pl := { s.pl with ack := 0 } }

/-- One rule from the sources of this tick (R404, R405). -/
def State.stepRule (at_ s : State) (n : Nat) : State :=
  let r := s.ruleAt n
  if !s.ruleEn n then (if r.inForce then s else s.setRule n { r with state := 0, dueOn := false })
  else if s.ruleInactive n then s.setRule n { r with state := 5 }
  else
    let v := at_.source (s.ruleSrc n)
    let r' := if r.state = 5 then { r with state := 0 } else r
    s.setRule n (r'.step (ruleCond (s.ruleCmp n) v (s.ruleThr n)) v (s.rulePers n) (s.ruleRelp n) (s.ruleLatch n))

/-- POLICY_EVALUATION: every rule in ascending order from sources sampled at the start of the tick (R405, R416); acknowledged rules end
after it and are not stepped again. -/
def State.policyTick (s : State) : State :=
  if s.running && s.plEn then ((List.range 32).foldl (fun t n => State.stepRule s t n) s).ackTick else s

/-- RUN entry: latched rules are in force again (R406). -/
def State.policyRun (s : State) : State :=
  let rules := (List.range 32).map (fun n => if s.fram.latched.getLsbD n then ({ state := 4 } : Rule) else {})
  ({ s with pl := { s.pl with rules := rules } }).resolveFreeze.resolveAlarm

/-- RUN is left: every rule but a latched one is IDLE, without an event (R405). -/
def State.policyLeave (s : State) : State :=
  { s with pl := { s.pl with rules := s.pl.rules.map (fun r => if r.state = 4 then r else { r with state := 0, count := 0, dueOn := false, dueOff := false }) } }

/-- EN cleared: every rule ends (R406). -/
def State.policyStop (s : State) : State := (List.range 32).foldl State.ruleEnd s

/-- The second's counts of logged assertions start afresh (R413). -/
def State.policySecond (s : State) : State := { s with pl := { s.pl with rules := s.pl.rules.map (fun r => { r with secLogs := 0 }) } }

/-- An ACK word: bits of LATCHED rules whose condition is false are taken for the next tick (R406). half: 0 low, 1 high. -/
def State.ackWrite (s : State) (half : Nat) (w : Word) : State :=
  let ok := (List.range 16).filter (fun i =>
    let n := 16 * half + i
    bitAt w i && (s.ruleAt n).state == 4 && !ruleCond (s.ruleCmp n) (s.source (s.ruleSrc n)) (s.ruleThr n))
  { s with pl := { s.pl with ack := ok.foldl (fun a i => a ||| (1#32 <<< (16 * half + i))) s.pl.ack } }

/-! ## Window words (R420) -/

/-- A set of rules as 32 bits. -/
def State.ruleBits (s : State) (f : Rule → Bool) : Word32 :=
  (List.range 32).foldl (fun a n => if f (s.ruleAt n) then a ||| (1#32 <<< n) else a) 0

/-- AWIN. -/
def State.awin (s : State) : Word := match s.prevailing with | some (n, a) => pack [(n, 0), (a, 5)] | none => 0

/-! ## Meanings -/

/-- RULE_ASSERT (R406): the tick made it due. -/
def execRuleAssert (n : BitVec 5) (s : State) : Host.Outcome State Fault Refusal :=
  .next (s.when (s.running && s.plEn && (s.ruleAt n.toNat).dueOn) (fun t => t.ruleAssert n.toNat))

/-- RULE_RELEASE (R406): the tick made it due. -/
def execRuleRelease (n : BitVec 5) (s : State) : Host.Outcome State Fault Refusal :=
  .next (s.when (s.running && s.plEn && (s.ruleAt n.toNat).dueOff) (fun t => t.ruleRelease n.toNat))

end Sys2Proof.Machine
end

