-- ==== Sys2Proof/Machine/Audit.lean ====
section
/-! DEFINITION. Sys2Proof/Machine/Audit.lean: the audit entry of each audited change (R230, R489) and what the change does once its row is
written (R234), the configuration digest (R266), and the end of tooth-map learning (R128). -/

namespace Sys2Proof.Machine

open Sys2Proof.Config (key)

/-! ## Code and data of an entry (R489) -/

/-- The base code of a word by its key (R489). -/
def baseCode (k : Nat) : Word :=
  let a := k % 0x10000
  match k / 0x10000 with
  | 0 => if a = 0x56 then 0x0600 else if a = 0x3A then 0x0900 else 0x0300
  | 1 => 0x0300
  | 2 => 0x0600
  | _ => if a = 0xF820 then 0x0400 else if a < 0xF880 then 0x0500 else 0x0800

/-- Register byte address or window word, then the new value (R489). -/
def itemData (item value : Nat) : Nat := evData [(item, 0), (value, 16)]

/-- M4 and M20 in µA with one of them about to take a value (R310: 0x0904). -/
def State.trimData (s : State) (k : Nat) (v : Word32) : Nat :=
  let m4 := if k = key 3 0xF8C6 then v else s.lgd 0xF8C6
  let m20 := if k = key 3 0xF8C8 then v else s.lgd 0xF8C8
  evData [(1, 0), (m4.toNat / 1000, 8), (m20.toNat / 1000, 24)]

/-- The slot and check value of a key (R245, R246: 0x0F06). -/
def keyData (slot1 : Bool) (bytes : List Byte) : Nat := evData [(b2n slot1, 0), (natOfBE (kcv (some bytes)), 8)]

/-- The code and data under which a change is recorded (R233, R489). -/
def State.auditOf (s : State) : Change → Word × Nat
  | .word k v => (baseCode k, itemData (k % 0x10000) v.toNat)
  | .pair k lo hi => (baseCode k, itemData (k % 0x10000) (dword lo hi).toNat)
  | .heldWord k lo hi _ => (baseCode k, itemData (k % 0x10000) (match hi with | some h => (dword lo h).toNat | none => lo.toNat))
  | .entry n w => (0x0300, itemData (4 * n) (dword (w.getD 0 0) (w.getD 1 0)).toNat)
  | .rule n w => (0x0D03, evData [(n, 0), ((w.getD 0 0).toNat, 8), ((w.getD 5 0).toNat, 24)])
  | .traw _ w => (0x0900, itemData 0x38 w.toNat)
  | .trim k lo hi => (0x0904, s.trimData k (dword lo hi))
  | .period old new => (0x080A, evData [(old.toNat, 0), (new.toNat, 8)])
  | .policyEn on => (0x0D07, b2n on)
  | .seal isOpen => (if isOpen then 0x0F02 else 0x0F03, 0)
  | .sealCount n => (0x0F08, n)
  | .key slot1 bytes => (0x0F06, keyData slot1 bytes)
  | .ledgerInit seq => (0x0709, seq.toNat)
  | .rtc low hi => (0x010B, (s.rtcStep (s.rtcTarget low hi)).toNat)
  | .paired serial _ => (0x0801, serial.toNat % 2 ^ 48)
  | .dissolve cause => (0x080B, cause.toNat)
  | .dref cause _ _ => (0x080F, cause.toNat)
  | .restored cseq pred _ _ => (0x0808, evData [(cseq.toNat, 0), (pred.toNat % 65536, 32)])
  | .served cseq => (0x0809, cseq.toNat)
  | .defaults => (0x0D04, 0)
  | .adapt _ old new => (0x0608, evData [(old.toNat, 0), (new.toNat, 16)])
  | .learned map => (0x0300, itemData 0x100 (dword (map.getD 0 0) (map.getD 1 0)).toNat)
  | .freeze w => (0x0E00, itemData 0x7C w.toNat)

/-! ## Effects of the changes -/

/-- The rws bits of OR_CTL that FRAM holds: SRC, CYCLE, AVG (05, Registers). -/
def orCtlSealed : Word := 0x7C73

/-- Learning may start: ROTOR, a TPR, SYNC, the seal open (R128). -/
def State.mayLearn (s : State) : Bool := s.orSrc == 1 && decide (1 ≤ s.tpr) && s.orr.sync && s.aon.sealOpen

/-- Learning is armed from the next index tooth (R128); one under way goes on. -/
def State.learnArm (s : State) : State :=
  if s.mayLearn && !s.orr.learn then { s with orr := { s.orr with learn := true, lrnArm := true, lrnRev := [], lrnAll := [] } } else s

/-- A change of SRC or AVG in a committed OR_CTL word. -/
def State.orCtlFresh (s : State) (v : Word) : Bool := fld (s.nvReg 0x18) 0 2 != fld v 0 2 || fld (s.nvReg 0x18) 10 5 != fld v 10 5

/-- OR_CTL's rws fields take effect: a change of SRC or AVG starts the Orrery afresh (05, Edges), LEARN arms learning (R128). -/
def State.applyOrCtl (s : State) (v : Word) : State :=
  let new := merge orCtlSealed (s.nvReg 0x18) v
  let t := (if s.orCtlFresh v then s.orrRestart else s).nvPut (key 0 0x18) new
  if bitAt v 3 then t.learnArm else t

/-- The clamp event of a config word out of its range (R125, R136, R138). -/
def State.orClamp (s : State) (a : Nat) (v : Word) : State :=
  let bad := (a == 0x300 && decide (512 < v.toNat)) || (a == 0x301 && decide (64 < v.toNat)) ||
    (a == 0x302 && (decide (v.toNat < 25) || decide (60 < v.toNat))) || (a == 0x306 && decide (v.toNat < 8))
  if bad then s.logEv 0x030B (itemData a v.toNat) else s

/-- A word of the Orrery window takes effect: a map word clears MAPV (R127), a TPR starts afresh, entries that NEV makes live wait for
their next crossing (R125). -/
def State.applyOr (s : State) (a : Nat) (v : Word) : State :=
  if a < 0x300 then
    { (s.nvPut (key 1 a) v) with orr := { (s.nvPut (key 1 a) v).orr with mapv := false, mapDirty := true } }
  else if a = 0x300 then
    let t := s.orrRestart.nvPut (key 1 a) v
    { t with orr := { t.orr with mapv := false, mapDirty := true } }.orClamp a v
  else
    let live := s.nev
    let t := s.nvPut (key 1 a) v
    (t.passEntries ((List.range t.nev).drop live)).orClamp a v

/-- An event-table entry takes effect; an angle this revolution has passed waits for the next (R125). -/
def State.applyEntry (s : State) (n : Nat) (w : List Word) : State :=
  (s.nvPutAll ((List.range 4).map (fun i => (key 1 (4 * n + i), w.getD i 0)))).passEntries [n]

/-- A rule takes effect: an action in force ends, and the rule is IDLE (R406, R415). -/
def State.applyRule (s : State) (n : Nat) (w : List Word) : State :=
  ((s.ruleEnd n).nvPutAll ((List.range 8).map (fun i => (key 5 (8 * n + i), w.getD i 0)))).ruleChanged n

/-- The eight words of a rule as they stand. -/
def State.ruleWords (s : State) (n : Nat) : List Word := (List.range 8).map (fun i => s.plw (8 * n + i))

/-- The eight words of a rule at shipment (R414). -/
def shippedRule (n : Nat) : List Word := (List.range 8).map (fun i => Config.ruleWord (8 * n + i))

/-- The default rule set: each rule that differs is replaced (R414, R415). -/
def State.applyDefaults (s : State) : State :=
  (List.range 32).foldl (fun t n => if t.ruleWords n = shippedRule n then t else t.applyRule n (shippedRule n)) s

/-- The clamps of LP_ALM (R289: 0x090A) and of DLIM (10, Registers: 0x080D). -/
def State.sealedClamp (s : State) (k : Nat) (v : Word) : State :=
  if k = key 0 0x3A then
    let t := if 200 < fld v 0 8 then s.logEv 0x090A (itemData 0x3A (fld v 0 8)) else s
    if 200 < fld v 8 8 then t.logEv 0x090A (itemData 0x3A (fld v 8 8)) else t
  else if k = key 3 0xF883 ∧ 10000 < v.toNat then s.anEvent 0x080D (itemData 0xF883 v.toNat)
  else s

/-- One sealed word takes effect. -/
def State.applyWord (s : State) (k : Nat) (v : Word) : State :=
  if k = key 0 0x18 then s.applyOrCtl v
  else if k = key 0 0x56 then s.nvPut k (merge 2 (s.nv k) v)
  else if k / 0x10000 = 1 then s.applyOr (k % 0x10000) v
  else (s.nvPut k v).sealedClamp k v

/-- LP_CTL.TRAW takes effect; without it the host target is held to its range again (R286). -/
def State.applyTraw (s : State) (on : Bool) : State :=
  { s with lp := { s.lp with traw := on, hostRaw := none,
                             hostTarget := if on then s.lp.hostTarget else clampNat 3400000 23000000 s.lp.hostTarget } }

/-- AN_CTL.PERIOD takes effect (R261). -/
def State.applyPeriod (s : State) (new : BitVec 6) : State :=
  let t := s.nvPut (key 0 0x52) (merge (mask 1 6) (s.nvReg 0x52) (new.setWidth 16 <<< 1))
  (if 40 < new.toNat then t.anEvent 0x080D (itemData 0x52 new.toNat) else t).anActivate

/-- PL_CTL.EN takes effect (R406, R415). -/
def State.applyPolicyEn (s : State) (on : Bool) : State :=
  let t := s.nvPut (key 0 0x6E) (merge 1 (s.nvReg 0x6E) (BitVec.ofNat 16 (b2n on)))
  if on then t else t.policyStop

/-- The held count of seal changes is audited (R56, R240). -/
def State.applySealCount (s : State) : State := { s with aon := { s.aon with sealCount := 0 } }

/-- A key is replaced: slot 0 makes two commits under it (R247), slot 1 ends a ceremony and dissolves a pairing, whose audit row comes next
(R255, R256). -/
def State.applyKey (s : State) (slot1 : Bool) (bytes : List Byte) : State :=
  if slot1 then
    let t := { s with fram := { s.fram with key1 := some bytes } }.abortCeremony 3
    if t.fram.anState = 0 then t else { t with lg := { t.lg with queue := .dissolve 0 :: t.lg.queue } }
  else { s with fram := { s.fram with key0 := some bytes } }.twoCommits 0x10

/-- The ledger starts at zero and makes two commits; LBAD clears (R249). -/
def State.applyInit (s : State) : State :=
  { s with lg := { s.lg with totals := List.replicate 12 0, satLogged := [], lbad := false } }.twoCommits 0x20

/-- A pairing takes effect: PSERIAL, a fresh mirrored sequence, the reference to come, STATE 2 or 3, and the restore the partner asked
for (R254, R272, R277). -/
def State.applyPaired (s : State) (serial : Word64) (restoreRx : Bool) : State :=
  let t := { s with
    fram := { s.fram with pserial := serial, rxaseq := 0, rxcseq := 0, rxtotals := List.replicate 12 0, anState := 2, drefPend := some 0 },
    an := { s.an with hasPeer := false, sentConfirm := false, gotConfirm := none, misses := 0, tagFails := 0, lastAnswer := [] } }
  let u := (t.anActivate).irq 8
  if restoreRx then u.serveRestore else u

/-- A pairing ends: PSERIAL clear, STATE 0; the mirror stays (R256). -/
def State.applyDissolve (s : State) : State :=
  let t := s.dropAntiphon allKinds
  { t with
    fram := { t.fram with pserial := 0, anState := 0 },
    an := { t.an with awaiting := false, restoreWait := none, restoreAck := none, wd := [0, 0, 0, 0], wdCount := 0,
                      noticeDue := false, misses := 0, tagFails := 0 } }

/-- The divergence reference is taken (R272). -/
def State.applyDref (s : State) (l p : Word64) : State :=
  { s with fram := { s.fram with drefl := l, drefp := p, drefSet := true, drefPend := none } }

/-- The replacement takes the predecessor's figures (R278, steps 2 to 5). -/
def State.applyRestored (s : State) (cseq : Word32) (totals : List Nat) (aseq : Word32) : State :=
  let seq := if s.lg.seq.toNat < cseq.toNat then cseq else s.lg.seq
  { s with
    lg := { s.lg with totals := totals, satLogged := [], seq := seq, lbad := false },
    fram := { s.fram with drefPend := some 1 },
    an := { s.an with restoreAck := some (aseq, cseq) } }.twoCommits 0x20

/-- An adaptation takes effect: CYCLE or VTH, the event, NREC clear (R214). -/
def State.applyAdaptation (s : State) (cycle : Bool) (old new : Word) : State :=
  let t := if cycle then s.nvPut (key 0 0x18) (merge (mask 4 3) (s.nvReg 0x18) (new <<< 4)) else s.nvPut (key 2 0x38) new
  { t with fe := { t.fe with nrec := false } }.logEv 0x0608 (evData [(old.toNat, 0), (new.toNat, 16)])

/-- A learned map takes effect; LEARN clears (R128). -/
def State.applyLearned (s : State) (map : List Word) : State :=
  let t := s.nvPutAll ((List.range map.length).map (fun i => (key 1 (0x100 + i), map.getD i 0)))
  { t with orr := { t.orr with mapv := false, mapDirty := true, learn := false, lrn := false, lrnArm := false, lrnRev := [], lrnAll := [] } }.logEv
    0x0307 (evData [(map.length, 0), (pitchError map, 16)])

/-- A freeze by TS_CTL begins (R442, R444): whether the seal is closed is remembered. -/
def State.freezeBy (s : State) (test : Bool) : State :=
  { s with hb := { s.hb with frzTs := s.hb.frzTs || !test, frzTest := s.hb.frzTest || test,
                             frzClosed := s.hb.frzClosed || !s.aon.sealOpen || !s.aon.sealLevel } }

/-- The batch that PHOLD held takes effect together (08, Edges). -/
def State.applyReady (s : State) : State :=
  { (s.nvPutAll s.fe.ready) with fe := { (s.nvPutAll s.fe.ready).fe with ready := [] } }

/-- One write of that batch is recorded; the last one makes the batch take effect. -/
def State.applyHeld (s : State) (k : Nat) (lo : Word) (hi : Option Word) (last : Bool) : State :=
  let t := { s with fe := { s.fe with ready := s.fe.ready ++ [(k, lo)] ++ (match hi with | some h => [(k + 1, h)] | none => []) } }
  if last then t.applyReady else t

/-- What a change does once its row is written (R234). -/
def State.applyChange (s : State) : Change → State
  | .word k v => s.applyWord k v
  | .pair k lo hi => s.nvPutAll [(k, lo), (k + 1, hi)]
  | .heldWord k lo hi last => s.applyHeld k lo hi last
  | .entry n w => s.applyEntry n w
  | .rule n w => s.applyRule n w
  | .traw on _ => s.applyTraw on
  | .trim k lo hi => s.nvPutAll [(k, lo), (k + 1, hi)]
  | .period _ new => (s.applyPeriod new).irq 8
  | .policyEn on => s.applyPolicyEn on
  | .seal isOpen => s.setSeal isOpen
  | .sealCount _ => s.applySealCount
  | .key slot1 bytes => s.applyKey slot1 bytes
  | .ledgerInit _ => s.applyInit
  | .rtc low hi => s.setRtc (s.rtcTarget low hi)
  | .paired serial r => s.applyPaired serial r
  | .dissolve _ => s.applyDissolve.irq 8
  | .dref _ l p => (s.applyDref l p).irq 8
  | .restored cseq _ totals aseq => (s.applyRestored cseq totals aseq).irq 8
  | .served _ => (s.markMirror 2).irq 8
  | .defaults => s.applyDefaults
  | .adapt c old new => s.applyAdaptation c old new
  | .learned map => s.applyLearned map
  | .freeze _ => s.freezeBy false

/-! ## The audit row (R234, R236) -/

/-- A queued change that its cause has overtaken: learning aborted (R129), the ceremony ended (R255). -/
def State.overtaken (s : State) : Change → Bool
  | .learned _ => !s.orr.learn
  | .paired _ _ => s.fram.anState != 1
  | _ => false

/-- The register or window word of a change; of a value of several words, the one that commits it (R250: 0x0704). -/
def Change.item : Change → Nat
  | .word k _ => k % 0x10000
  | .pair k _ _ => k % 0x10000 + 1
  | .heldWord k _ hi _ => k % 0x10000 + b2n hi.isSome
  | .entry n _ => 4 * n + 3
  | .rule n _ => 8 * n + 7
  | .traw _ _ => 0x38
  | .trim k _ _ => k % 0x10000 + 1
  | .period _ _ => 0x52
  | .policyEn _ => 0x6E
  | .seal _ => 0x68
  | .sealCount _ => 0x68
  | .key _ _ => 0x6A
  | .ledgerInit _ => 0x5C
  | .rtc _ _ => 0x78
  | .paired _ _ => 0x52
  | .dissolve cause => if cause = 0 then 0x6A else 0x52
  | .dref _ _ _ => 0x52
  | .restored _ _ _ _ => 0x52
  | .served _ => 0x52
  | .defaults => 0x6E
  | .adapt cycle _ _ => if cycle then 0x18 else 0x38
  | .learned _ => 0x100
  | .freeze _ => 0x7C

/-- A pairing stands, behind a ceremony too (R255). -/
def State.hasPair (s : State) : Bool := if s.fram.anState = 1 then s.an.before != 0 else s.fram.anState != 0

/-- The log lacks room for a change: one row, and two for a slot 1 load that dissolves a pairing (R236, R256). -/
def State.lacksRow (s : State) : Change → Bool
  | .key true _ => decide (2048 ≤ s.lg.acount + b2n s.hasPair)
  | _ => s.auditFull

/-- A change whose row cannot be written: it does not take effect; a seal change does, unaudited (R234, R236). -/
def State.noRow (s : State) : Change → State
  | .seal isOpen => s.sealUnaudited isOpen 1
  | .learned _ => (s.refuseFull 0x100).learnAbort 8
  | .heldWord k lo hi last =>
    let t := s.refuseFull (Change.heldWord k lo hi last).item
    if last then t.applyReady else t
  | c => s.refuseFull c.item

/-- The front change's row is written and the change takes effect (R234). -/
def State.auditRow (s : State) : State :=
  match s.lg.queue with
  | [] => s
  | c :: rest =>
    let t := { s with lg := { s.lg with queue := rest } }
    if t.overtaken c then t
    else if t.lacksRow c then t.noRow c
    else (t.auditEntry (t.auditOf c).1 (t.auditOf c).2).applyChange c

/-- The front change is of SRC, TPR or AVG (05, Edges). -/
def State.restartQueued (s : State) : Bool :=
  match s.lg.queue with
  | .word k v :: _ => k == key 1 0x300 || (k == key 0 0x18 && s.orCtlFresh v)
  | _ => false

/-! ## Configuration digest (R266) -/

/-- The words CDIG covers, in their order (R266). -/
def State.cdigWords (s : State) : List Word :=
  (List.range 0x307).map s.orw ++ (List.range 0x340).map s.few ++ (List.range 0x100).map s.plw ++
  (List.range 4).map (fun i => s.lgw (0xF8C6 + i)) ++ (List.range 8).map (fun i => s.lgw (0xF842 + i)) ++ [s.lgw 0xF820]

/-- CDIG: the first 8 bytes of SHA-256 over those words, least significant byte first (R266). -/
def State.cdigNow (s : State) : List Byte := (sha256 (s.cdigWords.map (fun w => [loByte w, hiByte w])).flatten).take 8

/-! ## Meanings -/

/-- AUDIT_ROW_WRITTEN (R434): in RUN and DRAIN (R218). -/
def execAuditRowWritten (s : State) : Host.Outcome State Fault Refusal := .next (s.when s.runOrDrain State.auditRow)

/-- ORRERY_RESTART (R132): the audited change of SRC, TPR or AVG takes effect. -/
def execOrreryRestart (s : State) : Host.Outcome State Fault Refusal :=
  .next (s.when (s.runOrDrain && s.restartQueued) State.auditRow)

/-- CDIG is computed (R266). -/
def State.cdigTake (s : State) : State := { s with lg := { s.lg with cdig := s.cdigNow, cdigDirty := false } }

/-- CDIG_RECOMPUTE (R266). -/
def execCdigRecompute (s : State) : Host.Outcome State Fault Refusal := .next (s.when (s.coreOn && s.lg.cdigDirty) State.cdigTake)

/-- LEARN_COMPLETE (R128): LRNREV revolutions are measured; the map change is audited first. -/
def execLearnComplete (s : State) : Host.Outcome State Fault Refusal :=
  .next (s.when (s.running && s.orr.lrn && decide (s.lrnRevs ≤ s.orr.lrnAll.length)) (fun t =>
    if t.auditFull then (t.refuseFull 0x100).learnAbort 8
    else { t with orr := { t.orr with lrn := false } }.queueChange (.learned t.learnedMap)))

end Sys2Proof.Machine
end

