-- ==== Sys2Proof/Machine/Flags.lean ====
section
/-! DEFINITION. Sys2Proof/Machine/Flags.lean: the 64 registers and the window words as a read gives them, without the read's side effects
(Registers of every chapter, R447, R431, R432, R487). NV fields read 0 until they are restored (00_scope.md, Reset). -/

namespace Sys2Proof.Machine

open Sys2Proof.Config (key)

/-- A word of NV content: 0 before NVR (00_scope.md, Reset column). -/
def State.held (s : State) (w : Word) : Word := if s.hb.nvr then w else 0

/-- An NV register field's bits. -/
def State.nvBits (s : State) (r : Nat) (m : Word) : Word := s.held (s.nvReg r) &&& m

/-- ADC runs: RAILS to DRAIN (R83). -/
def State.adcRun (s : State) : Bool :=
  s.pw.st == .rails || s.pw.st == .calib || s.pw.st == .run || s.pw.st == .drain

/-! ## Status words -/

/-- SY_STAT (16, Registers). -/
def State.syStat (s : State) : Word :=
  pack [(b2n (s.pw.st == .run), 0), (b2n s.hb.nvr, 1), (b2n s.aon.sealOpen, 2), (b2n (s.sc.armHost == .armed), 3), (b2n s.aon.tv, 4),
        (b2n s.hb.hbv, 8)]

/-- PW_STATE (02, Registers). -/
def State.pwState (s : State) : Word :=
  pack [(s.pw.st.code, 0), (b2n s.pw.calf, 7)] |||
  s.held (pack [(s.fram.last.toNat, 4), (s.fram.cause.toNat, 10), (b2n s.pw.rtclost, 13)])

/-- PW_GOV (02, Registers). -/
def State.pwGov (s : State) : Word := pack [(s.pw.level.toNat, 0), (s.pw.lmax.toNat, 3), (s.shedCode, 6), (s.pw.chgmin.toNat, 9)]

/-- PW_TEL (02, Registers). -/
def State.pwTel (s : State) : Word :=
  match s.pw.tsel.toNat with
  | 0 => if s.pins.role = .T then BitVec.ofInt 16 (clampInt (-32768) 32767 s.pw.budget) else 0
  | 1 => BitVec.ofNat 16 (min 65535 s.pins.vres)
  | 2 => if s.pins.role = .T then 0 else BitVec.ofNat 16 (min 65535 s.pw.pin)
  | _ => s.pw.skips

/-- PW_VSET with LATCH (03, Registers). -/
def State.pwVset (s : State) : Word := pack [(s.reg.code.toNat, 0), (s.reg.src.toNat, 12), (b2n (s.aon.ovl || s.reg.scl), 15)]

/-- CK_STAT (04, Registers; R97). -/
def State.ckStat (s : State) : Word :=
  pack [(b2n (s.pllOn && s.ck.swlk), 0), (b2n (s.pllOn && s.ck.mplk), 1), (b2n (s.pllOn && s.ck.mfree), 2),
        (b2n (s.lineOn && (s.ck.linelk || s.isHead)), 3), (b2n s.toneRun, 4), (b2n s.adcRun, 5), (b2n (s.orr.angrun && s.pw.st == .run), 6),
        (b2n s.aon.xtalf, 7), (b2n s.aon.xtalfs, 8), (s.mfreq, 9)]

/-- OR_CTL (05, Registers). -/
def State.orCtl (s : State) : Word := s.nvBits 0x18 0x7F77 ||| pack [(b2n s.orr.learn, 3)]

/-- OR_STAT (05, Registers). -/
def State.orStat (s : State) : Word :=
  let o := s.orr
  pack [(b2n (!o.pend.isEmpty), 0), (b2n o.dir, 1), (b2n o.still, 2), (b2n o.spest, 3), (b2n o.sync, 4), (b2n o.mapv, 5), (b2n o.lrn, 6),
        (b2n o.sflt, 7), (b2n o.retf, 8), (b2n o.late, 9), (b2n o.synt, 10), (b2n o.slip, 11), (b2n o.evi, 12), (b2n o.spsat, 13)]

/-- XB_CTL (06, Registers). -/
def State.xbCtl (s : State) : Word :=
  s.nvBits 0x22 3 |||
  pack [(b2n s.xb.hold, 2), (s.xb.mask.toNat, 4), (b2n s.xb.pair, 6), (b2n s.xb.creg, 7), (b2n s.xb.openCoil, 8), (b2n s.xb.bscl, 9),
        (b2n s.xb.brun, 10), (b2n s.xb.bfull, 11)]

/-- XB_FLT (06, Registers). -/
def State.xbFlt (s : State) : Word := s.nvBits 0x2A 0x0500 ||| pack [(s.xb.fl.toNat, 0), (s.xb.lvl.toNat, 4)]

/-- AD_CTL (07, Registers): CH is the channel of the next conversion, the Orrery's included (R167). -/
def State.adCtl (s : State) : Word :=
  s.nvBits 0x2C 0x01F0 ||| s.held (s.ad.ch.setWidth 16) ||| pack [(b2n s.ad.drie, 9), (b2n s.ad.ovie, 10), (b2n s.ad.runs, 11)]

/-- AD_DATH as it stands (07, Registers). -/
def State.adDath (s : State) : Word :=
  pack [(s.ad.data.toNat / 65536, 0), (s.ad.dataCh.toNat, 8), (b2n s.ad.unrel, 12), (b2n s.ad.tagged, 13), (b2n s.ad.ovr, 14),
        (b2n s.ad.isNew, 15)]

/-- LP_CTL (11, Registers). -/
def State.lpCtl (s : State) : Word := s.nvBits 0x38 0x006F ||| pack [(b2n s.lp.traw, 4)]

/-- LP_STAT (11, Registers). -/
def State.lpStat (s : State) : Word :=
  let l := s.lp
  pack [(l.amode.toNat, 0), (b2n l.lflt, 3), (b2n l.lowv, 4), (b2n l.hdrm, 5), (b2n l.lbopen, 6), (b2n l.lbsht, 7), (l.remb.toNat, 8),
        (b2n l.lbcl, 10), (b2n l.apark, 11)]

/-- LP_THERM (11, Registers). -/
def State.lpTherm (s : State) : Word :=
  pack [(dteOf s.lp.dT, 0), (b2n s.lp.fold, 8), (b2n s.lp.lbth, 9), (b2n s.lp.lboff, 10), (b2n s.lp.dwarn, 11)]

/-- TN_CTL (12, Registers). -/
def State.tnCtl (s : State) : Word := s.nvBits 0x40 0x003B ||| pack [(b2n s.tn.pt, 2)]

/-- TN_STAT (12, Registers). -/
def State.tnStat (s : State) : Word :=
  pack [(b2n s.tn.cd, 0), (b2n (!s.tn.rxf.isEmpty), 1), (b2n s.tnBusy, 2), (b2n s.pw.shedTone, 3), (b2n s.tn.tout, 4), (b2n s.tn.vio, 5),
        (b2n s.tn.ovf, 6), (b2n s.tn.jam, 7), (s.tn.rssi.toNat, 8)]

/-- A FIFO's head as a read gives it; EMPTY when it has none or its domain is stopped (R97; 12, 14 Registers). -/
def fifoHead (runs : Bool) (f : List Word) : Word := if runs then f.headD 0x8000#16 else 0x8000#16

/-- DS_CTL (13, 14 Registers). -/
def State.dsCtl (s : State) : Word := s.nvBits 0x46 0x0201 ||| pack [(b2n s.dl.txoff, 2)]

/-- DS_STAT (13, 14 Registers). -/
def State.dsStat (s : State) : Word :=
  pack [(b2n s.dl.csa, 0), (b2n s.dl.csb, 1), (b2n (!s.dl.training.isEmpty || s.dl.rxTrain.isSome), 2), (b2n s.dl.rtrq, 3),
        (b2n (s.pw.shedRx1 || s.pw.shedRx2), 4), (b2n (s.pw.shedBulk || s.actionOn 6), 5), (b2n s.dl.herr, 6), (b2n s.ck.ltv, 9),
        (b2n s.dn.defer, 10), (b2n s.dn.epr, 11), (b2n s.dn.dirty, 12), (b2n (!s.dn.rxf.isEmpty), 13), (b2n s.dn.vio, 14), (b2n s.dn.swl, 15)] |||
  (if s.isHead then pack [(b2n (s.pw.st == .run), 8)] else s.held (pack [(b2n s.fram.joined, 8)]))

/-- AN_CTL (10, Registers). -/
def State.anCtl (s : State) : Word := s.nvBits 0x52 0x007F ||| pack [(b2n s.an.rst, 8)]

/-- AN_STAT (10, Registers). -/
def State.anStat (s : State) : Word :=
  s.held (pack [(s.fram.anState.toNat, 0), (b2n (decide (1 < s.fram.anState.toNat) && s.caller), 3), (b2n s.fram.stale, 4),
                (b2n (s.fram.anState == 5), 6), (b2n (s.anPeriod == 0), 12)]) |||
  pack [(b2n s.an.div, 5), (b2n s.an.dskip, 7), (b2n s.an.rollb, 8), (b2n s.an.pret, 9), (b2n s.an.vio, 10), (b2n s.an.miss, 11),
        (b2n s.an.pnot, 13)]

/-- FE_CTL (08, Registers). -/
def State.feCtl (s : State) : Word :=
  s.nvBits 0x56 3 |||
  pack [(b2n s.fe.phold, 2), (b2n s.fe.alm, 3), (b2n s.fe.wet, 4), (b2n s.fe.range, 5), (b2n s.fe.empty, 6), (b2n s.fe.stale, 7),
        (b2n s.fe.ferr, 8), (b2n s.fe.nrec, 9), (b2n s.fe.trunc, 10)]

/-- LG_CTL (09, Registers). -/
def State.lgCtl (s : State) : Word :=
  s.held (pack [(b2n s.lg.bank, 3)]) |||
  pack [(b2n s.lg.ainc, 1), (b2n s.lg.lbad, 4), (b2n s.lg.torn, 5), (b2n s.lg.disc, 6), (b2n s.lg.snap, 7), (b2n s.lg.cie, 8)]

/-- EV_STAT (09, Registers). -/
def State.evStat (s : State) : Word :=
  s.held (pack [(s.fram.eventSeq.toNat % 1024, 0), (b2n s.fram.eventWrap, 10), (b2n (decide (1984 ≤ s.lg.acount)), 11), (b2n s.auditFull, 12)]) |||
  pack [(b2n s.ev.elost, 13)]

/-- SC_CTL (09, Registers). -/
def State.scCtl (s : State) : Word :=
  s.held (pack [(b2n s.fram.key0.isSome, 8), (b2n s.fram.key1.isSome, 9)]) |||
  pack [(s.sc.slot.toNat, 0), (b2n s.aon.sealOpen, 3), (b2n s.sc.ldg, 4), (s.sc.words.length, 5), (b2n s.sc.sealch, 10)]

/-- TH_STAT (16, Registers). -/
def State.thStat (s : State) : Word :=
  s.nvBits 0x6C 0x0C00 ||| pack [(s.hb.temp.toNat, 0), (b2n s.lp.dwarn, 9)]

/-- PL_CTL (15, Registers). -/
def State.plCtl (s : State) : Word :=
  s.nvBits 0x6E 1 |||
  pack [(b2n (s.pl.rules.any Rule.inForce), 2), (b2n (s.lp.alarm != 0), 3), (b2n s.fe.alm, 4), (b2n (s.actionOn 6), 5)]

/-- HB_CFG (16, Registers). -/
def State.hbCfg (s : State) : Word := pack [(b2n s.hb.rdyen, 0), (b2n s.hb.rlock, 1), (s.hb.flags.toNat, 8)]

/-- TS_CTL (16, Registers): FRZ reads 0. -/
def State.tsCtl (s : State) : Word := pack [(b2n s.hb.frzd, 1), (b2n s.hb.fsrc, 2), (s.hb.fdur.toNat, 8)]

/-! ## OR window (R138) -/

/-- Words 0x310 to 0x31F as they stand; TCNT, REV and FRAC are NV entries (00_scope.md, Reset column). -/
def State.orLive (s : State) : List Word :=
  let pos := s.position
  [wordOfNat s.orr.tcnt.toNat 0, wordOfNat s.orr.tcnt.toNat 1, wordOfNat s.orr.tcnt.toNat 2, wordOfNat pos.toNat 1, wordOfNat pos.toNat 2,
   wordOfNat pos.toNat 0].map s.held ++ [BitVec.ofNat 16 s.orr.tidx, loWord s.orr.lastint, hiWord s.orr.lastint, s.orr.synCnt, s.orr.retCnt, s.orr.lateCnt,
   s.orr.rejCnt, s.orr.slipCnt, s.orr.intarg, s.orr.intent.setWidth 16]

/-- A word of the OR window. -/
def State.orWord (s : State) (a : Nat) : Word :=
  if a < 0x307 then s.held (s.orw a)
  else if 0x310 ≤ a ∧ a < 0x320 then
    (if a = 0x310 then s.orLive else s.orr.snap.getD s.orLive).getD (a - 0x310) 0
  else 0

/-! ## FE window (R215) -/

/-- A binary32 as two words, low word first. -/
def f32Words (x : F32) : List Word := [loWord x, hiWord x]

/-- Words 0x380 to 0x3BF as they stand. -/
def State.feLive (s : State) : List Word :=
  (([s.flowOf s.fe.qvp, s.flowOf s.fe.qvc, s.flowOf s.fe.qm, s.flowOf s.fe.qb, s.flowOf s.fe.pe, s.fe.p, s.fe.t, s.fe.rho, s.fe.h, s.fe.z,
     s.fe.du].map f32Words).flatten ++ [0, 0, s.fe.rcyc.setWidth 16, s.fe.rvth.setWidth 16] ++ List.replicate 6 0 ++
   (s.fe.pend.map f32Words).flatten ++ List.replicate 24 0).take 64

/-- A word of the FE window. -/
def State.feWord (s : State) (a : Nat) : Word :=
  if a < 0x340 then s.held (s.few a)
  else if 0x380 ≤ a ∧ a < 0x3C0 then
    (if a = 0x380 then s.feLive else s.fe.snap.getD s.feLive).getD (a - 0x380) 0
  else 0

/-! ## LG window (R251) and the parameter blocks -/

/-- Word n of a byte record. -/
def recordWord (l : List Byte) (n : Nat) : Word := BitVec.ofNat 16 (leAt l (2 * n) 2)

/-- A bank's word: 0xFFFF while it is being written (09, Edges). -/
def State.bankWord (s : State) (b : Bool) (n : Nat) : Word :=
  match s.lg.cur with
  | some c => if c.toB = b then 0xFFFF#16 else recordWord (s.bankOf b) n
  | none => recordWord (s.bankOf b) n

/-- The 72 words of the live totals (R251). -/
def State.totalsLive (s : State) : List Word :=
  (s.lg.totals.map (fun (t : Nat) =>
    [wordOfNat t 2, wordOfNat t 3, wordOfNat t 4, wordOfNat t 5, wordOfNat t 0, wordOfNat t 1])).flatten

/-- A word of a check value, low word first (R246, R251). -/
def kcvWord (k : Option (List Byte)) (n : Nat) : Word := wordOfNat (natOfBE (kcv k)) n

/-- ACOUNT to SERIAL (R251). -/
def State.lgInfo (s : State) (a : Nat) : Word :=
  if a = 0xF700 then BitVec.ofNat 16 s.lg.acount
  else if a = 0xF701 then s.lg.unaud
  else if a = 0xF702 then loWord s.lg.seqDone
  else if a = 0xF703 then hiWord s.lg.seqDone
  else if 0xF704 ≤ a ∧ a ≤ 0xF707 then recordWord s.lg.achain (a - 0xF704)
  else if a = 0xF708 then s.lg.recov
  else if a = 0xF709 then s.held (BitVec.ofNat 16 s.snapSlot)
  else if a = 0xF70A ∨ a = 0xF70B then s.held (kcvWord s.fram.key0 (a - 0xF70A))
  else if a = 0xF70C ∨ a = 0xF70D then s.held (kcvWord s.fram.key1 (a - 0xF70C))
  else if 0xF7F0 ≤ a ∧ a ≤ 0xF7F3 then wordOfNat s.fram.serial.toNat (a - 0xF7F0)
  else 0

/-- The live words of the parameter blocks (03, 06, 07, 10, 11, 12 Registers). -/
def State.lgLive (s : State) (a : Nat) : Word :=
  if a = 0xF80B then
    pack [(s.reg.state.toNat, 0), (b2n s.aon.ovl, 2), (b2n s.reg.scl, 3), (s.reg.att.toNat, 4), (b2n s.reg.synclk, 7),
          (if s.lineRole then s.pins.vsel.toNat else 0, 8)]
  else if a = 0xF80C then BitVec.ofNat 16 (s.reg.target / 100)
  else if a = 0xF82C then pack [(s.xb.bstate.toNat, 0), (s.xb.batt.toNat, 2)]
  else if a = 0xF82D then s.xb.ics.setWidth 16
  else if a = 0xF82E then s.xb.refCnt
  else if a = 0xF82F then s.xb.limCnt
  else if a = 0xF84A then s.ad.ovrCnt
  else if a = 0xF84B then pack [(b2n s.ad.compl, 0), (b2n s.ad.dopen, 1), (b2n s.ad.ovrs, 2)]
  else if a = 0xF84C then s.ad.seqSnap
  else if a = 0xF84D then s.ad.markSnap
  else if a = 0xF84E then s.ad.unrFirst
  else if a = 0xF84F then s.ad.unrLast
  else if 0xF888 ≤ a ∧ a ≤ 0xF88B then s.held (wordOfNat s.fram.pserial.toNat (a - 0xF888))
  else if 0xF890 ≤ a ∧ a ≤ 0xF893 then s.held (wordOfNat s.fram.drefl.toNat (a - 0xF890))
  else if 0xF894 ≤ a ∧ a ≤ 0xF897 then s.held (wordOfNat s.fram.drefp.toNat (a - 0xF894))
  else if a = 0xF898 then s.an.dval
  else if a = 0xF89A ∨ a = 0xF89B then s.held (wordOfNat s.fram.aseq.toNat (a - 0xF89A))
  else if a = 0xF89C ∨ a = 0xF89D then s.held (wordOfNat s.fram.rxaseq.toNat (a - 0xF89C))
  else if a = 0xF89E then s.an.missCnt
  else if a = 0xF89F then s.an.vioCnt
  else if 0xF8A0 ≤ a ∧ a ≤ 0xF8A7 then ((s.an.ppend.map f32Words).flatten).getD (a - 0xF8A0) 0
  else if a = 0xF8D0 then (if s.loopARole then BitVec.ofNat 16 (s.lp.target / 375) else 0)
  else if a = 0xF8D1 ∨ a = 0xF8D2 then (f32Words (F32.ofRatio s.lp.ib 1000000)).getD (a - 0xF8D1) 0
  else if a = 0xF8D3 then BitVec.ofNat 16 (min 4095 s.lp.vreq)
  else if a = 0xF8D4 then s.lp.lfCnt
  else if a = 0xF908 then s.tn.present
  else if a = 0xF909 then s.tn.txseq
  else if a = 0xF90A then s.tn.rxCnt
  else if a = 0xF90B then s.tn.crcCnt
  else if a = 0xF90C then s.tn.vioCnt
  else if a = 0xF90D then s.tn.eqmse
  else if a = 0xF90E then s.tn.toCnt
  else 0

/-- The writable bits of a parameter word; 0 for a word that is none (Registers of 03, 06, 07, 10, 11, 12). -/
def lgMask (a : Nat) : Word :=
  match [(0xF800, 0x07FF), (0xF801, 0x00FF), (0xF802, 0x007F), (0xF803, 0x0F77), (0xF804, 0x00FF), (0xF805, 0x00FF), (0xF806, 0x0FFF),
         (0xF807, 0x0FFF), (0xF808, 0x0FFF), (0xF809, 0x0FFF), (0xF80A, 0x0FFF), (0xF820, 0x03FF), (0xF821, 0x00FF), (0xF822, 0x0FFF),
         (0xF823, 0x3F3F), (0xF824, 0x073F), (0xF825, 0x0771), (0xF826, 0xFFFF), (0xF827, 0xFFFF), (0xF828, 0x00FF), (0xF829, 0x00FF),
         (0xF840, 0x0003), (0xF841, 0x0FFF), (0xF842, 0x000F), (0xF843, 0x000F), (0xF844, 0x000F), (0xF845, 0x000F), (0xF846, 0x000F),
         (0xF847, 0x000F), (0xF848, 0x000F), (0xF849, 0x000F), (0xF880, 0x0FFF), (0xF881, 0x00FF), (0xF882, 0x0003), (0xF883, 0x3FFF),
         (0xF884, 0xFFFF), (0xF885, 0xFFFF), (0xF886, 0x00FF), (0xF8C0, 0xFFFF), (0xF8C1, 0xFFFF), (0xF8C2, 0xFFFF), (0xF8C3, 0xFFFF),
         (0xF8C4, 0x01FF), (0xF8C5, 0x03FF), (0xF8C6, 0xFFFF), (0xF8C7, 0xFFFF), (0xF8C8, 0xFFFF), (0xF8C9, 0xFFFF), (0xF8CA, 0x0FFF),
         (0xF8CB, 0x0FFF), (0xF8CC, 0x007F), (0xF8CD, 0x0FFF), (0xF8CE, 0x00FF), (0xF8CF, 0xFFFF), (0xF900, 0x01FF), (0xF901, 0x007F),
         (0xF902, 0xFFFE), (0xF903, 0x00FF), (0xF904, 0x00FF)].lookup a with
  | some m => BitVec.ofNat 16 m
  | none => 0

/-- A word of the banks, the partner mirror and the snapshots. -/
def State.recordAt (s : State) (a : Nat) : Word :=
  if a < 0x80 then s.bankWord false a
  else if a < 0x100 then s.bankWord true (a - 0x80)
  else if a < 0x180 then recordWord s.fram.mirror0 (a - 0x100)
  else if a < 0x200 then recordWord s.fram.mirror1 (a - 0x180)
  else if 0x1000 ≤ a ∧ a < 0x2000 then recordWord ((s.fram.snaps.lookup ((a - 0x1000) / 64)).getD []) (a % 64)
  else 0

/-- A word of the LG window: an FRAM-held one reads 0 before NVR (R435). -/
def State.lgWord (s : State) (a : Nat) : Word :=
  if a < 0x2000 then s.held (s.recordAt a)
  else if a = 0xF600 then s.totalsLive.getD 0 0
  else if 0xF600 < a ∧ a < 0xF648 then (s.lg.snapTotals.getD s.totalsLive).getD (a - 0xF600) 0
  else if a < 0xF800 then s.lgInfo a
  else if 0xF810 ≤ a ∧ a < 0xF820 then s.held (s.lgw a)
  else if lgMask a != 0 then s.held (s.lgw a)
  else s.lgLive a

/-! ## EV window (09, Registers) -/

/-- The entry of a slot; zeros when empty. -/
def State.slotEntry (s : State) (audit : Bool) (slot : Nat) : LogEntry :=
  let e := if audit then s.fram.audit.lookup slot
    else if 1023 < slot then none
    else s.fram.events.find? (fun (x : LogEntry) => (x.seq - 1#32).toNat % 1024 == slot)
  e.getD { time := 0, seq := 0, code := 0, data := 0 }

/-- EV_PTR without AINC: LOG and ENTRY, and WORD. -/
def State.evEntry (s : State) : Nat := fld s.ev.ptr 3 12

/-- The eight words of the addressed entry as they stand. -/
def State.evLive (s : State) : List Word :=
  let b := (s.slotEntry (bitAt s.ev.ptr 14) (fld s.ev.ptr 3 11)).bytes
  (List.range 8).map (recordWord b)

/-- The word of the EV window at EV_PTR: words 1 to 7 from the snapshot of the same entry (R428); 0 before NVR (R435). -/
def State.evWord (s : State) : Word :=
  let w := fld s.ev.ptr 0 3
  s.held <| if w = 0 then s.evLive.getD 0 0
  else match s.ev.snap with
    | some (e, ws) => if e = s.evEntry then ws.getD w 0 else s.evLive.getD w 0
    | none => s.evLive.getD w 0

/-! ## DS window (13, 14 Registers) -/

/-- The live words of a port. -/
def State.dsLive (s : State) (p : Port) (o : Nat) : Word :=
  let l := s.live p
  if o < 0x20 then recordWord (if p = .A then s.dl.snrA else s.dl.snrB) o
  else if o < 0x40 then recordWord (if p = .A then s.dl.noiseA else s.dl.noiseB) (o - 0x20)
  else if o = 0x40 then (if p = .A then s.dl.peerA else s.dl.peerB).setWidth 16
  else if o = 0x41 then (if p = .A then s.dl.rssiA else s.dl.rssiB).setWidth 16
  else if o = 0x42 then
    s.held (if s.agentOn p then 0x80#16
            else if p = s.fram.upPort then pack [(s.fram.lidx.toNat, 0), (b2n s.fram.joined, 7)] else 0)
  else if o = 0x43 then l.s1cyc.extractLsb' 0 16
  else if o = 0x44 then BitVec.ofNat 16 (l.s1cyc.toNat / 65536)
  else if o = 0x45 then loWord l.s1sec
  else if o = 0x46 then l.frCnt
  else if o = 0x47 then l.hdrErr
  else if o = 0x48 then l.rtCnt
  else if o = 0x49 then l.lockLost
  else 0

/-- The writable bits of a DS parameter word; 0 for a word that is none. -/
def dsMask (a : Nat) : Word :=
  if 0x1000 ≤ a ∧ a < 0x1080 then
    (match a % 0x40 with
     | 0x30 => 0xFFFF#16
     | 0x31 => 0x000F#16
     | 0x32 => 0x000F#16
     | 0x33 => 0xFFFF#16
     | 0x34 => 0xFFFF#16
     | n => if n < 0x10 then 0xFFFF#16 else if n < 0x30 then 0x1F1F#16 else 0)
  else if a = 0x2003 then 7
  else if a = 0x2006 then 3
  else if a = 0x2007 then 0xFF
  else if 0x2000 ≤ a ∧ a < 0x2008 then 0xFFFF
  else 0

/-- The network's live words. -/
def State.dnLive (s : State) (a : Nat) : Word :=
  if a = 0x2010 then s.dn.epochNo
  else if a = 0x2011 then s.held (s.fram.hops.setWidth 16)
  else if a = 0x2012 then s.held (s.fram.upaddr.setWidth 16)
  else if a = 0x2013 then s.held (loWord s.fram.lastSweep)
  else if a = 0x2014 then s.held (hiWord s.fram.lastSweep)
  else if a = 0x2015 then s.dn.offs
  else if a = 0x2016 then s.dn.dly
  else if 0x2018 ≤ a ∧ a ≤ 0x201B then BitVec.ofNat 16 (min 65535 (s.dn.counts.getD (a - 0x2018) 0))
  else if a = 0x2020 then s.dn.vioCnt
  else if a = 0x2021 then s.dn.rtxCnt
  else 0

/-- A word of the DS window, or of the node table when NT is set; in roles other than H that table reads 0. -/
def State.dsWord (s : State) (nt : Bool) (a : Nat) : Word :=
  if nt then (if s.pins.role = .H then s.held (s.ntw a) else 0)
  else if a < 0x1000 then s.held (s.dsw a)
  else if dsMask a != 0 then s.held (s.dsw a)
  else if 0x1080 ≤ a ∧ a < 0x1100 then s.dsLive .A (a - 0x1080)
  else if 0x1100 ≤ a ∧ a < 0x1180 then s.dsLive .B (a - 0x1100)
  else if a = 0x1180 then BitVec.ofInt 16 s.ck.steer
  else if 0x3000 ≤ a ∧ a < 0x3400 then s.held (s.dsw a)
  else s.dnLive a

/-! ## PL window (R420) -/

/-- A word of the PL window. -/
def State.plWord (s : State) (a : Nat) : Word :=
  if a < 0x100 then s.held (s.plw a)
  else if a = 0x100 then loWord (s.ruleBits Rule.inForce)
  else if a = 0x101 then hiWord (s.ruleBits Rule.inForce)
  else if a = 0x102 then s.held (loWord s.fram.latched)
  else if a = 0x103 then s.held (hiWord s.fram.latched)
  else if a = 0x106 then s.awin
  else if a = 0x107 then s.pl.ovfl
  else if a = 0x108 then s.pl.asserts
  else if 0x110 ≤ a ∧ a < 0x130 then (s.ruleAt (a - 0x110)).state.setWidth 16
  else 0

/-! ## The register map (R447) -/

/-- A register's word as a read of it gives it, at an even address below 0x80; no side effect. -/
def State.readReg (s : State) (a : Nat) : Word :=
  match a with
  | 0x00 => 0x4422
  | 0x02 => pack [(b2n s.hb.gie, 0), (Role.code s.pins.role, 14)]
  | 0x04 => s.syStat
  | 0x06 => s.hb.irq
  | 0x08 => s.hb.ien
  | 0x0A => s.pwState
  | 0x0C => s.pwGov
  | 0x0E => s.pwVset
  | 0x10 => pack [(s.pw.baki.toNat, 0), (s.pw.tsel.toNat, 2), (s.pw.plim.toNat, 4), (s.pw.txduty.toNat, 8)]
  | 0x12 => s.pwTel
  | 0x14 => s.ck.ctl.setWidth 16
  | 0x16 => s.ckStat
  | 0x18 => s.orCtl
  | 0x1A => s.orStat
  | 0x1C => s.orr.speed
  | 0x1E => pack [(s.orr.ptr.toNat, 0), (b2n s.orr.ainc, 15)]
  | 0x20 => s.orWord s.orr.ptr.toNat
  | 0x22 => s.xbCtl
  | 0x24 => s.held (s.nvReg 0x24)
  | 0x26 => s.held (s.nvReg 0x26)
  | 0x28 => s.nvBits 0x28 0x0FFF
  | 0x2A => s.xbFlt
  | 0x2C => s.adCtl
  | 0x2E => s.ad.data.extractLsb' 0 16
  | 0x30 => s.ad.dathSnap.getD s.adDath
  | 0x32 => s.ad.daLoop
  | 0x34 => s.ad.daAux
  | 0x36 => s.ad.nco
  | 0x38 => s.lpCtl
  | 0x3A => s.held (s.nvReg 0x3A)
  | 0x3C => s.lpStat
  | 0x3E => s.lpTherm
  | 0x40 => s.tnCtl
  | 0x42 => s.tnStat
  | 0x44 => fifoHead s.toneRun s.tn.rxf
  | 0x46 => s.dsCtl
  | 0x48 => s.dsStat
  | 0x4A => s.held (s.ownAddr.setWidth 16)
  | 0x4C => fifoHead s.lineOn s.dn.rxf
  | 0x4E => s.dn.ptr
  | 0x50 => s.dsWord (bitAt s.dn.ptr 14) (fld s.dn.ptr 0 14)
  | 0x52 => s.anCtl
  | 0x54 => s.anStat
  | 0x56 => s.feCtl
  | 0x58 => pack [(s.fe.ptr.toNat, 0), (b2n s.fe.ainc, 15)]
  | 0x5A => s.feWord s.fe.ptr.toNat
  | 0x5C => s.lgCtl
  | 0x5E => s.lg.ptr
  | 0x60 => s.lgWord s.lg.ptr.toNat
  | 0x62 => s.evStat
  | 0x64 => s.ev.ptr
  | 0x66 => s.evWord
  | 0x68 => s.scCtl
  | 0x6A => 0
  | 0x6C => s.thStat
  | 0x6E => s.plCtl
  | 0x70 => pack [(s.pl.ptr.toNat, 0), (b2n s.pl.ainc, 15)]
  | 0x72 => s.plWord s.pl.ptr.toNat
  | 0x74 => s.hbCfg
  | 0x76 => loWord s.aon.rtc
  | 0x78 => s.hb.timeSnap.getD (hiWord s.aon.rtc)
  | 0x7C => s.tsCtl
  | 0x7E => s.hb.scratch
  | _ => 0

end Sys2Proof.Machine
end

