-- ==== Sys2Proof/Machine/Power.lean ====
section
/-! DEFINITION. Sys2Proof/Machine/Power.lean: the power sequencer, the governor tick, the second boundary, the VRES thresholds, thermal
shutdown and the debug freeze (02_energy_and_power_governor.md, 16_host_bus_and_register_map.md R440 to R444). -/

namespace Sys2Proof.Machine

open Sys2Proof.Config (key)

/-! ## Debug freeze (R442 to R444) -/

/-- A freeze is in force. -/
def State.frozen (s : State) : Bool := s.hb.frzTs || s.hb.frzTest

/-- CORE is powered: WAKE to DRAIN, a freeze included. -/
def State.corePowered (s : State) : Bool :=
  s.pw.st == .wake || s.pw.st == .rails || s.pw.st == .calib || s.pw.st == .run || s.pw.st == .drain

/-- After a freeze: FRZD, FSRC, 0x0E01, 0x0F0A when the seal was closed in it, the trips it held back (R162, R444). A crystal that failed
in it is reported at the next WAKE (R87). -/
def State.freezeDone (s : State) (test : Bool) (ms : Nat) : State :=
  let data := evData [(b2n test, 0), (ms, 8)]
  let t := { s with hb := { s.hb with frzTs := false, frzTest := false, frzd := true, fsrc := test, frzClosed := false } }.logEv 0x0E01 data
  let u := if s.hb.frzClosed then (t.logEv 0x0F0A data).irq 15 else t
  u.releaseTrips

/-- RSTN low, a loss or 150 °C end a freeze at once (R443); the length the log takes is not among what the command carries: a free
value (log entry 5). -/
def State.freezeAbort (s : State) : State :=
  if s.frozen then
    let (ms, t) := s.draw
    t.freezeDone s.hb.frzTest ms
  else s

/-- One source of the freeze ends; the freeze with the last of them (R442, R444). -/
def State.freezeEnd (s : State) (test : Bool) (ms : Nat) : State :=
  let t := { s with hb := { s.hb with frzTs := s.hb.frzTs && test, frzTest := s.hb.frzTest && !test } }
  if s.frozen && !t.frozen then t.freezeDone test ms else t

/-- VIO is present: supplied from outside, or by the EWT from RAILS on (R453). -/
def State.vioOn (s : State) : Bool := s.pins.vioExternal || s.pw.st != .wake

/-- TEST is high: it freezes a running CORE unless RSTN is low (R442; 16, Edges; R460). -/
def State.testFreeze (s : State) : State :=
  if s.pins.test && s.corePowered && s.vioOn && !s.pins.rstnLow then s.freezeBy true else s

/-! ## AD_CTL (R165, R166, R168, R178) -/

/-- AD_CTL takes a word: its FRAM-held fields through the write buffer, CH for the next start, EN's rise starting the converter. beside: an
Orrery action has set CH in the same CORE cycle, and the word's CH is discarded (R167). -/
def State.writeAdCtl (s : State) (v : Word) (beside : Bool) : State :=
  let w := merge (if beside then 0x01F0 else 0x01FF) (s.nvReg 0x2C) v
  let t := s.nvWrite 0x2C 0 (key 0 0x2C) w
  let u := { t with ad := { t.ad with drie := bitAt v 9, ovie := bitAt v 10 } }
  if u.nvReg 0x2C != w then u
  else
    let y := if beside then u else { u with ad := { u.ad with ch := v.extractLsb' 0 4 } }.channel15 (v.extractLsb' 0 4) 0
    let x := if 12 ≤ fld v 4 4 then y.logEv 0x0505 (evData [(0x2C, 0), (fld v 4 4, 16)]) else y
    if x.runOrDrain && !x.ad.runs then x.nextConv else x

/-! ## Rows that fail their check (R219) -/

/-- Rows verified by the end of CALIB: node, segment and bit-load tables. -/
def lateRow (r : Nat) : Bool :=
  r / 0x1000 == 6 || (r / 0x1000 == 4 && (decide (r % 0x1000 < 0x100) || decide (0x300 ≤ r % 0x1000)))

/-- The NV fields with a row that State holds under names of their own, at their shipment content: LAST and CAUSE; JOINED and the address;
STATE and STALE; PSERIAL; the references and sequences; LIDX; HOPS, UPADDR and LASTSW; LATCHED. -/
def Fram.loadFields (f : Fram) (r : Nat) : Fram :=
  match r with
  | 0x0000 => { f with last := 0, cause := 0 }
  | 0x0004 => { f with joined := false, addr := 0 }
  | 0x0005 => { f with anState := 0, stale := false }
  | 0x3F88 => { f with pserial := 0 }
  | 0x3F89 => { f with drefl := 0, drefp := 0, drefSet := false, aseq := 0, rxaseq := 0 }
  | 0x410C => if f.upPort = .A then { f with lidx := 0 } else f
  | 0x4114 => if f.upPort = .B then { f with lidx := 0 } else f
  | 0x4201 => { f with hops := 0, upaddr := 0, lastSweep := 0 }
  | 0x5010 => { f with latched := 0 }
  | _ => f

/-- A row's words and fields at their shipment content; a bit-load row's tables are not valid. -/
def State.loadRow (s : State) (r : Nat) : State :=
  let slot := fun (g : Bool × Nat × Bool × Nat) => 0x4000 + 0x80 * b2n g.1 + 2 * g.2.1
  ({ s with
    fram := { s.fram with
      nv := s.fram.nv.filter (fun e => e.1 / 16 != r),
      gens := s.fram.gens.filter (fun g => !(r == slot g || r == slot g + 1)) }.loadFields r,
    lg := { s.lg with cdigDirty := true } }.logEv 0x0706 r).irq 6

/-- The rows of a list that are checked now. -/
def State.loadRows (s : State) (rows : List Nat) (late : Bool) : State :=
  (rows.filter (fun r => decide (r < 0x7000) && lateRow r == late)).foldl State.loadRow s

/-! ## WAKE (R47, R54, R55, R226) -/

/-- CORE starts: every part it holds takes its reset value, and what FRAM, AON and the pins hold stays (log entry 3). -/
def State.coreStart (s : State) : State :=
  { pending := s.pending, fram := s.fram, aon := s.aon, pins := s.pins, drawn := s.drawn, pw := { st := .wake, stepBusy := true },
    lg := { cdigDirty := true } }

/-- One thermal record reported (R54, R232, R441). -/
def State.reportTherm (s : State) (r : Option ThermRec) : State :=
  match r with
  | none => s
  | some r =>
    let t := { s with fram := { s.fram with last := BitVec.ofNat 3 r.last.code, cause := 5 } }.nvPut (key 0 0x6C)
      (s.nvReg 0x6C ||| pack [(1, 10), (b2n r.delayed, 11)])
    let u := (t.logEv 0x0102 0).irq 14
    if r.lostEvents = 0 then u else { u with ev := { u.ev with elost := true } }.logEv 0x0708 r.lostEvents

/-- The records a HOLD left in FRAM and in AON are reported and cleared. -/
def State.reportHold (s : State) : State :=
  let t := (s.reportTherm s.fram.therm).reportTherm s.aon.therm
  { t with fram := { t.fram with therm := none }, aon := { t.aon with therm := none } }

/-- RTCLOST and event 0x0107 at a WAKE that follows OFF (R55). -/
def State.rtcCheck (s : State) : State :=
  let t := { s with pw := { s.pw with rtclost := s.aon.fromOff }, aon := { s.aon with fromOff := false } }
  if s.aon.fromOff then t.logEv 0x0107 0 else t

/-- A key load that DRAIN cut (09, Edges). -/
def State.reportCut (s : State) (cut : Option (BitVec 2)) : State :=
  match cut with
  | some slot => s.logEv 0x0F05 (evData [(slot.toNat, 0), (5, 8)])
  | none => s

/-- WAKE is entered (R47): rows checked, banks recovered, the reports that CORE owes. -/
def State.enterWake (s : State) (env : WakeEnv) : State :=
  let t := s.coreStart
  let u := { t with pins := { t.pins with vioExternal := env.vioExternal } }
  ((((((u.loadRows env.badRows false).recover).rtcCheck).reportHold).xtalReport).reportCut s.sc.cutLoad).testFreeze

/-- An ON request stands (R48). -/
def State.onStands (s : State) : Bool := s.pins.supply && !s.pins.rstnLow && !s.aon.softLatch

/-- BACKUP leaves for WAKE when an ON request stands and the thermal latch is clear (R47). -/
def State.tryWake (s : State) (env : WakeEnv) : State :=
  if s.pw.st == .backup && s.onStands && !s.aon.thermLatch then s.enterWake env else s

/-! ## BACKUP, OFF (R47, R55) -/

/-- CORE stops: converter, DACs, regulator, bridge, boost, loops, the charge of VBAK (R38, R54, R188, R300; 03, 06 Edges). -/
def State.coreStop (s : State) : State :=
  let t := s.regStop.boostOff
  { t with pw := { t.pw with charging := false }, ad := { t.ad with runs := false, daLoop := 0, daAux := 0 }, xb := { t.xb with pol := 0, pair := false },
           lp := { t.lp with driving := false, amode := 0 }, dl := { t.dl with onLine := none, searchOn := none, burst := none },
           hb := { t.hb with frzTs := false, frzTest := false, frzClosed := false } }

/-- Both DACs are forced to zero scale where DRAIN ends in BACKUP or OFF; the two events reach the ring before CORE stops (R188; log
entry 84). -/
def State.zeroAtEnd (s : State) : State := (s.zeroDacs 3).writeEvent.writeEvent

/-- BACKUP is entered. -/
def State.enterBackup (s : State) : State :=
  let t := s.coreStop
  { t with pw := { t.pw with st := .backup, offPend := false }, pins := { t.pins with vioExternal := false } }

/-- OFF is entered: what AON held is lost; the seal filter is left at the pin's level (R55, R56). -/
def State.enterOff (s : State) : State :=
  let t := s.enterBackup
  { t with pw := { t.pw with st := .off }, aon := { sealLevel := s.aon.sealLevel, fromOff := true } }

/-! ## DRAIN (R50, R52, R229) -/

/-- What leaving RUN ends: the totals counted up to now, provisional increments, the commit, which VRES pays above 8.0 V only, rules,
tone, announcements, line time (R34, R52, R223, R229, R313, R384, R405). -/
def State.leaveRun (s : State) : State :=
  let (disc, t) := s.toFallback.magUpTo.discardPending
  let c := if 800 < t.pins.vres then t.trigger 4 disc [] else t
  let u := ((c.policyLeave).tnCut).dropAnnounces 4
  { u with ck := { u.ck with ltv := u.ck.ltv && u.isHead, lpend := if u.isHead then u.ck.lpend else 0 } }

/-- DRAIN is entered with a cause (R52, R60): grants close, the boost and the charge of VBAK stop, both DACs at zero scale, loop A on the
fallback; the converter runs while EN is 1 (R165); the level stays, at L2 or higher, and no count toward a rise or a restoration goes on
(02, Edges). -/
def State.enterDrain (s : State) (cause : BitVec 3) : State :=
  let run := s.pw.st == .run
  let s1 := if run then s.leaveRun else s
  let s2 := { s1 with
    fram := { s1.fram with last := BitVec.ofNat 3 s.pw.st.code, cause := cause },
    pw := { s1.pw with st := .drain, offPend := false, stepBusy := false, drainRun := run, level := if s1.pw.level < 2 then 2 else s1.pw.level,
                         upCount := 0, fitCount := 0, charging := false } }
  let s3 := (s2.logEv 0x0101 (evData [(cause.toNat, 0), (s.pins.vres, 8)])).irq 0
  let s4 := (((s3.zeroDacs 1).boostOff).cutLoad).abortCeremony 4
  if s4.ad.runs || !s4.hb.nvr then s4 else s4.nextConv

/-- An OFF request (R47, R48, R50): in a start-up state after the step in progress; the first one's cause stands. -/
def State.offRequest (s : State) (cause : BitVec 3) : State :=
  match s.pw.st with
  | .run => s.enterDrain cause
  | .wake | .rails | .calib =>
    if s.pw.offPend then s
    else if s.pw.stepBusy then { s with pw := { s.pw with offPend := true, offCause := cause } }
    else s.enterDrain cause
  | _ => s

/-- The cause of a supply loss (02, PW_STATE). -/
def State.lossCause (s : State) : BitVec 3 := if s.pins.role = .T then 1 else 2

/-- The primary supply is lost: the soft-off latch clears, HOLD becomes BACKUP (R47, R48). -/
def State.supplyLost (s : State) : State :=
  let t := { s.freezeAbort with pins := { s.freezeAbort.pins with supply := false }, aon := { s.freezeAbort.aon with softLatch := false } }
  if t.pw.st == .hold then t.enterBackup else t.offRequest t.lossCause

/-- RSTN has gone low: the soft-off latch clears (R48). -/
def State.resetLow (s : State) : State :=
  let t := { s.freezeAbort with pins := { s.freezeAbort.pins with rstnLow := true }, aon := { s.freezeAbort.aon with softLatch := false } }
  t.offRequest 3

/-- PW_STATE.REQ = 0b10 after the unlock (R48). -/
def State.softOff (s : State) : State := { s with aon := { s.aon with softLatch := true } }.offRequest 4

/-- Everything DRAIN writes to FRAM is written, and no frame and no coil half is in flight (R52, R57, R59). -/
def State.drained (s : State) : Bool :=
  s.lineFree && s.xb.pol == 0 &&
  s.lg.cur.isNone && s.lg.waiting.isEmpty && s.lg.queue.isEmpty && s.hb.rows.isEmpty && s.ev.buf.isEmpty

/-- DRAIN ends: WAKE on a standing ON request, else BACKUP, or OFF with VBAK (in 10 mV) below 1.80 V and no supply (R47, R51). -/
def State.drainEnd (s : State) (vbak : Nat) (env : WakeEnv) : State :=
  if s.onStands then s.coreStop.enterWake env
  else if decide (vbak < 180) && !s.pins.supply then s.zeroAtEnd.enterOff
  else s.zeroAtEnd.enterBackup

/-! ## Role pins (R3, R456) -/

/-- A ROLE pin's reading; between the two levels it is a free value (17, Edges; log entry 5). -/
def State.strap (s : State) : Strap → Bool × State
  | .low => (false, s)
  | .high => (true, s)
  | .between =>
    let (n, t) := s.draw
    (n % 2 == 1, t)

/-- The role of the sampled code (R3). -/
def roleOf (r1 r0 : Bool) : Role := if r1 then (if r0 then .H else .TM) else if r0 then .M else .T

/-- The end of reset: the role is sampled, RSTN is high, an ON request may stand (R3, R48). -/
def State.resetEnd (s : State) (r1 r0 : Strap) (env : WakeEnv) : State :=
  let (b1, t) := s.strap r1
  let (b0, u) := t.strap r0
  { u with pins := { u.pins with role := roleOf b1 b0, rstnLow := false } }.tryWake env

/-! ## RAILS, CALIB, RUN entry (R47) -/

/-- WAKE's steps are done: NV fields restored, RAILS entered; boost and regulator start, and the fault inputs' filters run (R47, R66,
R159, R435). -/
def State.enterRails (s : State) (vaux : Nat) : State :=
  let t := { s with
    hb := { s.hb with nvr := true }, pw := { s.pw with st := .rails, stepBusy := true },
    ad := { s.ad with ch := (s.nvReg 0x2C).extractLsb' 0 4 },
    xb := { s.xb with per := s.nvReg 0x24, duty := s.nvReg 0x26, dt := s.nvReg 0x28 },
    fe := { s.fe with srcLive := bitAt (s.nvReg 0x56) 1, modelLive := s.feModel } }
  let u := t.boostStart.faultLevels
  let v := if u.lineRole then u.regStart vaux else { u with reg := { u.reg with stepEnded := true } }
  v.testFreeze

/-- CALIB is entered: the MAINS PLL starts, in free-run when MAINSFR says so (R47, R93), and the converter with channel 13 (R180). -/
def State.enterCalib (s : State) (vres : Nat) : State :=
  ({ s with pins := { s.pins with vres := vres }, pw := { s.pw with st := .calib, stepBusy := true } }.mainsSwitch).mainsForce.nextConv

/-- The AD_CTL word that CALIB held, or the converter as it stands (R180). -/
def State.startAdc (s : State) : State :=
  let t := match s.ad.heldCtl with
    | some v => { s with ad := { s.ad with heldCtl := none } }.writeAdCtl v false
    | none => s
  if t.ad.runs then t else t.nextConv

/-! ## Shedding (R42, R43, R60, R313, R363) -/

/-- SHED's rise to 4 or more: event 0x0105 with the budget in µA, SY_IRQ[0] (R60). before: SHED before. -/
def State.shedRise (s : State) (before : Nat) : State :=
  if before < 4 && 4 ≤ s.shedCode then (s.logEv 0x0105 (BitVec.ofInt 32 s.pw.budget).toNat).irq 0 else s

/-- Steps 1, 3 and 4 follow VRES, and in the line roles PLIM's steps (R42, R43); before RUN nothing is shed (log entry 18). -/
def State.shedVres (s : State) : State :=
  if s.runOrDrain then
    { s with pw := { s.pw with
      shedBulk := decide (s.pins.vres < 1600) || decide (1 ≤ s.pw.lineShed),
      shedCoil := s.xbEn && (decide (s.pins.vres < 1400) || decide (3 ≤ s.pw.lineShed)),
      shedProt := decide (s.pins.vres < 1200) || decide (4 ≤ s.pw.lineShed) } }
  else s

/-- VBAK is charged in RUN while VRES is at or above 16.0 V, up to 3.30 V, unless BAKI is 0 (R38). -/
def State.chargeJudge (s : State) : State :=
  { s with pw := { s.pw with charging := s.running && decide (1600 ≤ s.pins.vres) && s.pw.baki != 0 && decide (s.pins.vbak < 330) } }

/-- VRES as it now stands, with what it sheds and restores, the charge of VBAK and the boost's restart. vres in 10 mV. -/
def State.takeVres (s : State) (vres : Nat) : State :=
  (({ s with pins := { s.pins with vres := vres } }.chargeJudge.boostRestart).shedVres).shedRise s.shedCode

/-- Receive on a port is shed or restored: event 0x0B0A; on the upstream port LINE tracking stops and is reacquired (R363). -/
def State.rxShed (s : State) (p : Port) (on : Bool) : State :=
  let now := if p = .A then s.pw.shedRx1 else s.pw.shedRx2
  if now = on then s
  else
    let t := if p = .A then { s with pw := { s.pw with shedRx1 := on } } else { s with pw := { s.pw with shedRx2 := on } }
    let u := if p = s.fram.upPort && !s.isHead then { t with ck := { t.ck with linelk := false } } else t
    (u.dsStatHeld).dslEvent 0x0B0A (evData [(b2n on, 0), (Port.code p, 8)])

/-- A service that is no longer enabled is not shed: no event. -/
def State.dropSheds (s : State) : State :=
  { s with pw := { s.pw with shedRx2 := s.pw.shedRx2 && s.pben, shedTone := s.pw.shedTone && s.tnEn } }

/-! ## Budget and level (R29, R40, R41) -/

/-- A level's cost in µA (R40). -/
def levelCost (l : Nat) : Int := [110, 170, 290, 530, 1010].getD l 1970

/-- LMAX as it acts (R41). -/
def State.lmaxNow (s : State) : Nat := min 5 s.pw.lmax.toNat

/-- The programmed DAO current in µA (R29, R184). -/
def State.iDao (s : State) : Int := if s.daoMode then divRne ((s.ad.daAux.toNat * 30518 : Nat) : Int) 1000000 else 0

/-- The budget in µA (R29): I_FIX 1.60 mA, margin 0.15 mA. -/
def State.budgetNow (s : State) : Int := (s.icmd / 1000 : Nat) - 1600 - s.iDao - 150

/-- Descant receive on the first port, the second, the tone modem, in µA, as enabled in RUN and DRAIN (R40). -/
def State.services (s : State) : Int × Int × Int :=
  if s.runOrDrain then (600, if s.pben then 450 else 0, if s.tnEn && s.tnLoop then 120 else 0) else (0, 0, 0)

/-- The cost of the services that run (R40). -/
def State.svcCost (s : State) : Int :=
  let (a, b, c) := s.services
  (if s.pw.shedRx1 then 0 else a) + (if s.pw.shedRx2 then 0 else b) + (if s.pw.shedTone then 0 else c)

/-- The need beside a level: services and CHGMIN (R40). -/
def State.needNow (s : State) : Int := s.svcCost + 100 * s.pw.chgmin.toNat

/-- Level l fits the budget (R40). -/
def State.fits (s : State) (l : Nat) : Bool := decide (levelCost l + s.needNow ≤ s.pw.budget)

/-- The cost of the service next to be restored: tone, first port, second port (R43). -/
def State.nextRestore (s : State) : Option Int :=
  let (a, b, c) := s.services
  if s.pw.shedTone then some c else if s.pw.shedRx1 then some a else if s.pw.shedRx2 then some b else none

/-- No level fits: steps 5 and 6 shed as far as needed (R43). -/
def State.shedServices (s : State) : State :=
  let s1 := if s.fits 0 || !s.pben then s else s.rxShed .B true
  let s2 := if s1.fits 0 then s1 else s1.rxShed .A true
  if s2.fits 0 || !s2.tnEn then s2 else s2.toneShed true

/-- The highest level up to LMAX that fits, L0 when none does (R40). -/
def State.target (s : State) : Nat := ((List.range (s.lmaxNow + 1)).filter s.fits).foldl max 0

/-- The level toward the target: down at once, up counted for LEVEL_RISE (R40). -/
def State.levelTo (s : State) (target : Nat) : State :=
  let l := s.pw.level.toNat
  { s with pw := { s.pw with
      level := if target < l then BitVec.ofNat 3 target else s.pw.level,
      upCount := if l < target then s.pw.upCount + 1 else 0,
      shedLevel := s.runOrDrain && decide (target < s.lmaxNow) } }

/-- The governor of role T at a tick (R40, R43). -/
def State.governT (s : State) : State :=
  let s1 := { s with pw := { s.pw with budget := s.budgetNow } }.dropSheds
  let target := s1.target
  let room := match s1.nextRestore with
    | some c => decide (levelCost 0 + s1.needNow + c ≤ s1.pw.budget)
    | none => false
  let s2 := (if s1.fits 0 then s1 else s1.shedServices).levelTo target
  { s2 with pw := { s2.pw with fitCount := if room then s2.pw.fitCount + 1 else 0,
                               surplus := s2.pw.budget - levelCost s2.pw.level.toNat - s2.svcCost } }

/-- The estimate against PLIM in mW: above it, or below it less 10 % (R42; 0 sets no limit). -/
def State.overPlim (s : State) : Bool := s.pw.plim != 0 && decide (250 * s.pw.plim.toNat < s.pw.pin)

/-- As overPlim, for the restoration. -/
def State.underPlim (s : State) : Bool := s.pw.plim == 0 || decide (10 * s.pw.pin < 9 * 250 * s.pw.plim.toNat)

/-- Steps 5 and 6 as the count of steps stands (R42). -/
def State.lineSteps (s : State) : State :=
  let k := s.pw.lineShed
  let s1 := if s.pben then s.rxShed .B (decide (5 ≤ k)) else s
  let s2 := s1.rxShed .A (decide (5 ≤ k))
  if s2.tnEn then s2.toneShed (decide (6 ≤ k)) else s2

/-- The governor of the line roles at a tick (R42): one step shed per tick, one restored per 100 ticks; step 2 takes one level off LMAX
(log entry 18). -/
def State.governLine (s : State) : State :=
  let cnt := if s.underPlim then s.pw.lineCount + 1 else 0
  let k := if s.overPlim then min 6 (s.pw.lineShed + 1) else if 100 ≤ cnt then s.pw.lineShed - 1 else s.pw.lineShed
  let lv := if 2 ≤ k then s.lmaxNow - 1 else s.lmaxNow
  { s with pw := { s.pw with lineCount := if 100 ≤ cnt then 0 else cnt, lineShed := if s.running then k else 0, upCount := 0,
                             level := BitVec.ofNat 3 (if s.running then lv else s.lmaxNow),
                             shedLevel := s.running && decide (2 ≤ k) && s.lmaxNow != 0 } }.dropSheds.lineSteps

/-- The governor's part of a tick: none in WAKE, which runs at L0, and in DRAIN, which holds its level (R47; 02, Edges). -/
def State.govern (s : State) : State :=
  if s.pw.st == .wake || s.pw.st == .drain then s
  else if s.lineRole then s.governLine else s.governT

/-! ## The tick (R39, R40) -/

/-- TH_STAT.TEMP of a die temperature in 0.1 °C (16, Registers). -/
def tempCode (die : Int) : BitVec 9 := BitVec.ofInt 9 (clampInt 0 511 (Int.fdiv die 5 + 128))

/-- What the analog parts show at the tick. -/
def State.takeEnv (s : State) (e : TickEnv) : State :=
  { s with pins := { s.pins with vres := e.vres, vaux := e.vaux, die := e.die, vbak := e.vbak, flt := e.flt },
           hb := { s.hb with temp := tempCode e.die },
           dl := if s.lineOn then { s.dl with csa := e.csa && s.rxOn .A && !s.sendingOn .A, csb := e.csb && s.rxOn .B && !s.sendingOn .B } else s.dl,
           pw := { s.pw with ticks := s.pw.ticks + 1, pin := s.regPower e.vaux e.cs1 e.cs2 } }.chargeJudge.boostRestart

/-- The regulator at a tick: a period boundary while it switches (log entry 75), then 1,000 µs of its ramp or slew (R65, R66). -/
def State.regTick (s : State) : State :=
  (if s.reg.state = 1 ∨ s.reg.state = 2 then s.regBoundary else s).regSlewed 1000

/-- Loop A and loop B at a tick (R283, R304, R306). -/
def State.loopTick (s : State) : State :=
  let t := if s.running then s.loopATick else s
  if t.runOrDrain then t.adaptiveTick.foldTick else t

/-- A governor tick with CORE running: policy from the sources at its start (R405), loops, governor, line. -/
def State.coreTick (s : State) (e : TickEnv) : State :=
  let s0 := (s.takeEnv e).lineTick.mainsTick.regTick.toneTick.orrTick
  let s1 := (s0.when s0.xbOn State.faultLevels).policyTick
  let s2 := s1.loopTick.govern
  ((s2.shedVres).shedRise s.shedCode).copiesTick.onLineTick.searchTick

/-- The services that a restoration at a tick brings back: one per tick, tone first (R43). -/
def State.restoreOne (s : State) : State :=
  let t := if s.pw.shedTone then s.toneShed false
    else if s.pw.shedRx1 then s.rxShed .A false
    else if s.pw.shedRx2 then s.rxShed .B false else s
  { t with pw := { t.pw with fitCount := 0 } }

/-! ## RUN entry -/

/-- RTRN, EPOCH and LEAVE of a word of DS_CTL (R352, R383, R385). -/
def State.dsActions (s : State) (v : Word) : State :=
  let x := if bitAt v 1 && s.running then s.retrainEvery else s
  let y := if bitAt v 8 && x.running && x.isHead && !x.dn.epr then x.startEpoch else x
  if bitAt v 10 then y.leaveSystem else y

/-- The actions DS_CTL asked for before RUN (R98). -/
def State.dsCtlHeld (s : State) : State := { s with dl := { s.dl with heldCtl := 0 } }.dsActions s.dl.heldCtl

/-- RUN is entered (R47): rows checked late, CALIB's checks, CDIG, the seal, Antiphon's STATE, the Orrery, line time, the source, the loops,
the policy engine, the converter, what was written for LINE and TONE while they were stopped (R98). -/
def State.enterRun (s : State) (badRows : List Nat) : State :=
  let s1 := s.calibCheck.loadRows badRows true
  let s2 := { s1 with pw := { s1.pw with st := .run, stepBusy := false }, lp := { s1.lp with dT := 0, filt := none } }.irq 0
  ((((((s2.cdigTake.anActivate.sealAtRun).orrRun0).headTime).takeSource).policyRun).startAdc).dsStatHeld.tnStatHeld.dsCtlHeld.chargeJudge.shedVres.shedRise 0

/-! ## VRES falls (R34 to R36, R60) -/

/-- The coil half in flight is cut with its event (R35, R60: kind 3). -/
def State.cutCoil (s : State) : State :=
  if s.xb.pol = 0 then s else s.cutHalf.logEv 0x0106 (evData [(3, 0), (s.pins.vres, 16)])

/-- VRES has fallen to 10.0 V in RUN (R35, R36). -/
def State.fall10 (s : State) : State := (((s.takeVres (min 1000 s.pins.vres)).cutBulk).cutCoil).irq 0

/-! ## Thermal shutdown (R53, R54, R441) -/

/-- The bank of a commit cut short, as far as its rows are written, 32 bytes each; the row in flight completes, so that the bank's old
content never stands whole (R218, R224, R227). -/
def State.tornCommit (s : State) (c : Commit) (rows : Nat) : State :=
  let n := max 1 rows
  let b := c.bytes.take (32 * n) ++ (s.bankOf c.toB).drop (32 * n)
  if c.toB then { s with fram := { s.fram with bankB := b } } else { s with fram := { s.fram with bankA := b } }

/-- The DRAIN commit in progress ends at the floor (R34): the rows written until then stand, how many is a free value (log entry 5); no
further commit follows. -/
def State.cutCommit (s : State) : State :=
  if s.pw.st != .drain then s
  else
    let t := match s.lg.cur with
      | some c =>
        let (n, u) := s.draw
        u.tornCommit c (n % 8)
      | none => s
    { t with lg := { t.lg with cur := none, waiting := [] } }

/-- VRES has reached the floor of 8.0 V: every peak ends (R34). -/
def State.floor8 (s : State) : State := ((s.takeVres (min 800 s.pins.vres)).cutFrame).cutCoil.cutCommit

/-- A row of the write buffer reaches FRAM (R433). -/
def State.rowWritten (s : State) : State :=
  match s.hb.rows with
  | [] => s
  | r :: rest =>
    { s with fram := { s.fram with nv := r.words.foldl (fun m p => WMem.set Config.shipment m p.1 p.2) s.fram.nv },
             hb := { s.hb with rows := rest } }

/-- The row in flight at the shutdown completes: the commit's, an audit row, a buffered row, an event's, in that order of what is in
hand. -/
def State.lastRow (s : State) (inFlight : Bool) (rowsDone : Nat) : State :=
  match s.lg.cur with
  | some c => s.tornCommit c (min 8 rowsDone)
  | none =>
    if !inFlight then s
    else if !s.lg.queue.isEmpty then s.auditRow
    else if !s.hb.rows.isEmpty then s.rowWritten
    else s.writeEvent

/-- HOLD is entered: the record, the latch; a ceremony leaves the state before it (R47, R53, R54). -/
def State.enterHold (s : State) (inFlight : Bool) (rowsDone : Nat) : State :=
  if s.corePowered then
    let t := (s.freezeAbort.lastRow inFlight rowsDone).zeroDacs 2
    let r : ThermRec := { last := s.pw.st, delayed := inFlight, lostEvents := t.ev.buf.length }
    let u := t.coreStop
    { u with fram := { u.fram with therm := some r, last := BitVec.ofNat 3 s.pw.st.code, cause := 5,
                                   anState := if u.fram.anState = 1 then u.an.before else u.fram.anState },
             aon := { u.aon with thermLatch := true }, pw := { u.pw with st := .hold, offPend := false } }
  else
    let r : ThermRec := { last := s.pw.st, delayed := false, lostEvents := 0 }
    { s with aon := { s.aon with therm := some r, thermLatch := true }, pw := { s.pw with st := .hold } }

/-- A shutdown; without a supply HOLD is left for BACKUP at once (R47). -/
def State.shutdown (s : State) (inFlight : Bool) (rowsDone : Nat) : State :=
  let t := s.enterHold inFlight rowsDone
  if t.pins.supply then t else t.enterBackup

/-- The die has cooled: the latch clears; HOLD is left for WAKE or BACKUP (R47). -/
def State.cooled (s : State) (env : WakeEnv) : State :=
  let t := { s with aon := { s.aon with thermLatch := false } }
  if t.pw.st == .hold then (if t.onStands then t.enterWake env else t.enterBackup) else t.tryWake env

/-! ## The second boundary (R102, R223) -/

/-- The per-second actions of CORE: flow engine, summaries, counts (R139, R173, R207, R366, R413). -/
def State.coreSecond (s : State) : State :=
  let t := if s.running then s.feSecond.trigger 1 false [] else s
  t.adSecond.orrSecond.lineSecond.policySecond

/-- The AON second boundary. -/
def State.second (s : State) : State :=
  let t := { s with aon := { s.aon with rtc := s.aon.rtc + 1#32, sub := 0 }, hb := { s.hb with secCodes := [] } }
  if t.coreOn then t.coreSecond else t

/-- VBAK as seen, in 10 mV. -/
def State.takeVbak (s : State) (vbak : Nat) : State := { s with pins := { s.pins with vbak := vbak } }

/-! ## Meanings -/

/-- RESET_RELEASE (R3): at the end of a reset. -/
def execResetRelease (r1 r0 : Strap) (env : WakeEnv) (s : State) : Host.Outcome State Fault Refusal :=
  .next (s.when (s.pins.rstnLow || s.pw.st == .off || s.pw.st == .backup) (fun t => t.resetEnd r1 r0 env))

/-- ON_REQUEST (R48). -/
def execOnRequest (env : WakeEnv) (s : State) : Host.Outcome State Fault Refusal :=
  .next (s.when (!s.pins.rstnLow && !s.aon.softLatch) (fun t =>
    let u := { t with pins := { t.pins with supply := true } }
    if u.pw.st == .off then u.enterWake env else u.tryWake env))

/-- OFF_LOSS (R48). -/
def execOffLoss (s : State) : Host.Outcome State Fault Refusal := .next (s.when (s.pw.st != .off) State.supplyLost)

/-- OFF_RESET (R48). -/
def execOffReset (s : State) : Host.Outcome State Fault Refusal := .next s.resetLow

/-- VBAK_BACKUP_ENTRY (R47). -/
def execVbakBackupEntry (vbak : Nat) (s : State) : Host.Outcome State Fault Refusal :=
  .next ((s.takeVbak vbak).when (s.pw.st == .off && !s.pins.supply && decide (220 ≤ vbak)) State.enterBackup)

/-- VBAK_DEPLETED (R47): BACKUP falls to OFF at once, DRAIN when it is done. -/
def execVbakDepleted (vbak : Nat) (s : State) : Host.Outcome State Fault Refusal :=
  .next ((s.takeVbak vbak).when ((s.pw.st == .backup || (s.coreOn && s.pw.st == .drain && s.drained)) && !s.pins.supply && decide (vbak < 180))
    (fun t => (t.when (t.pw.st == .drain) State.zeroAtEnd).enterOff))

/-- WAKE_STEPS_DONE (R47); with an OFF request pending the step's end leads to DRAIN (R50). -/
def execWakeStepsDone (vaux : Nat) (s : State) : Host.Outcome State Fault Refusal :=
  .next (s.when (s.coreOn && s.pw.st == .wake) (fun t => if t.pw.offPend then t.enterDrain t.pw.offCause else t.enterRails vaux))

/-- RAILS_DONE (R47). -/
def execRailsDone (vres : Nat) (s : State) : Host.Outcome State Fault Refusal :=
  .next (s.when (s.coreOn && s.pw.st == .rails && !s.pw.offPend && s.reg.stepEnded && decide (1000 ≤ vres)) (fun t => t.enterCalib vres))

/-- RAILS_WAIT_OVER_5S (R60): only the wait is left. -/
def execRailsWaitOver5s (s : State) : Host.Outcome State Fault Refusal :=
  .next (s.when (s.coreOn && s.pw.st == .rails && !s.pw.railsLogged) (fun t =>
    { t with pw := { t.pw with railsLogged := true, stepBusy := false } }.logEv 0x0103 0))

/-- CALIB's converter checks are done: both channels have their eight conversions, or the measurement PLL never locked and both have
failed (R85, R180). -/
def State.calibReady (s : State) : Bool := s.ck.measFail || (decide (8 ≤ s.ad.n13) && decide (8 ≤ s.ad.n14))

/-- CALIB_DONE (R47, R85, R180). -/
def execCalibDone (badRows : List Nat) (s : State) : Host.Outcome State Fault Refusal :=
  .next (s.when (s.coreOn && s.pw.st == .calib && !s.pw.offPend && s.calibReady) (fun t => t.enterRun badRows))

/-- STEP_IN_PROGRESS_DONE (R50); with no request pending in RAILS the rail steps have ended and the wait is left (R48). -/
def execStepInProgressDone (s : State) : Host.Outcome State Fault Refusal :=
  .next (s.when (s.coreOn && s.startUp) (fun t =>
    if t.pw.offPend then t.enterDrain t.pw.offCause
    else if t.pw.st == .rails then { t with pw := { t.pw with stepBusy := false } } else t))

/-- DRAIN_DONE (R52). -/
def execDrainDone (vbak : Nat) (env : WakeEnv) (s : State) : Host.Outcome State Fault Refusal :=
  .next ((s.takeVbak vbak).when (s.coreOn && s.pw.st == .drain && s.drained) (fun t => t.drainEnd vbak env))

/-- PRIMARY_SUPPLY_GOOD (R47): no ON request, for RSTN is low or the soft-off latch is set. -/
def execPrimarySupplyGood (s : State) : Host.Outcome State Fault Refusal :=
  .next (s.when (s.pins.rstnLow || s.aon.softLatch) (fun t =>
    let u := { t with pins := { t.pins with supply := true } }
    if u.pw.st == .off then u.enterBackup else u))

/-- THERMAL_SHUTDOWN (R53). -/
def execThermalShutdown (inFlight : Bool) (rowsDone : Nat) (s : State) : Host.Outcome State Fault Refusal :=
  .next (s.when (s.pw.st != .off && !s.aon.thermLatch) (fun t => t.shutdown inFlight rowsDone))

/-- THERMAL_COOLED (R47). -/
def execThermalCooled (env : WakeEnv) (s : State) : Host.Outcome State Fault Refusal :=
  .next (s.when (s.aonOn && s.aon.thermLatch) (fun t => t.cooled env))

/-- GOVERNOR_TICK (R39, R40): AON counts in every state but OFF; the governor needs CORE. -/
def execGovernorTick (e : TickEnv) (s : State) : Host.Outcome State Fault Refusal :=
  .next (s.when s.aonOn (fun t => if t.coreOn then t.aonTick.coreTick e else t.aonTick))

/-- The governor selects levels: not in WAKE, which runs at L0, nor in DRAIN, which holds its level (R47; 02, Edges). -/
def State.governs (s : State) : Bool := s.coreOn && s.pw.st != .wake && s.pw.st != .drain

/-- LEVEL_RISE (R40): due after 4 ticks in a row that call for it. -/
def execLevelRise (s : State) : Host.Outcome State Fault Refusal :=
  .next (s.when (s.governs && decide (4 ≤ s.pw.upCount) && decide (s.pw.level.toNat < s.lmaxNow)) (fun t =>
    { t with pw := { t.pw with level := t.pw.level + 1, upCount := 0 } }))

/-- SERVICE_RESTORE (R43): due after 4 ticks in a row at which it fits. -/
def execServiceRestore (s : State) : Host.Outcome State Fault Refusal :=
  .next (s.when (s.governs && decide (4 ≤ s.pw.fitCount)) State.restoreOne)

/-- VRES_THRESHOLD_CROSS (R43). -/
def execVresThresholdCross (vres : Nat) (s : State) : Host.Outcome State Fault Refusal := .next (s.when s.coreOn (fun t => t.takeVres vres))

/-- VRES_FULL (R33): the boost has reached its stop voltage, or VRES has fallen 0.5 V below that. -/
def execVresFull (vres : Nat) (s : State) : Host.Outcome State Fault Refusal :=
  .next (s.when s.xbOn (fun t =>
    let u := { t with pins := { t.pins with vres := vres } }.boostFull
    (u.chargeJudge.shedVres).shedRise t.shedCode))

/-- VRES_FALL_10V (R36): in RUN. -/
def execVresFall10v (s : State) : Host.Outcome State Fault Refusal := .next (s.when s.running State.fall10)

/-- VRES_FLOOR (R34): in any state. -/
def execVresFloor (s : State) : Host.Outcome State Fault Refusal := .next s.floor8

/-- SECOND_BOUNDARY (R223). -/
def execSecondBoundary (s : State) : Host.Outcome State Fault Refusal := .next (s.when s.aonOn State.second)

/-- TEST_PIN_FREEZE (R442): TEST has been high for 1 µs. -/
def execTestPinFreeze (s : State) : Host.Outcome State Fault Refusal := .next ({ s with pins := { s.pins with test := true } }.testFreeze)

/-- FREEZE_END (R444): of the source that ended. -/
def execFreezeEnd (testFell : Bool) (ms : Nat) (s : State) : Host.Outcome State Fault Refusal :=
  .next ({ s with pins := { s.pins with test := s.pins.test && !testFell } }.freezeEnd testFell ms)

end Sys2Proof.Machine
end

