-- ==== Sys2Proof/Machine/Operands.lean ====
section
/-! DEFINITION. Sys2Proof/Machine/Operands.lean: how a register and a window take a word, from any writer (R9 to R12, R244, R429 to R436,
Registers of every chapter), and what a read of a word brings (R428, R431). The host's byte cycles stand in HostBus.lean, the words of
Cantus and Descant in Remote.lean. -/

namespace Sys2Proof.Machine

open Sys2Proof.Config (key)

/-! ## The unlock (R244, R436) -/

/-- A writer's unlock. -/
def State.armOf (s : State) : Writer → Arm
  | .host => s.sc.armHost
  | .cantus => s.sc.armCantus
  | .descant => s.sc.armDescant

/-- A writer's unlock replaced. -/
def State.setArm (s : State) (w : Writer) (a : Arm) : State :=
  match w with
  | .host => { s with sc := { s.sc with armHost := a } }
  | .cantus => { s with sc := { s.sc with armCantus := a } }
  | .descant => { s with sc := { s.sc with armDescant := a } }

/-- A word written to SY_KEY; inTime: within the window of step 1 (R244). -/
def State.keyStep (s : State) (w : Writer) (v : Word) (inTime : Bool) : State :=
  if v = 0x005A#16 then s.setArm w .first
  else if v = 0x00A5#16 ∧ s.armOf w = .first ∧ inTime then s.setArm w .armed
  else ((s.setArm w .idle).logEv 0x0F04 v.toNat).irq 15

/-! ## FRAM-held fields and words held for a commit -/

/-- A write of an FRAM-held word, and what follows it when the buffer takes it (R433, R435). -/
def State.nvThen (s : State) (reg word k : Nat) (w : Word) (f : State → State) : State :=
  if s.hb.nvr && (bufferRow s.hb.rows k w).isSome then f (s.nvWrite reg word k w) else s.nvWrite reg word k w

/-- The NV rw fields of a register, by their mask. -/
def State.nvField (s : State) (reg : Nat) (m v : Word) : State := s.nvWrite reg 0 (key 0 reg) (merge m (s.nvReg reg) v)

/-- An NV item written before NVR: a violation (R435). -/
def State.early (s : State) (reg word : Nat) : State :=
  if s.hb.nvr then s else s.busViolation 0x0E16 4 (evData [(reg, 0), (word, 16)])

/-- A word held for a commit, else the stored one. -/
def State.heldWord (s : State) (k : Nat) : Word := (s.hb.held.lookup k).getD (s.nv k)

/-- A word is held until the last word of its value is written (R125, R215, R294, R415). -/
def State.hold (s : State) (k : Nat) (w : Word) : State :=
  { s with hb := { s.hb with held := (k, w) :: s.hb.held.filter (fun h => h.1 != k) } }

/-- n words from a key on are held no longer. -/
def State.unhold (s : State) (k n : Nat) : State :=
  { s with hb := { s.hb with held := s.hb.held.filter (fun h => decide (h.1 < k) || decide (k + n ≤ h.1)) } }

/-- One word of a sealed group of n words, committed by its last one. -/
def State.writeGroup (s : State) (k n what : Nat) (w : Word) (mk : List Word → Change) : State :=
  let base := k - k % n
  if k % n ≠ n - 1 then s.hold k w
  else
    let ws := (List.range (n - 1)).map (fun i => s.heldWord (base + i)) ++ [w]
    (s.unhold base n).propose what (ws != (List.range n).map (fun i => s.nv (base + i))) (mk ws)

/-! ## OR window (R138) -/

/-- The writable bits of an OR word. -/
def orMask (a : Nat) : Word :=
  if a < 0x300 then 0xFFFF#16
  else match a with
    | 0x300 => 0x03FF
    | 0x301 => 0x007F
    | 0x302 => 0x007F
    | 0x303 => 0x00FF
    | 0x304 => 0xFFFF
    | 0x305 => 0x003F
    | 0x306 => 0x00FF
    | _ => 0

/-- OR_DATA at a word: event entries by their word 3, map and config words (R125, R127, R138). -/
def State.writeOr (s : State) (a : Nat) (v : Word) : State :=
  let w := v &&& orMask a
  if orMask a = 0 then s
  else if a < 0x100 then (s.early 0x20 a).gate a (fun t => t.writeGroup (key 1 a) 4 a w (Change.entry (a / 4)))
  else (s.early 0x20 a).sealedWrite a (s.nv (key 1 a) != w) (.word (key 1 a) w)

/-! ## FE window (R215) -/

/-- The writable bits of an FE word; 0 for a word that is none. -/
def feMask (a : Nat) : Word :=
  if a = 0 then 0x007F else if a = 1 then 0xFF1F else if a < 0x38 then 0xFFFF else if a = 0x38 then 0x07FF
  else if 0x80 ≤ a ∧ a < 0x340 then 0xFFFF else 0

/-- A flow-engine change: held while PHOLD is 1 (08, Edges), else put in line. -/
def State.feChange (s : State) (a : Nat) (c : Change) : State :=
  if s.fe.phold then
    { s with fe := { s.fe with heldWrites := s.fe.heldWrites.filter (fun h => h.feKey != c.feKey) ++ [c] } }
  else s.propose a (!s.feSame c) c

/-- FE_DATA at a word of the sealed table: CFG, ADAPT and VTH alone, every binary32 by its second word; an unused word of the table is
under the seal too, and takes nothing (R9, R12, R215). -/
def State.writeFe (s : State) (a : Nat) (v : Word) : State :=
  let w := v &&& feMask a
  let k := key 2 a
  if 0x340 ≤ a then s
  else (s.early 0x5A a).gate a (fun t =>
    if feMask a = 0 then t
    else if a < 2 ∨ a = 0x38 then t.feChange a (.word k w)
    else if a % 2 = 0 then t.hold k w
    else (t.unhold (k - 1) 1).feChange a (.pair (k - 1) (t.heldWord (k - 1)) w))

/-! ## LG parameter area -/

/-- Sealed single words: ISET, CHCFG, DQ, DLIM. -/
def lgSealed (a : Nat) : Bool := a == 0xF820 || (decide (0xF842 ≤ a) && decide (a ≤ 0xF849)) || a == 0xF882 || a == 0xF883

/-- M4 or M20 out of its range (R294). -/
def trimBad (a : Nat) (v : Word32) : Bool :=
  if a = 0xF8C7 then decide (v.toNat < 3900000) || decide (4100000 < v.toNat) else decide (v.toNat < 19800000) || decide (20200000 < v.toNat)

/-- What a committed word that is not sealed brings: clamps named, modes and fault polarities changed (R62, R71, R159, R185, R289,
R301; 12, Edges). -/
def State.lgAfter (s : State) (a : Nat) (before w : Word) : State :=
  if a ≤ 0xF80A then s.regWord a w
  else if a = 0xF824 then s.when s.xbOn State.faultLevels
  else if a = 0xF840 then s.auxMode before
  else if a = 0xF8C5 ∧ 700 < w.toNat then s.logEv 0x090A (itemData a w.toNat)
  else if a = 0xF8CC ∧ (w.toNat < 22 ∨ 72 < w.toNat) then s.logEv 0x090A (itemData a w.toNat)
  else if 0xF900 ≤ a then s.tnWord a w
  else s

/-- The second word of LRV or URV: the pair is one value (R284; 11, Edges: URV equal to LRV). -/
def State.writeRange (s : State) (a : Nat) (w : Word) : State :=
  let k := key 3 a
  (s.unhold (k - 1) 1).nvThen 0x60 a (k - 1) (s.heldWord (k - 1)) (fun t =>
    let u := t.nvWrite 0x60 a k w
    if F32.eq (u.lgd 0xF8C0) (u.lgd 0xF8C2) then u.logEv 0x090A (itemData (a - 1) (dword (s.heldWord (k - 1)) w).toNat) else u)

/-- The second word of M4 or M20 (R294). -/
def State.writeTrim (s : State) (a : Nat) (w : Word) : State :=
  let k := key 3 a
  let lo := s.heldWord (k - 1)
  let t := s.unhold (k - 1) 1
  if trimBad a (dword lo w) then t.logEv 0x0904 0
  else t.propose a (t.nv (k - 1) != lo || t.nv k != w) (.trim (k - 1) lo w)

/-- LG_DATA at a word of the parameter area; DOPEN and OVRS in word 0xF84B clear where a 1 is written (R10; 07, Registers). -/
def State.writeLg (s : State) (a : Nat) (v : Word) : State :=
  let w := v &&& lgMask a
  let k := key 3 a
  if a = 0xF84B then
    { s with ad := { s.ad with dopen := s.ad.dopen && !bitAt v 1, ovrs := s.ad.ovrs && !bitAt v 2 } }
  else if lgMask a = 0 then s
  else if lgSealed a then (s.early 0x60 a).sealedWrite a (s.nv k != w) (.word k w)
  else if a = 0xF884 ∨ a = 0xF8C6 ∨ a = 0xF8C8 then (s.early 0x60 a).gate a (fun t => t.hold k w)
  else if a = 0xF885 then
    (s.early 0x60 a).gate a (fun t =>
      (t.unhold (k - 1) 1).propose a (t.nv (k - 1) != t.heldWord (k - 1) || t.nv k != w) (.pair (k - 1) (t.heldWord (k - 1)) w))
  else if a = 0xF8C7 ∨ a = 0xF8C9 then (s.early 0x60 a).gate a (fun t => t.writeTrim a w)
  else if a = 0xF8C0 ∨ a = 0xF8C2 then (if s.hb.nvr then s.hold k w else s.early 0x60 a)
  else if a = 0xF8C1 ∨ a = 0xF8C3 then s.writeRange a w
  else if a = 0xF828 then
    let c := BitVec.ofNat 16 (clampNat 20 250 w.toNat)
    s.nvThen 0x60 a k c (fun t => if c = w then t else t.logEv 0x0407 (itemData a v.toNat))
  else s.nvThen 0x60 a k w (fun t => t.lgAfter a (s.nv k) w)

/-! ## DS window and node table -/

/-- DS_DATA on the node table: role H only, an entry by its word 3 (14, Registers). -/
def State.writeNode (s : State) (a : Nat) (v : Word) : State :=
  if s.pins.role != .H then s
  else if a % 4 ≠ 3 then (if s.hb.nvr then s.hold (key 6 a) v else s.early 0x50 a)
  else
    let base := key 6 (a - 3)
    (s.nodeCommit (a / 4) ((List.range 3).map (fun i => s.heldWord (base + i))) v).unhold base 4

/-- DS_DATA at a word: FIR, mask, line and network parameters (13, 14 Registers). -/
def State.writeDs (s : State) (a : Nat) (v : Word) : State :=
  let w := v &&& dsMask a
  if dsMask a = 0 then s
  else if isMaskWord a then
    (if s.hb.nvr && (bufferRow s.hb.rows (key 4 a) w).isSome then s.maskWrite a w (fun t => t.nvWrite 0x50 a (key 4 a) w)
     else s.nvWrite 0x50 a (key 4 a) w)
  else s.nvThen 0x50 a (key 4 a) w (fun t =>
    if a < 0x2000 then t.dlWord a w else if a = 0x2005 ∧ w.toNat < 10 then t.dnEvent 0x0C0C a else t)

/-! ## PL window (R420) -/

/-- The writable bits of a rule's word (R402). -/
def ruleMask (i : Nat) : Word := if i = 0 then 0x1FFF else if i < 5 then 0xFFFF else if i = 5 then 0x800F else 0

/-- PL_DATA at a word: rules by their word 7, ACK, OVFL (R406, R415, R419). -/
def State.writePl (s : State) (a : Nat) (v : Word) : State :=
  if a < 0x100 then
    (s.early 0x72 a).gate a (fun t => t.writeGroup (key 5 a) 8 a (v &&& ruleMask (a % 8)) (Change.rule (a / 8)))
  else if a = 0x104 ∨ a = 0x105 then s.ackWrite (a - 0x104) v
  else if a = 0x107 then { s with pl := { s.pl with ovfl := s.pl.ovfl &&& ~~~v } }
  else s

/-! ## Pointers (R431) -/

/-- The pointer of a window moves on after an access when auto-increment is set. -/
def State.orNext (s : State) : State := if s.orr.ainc then { s with orr := { s.orr with ptr := s.orr.ptr + 1 } } else s

/-- FE_PTR after an access. -/
def State.feNext (s : State) : State := if s.fe.ainc then { s with fe := { s.fe with ptr := s.fe.ptr + 1 } } else s

/-- LG_PTR after an access. -/
def State.lgNext (s : State) : State := if s.lg.ainc then { s with lg := { s.lg with ptr := s.lg.ptr + 1 } } else s

/-- EV_PTR after a read: WORD, carrying into ENTRY. -/
def State.evNext (s : State) : State :=
  if bitAt s.ev.ptr 15 then { s with ev := { s.ev with ptr := merge 0x3FFF s.ev.ptr (s.ev.ptr + 1) } } else s

/-- DS_PTR after an access. -/
def State.dsNext (s : State) : State :=
  if bitAt s.dn.ptr 15 then { s with dn := { s.dn with ptr := merge 0x3FFF s.dn.ptr (s.dn.ptr + 1) } } else s

/-- PL_PTR after an access. -/
def State.plNext (s : State) : State := if s.pl.ainc then { s with pl := { s.pl with ptr := s.pl.ptr + 1 } } else s

/-! ## Registers -/

/-- PW_STATE.REQ: soft OFF with the unlock (R48). -/
def State.writePwState (s : State) (armed : Bool) (v : Word) : State := if armed && fld v 8 2 == 2 then s.softOff else s

/-- PW_GOV. -/
def State.writePwGov (s : State) (v : Word) : State :=
  { s with pw := { s.pw with lmax := v.extractLsb' 3 3, chgmin := v.extractLsb' 9 4 } }

/-- PW_VSET: CODE and SRC, then the keyed clear (R62, R63, R78). -/
def State.writePwVset (s : State) (armed : Bool) (v : Word) : State :=
  let t := { s with reg := { s.reg with code := v.extractLsb' 0 12, src := v.extractLsb' 12 2 } }.regClamped 0x0E (v &&& 0x0FFF)
    (setpointBad (fld v 0 12))
  if armed && bitAt v 14 then t.regClear else t

/-- PW_CFG; TSEL written 3 starts the count of skipped pairs (02, PW_TEL). -/
def State.writePwCfg (s : State) (v : Word) : State :=
  { s with pw := { s.pw with baki := v.extractLsb' 0 2, tsel := v.extractLsb' 2 2, plim := v.extractLsb' 4 4, txduty := v.extractLsb' 8 4,
                             skips := if fld v 2 2 = 3 then 0 else s.pw.skips } }.chargeJudge

/-- CK_CTL (04, Registers). -/
def State.writeCkCtl (s : State) (v : Word) : State := ({ s with ck := { s.ck with ctl := v.extractLsb' 0 6 } }.mainsSwitch).mainsForce

/-- CK_STAT: XTALFS; AON still on the LFO sets it again. -/
def State.writeCkStat (s : State) (v : Word) : State :=
  { s with aon := { s.aon with xtalfs := (s.aon.xtalfs && !bitAt v 8) || s.aon.xtalf } }

/-- OR_CTL: RUN and SPR; SRC, LEARN, CYCLE, AVG under the seal (R125, R128). -/
def State.writeOrCtl (s : State) (v : Word) : State :=
  let was := s.orRun
  let t := s.nvField 0x18 0x0304 v
  let u := if !was && t.orRun then t.passEntries (List.range 64) else t
  u.sealedWrite 0x18 (merge orCtlSealed (u.nvReg 0x18) v != u.nvReg 0x18 || (bitAt v 3 && u.mayLearn && !u.orr.learn)) (.word (key 0 0x18) v)

/-- OR_STAT: held while ANGLE is stopped, the last write winning (R98). -/
def State.writeOrStat (s : State) (v : Word) : State :=
  if s.running && s.orr.angrun then s.orStatClear v else { s with orr := { s.orr with heldStat := some v } }

/-- XB_CTL: BEN, which the shedding of coil pairs follows, IREG, HOLD, OPEN, the keyed clear (R43, R142, R149, R157). -/
def State.writeXbCtl (s : State) (armed : Bool) (v : Word) : State :=
  let t := (s.nvField 0x22 3 v).shedVres.shedRise s.shedCode
  let u := { t with xb := { t.xb with hold := bitAt v 2, openCoil := t.xb.openCoil && !bitAt v 8 } }
  if armed && bitAt v 3 then u.boostClear else u

/-- XB_PER, clamped (R140). -/
def State.writeXbPer (s : State) (v : Word) : State :=
  let c := if v = 0 then v else BitVec.ofNat 16 (clampNat 5120 64000 v.toNat)
  s.nvThen 0x24 0 (key 0 0x24) c (fun t => if c = v then t else t.logEv 0x0407 (itemData 0x24 v.toNat))

/-- XB_DT, clamped; 0 is named (R143). -/
def State.writeXbDt (s : State) (v : Word) : State :=
  let d := v &&& 0x0FFF#16
  let c := BitVec.ofNat 16 (min 2048 d.toNat)
  s.nvThen 0x28 0 (key 0 0x28) c (fun t =>
    if c != d then t.logEv 0x0407 (itemData 0x28 v.toNat) else if d = 0 then t.logEv 0x0408 0 else t)

/-- XB_FLT: AR0, AR2, then FL (R160). -/
def State.writeXbFlt (s : State) (v : Word) : State := (s.nvField 0x2A 0x0500 v).clearFlags (v.extractLsb' 0 3)

/-- AD_CTL: held during CALIB (R180). -/
def State.writeAd (s : State) (v : Word) : State :=
  if s.pw.st == .calib then { s with ad := { s.ad with heldCtl := some v } } else s.writeAdCtl v false

/-- LP_CTL: ASRC, PVSEL, BEN, LFCK; TRAW under the seal (R17, R284, R286, R288). -/
def State.writeLpCtl (s : State) (v : Word) : State :=
  let a := fld v 0 2
  let t := s.nvThen 0x38 0 (key 0 0x38) (merge 0x006F (s.nvReg 0x38) v) (fun t =>
    let u := if t.asrc = s.asrc then t else { t with lp := { t.lp with filt := none } }
    if s.pins.role = .M ∨ s.pins.role = .H ∨ (a = 2 ∧ s.pins.role = .T) then
      u.logEv 0x090B (evData [(a, 0), (Role.code s.pins.role, 8)])
    else u)
  t.loopBIdle.sealedWrite 0x38 (bitAt v 4 != t.lp.traw) (.traw (bitAt v 4) v)

/-- TN_CTL (12, Registers and Edges). -/
def State.writeTnCtl (s : State) (w : Writer) (v : Word) : State :=
  let was := s.tnEn
  let t := s.nvField 0x40 0x003B v
  let u := { t with tn := { t.tn with pt := bitAt v 2, txf := if bitAt v 6 then [] else t.tn.txf, rxf := if bitAt v 6 then [] else t.tn.rxf } }
  if was && !u.tnEn then u.tnDisable w else if !was && u.tnEn then u.tnTakeNco.tnStatHeld else u

/-- TN_STAT: held while TONE is stopped, the last write winning (R98). -/
def State.writeTnStat (s : State) (v : Word) : State :=
  if s.toneRun then s.tnStatClear v else { s with tn := { s.tn with heldStat := some v } }

/-- TN_FIFO: a byte for the 264-byte transmit FIFO; a full one takes no more. -/
def State.writeTnFifo (s : State) (v : Word) : State :=
  if s.tn.txf.length < 264 then { s with tn := { s.tn with txf := s.tn.txf ++ [loByte v] } } else s

/-- DS_CTL: PBEN, TXOFF, NWR; RTRN, EPOCH and LEAVE act in RUN and DRAIN, or wait for RUN entry (R98, R218; log entry 89). -/
def State.writeDsCtl (s : State) (v : Word) : State :=
  let t := s.nvField 0x46 0x0201 v
  let u := { t with dl := { t.dl with txoff := bitAt v 2 } }.pbenOff
  if u.runOrDrain then u.dsActions v else { u with dl := { u.dl with heldCtl := u.dl.heldCtl ||| (v &&& 0x0502#16) } }

/-- DS_STAT: held while LINE is stopped, the last write winning (R98). -/
def State.writeDsStat (s : State) (v : Word) : State :=
  if s.lineOn then s.dsStatClear v else { s with dl := { s.dl with heldStat := some v } }

/-- DS_FIFO: a byte for the 1,030-byte transmit FIFO; a full one takes no more. -/
def State.writeDsFifo (s : State) (v : Word) : State :=
  if s.dn.txf.length < 1030 then { s with dn := { s.dn with txf := s.dn.txf ++ [loByte v] } } else s

/-- AN_CTL: EN, which STATE follows in RUN and DRAIN, and at the next RUN entry (R218), RST; PERIOD and the protected bits under the seal (R254, R256, R261, R272). -/
def State.writeAnCtl (s : State) (armed : Bool) (v : Word) : State :=
  let w := s.nvField 0x52 1 v
  let t := w.when w.runOrDrain State.anActivate
  let u := { t with an := { t.an with rst := bitAt v 8 } }
  u.gate 0x52 (fun x =>
    let old : BitVec 6 := (x.nvReg 0x52).extractLsb' 1 6
    let new : BitVec 6 := v.extractLsb' 1 6
    let y := x.propose 0x52 (old != new) (.period old new)
    if !armed then y
    else
      let z := if bitAt v 10 then y.askUnpair else y
      let z := if bitAt v 9 then z.askDref else z
      if bitAt v 7 then z.armCeremony else z)

/-- AN_STAT. -/
def State.writeAnStat (s : State) (v : Word) : State :=
  { s with an := { s.an with dskip := s.an.dskip && !bitAt v 7, rollb := s.an.rollb && !bitAt v 8, pret := s.an.pret && !bitAt v 9,
                             vio := s.an.vio && !bitAt v 10, miss := s.an.miss && !bitAt v 11, pnot := s.an.pnot && !bitAt v 13 } }

/-- FE_CTL: EN, before which the magnetic source totalises up to now, PHOLD, the flags; SRC under the seal, refused in roles T and H
(R194, R196). -/
def State.writeFeCtl (s : State) (v : Word) : State :=
  let t := s.magUpTo.nvField 0x56 1 v
  let u := { t with fe := { t.fe with phold := bitAt v 2, range := t.fe.range && !bitAt v 5, ferr := t.fe.ferr && !bitAt v 8,
                                      trunc := t.fe.trunc && !bitAt v 10 } }
  u.gate 0x56 (fun x =>
    if bitAt v 1 && (x.pins.role == .T || x.pins.role == .H) then x.logEv 0x0606 (Role.code x.pins.role)
    else x.propose 0x56 (bitAt v 1 != bitAt (x.nvReg 0x56) 1) (.word (key 0 0x56) v))

/-- LG_CTL: AINC, CIE, the flags, COMMIT, INIT with the unlock (R223, R249). -/
def State.writeLgCtl (s : State) (armed : Bool) (v : Word) : State :=
  let t := { s with lg := { s.lg with ainc := bitAt v 1, cie := bitAt v 8, torn := s.lg.torn && !bitAt v 5, disc := s.lg.disc && !bitAt v 6,
                                      snap := s.lg.snap && !bitAt v 7 } }
  let u := if bitAt v 0 && t.runOrDrain then t.trigger 0x08 false [] else t
  if armed && bitAt v 2 then u.gate 0x5C (fun x => x.propose 0x5C true (.ledgerInit x.lg.seq)) else u

/-- EV_STAT. -/
def State.writeEvStat (s : State) (v : Word) : State := { s with ev := { s.ev with elost := s.ev.elost && !bitAt v 13 } }

/-- SC_CTL: SLOT, SEALCH, LOAD with the unlock (R245). -/
def State.writeScCtl (s : State) (armed : Bool) (v : Word) : State :=
  let t := { s with sc := { s.sc with slot := v.extractLsb' 0 2, sealch := s.sc.sealch && !bitAt v 10 } }
  if armed && bitAt v 2 then t.gate 0x68 State.startLoad else t

/-- TH_STAT: SHUT and DEFR, held in FRAM, clear through its write buffer (R218, R433, R441). -/
def State.writeThStat (s : State) (v : Word) : State := s.nvWrite 0x6C 0 (key 0 0x6C) (s.nvReg 0x6C &&& ~~~v)

/-- PL_CTL: EN under the seal, DEFLT with the unlock (R415). -/
def State.writePlCtl (s : State) (armed : Bool) (v : Word) : State :=
  (s.early 0x6E 0).gate 0x6E (fun t =>
    let u := t.propose 0x6E (bitAt v 0 != t.plEn) (.policyEn (bitAt v 0))
    if armed && bitAt v 1 then u.propose 0x6E true .defaults else u)

/-- HB_CFG (16, Registers). -/
def State.writeHbCfg (s : State) (v : Word) : State :=
  { s with hb := { s.hb with rdyen := bitAt v 0, rlock := bitAt v 1, flags := s.hb.flags &&& ~~~(v.extractLsb' 8 6) } }

/-- The SY_TIME_L word a writer has held (R102, R436). -/
def State.timeHeld (s : State) : Writer → Option Word
  | .host => s.hb.timeHost
  | .cantus => s.hb.timeCantus
  | .descant => s.hb.timeDescant

/-- A writer's held SY_TIME_L word replaced. -/
def State.holdTime (s : State) (w : Writer) (v : Option Word) : State :=
  match w with
  | .host => { s with hb := { s.hb with timeHost := v } }
  | .cantus => { s with hb := { s.hb with timeCantus := v } }
  | .descant => { s with hb := { s.hb with timeDescant := v } }

/-- SY_TIME_H: the writer's two words are one audited change (R102). -/
def State.writeTimeH (s : State) (w : Writer) (v : Word) : State :=
  (s.holdTime w none).audited 0x78 (.rtc (s.timeHeld w) v)

/-- TS_CTL: FRZD, FDUR, then FRZ, a protected rws field: with the unlock the seal refuses it whatever it carries (R12, R244, R442). -/
def State.writeTsCtl (s : State) (armed : Bool) (v : Word) : State :=
  let t := { s with hb := { s.hb with frzd := s.hb.frzd && !bitAt v 1, fdur := hiByte v } }
  if armed then t.gate 0x7C (fun x => if bitAt v 0 then x.propose 0x7C (x.hb.fdur != 0) (.freeze v) else x) else t

/-- A register other than SY_KEY takes a word; armed: the writer's unlock was armed (R447). Read-only registers ignore it (R10). -/
def State.writeReg (s : State) (w : Writer) (armed : Bool) (a : Nat) (v : Word) : State :=
  match a with
  | 0x02 => { s with hb := { s.hb with gie := bitAt v 0 } }
  | 0x04 => { s with hb := { s.hb with hbv := s.hb.hbv && !bitAt v 8 } }
  | 0x06 => { s with hb := { s.hb with irq := s.hb.irq &&& ~~~v } }
  | 0x08 => { s with hb := { s.hb with ien := v } }
  | 0x0A => s.writePwState armed v
  | 0x0C => s.writePwGov v
  | 0x0E => s.writePwVset armed v
  | 0x10 => s.writePwCfg v
  | 0x14 => s.writeCkCtl v
  | 0x16 => s.writeCkStat v
  | 0x18 => s.writeOrCtl v
  | 0x1A => s.writeOrStat v
  | 0x1E => { s with orr := { s.orr with ptr := v.extractLsb' 0 10, ainc := bitAt v 15 } }
  | 0x20 => (s.writeOr s.orr.ptr.toNat v).orNext
  | 0x22 => s.writeXbCtl armed v
  | 0x24 => s.writeXbPer v
  | 0x26 => s.nvWrite 0x26 0 (key 0 0x26) v
  | 0x28 => s.writeXbDt v
  | 0x2A => s.writeXbFlt v
  | 0x2C => s.writeAd v
  | 0x32 => s.writeDaLoop v
  | 0x34 => { s with ad := { s.ad with daAux := v } }
  | 0x36 => s.writeNco v
  | 0x38 => s.writeLpCtl v
  | 0x3A => (s.early 0x3A 0).sealedWrite 0x3A (s.nvReg 0x3A != v) (.word (key 0 0x3A) v)
  | 0x3C => { s with lp := { s.lp with lflt := s.lp.lflt && !bitAt v 3 } }
  | 0x40 => s.writeTnCtl w v
  | 0x42 => s.writeTnStat v
  | 0x44 => s.writeTnFifo v
  | 0x46 => s.writeDsCtl v
  | 0x48 => s.writeDsStat v
  | 0x4C => s.writeDsFifo v
  | 0x4E => { s with dn := { s.dn with ptr := v } }
  | 0x50 => (if bitAt s.dn.ptr 14 then s.writeNode (fld s.dn.ptr 0 14) v else s.writeDs (fld s.dn.ptr 0 14) v).dsNext
  | 0x52 => s.writeAnCtl armed v
  | 0x54 => s.writeAnStat v
  | 0x56 => s.writeFeCtl v
  | 0x58 => { s with fe := { s.fe with ptr := v.extractLsb' 0 10, ainc := bitAt v 15 } }
  | 0x5A => (s.writeFe s.fe.ptr.toNat v).feNext
  | 0x5C => s.writeLgCtl armed v
  | 0x5E => { s with lg := { s.lg with ptr := v } }
  | 0x60 => (s.writeLg s.lg.ptr.toNat v).lgNext
  | 0x62 => s.writeEvStat v
  | 0x64 => { s with ev := { s.ev with ptr := v } }
  | 0x68 => s.writeScCtl armed v
  | 0x6A => s.keyWord v
  | 0x6C => s.writeThStat v
  | 0x6E => s.writePlCtl armed v
  | 0x70 => { s with pl := { s.pl with ptr := v.extractLsb' 0 9, ainc := bitAt v 15 } }
  | 0x72 => (s.writePl s.pl.ptr.toNat v).plNext
  | 0x74 => s.writeHbCfg v
  | 0x76 => s.holdTime w (some v)
  | 0x78 => s.writeTimeH w v
  | 0x7C => s.writeTsCtl armed v
  | 0x7E => { s with hb := { s.hb with scratch := v } }
  | _ => s

/-- A word committed by a writer at an even address below 0x80: SY_KEY steps its unlock; any other register consumes the arm (R244). -/
def State.writeWord (s : State) (w : Writer) (a : Nat) (v : Word) (inTime : Bool) : State :=
  if a = 0x7A then s.keyStep w v inTime
  else if s.armOf w = .armed then (s.setArm w .idle).writeReg w true a v
  else s.writeReg w false a v

/-! ## What a read of a word brings (R428, R431) -/

/-- The converter's result is read: AD_DATH, SEQ and MARK are snapshot, NEW clears (R99, R177). -/
def State.readResult (s : State) : State :=
  { s with ad := { s.ad with dathSnap := some s.adDath, seqSnap := s.ad.seq, markSnap := s.ad.mark, isNew := false } }

/-- OR_DATA: the snapshot of word 0x310 (R138), the pointer. -/
def State.readOr (s : State) : State :=
  (if s.orr.ptr.toNat = 0x310 then { s with orr := { s.orr with snap := some s.orLive } } else s).orNext

/-- FE_DATA: the snapshot of word 0x380 (R215), the pointer. -/
def State.readFe (s : State) : State :=
  (if s.fe.ptr.toNat = 0x380 then { s with fe := { s.fe with snap := some s.feLive } } else s).feNext

/-- LG_DATA: the snapshot of word 0xF600 (R251), the pointer. -/
def State.readLg (s : State) : State :=
  (if s.lg.ptr.toNat = 0xF600 then { s with lg := { s.lg with snapTotals := some s.totalsLive } } else s).lgNext

/-- EV_DATA: the snapshot at word 0 (R428; 09, Registers), the pointer. -/
def State.readEv (s : State) : State :=
  (if fld s.ev.ptr 0 3 = 0 then { s with ev := { s.ev with snap := some (s.evEntry, s.evLive) } } else s).evNext

/-- The side effects of a read of a register's word. -/
def State.readEffect (s : State) (a : Nat) : State :=
  match a with
  | 0x20 => s.readOr
  | 0x2E => s.readResult
  | 0x30 => { s with ad := { s.ad with dathSnap := none } }
  | 0x44 => if s.toneRun then { s with tn := { s.tn with rxf := s.tn.rxf.drop 1 } } else s
  | 0x4C => if s.lineOn then { s with dn := { s.dn with rxf := s.dn.rxf.drop 1 } }.collectAgain else s
  | 0x50 => s.dsNext
  | 0x5A => s.readFe
  | 0x60 => s.readLg
  | 0x66 => s.readEv
  | 0x72 => s.plNext
  | 0x76 => { s with hb := { s.hb with timeSnap := some (hiWord s.aon.rtc) } }
  | 0x78 => { s with hb := { s.hb with timeSnap := none } }
  | _ => s

/-- A read of a word: its value and the state after it. -/
def State.readWord (s : State) (a : Nat) : Word × State := (s.readReg a, s.readEffect a)

/-! ## IRQN (R438) -/

/-- IRQN is low (R101, R426, R438). -/
def State.irqLow (s : State) : Bool := s.coreOn && !s.pins.rstnLow && s.hb.gie && (s.hb.irq &&& s.hb.ien) != 0

end Sys2Proof.Machine
end

