-- ==== Sys2Proof/Machine/HostBus.lean ====
section
/-! DEFINITION. Sys2Proof/Machine/HostBus.lean: the host's byte cycles (16_host_bus_and_register_map.md R422 to R435, R445) and the meaning
of every command that is a bus cycle of the host: the row names the register, the low byte of a write is the one the write latch holds. -/

namespace Sys2Proof.Machine

/-! ## Write latch and commit (R429, R430) -/

/-- The bus serves cycles: CORE runs, VIO is present, RSTN is high (R101, R426, R453). -/
def State.busOn (s : State) : Bool := s.coreOn && s.vioOn && !s.pins.rstnLow

/-- The rw and rws bits of a register's low byte, whose present value stands in for a byte not written; 0 for FIFOs and windows
(R430). -/
def lowMask (a : Nat) : Byte :=
  match a with
  | 0x02 => 0x01
  | 0x08 => 0xFF
  | 0x0C => 0x38
  | 0x0E => 0xFF
  | 0x10 => 0xFF
  | 0x14 => 0x3F
  | 0x18 => 0x7F
  | 0x1E => 0xFF
  | 0x22 => 0x07
  | 0x24 => 0xFF
  | 0x26 => 0xFF
  | 0x28 => 0xFF
  | 0x2C => 0xFF
  | 0x32 => 0xFF
  | 0x34 => 0xFF
  | 0x36 => 0xFF
  | 0x38 => 0x7F
  | 0x3A => 0xFF
  | 0x40 => 0x3F
  | 0x46 => 0x05
  | 0x4E => 0xFF
  | 0x52 => 0x7F
  | 0x56 => 0x07
  | 0x58 => 0xFF
  | 0x5C => 0x02
  | 0x5E => 0xFF
  | 0x64 => 0xFF
  | 0x68 => 0x03
  | 0x6E => 0x01
  | 0x70 => 0xFF
  | 0x74 => 0x03
  | 0x76 => 0xFF
  | 0x78 => 0xFF
  | 0x7E => 0xFF
  | _ => 0

/-- A low byte is held for the register (R429). -/
def State.lowHeld (s : State) (a : Nat) : Bool :=
  match s.hb.wlatch with
  | some (r, _) => r.toNat == a
  | none => false

/-- The low byte of a commit: the one held for the register, else made up from its present value (R429, R430). -/
def State.lowOf (s : State) (a : Nat) : Byte :=
  match s.hb.wlatch with
  | some (r, lo) => if r.toNat = a then lo else loByte (s.readReg a) &&& lowMask a
  | none => loByte (s.readReg a) &&& lowMask a

/-- The host's high byte commits the word of a register: f takes the word. A held low byte is used up; without one the commit is a
violation, whose flags stand against a clear by the same word (R11, R429, R430; R445: 0x0E10). -/
def State.hostWord (s : State) (a : Nat) (hi : Byte) (f : State → Word → State) : State :=
  if !s.busOn then s
  else if s.lowHeld a then f { s with hb := { s.hb with wlatch := none } } (wordOf hi (s.lowOf a))
  else (f s (wordOf hi (s.lowOf a))).busViolation 0x0E10 0 (a + 1)

/-- The host's high byte commits the word of a register (R429). -/
def State.hostCommit (s : State) (a : Nat) (hi : Byte) (inTime : Bool) : State :=
  s.hostWord a hi (fun t v => t.writeWord .host a v inTime)

/-- The host commits AD_CTL in the CORE cycle in which an Orrery action sets CH: every other field takes the word (R167). -/
def State.adCommitBeside (s : State) (hi : Byte) : State :=
  s.hostWord 0x2C hi (fun t v => (if t.armOf .host = .armed then t.setArm .host .idle else t).writeAdCtl v true)

/-- A low byte is held for its register; an earlier one of another register is lost (R429, R430; R445: 0x0E11). -/
def State.hostLow (s : State) (addr lo : Byte) : State :=
  let t := match s.hb.wlatch with
    | some (r, _) => if r = addr then s else s.busViolation 0x0E11 1 (evData [(r.toNat, 0), (addr.toNat, 8)])
    | none => s
  { t with hb := { t.hb with wlatch := some (addr, lo) } }

/-- An address with AD7 = 1: nothing is read or written (R445: 0x0E17). -/
def State.addr7 (s : State) (addr : Byte) : State := s.busViolation 0x0E17 5 addr.toNat

/-- A host write of a byte at a byte address: even, the low byte; odd, the high byte and the commit. -/
def State.hostWrite (s : State) (addr v : Byte) (low : Bool) : State :=
  if !s.busOn then s
  else if addr.getLsbD 7 then s.addr7 addr
  else if addr.getLsbD 0 == low then s
  else if low then s.hostLow addr v
  else s.hostCommit (addr.toNat - 1) v true

/-- The unlock's window on the clock that times it: 64 CORE cycles, or 33 AON cycles while RDYEN is 0 (R244). -/
def State.keyInTime (s : State) (cycles : Nat) : Bool := decide (cycles ≤ if s.hb.rdyen then 64 else 33)

/-! ## Reads (R428) -/

/-- The host's low-byte read of a register: the byte driven, the read latch, the side effects. -/
def State.hostRead (s : State) (a : Nat) : State :=
  if s.busOn then
    let r := s.readWord a
    { r.2 with hb := { r.2.hb with adout := loByte r.1, rlatch := some (BitVec.ofNat 8 a, hiByte r.1) } }
  else s

/-- The byte a high-byte read of a register gives, without side effect: the read latch after a read of its low byte, else its live bits
[15:8] (R428). -/
def State.highRead (s : State) (a : Nat) : Byte :=
  match s.hb.rlatch with
  | some (r, h) => if r.toNat = a then h else hiByte (s.readReg a)
  | none => hiByte (s.readReg a)

/-- The data register of a window (R431). -/
def winReg : WinKind → Nat
  | .orr => 0x20
  | .fe => 0x5A
  | .lg => 0x60
  | .ev => 0x66
  | .ds => 0x50
  | .pl => 0x72

/-- A cycle while CORE is stopped and VIO is present: a read gives 0, a write is discarded (R101). -/
def State.stoppedCycle (s : State) (read : Bool) : State := if read then { s with hb := { s.hb with adout := 0 } } else s

/-- What the host did to the strobes or to AD7 (R445). -/
def State.strobe (s : State) (k : StrobeKind) (addr newAddr : Byte) : State :=
  match k with
  | .aleHigh => s.busViolation 0x0E12 2 (evData [(addr.toNat, 0), (newAddr.toNat, 8)])
  | .bothLow => s.busViolation 0x0E13 2 addr.toNat
  | .earlyRaise => if s.hb.rdyen then s.busViolation 0x0E14 2 addr.toNat else s
  | .ad7 => if addr.getLsbD 7 then { s.addr7 addr with hb := { (s.addr7 addr).hb with adout := 0 } } else s

/-! ## Meanings: host writes, each the commit of its register -/

/-- SOFT_OFF (R48). -/
def execSoftOff (hi : Byte) (s : State) : Host.Outcome State Fault Refusal := .next (s.hostCommit 0x0A hi true)

/-- ORR_SET_CHANNEL (R124); host: a commit of AD_CTL in the same CORE cycle (R167). -/
def execOrrSetChannel (n : BitVec 6) (now : Nat) (host : Option Byte) (s : State) : Host.Outcome State Fault Refusal :=
  let t := s.onTime n now (· == 1) (fun t e => t.setChannel (e.arg.extractLsb' 0 4) n.toNat)
  .next (match host with
    | none => t
    | some hi => if s.dueAt n.toNat now (· == 1) then t.adCommitBeside hi else t.hostCommit 0x2C hi true)

/-- REG_LATCH_CLEAR (R78). -/
def execRegLatchClear (hi : Byte) (s : State) : Host.Outcome State Fault Refusal := .next (s.hostCommit 0x0E hi true)

/-- SY_TIME_L_WRITE (R102). -/
def execSyTimeLWrite (hi : Byte) (s : State) : Host.Outcome State Fault Refusal := .next (s.hostCommit 0x76 hi true)

/-- SY_TIME_H_WRITE (R102). -/
def execSyTimeHWrite (hi : Byte) (s : State) : Host.Outcome State Fault Refusal := .next (s.hostCommit 0x78 hi true)

/-- MAP_WORD_WRITE (R127). -/
def execMapWordWrite (hi : Byte) (s : State) : Host.Outcome State Fault Refusal := .next (s.hostCommit 0x20 hi true)

/-- LEARN_START (R128). -/
def execLearnStart (hi : Byte) (s : State) : Host.Outcome State Fault Refusal := .next (s.hostCommit 0x18 hi true)

/-- EVENT_ENTRY_COMMIT (R125). -/
def execEventEntryCommit (hi : Byte) (s : State) : Host.Outcome State Fault Refusal := .next (s.hostCommit 0x20 hi true)

/-- BOOST_LATCH_CLEAR (R157). -/
def execBoostLatchClear (hi : Byte) (s : State) : Host.Outcome State Fault Refusal := .next (s.hostCommit 0x22 hi true)

/-- FAULT_FLAG_CLEAR (R160): lvl, the filtered inputs active at the commit. -/
def execFaultFlagClear (hi : Byte) (lvl : BitVec 3) (s : State) : Host.Outcome State Fault Refusal :=
  .next (s.when s.busOn (fun t =>
    { t with pins := { t.pins with flt := ~~~(lvl ^^^ t.fpol) }, xb := { t.xb with lvl := lvl } }.hostCommit 0x2A hi true))

/-- ADC_ENABLE (R165). -/
def execAdcEnable (hi : Byte) (s : State) : Host.Outcome State Fault Refusal := .next (s.hostCommit 0x2C hi true)

/-- DA_LOOP_WRITE (R286). -/
def execDaLoopWrite (hi : Byte) (s : State) : Host.Outcome State Fault Refusal := .next (s.hostCommit 0x32 hi true)

/-- DA_AUX_WRITE (R184). -/
def execDaAuxWrite (hi : Byte) (s : State) : Host.Outcome State Fault Refusal := .next (s.hostCommit 0x34 hi true)

/-- AUX_MODE_CHANGE (R185). -/
def execAuxModeChange (hi : Byte) (s : State) : Host.Outcome State Fault Refusal := .next (s.hostCommit 0x60 hi true)

/-- DA_NCO_WRITE (R190). -/
def execDaNcoWrite (hi : Byte) (s : State) : Host.Outcome State Fault Refusal := .next (s.hostCommit 0x36 hi true)

/-- FE_WORD_COMMIT (R215). -/
def execFeWordCommit (hi : Byte) (s : State) : Host.Outcome State Fault Refusal := .next (s.hostCommit 0x5A hi true)

/-- COMMIT_REQUEST (R223). -/
def execCommitRequest (hi : Byte) (s : State) : Host.Outcome State Fault Refusal := .next (s.hostCommit 0x5C hi true)

/-- LEDGER_INIT (R249). -/
def execLedgerInit (hi : Byte) (s : State) : Host.Outcome State Fault Refusal := .next (s.hostCommit 0x5C hi true)

/-- UNLOCK_FIRST (R244). -/
def execUnlockFirst (hi : Byte) (s : State) : Host.Outcome State Fault Refusal := .next (s.hostCommit 0x7A hi true)

/-- UNLOCK_SECOND (R244). -/
def execUnlockSecond (hi : Byte) (cycles : Nat) (s : State) : Host.Outcome State Fault Refusal :=
  .next (s.hostCommit 0x7A hi (s.keyInTime cycles))

/-- SY_KEY_OTHER (R244). -/
def execSyKeyOther (hi : Byte) (cycles : Nat) (s : State) : Host.Outcome State Fault Refusal :=
  .next (s.hostCommit 0x7A hi (s.keyInTime cycles))

/-- UNLOCK_LAPSE (R244). -/
def execUnlockLapse (s : State) : Host.Outcome State Fault Refusal :=
  .next (s.when (s.coreOn && s.sc.armHost == .armed) (fun t => t.setArm .host .idle))

/-- KEY_LOAD_START (R245). -/
def execKeyLoadStart (hi : Byte) (s : State) : Host.Outcome State Fault Refusal := .next (s.hostCommit 0x68 hi true)

/-- KEY_WORD (R245). -/
def execKeyWord (hi : Byte) (s : State) : Host.Outcome State Fault Refusal := .next (s.hostCommit 0x6A hi true)

/-- CEREMONY_ARM (R254). -/
def execCeremonyArm (hi : Byte) (s : State) : Host.Outcome State Fault Refusal := .next (s.hostCommit 0x52 hi true)

/-- UNPAIR (R256). -/
def execUnpair (hi : Byte) (s : State) : Host.Outcome State Fault Refusal := .next (s.hostCommit 0x52 hi true)

/-- DIVERGENCE_RESET (R272). -/
def execDivergenceReset (hi : Byte) (s : State) : Host.Outcome State Fault Refusal := .next (s.hostCommit 0x52 hi true)

/-- PERIOD_CHANGE (R261). -/
def execPeriodChange (hi : Byte) (s : State) : Host.Outcome State Fault Refusal := .next (s.hostCommit 0x52 hi true)

/-- TRIM_WRITE (R294). -/
def execTrimWrite (hi : Byte) (s : State) : Host.Outcome State Fault Refusal := .next (s.hostCommit 0x60 hi true)

/-- RETRAIN_ALL (R352). -/
def execRetrainAll (hi : Byte) (s : State) : Host.Outcome State Fault Refusal := .next (s.hostCommit 0x46 hi true)

/-- MASK_WRITE (R354). -/
def execMaskWrite (hi : Byte) (s : State) : Host.Outcome State Fault Refusal := .next (s.hostCommit 0x50 hi true)

/-- LEAVE (R383). -/
def execLeave (hi : Byte) (s : State) : Host.Outcome State Fault Refusal := .next (s.hostCommit 0x46 hi true)

/-- EPOCH_WRITE (R385). -/
def execEpochWrite (hi : Byte) (s : State) : Host.Outcome State Fault Refusal := .next (s.hostCommit 0x46 hi true)

/-- NODE_TABLE_WRITE (R484). -/
def execNodeTableWrite (hi : Byte) (s : State) : Host.Outcome State Fault Refusal := .next (s.hostCommit 0x50 hi true)

/-- RULE_ACK (R406). -/
def execRuleAck (hi : Byte) (s : State) : Host.Outcome State Fault Refusal := .next (s.hostCommit 0x72 hi true)

/-- RULE_COMMIT (R415). -/
def execRuleCommit (hi : Byte) (s : State) : Host.Outcome State Fault Refusal := .next (s.hostCommit 0x72 hi true)

/-- DEFAULTS_RESTORE (R415). -/
def execDefaultsRestore (hi : Byte) (s : State) : Host.Outcome State Fault Refusal := .next (s.hostCommit 0x6E hi true)

/-- POLICY_ENABLE (R415). -/
def execPolicyEnable (hi : Byte) (s : State) : Host.Outcome State Fault Refusal := .next (s.hostCommit 0x6E hi true)

/-- SY_IRQ_CLEAR (R438). -/
def execSyIrqClear (hi : Byte) (s : State) : Host.Outcome State Fault Refusal := .next (s.hostCommit 0x06 hi true)

/-- FREEZE_START (R442). -/
def execFreezeStart (hi : Byte) (s : State) : Host.Outcome State Fault Refusal := .next (s.hostCommit 0x7C hi true)

/-- LOW_BYTE_WRITE (R429): an even byte address. -/
def execLowByteWrite (addr lo : Byte) (s : State) : Host.Outcome State Fault Refusal := .next (s.hostWrite addr lo true)

/-- REGISTER_WRITE (R429): an odd byte address. -/
def execRegisterWrite (addr hi : Byte) (s : State) : Host.Outcome State Fault Refusal := .next (s.hostWrite addr hi false)

/-! ## Meanings: host reads and the rest of the bus -/

/-- SY_TIME_L_READ (R99). -/
def execSyTimeLRead (s : State) : Host.Outcome State Fault Refusal := .next (s.hostRead 0x76)

/-- AD_DATL_READ (R177). -/
def execAdDatlRead (s : State) : Host.Outcome State Fault Refusal := .next (s.hostRead 0x2E)

/-- LG_TOTALS_SNAPSHOT (R251). -/
def execLgTotalsSnapshot (s : State) : Host.Outcome State Fault Refusal := .next (s.hostRead 0x60)

/-- EV_ENTRY_SNAPSHOT (R428). -/
def execEvEntrySnapshot (s : State) : Host.Outcome State Fault Refusal := .next (s.hostRead 0x66)

/-- TN_FIFO_READ (R428). -/
def execTnFifoRead (s : State) : Host.Outcome State Fault Refusal := .next (s.hostRead 0x44)

/-- DS_FIFO_READ (R379). -/
def execDsFifoRead (s : State) : Host.Outcome State Fault Refusal := .next (s.hostRead 0x4C)

/-- ORRERY_COUNT_SNAPSHOT (R138). -/
def execOrreryCountSnapshot (s : State) : Host.Outcome State Fault Refusal := .next (s.hostRead 0x20)

/-- FE_LIVE_SNAPSHOT (R215). -/
def execFeLiveSnapshot (s : State) : Host.Outcome State Fault Refusal := .next (s.hostRead 0x5A)

/-- WINDOW_DATA_READ (R431). -/
def execWindowDataRead (w : WinKind) (s : State) : Host.Outcome State Fault Refusal := .next (s.hostRead (winReg w))

/-- HOST_CYCLE_CORE_STOPPED (R101). -/
def execHostCycleCoreStopped (read : Bool) (_addr : Byte) (s : State) : Host.Outcome State Fault Refusal :=
  .next (s.when (!s.coreOn && !s.pins.rstnLow) (fun t => t.stoppedCycle read))

/-- HOST_STROBE_VIOLATION (R445). -/
def execHostStrobeViolation (k : StrobeKind) (addr newAddr : Byte) (s : State) : Host.Outcome State Fault Refusal :=
  .next (s.when s.busOn (fun t => t.strobe k addr newAddr))

/-- FRAM_ROW_WRITE (R433): in WAKE, RUN and DRAIN (R218). -/
def execFramRowWrite (s : State) : Host.Outcome State Fault Refusal :=
  .next (s.when (s.pw.st == .wake || s.pw.st == .run || s.pw.st == .drain) State.rowWritten)

end Sys2Proof.Machine
end

