-- ==== Sys2Proof/Machine/Remote.lean ====
section
/-! DEFINITION. Sys2Proof/Machine/Remote.lean: READ and WRITE of registers by Cantus (R325, R326) and Descant (R377): whole words, with
each writer's own unlock (R436), refused whole under RLOCK (R437). -/

namespace Sys2Proof.Machine

/-! ## Reading -/

/-- n words from a register address on, or n reads of it with repeat: the bytes, most significant first, and the state after them. -/
def State.remoteRead (s : State) (a : Nat) (rep : Bool) : Nat → List Byte × State
  | 0 => ([], s)
  | n + 1 =>
    let r := s.readWord a
    let q := State.remoteRead r.2 (if rep then a else a + 2) rep n
    ([hiByte r.1, loByte r.1] ++ q.1, q.2)

/-- The addresses of a READ are even and at most 0x7E (R325). -/
def readFits (a : Nat) (rep : Bool) (n : Nat) : Bool := a % 2 == 0 && decide (a ≤ 0x7E) && (rep || decide (a + 2 * n ≤ 0x80))

/-! ## Writing -/

/-- The triples of a WRITE: register byte address and word. -/
def triples : List Byte → List (Nat × Word)
  | a :: h :: l :: rest => (a.toNat, wordOf h l) :: triples rest
  | _ => []

/-- The data of a WRITE are whole triples of even addresses up to 0x7E (R325). -/
def triplesFit (bs : List Byte) : Bool := bs.length % 3 == 0 && (triples bs).all (fun t => t.1 % 2 == 0 && decide (t.1 ≤ 0x7E))

/-- R12 refuses a triple: its own log entry says so. -/
def State.refusedBy (s : State) (w : Writer) (t : Nat × Word) : Bool :=
  ({ s with ev := {} }.writeWord w t.1 t.2 true).ev.buf.any (fun e => e.code == 0x0F01#16)

/-- The triples in order, each as a host write; the number refused under R12 (R325). -/
def State.applyTriples (w : Writer) : List (Nat × Word) → State → Nat × State
  | [], s => (0, s)
  | t :: ts, s =>
    let r := State.applyTriples w ts (s.writeWord w t.1 t.2 true)
    (b2n (s.refusedBy w t) + r.1, r.2)

/-- A WRITE's triples: all refused under RLOCK (R437), else applied; the writer's unlock begins and ends idle. who: the data of
0x0E05. -/
def State.remoteWrite (s : State) (w : Writer) (who : Nat) (bs : List Byte) : Nat × State :=
  let ts := triples bs
  if s.hb.rlock then (ts.length, if ts.isEmpty then s else s.logEv 0x0E05 (evData [(who, 0), (ts.length, 8)]))
  else
    let r := State.applyTriples w ts (s.setArm w .idle)
    (r.1, r.2.setArm w .idle)

/-! ## Cantus (R325) -/

/-- A READ executed: address, then [7] repeat and [6:0] count. -/
def State.cantusRead (s : State) (f : CFrame) : State :=
  let a := (payAt f.data 0).toNat
  let rep := (payAt f.data 1).getLsbD 7
  let n := (payAt f.data 1).toNat % 128
  if f.data.length = 2 && readFits a rep n then
    let r := s.remoteRead a rep n
    r.2.tnReply f r.1
  else s.tnBad f

/-- A WRITE executed. -/
def State.cantusWrite (s : State) (f : CFrame) : State :=
  if triplesFit f.data then
    let r := s.remoteWrite .cantus 0 f.data
    r.2.tnReply f [BitVec.ofNat 8 r.1]
  else s.tnBad f

/-! ## Descant (R377) -/

/-- A WRITE is taken from the head, or from any source while NWR is 1. -/
def State.writerMay (s : State) (f : RxFrame) : Bool := f.frame.src == 0#12 || bitAt (s.nvReg 0x46) 9

/-- A READ executed: address, then [15] repeat and [8:0] count. -/
def State.descantRead (s : State) (f : RxFrame) : State :=
  let a := (payAt f.frame.payload 0).toNat
  let c := beAt f.frame.payload 1 2
  let rep := decide (0x8000 ≤ c)
  let n := c % 0x8000
  if f.frame.payload.length = 3 && decide (n ≤ 511) && readFits a rep n then
    let r := s.remoteRead a rep n
    r.2.replyTo f r.1
  else s.badField f

/-- A WRITE not permitted (R400: 0x0C14). -/
def State.notPermitted (s : State) (f : RxFrame) : State := (s.dnVio 0x0C14 f.frame.src.toNat).nackTo f 0x05

/-- A WRITE executed. -/
def State.descantWrite (s : State) (f : RxFrame) : State :=
  if !s.writerMay f then s.notPermitted f
  else if triplesFit f.frame.payload then
    let r := s.remoteWrite .descant 1 f.frame.payload
    r.2.replyTo f (bytesBE 2 r.1)
  else s.badField f

/-- The same with ALL set, from the head: applied, and no reply (R374). -/
def State.descantWriteAll (s : State) (f : RxFrame) : State :=
  if triplesFit f.frame.payload then (s.remoteWrite .descant 1 f.frame.payload).2
  else s.dnVio 0x0C12 (evData [(f.frame.type.toNat, 0), (f.frame.payload.length, 8)])

/-! ## Meanings -/

/-- CANTUS_READ (R325). -/
def execCantusRead (f : CFrame) (s : State) : Host.Outcome State Fault Refusal :=
  .next (s.tnRequest f (f.cmd == 0x01#8) (fun t => t.tnOnce f (fun u => u.cantusRead f)))

/-- CANTUS_WRITE (R325). -/
def execCantusWrite (f : CFrame) (s : State) : Host.Outcome State Fault Refusal :=
  .next (s.tnRequest f (f.cmd == 0x02#8) (fun t => t.tnOnce f (fun u => u.cantusWrite f)))

/-- DESCANT_READ (R377); a READ to every node brings no reply (R374). -/
def execDescantRead (f : RxFrame) (s : State) : Host.Outcome State Fault Refusal :=
  .next (s.when (f.frame.type == 0x01#8 && !f.frame.flags.getLsbD 4) (fun t =>
    t.takeFrame f (fun u => if f.frame.flags.getLsbD 3 then u else u.orRepeat f (fun v => v.descantRead f))))

/-- DESCANT_WRITE (R377). -/
def execDescantWrite (f : RxFrame) (s : State) : Host.Outcome State Fault Refusal :=
  .next (s.when (f.frame.type == 0x02#8 && !f.frame.flags.getLsbD 4) (fun t =>
    t.takeFrame f (fun u => if f.frame.flags.getLsbD 3 then u.descantWriteAll f else u.orRepeat f (fun v => v.descantWrite f))))

end Sys2Proof.Machine
end

