-- ==== Sys2Proof/Machine/Dispatch.lean ====
section
/-! DEFINITION. Sys2Proof/Machine/Dispatch.lean: the meaning of every command, one arm per row of the table, in its order. -/

namespace Sys2Proof.Machine

/-- What a command does to the machine. -/
def exec (i : Instr) (s : State) : Host.Outcome State Fault Refusal :=
  match i with
  | .resetRelease r1 r0 env => Sys2Proof.Machine.execResetRelease r1 r0 env s
  | .onRequest env => Sys2Proof.Machine.execOnRequest env s
  | .offLoss => Sys2Proof.Machine.execOffLoss s
  | .offReset => Sys2Proof.Machine.execOffReset s
  | .softOff hi => Sys2Proof.Machine.execSoftOff hi s
  | .vbakBackupEntry vbak => Sys2Proof.Machine.execVbakBackupEntry vbak s
  | .vbakDepleted vbak => Sys2Proof.Machine.execVbakDepleted vbak s
  | .wakeStepsDone vauxFb => Sys2Proof.Machine.execWakeStepsDone vauxFb s
  | .railsDone vres => Sys2Proof.Machine.execRailsDone vres s
  | .railsWaitOver5s => Sys2Proof.Machine.execRailsWaitOver5s s
  | .calibDone badRows => Sys2Proof.Machine.execCalibDone badRows s
  | .drainDone vbak env => Sys2Proof.Machine.execDrainDone vbak env s
  | .thermalShutdown rowInFlight rowsDone => Sys2Proof.Machine.execThermalShutdown rowInFlight rowsDone s
  | .thermalCooled env => Sys2Proof.Machine.execThermalCooled env s
  | .governorTick env => Sys2Proof.Machine.execGovernorTick env s
  | .levelRise => Sys2Proof.Machine.execLevelRise s
  | .serviceRestore => Sys2Proof.Machine.execServiceRestore s
  | .vresThresholdCross vres => Sys2Proof.Machine.execVresThresholdCross vres s
  | .vresFall10v => Sys2Proof.Machine.execVresFall10v s
  | .vresFloor => Sys2Proof.Machine.execVresFloor s
  | .vresFull vres => Sys2Proof.Machine.execVresFull vres s
  | .regRampEnd env => Sys2Proof.Machine.execRegRampEnd env s
  | .regRetryTimeout vauxFb => Sys2Proof.Machine.execRegRetryTimeout vauxFb s
  | .regUndervoltage env => Sys2Proof.Machine.execRegUndervoltage env s
  | .regAttemptCountReset => Sys2Proof.Machine.execRegAttemptCountReset s
  | .regOvervoltage env => Sys2Proof.Machine.execRegOvervoltage env s
  | .regLatchClear hi => Sys2Proof.Machine.execRegLatchClear hi s
  | .setpointChange us => Sys2Proof.Machine.execSetpointChange us s
  | .vselChange v => Sys2Proof.Machine.execVselChange v s
  | .syncLock hz => Sys2Proof.Machine.execSyncLock hz s
  | .syncLoss => Sys2Proof.Machine.execSyncLoss s
  | .xtalFail => Sys2Proof.Machine.execXtalFail s
  | .xtalReturn => Sys2Proof.Machine.execXtalReturn s
  | .measPllTimeout => Sys2Proof.Machine.execMeasPllTimeout s
  | .switchPllLock => Sys2Proof.Machine.execSwitchPllLock s
  | .switchPllLockTimeout => Sys2Proof.Machine.execSwitchPllLockTimeout s
  | .switchPllLoss => Sys2Proof.Machine.execSwitchPllLoss s
  | .tapCalibration => Sys2Proof.Machine.execTapCalibration s
  | .mainsLock freq => Sys2Proof.Machine.execMainsLock freq s
  | .mainsRefAbsent freq => Sys2Proof.Machine.execMainsRefAbsent freq s
  | .mainsRefReturn freq => Sys2Proof.Machine.execMainsRefReturn freq s
  | .syTimeLWrite hi => Sys2Proof.Machine.execSyTimeLWrite hi s
  | .syTimeHWrite hi => Sys2Proof.Machine.execSyTimeHWrite hi s
  | .syTimeLRead => Sys2Proof.Machine.execSyTimeLRead s
  | .adDatlRead => Sys2Proof.Machine.execAdDatlRead s
  | .rtcDiscipline => Sys2Proof.Machine.execRtcDiscipline s
  | .secondBoundary => Sys2Proof.Machine.execSecondBoundary s
  | .hostCycleCoreStopped read addr => Sys2Proof.Machine.execHostCycleCoreStopped read addr s
  | .toothEdge t rising bHigh => Sys2Proof.Machine.execToothEdge t rising bHigh s
  | .syntheticTooth now => Sys2Proof.Machine.execSyntheticTooth now s
  | .standstill => Sys2Proof.Machine.execStandstill s
  | .orreryRestart => Sys2Proof.Machine.execOrreryRestart s
  | .orrSetChannel n now host => Sys2Proof.Machine.execOrrSetChannel n now host s
  | .orrCommuteBridge n now => Sys2Proof.Machine.execOrrCommuteBridge n now s
  | .orrSampleTag n now => Sys2Proof.Machine.execOrrSampleTag n now s
  | .orrStepNco n now => Sys2Proof.Machine.execOrrStepNco n now s
  | .orrFeUpdate n now => Sys2Proof.Machine.execOrrFeUpdate n now s
  | .orrInterrupt n now => Sys2Proof.Machine.execOrrInterrupt n now s
  | .orrReservedAction n now => Sys2Proof.Machine.execOrrReservedAction n now s
  | .indexEdge => Sys2Proof.Machine.execIndexEdge s
  | .mapWordWrite hi => Sys2Proof.Machine.execMapWordWrite hi s
  | .learnStart hi => Sys2Proof.Machine.execLearnStart hi s
  | .learnComplete => Sys2Proof.Machine.execLearnComplete s
  | .learnAbort => Sys2Proof.Machine.execLearnAbort s
  | .eventEntryCommit hi => Sys2Proof.Machine.execEventEntryCommit hi s
  | .carrierPeak ics => Sys2Proof.Machine.execCarrierPeak ics s
  | .carrierValley => Sys2Proof.Machine.execCarrierValley s
  | .bootstrapRefresh => Sys2Proof.Machine.execBootstrapRefresh s
  | .coilOpen => Sys2Proof.Machine.execCoilOpen s
  | .boostCycleStart env => Sys2Proof.Machine.execBoostCycleStart env s
  | .boostCheckWindowEnd => Sys2Proof.Machine.execBoostCheckWindowEnd s
  | .boostLimitedRun => Sys2Proof.Machine.execBoostLimitedRun s
  | .boostRetryTimeout => Sys2Proof.Machine.execBoostRetryTimeout s
  | .boostAttemptReset => Sys2Proof.Machine.execBoostAttemptReset s
  | .boostLatchClear hi => Sys2Proof.Machine.execBoostLatchClear hi s
  | .faultInputTrip n => Sys2Proof.Machine.execFaultInputTrip n s
  | .faultFlagClear hi lvl => Sys2Proof.Machine.execFaultFlagClear hi lvl s
  | .faultAutoRestart n => Sys2Proof.Machine.execFaultAutoRestart n s
  | .conversionEnd env => Sys2Proof.Machine.execConversionEnd env s
  | .adcEnable hi => Sys2Proof.Machine.execAdcEnable hi s
  | .daLoopWrite hi => Sys2Proof.Machine.execDaLoopWrite hi s
  | .daAuxWrite hi => Sys2Proof.Machine.execDaAuxWrite hi s
  | .auxModeChange hi => Sys2Proof.Machine.execAuxModeChange hi s
  | .daoCompliance mv => Sys2Proof.Machine.execDaoCompliance mv s
  | .daoOpenLoop mv => Sys2Proof.Machine.execDaoOpenLoop mv s
  | .daNcoWrite hi => Sys2Proof.Machine.execDaNcoWrite hi s
  | .ncoZeroStop => Sys2Proof.Machine.execNcoZeroStop s
  | .magPairEnd elapsed => Sys2Proof.Machine.execMagPairEnd elapsed s
  | .inputStale k => Sys2Proof.Machine.execInputStale k s
  | .feWordCommit hi => Sys2Proof.Machine.execFeWordCommit hi s
  | .adaptEvaluation => Sys2Proof.Machine.execAdaptEvaluation s
  | .noiseBlockTransform b => Sys2Proof.Machine.execNoiseBlockTransform b s
  | .commitComplete => Sys2Proof.Machine.execCommitComplete s
  | .commitRequest hi => Sys2Proof.Machine.execCommitRequest hi s
  | .ledgerInit hi => Sys2Proof.Machine.execLedgerInit hi s
  | .eventEntryWrite => Sys2Proof.Machine.execEventEntryWrite s
  | .sealChange isOpen => Sys2Proof.Machine.execSealChange isOpen s
  | .unlockFirst hi => Sys2Proof.Machine.execUnlockFirst hi s
  | .unlockSecond hi cycles => Sys2Proof.Machine.execUnlockSecond hi cycles s
  | .syKeyOther hi cycles => Sys2Proof.Machine.execSyKeyOther hi cycles s
  | .unlockLapse => Sys2Proof.Machine.execUnlockLapse s
  | .keyLoadStart hi => Sys2Proof.Machine.execKeyLoadStart hi s
  | .keyWord hi => Sys2Proof.Machine.execKeyWord hi s
  | .keyLoadTimeout => Sys2Proof.Machine.execKeyLoadTimeout s
  | .lgTotalsSnapshot => Sys2Proof.Machine.execLgTotalsSnapshot s
  | .evEntrySnapshot => Sys2Proof.Machine.execEvEntrySnapshot s
  | .ceremonyArm hi => Sys2Proof.Machine.execCeremonyArm hi s
  | .helloSend => Sys2Proof.Machine.execHelloSend s
  | .hello f => Sys2Proof.Machine.execHello f s
  | .confirm f => Sys2Proof.Machine.execConfirm f s
  | .ceremonyTimeout => Sys2Proof.Machine.execCeremonyTimeout s
  | .unpair hi => Sys2Proof.Machine.execUnpair hi s
  | .exchangeInstant => Sys2Proof.Machine.execExchangeInstant s
  | .call f spacing => Sys2Proof.Machine.execCall f spacing s
  | .answer f => Sys2Proof.Machine.execAnswer f s
  | .exchangeMiss => Sys2Proof.Machine.execExchangeMiss s
  | .retractSend => Sys2Proof.Machine.execRetractSend s
  | .retract f => Sys2Proof.Machine.execRetract f s
  | .noticeSend => Sys2Proof.Machine.execNoticeSend s
  | .notice f => Sys2Proof.Machine.execNotice f s
  | .restore f => Sys2Proof.Machine.execRestore f s
  | .divergenceReset hi => Sys2Proof.Machine.execDivergenceReset hi s
  | .periodChange hi => Sys2Proof.Machine.execPeriodChange hi s
  | .cdigRecompute => Sys2Proof.Machine.execCdigRecompute s
  | .readbackCheck => Sys2Proof.Machine.execReadbackCheck s
  | .loopFaultRetry => Sys2Proof.Machine.execLoopFaultRetry s
  | .fallbackTimeout ms => Sys2Proof.Machine.execFallbackTimeout ms s
  | .lowv mv10 => Sys2Proof.Machine.execLowv mv10 s
  | .loopBDecode => Sys2Proof.Machine.execLoopBDecode s
  | .loopBLimit acts => Sys2Proof.Machine.execLoopBLimit acts s
  | .adaptiveTargetFall => Sys2Proof.Machine.execAdaptiveTargetFall s
  | .foldRelease => Sys2Proof.Machine.execFoldRelease s
  | .dieWarning die => Sys2Proof.Machine.execDieWarning die s
  | .repeaterTimeout => Sys2Proof.Machine.execRepeaterTimeout s
  | .trimWrite hi => Sys2Proof.Machine.execTrimWrite hi s
  | .loopSwitch => Sys2Proof.Machine.execLoopSwitch s
  | .identify f => Sys2Proof.Machine.execIdentify f s
  | .cantusRead f => Sys2Proof.Machine.execCantusRead f s
  | .cantusWrite f => Sys2Proof.Machine.execCantusWrite f s
  | .cantusHostCommand f => Sys2Proof.Machine.execCantusHostCommand f s
  | .cantusReplySend => Sys2Proof.Machine.execCantusReplySend s
  | .hostReplySend => Sys2Proof.Machine.execHostReplySend s
  | .masterRequestSend => Sys2Proof.Machine.execMasterRequestSend s
  | .masterReply f => Sys2Proof.Machine.execMasterReply f s
  | .replyTimeout => Sys2Proof.Machine.execReplyTimeout s
  | .lineJam => Sys2Proof.Machine.execLineJam s
  | .watchPoll => Sys2Proof.Machine.execWatchPoll s
  | .passthroughTx => Sys2Proof.Machine.execPassthroughTx s
  | .passthroughRx c => Sys2Proof.Machine.execPassthroughRx c s
  | .tnFifoRead => Sys2Proof.Machine.execTnFifoRead s
  | .lineLock steer => Sys2Proof.Machine.execLineLock steer s
  | .lineLockLost => Sys2Proof.Machine.execLineLockLost s
  | .dmtFrameStart p => Sys2Proof.Machine.execDmtFrameStart p s
  | .frameRelay f => Sys2Proof.Machine.execFrameRelay f s
  | .trainStart p peer => Sys2Proof.Machine.execTrainStart p peer s
  | .train r => Sys2Proof.Machine.execTrain r s
  | .trainingSymbolsEnd p snr => Sys2Proof.Machine.execTrainingSymbolsEnd p snr s
  | .table r => Sys2Proof.Machine.execTable r s
  | .tableAck r => Sys2Proof.Machine.execTableAck r s
  | .trainTimeout => Sys2Proof.Machine.execTrainTimeout s
  | .trainRetry p peer => Sys2Proof.Machine.execTrainRetry p peer s
  | .retrain r => Sys2Proof.Machine.execRetrain r s
  | .retrainTrigger p peer cause snr => Sys2Proof.Machine.execRetrainTrigger p peer cause snr s
  | .retrainAll hi => Sys2Proof.Machine.execRetrainAll hi s
  | .maskWrite hi => Sys2Proof.Machine.execMaskWrite hi s
  | .descantRead f => Sys2Proof.Machine.execDescantRead f s
  | .descantWrite f => Sys2Proof.Machine.execDescantWrite f s
  | .report f => Sys2Proof.Machine.execReport f s
  | .descantNack f => Sys2Proof.Machine.execDescantNack f s
  | .hostFrameIssue => Sys2Proof.Machine.execHostFrameIssue s
  | .requestTimeout seq => Sys2Proof.Machine.execRequestTimeout seq s
  | .timeInterval => Sys2Proof.Machine.execTimeInterval s
  | .time f => Sys2Proof.Machine.execTime f s
  | .timeReply f => Sys2Proof.Machine.execTimeReply f s
  | .lineTimeStep => Sys2Proof.Machine.execLineTimeStep s
  | .leaveLockTimeout => Sys2Proof.Machine.execLeaveLockTimeout s
  | .leave hi => Sys2Proof.Machine.execLeave hi s
  | .epochStart => Sys2Proof.Machine.execEpochStart s
  | .epochWrite hi => Sys2Proof.Machine.execEpochWrite hi s
  | .search f => Sys2Proof.Machine.execSearch f s
  | .beaconSend p => Sys2Proof.Machine.execBeaconSend p s
  | .beacon r => Sys2Proof.Machine.execBeacon r s
  | .query r vres => Sys2Proof.Machine.execQuery r vres s
  | .queryWindowEnd p carrier => Sys2Proof.Machine.execQueryWindowEnd p carrier s
  | .searchAnswer r => Sys2Proof.Machine.execSearchAnswer r s
  | .discoveryTimeout p => Sys2Proof.Machine.execDiscoveryTimeout p s
  | .searchReplyTimeout bridge => Sys2Proof.Machine.execSearchReplyTimeout bridge s
  | .epochEnd => Sys2Proof.Machine.execEpochEnd s
  | .join f => Sys2Proof.Machine.execJoin f s
  | .assign r => Sys2Proof.Machine.execAssign r s
  | .assignAck r => Sys2Proof.Machine.execAssignAck r s
  | .assignTimeout p => Sys2Proof.Machine.execAssignTimeout p s
  | .sweepIssue => Sys2Proof.Machine.execSweepIssue s
  | .sweep f => Sys2Proof.Machine.execSweep f s
  | .sweepLatch beside => Sys2Proof.Machine.execSweepLatch beside s
  | .collectStart => Sys2Proof.Machine.execCollectStart s
  | .collect f => Sys2Proof.Machine.execCollect f s
  | .collectReply f => Sys2Proof.Machine.execCollectReply f s
  | .nodeTableWrite hi => Sys2Proof.Machine.execNodeTableWrite hi s
  | .ruleAssert n => Sys2Proof.Machine.execRuleAssert n s
  | .ruleRelease n => Sys2Proof.Machine.execRuleRelease n s
  | .ruleAck hi => Sys2Proof.Machine.execRuleAck hi s
  | .ruleCommit hi => Sys2Proof.Machine.execRuleCommit hi s
  | .defaultsRestore hi => Sys2Proof.Machine.execDefaultsRestore hi s
  | .policyEnable hi => Sys2Proof.Machine.execPolicyEnable hi s
  | .lowByteWrite addr lo => Sys2Proof.Machine.execLowByteWrite addr lo s
  | .registerWrite addr hi => Sys2Proof.Machine.execRegisterWrite addr hi s
  | .framRowWrite => Sys2Proof.Machine.execFramRowWrite s
  | .syIrqClear hi => Sys2Proof.Machine.execSyIrqClear hi s
  | .freezeStart hi => Sys2Proof.Machine.execFreezeStart hi s
  | .testPinFreeze => Sys2Proof.Machine.execTestPinFreeze s
  | .freezeEnd testFell ms => Sys2Proof.Machine.execFreezeEnd testFell ms s
  | .primarySupplyGood => Sys2Proof.Machine.execPrimarySupplyGood s
  | .stepInProgressDone => Sys2Proof.Machine.execStepInProgressDone s
  | .daoComplianceClear => Sys2Proof.Machine.execDaoComplianceClear s
  | .restoreAckTimeout => Sys2Proof.Machine.execRestoreAckTimeout s
  | .cantusCrcFailure => Sys2Proof.Machine.execCantusCrcFailure s
  | .cantusReceiveAbort k bytes => Sys2Proof.Machine.execCantusReceiveAbort k bytes s
  | .cantusUnknownCommand f => Sys2Proof.Machine.execCantusUnknownCommand f s
  | .descantFrameDropped k => Sys2Proof.Machine.execDescantFrameDropped k s
  | .descantReservedType f => Sys2Proof.Machine.execDescantReservedType f s
  | .descantReply f => Sys2Proof.Machine.execDescantReply f s
  | .joinReply f => Sys2Proof.Machine.execJoinReply f s
  | .searchReply f => Sys2Proof.Machine.execSearchReply f s
  | .dsFifoRead => Sys2Proof.Machine.execDsFifoRead s
  | .orreryCountSnapshot => Sys2Proof.Machine.execOrreryCountSnapshot s
  | .feLiveSnapshot => Sys2Proof.Machine.execFeLiveSnapshot s
  | .windowDataRead w => Sys2Proof.Machine.execWindowDataRead w s
  | .hostStrobeViolation k addr newAddr => Sys2Proof.Machine.execHostStrobeViolation k addr newAddr s
  | .auditRowWritten => Sys2Proof.Machine.execAuditRowWritten s

end Sys2Proof.Machine
end

