-- ==== Sys2Proof/WellFormed.lean ====
section
/-! DEFINITION. Sys2Proof/WellFormed.lean: commands whose operands can come from outside the block: frames within their length
fields, byte addresses of the right half of a register, lists of the length the rule names. Every command acts whether or not it is
well formed (log entry 1); this says which ones a host, a line or a converter can send. -/

namespace Sys2Proof

/-- A Cantus frame: LEN is one byte (R322). -/
def CFrame.wellFormed (f : CFrame) : Bool := decide (f.data.length ≤ 255)

/-- A Descant frame: LEN has 11 bits (R368), the S1 stamp lies within its second of 400,000 cycles (R337). -/
def RxFrame.wellFormed (f : RxFrame) : Bool := decide (f.frame.payload.length < 2048) && decide (f.cyc.toNat < 400000)

/-- A search frame: at most 64 bytes (R357). -/
def RxSearch.wellFormed (f : RxSearch) : Bool := decide (f.payload.length ≤ 64)

/-- A byte for each of the 60 data carriers (R365). -/
def NoiseBlock.wellFormed : NoiseBlock → Bool
  | .converter => true
  | .line _ noise => noise.length == 60

/-- A reserved search kind is none of the eight that R370 and R357 name and not above 0x43. -/
def DropKind.wellFormed : DropKind → Bool
  | .header _ => true
  | .payload _ _ _ => true
  | .search => true
  | .reservedKind k => decide (k.toNat < 0x44)

/-- The operands of a command are possible. -/
def wellFormed : Instr → Bool
  | .faultInputTrip n => n != 3#2
  | .faultAutoRestart n => n != 3#2
  | .noiseBlockTransform b => b.wellFormed
  | .hello f => f.wellFormed
  | .confirm f => f.wellFormed
  | .call f _ => f.wellFormed
  | .answer f => f.wellFormed
  | .retract f => f.wellFormed
  | .notice f => f.wellFormed
  | .restore f => f.wellFormed
  | .identify f => f.wellFormed
  | .cantusRead f => f.wellFormed
  | .cantusWrite f => f.wellFormed
  | .cantusHostCommand f => f.wellFormed
  | .masterReply f => f.wellFormed
  | .frameRelay f => f.wellFormed
  | .train f => f.wellFormed
  | .trainingSymbolsEnd _ snr => snr.length == 60
  | .table f => f.wellFormed
  | .tableAck f => f.wellFormed
  | .retrain f => f.wellFormed
  | .retrainTrigger _ _ cause snr => decide (1 ≤ cause.toNat) && decide (cause.toNat ≤ 4) && (cause != 2#3 || snr.length == 60)
  | .descantRead f => f.wellFormed
  | .descantWrite f => f.wellFormed
  | .report f => f.wellFormed
  | .descantNack f => f.wellFormed
  | .time f => f.wellFormed
  | .timeReply f => f.wellFormed
  | .search f => f.wellFormed
  | .beacon f => f.wellFormed
  | .query f _ => f.wellFormed
  | .searchAnswer f => f.wellFormed
  | .join f => f.wellFormed
  | .assign f => f.wellFormed
  | .assignAck f => f.wellFormed
  | .sweep f => f.wellFormed
  | .collect f => f.wellFormed
  | .collectReply f => f.wellFormed
  | .lowByteWrite addr _ => !addr.getLsbD 0
  | .registerWrite addr _ => addr.getLsbD 0
  | .cantusUnknownCommand f => f.wellFormed
  | .descantFrameDropped k => k.wellFormed
  | .descantReservedType f => f.wellFormed
  | .descantReply f => f.wellFormed
  | .joinReply f => f.wellFormed
  | .searchReply f => f.wellFormed
  | .resetRelease _ _ _ | .onRequest _ | .offLoss | .offReset | .softOff _ | .vbakBackupEntry _ | .vbakDepleted _
  | .wakeStepsDone _ | .railsDone _ | .railsWaitOver5s | .calibDone _ | .drainDone _ _ | .thermalShutdown _ _
  | .thermalCooled _ | .governorTick _ | .levelRise | .serviceRestore | .vresThresholdCross _ | .vresFall10v | .vresFloor
  | .vresFull _ | .regRampEnd _ | .regRetryTimeout _ | .regUndervoltage _ | .regAttemptCountReset | .regOvervoltage _
  | .regLatchClear _ | .setpointChange _ | .vselChange _ | .syncLock _ | .syncLoss | .xtalFail | .xtalReturn
  | .measPllTimeout | .switchPllLock | .switchPllLockTimeout | .switchPllLoss | .tapCalibration | .mainsLock _
  | .mainsRefAbsent _ | .mainsRefReturn _ | .syTimeLWrite _ | .syTimeHWrite _ | .syTimeLRead | .adDatlRead
  | .rtcDiscipline | .secondBoundary | .hostCycleCoreStopped _ _ | .toothEdge _ _ _ | .syntheticTooth _ | .standstill
  | .orreryRestart | .orrSetChannel _ _ _ | .orrCommuteBridge _ _ | .orrSampleTag _ _ | .orrStepNco _ _ | .orrFeUpdate _ _
  | .orrInterrupt _ _ | .orrReservedAction _ _ | .indexEdge | .mapWordWrite _ | .learnStart _ | .learnComplete
  | .learnAbort | .eventEntryCommit _ | .carrierPeak _ | .carrierValley | .bootstrapRefresh | .coilOpen
  | .boostCycleStart _ | .boostCheckWindowEnd | .boostLimitedRun | .boostRetryTimeout | .boostAttemptReset
  | .boostLatchClear _ | .faultFlagClear _ _ | .conversionEnd _ | .adcEnable _ | .adaptEvaluation | .daLoopWrite _ | .daAuxWrite _
  | .auxModeChange _ | .daoCompliance _ | .daoOpenLoop _ | .daNcoWrite _ | .ncoZeroStop | .magPairEnd _ | .inputStale _
  | .feWordCommit _ | .commitComplete | .commitRequest _ | .ledgerInit _ | .eventEntryWrite | .sealChange _
  | .unlockFirst _ | .unlockSecond _ _ | .syKeyOther _ _ | .unlockLapse | .keyLoadStart _ | .keyWord _ | .keyLoadTimeout
  | .lgTotalsSnapshot | .evEntrySnapshot | .ceremonyArm _ | .helloSend | .ceremonyTimeout | .unpair _ | .exchangeInstant
  | .exchangeMiss | .retractSend | .noticeSend | .divergenceReset _ | .periodChange _ | .cdigRecompute | .readbackCheck
  | .loopFaultRetry | .fallbackTimeout _ | .lowv _ | .loopBDecode | .loopBLimit _ | .adaptiveTargetFall | .foldRelease
  | .dieWarning _ | .repeaterTimeout | .trimWrite _ | .loopSwitch | .cantusReplySend | .hostReplySend
  | .masterRequestSend | .replyTimeout | .lineJam | .watchPoll | .passthroughTx | .passthroughRx _ | .tnFifoRead
  | .lineLock _ | .lineLockLost | .dmtFrameStart _ | .trainStart _ _ | .trainTimeout | .trainRetry _ _ | .retrainAll _
  | .maskWrite _ | .hostFrameIssue | .requestTimeout _ | .timeInterval | .lineTimeStep | .leaveLockTimeout | .leave _
  | .epochStart | .epochWrite _ | .beaconSend _ | .queryWindowEnd _ _ | .discoveryTimeout _ | .searchReplyTimeout _
  | .epochEnd | .assignTimeout _ | .sweepIssue | .sweepLatch _ | .collectStart | .nodeTableWrite _ | .ruleAssert _
  | .ruleRelease _ | .ruleAck _ | .ruleCommit _ | .defaultsRestore _ | .policyEnable _ | .framRowWrite | .syIrqClear _
  | .freezeStart _ | .testPinFreeze | .freezeEnd _ _ | .primarySupplyGood | .stepInProgressDone | .daoComplianceClear
  | .restoreAckTimeout | .cantusCrcFailure | .cantusReceiveAbort _ _ | .dsFifoRead | .orreryCountSnapshot
  | .feLiveSnapshot | .windowDataRead _ | .hostStrobeViolation _ _ _ | .auditRowWritten => true

end Sys2Proof
end

