-- ==== Sys2Proof/Safety.lean ====
section
/-! DEFINITION. Sys2Proof/Safety.lean: the terms claims use: the bounds every reachable state keeps, and which parts of the machine a
command may touch. -/

namespace Sys2Proof.Machine

/-! ## The invariant -/

/-- FRAM's words stand in their one canonical form, and the event ring has at most its 1,024 slots (R217, R231). -/
def Fram.ok (f : Fram) : Prop := WMem.wf Config.shipment f.nv = true ∧ f.events.length ≤ 1024

/-- The entry buffer holds at most 32 entries (R232). -/
def Ev.ok (e : Ev) : Prop := e.buf.length ≤ 32

/-- The write buffer has at most two rows pending, each with words of its own row only (R433). -/
def Hb.ok (h : Hb) : Prop := h.rows.length ≤ 2 ∧ ∀ r ∈ h.rows, ∀ p ∈ r.words, p.1 / 16 = r.row

/-- TN_FIFO: 264 bytes to send, 528 received (12, TN_FIFO). -/
def Tn.ok (t : Tn) : Prop := t.txf.length ≤ 264 ∧ t.rxf.length ≤ 528

/-- DS_FIFO: 1,030 bytes to send, 4,120 received (14, DS_FIFO). -/
def Dn.ok (d : Dn) : Prop := d.txf.length ≤ 1030 ∧ d.rxf.length ≤ 4120

/-- The policy table has 32 rules (R402). -/
def Pl.ok (p : Pl) : Prop := p.rules.length = 32

/-- What every step keeps: canonical FRAM words and every buffer and FIFO within its size. -/
def State.Inv (s : State) : Prop := s.fram.ok ∧ s.ev.ok ∧ s.hb.ok ∧ s.tn.ok ∧ s.dn.ok ∧ s.pl.ok

/-! ## Frames -/

/-- The parts of the machine a frame speaks of. -/
inductive Part where
  /-- words behind windows and NV fields. -/
  | nv
  /-- the rest of FRAM: banks, mirrors, logs, keys, held network values. -/
  | fram
  | aon
  | pins
  | pw
  | reg
  | ck
  | orr
  | xb
  | ad
  | fe
  | lg
  | ev
  | sc
  | an
  | lp
  | tn
  | dl
  | dn
  | pl
  /-- SY_IRQ. -/
  | irq
  /-- the rest of the host bus and the system registers. -/
  | hb
deriving DecidableEq, Repr

/-- A part stands unchanged. -/
def Part.same (s t : State) : Part → Prop
  | .nv => t.fram.nv = s.fram.nv
  | .fram => { t.fram with nv := [] } = { s.fram with nv := [] }
  | .aon => t.aon = s.aon
  | .pins => t.pins = s.pins
  | .pw => t.pw = s.pw
  | .reg => t.reg = s.reg
  | .ck => t.ck = s.ck
  | .orr => t.orr = s.orr
  | .xb => t.xb = s.xb
  | .ad => t.ad = s.ad
  | .fe => t.fe = s.fe
  | .lg => t.lg = s.lg
  | .ev => t.ev = s.ev
  | .sc => t.sc = s.sc
  | .an => t.an = s.an
  | .lp => t.lp = s.lp
  | .tn => t.tn = s.tn
  | .dl => t.dl = s.dl
  | .dn => t.dn = s.dn
  | .pl => t.pl = s.pl
  | .irq => t.hb.irq = s.hb.irq
  | .hb => { t.hb with irq := 0 } = { s.hb with irq := 0 }

/-- Every part but those named stands unchanged, and so does the queue of waiting commands. -/
def State.sameBut (ps : List Part) (s t : State) : Prop := t.pending = s.pending ∧ ∀ p, p ∉ ps → Part.same s t p

/-! ## What each command may touch -/

/-- Every part but the pins: what the commit of a register, of any register, may reach. -/
def registerParts : List Part :=
  [.nv, .fram, .aon, .pw, .reg, .ck, .orr, .xb, .ad, .fe, .lg, .ev, .sc, .an, .lp, .tn, .dl, .dn, .pl, .irq, .hb]

/-- What a read of a window, a FIFO or a result by the host may move: pointers, snapshots, FIFOs. -/
def readParts : List Part := [.orr, .ad, .fe, .lg, .ev, .tn, .dl, .dn, .pl, .hb]

/-- Every part: the commands that may start CORE. -/
def allParts : List Part := .pins :: registerParts

/-- The parts of the machine a command may touch, whatever state it meets. -/
def touches : Instr → List Part
  | .resetRelease _ _ _ => allParts
  | .onRequest _ => allParts
  | .offLoss => [.fram, .aon, .pins, .pw, .reg, .ck, .orr, .xb, .ad, .fe, .lg, .ev, .sc, .an, .lp, .tn, .dl, .dn, .pl, .irq, .hb]
  | .offReset => [.fram, .aon, .pins, .pw, .ck, .orr, .xb, .ad, .fe, .lg, .ev, .sc, .an, .lp, .tn, .dn, .pl, .irq, .hb]
  | .softOff _ => registerParts
  | .vbakBackupEntry _ => [.pins, .pw, .reg, .xb, .ad, .lp, .dl, .hb]
  | .vbakDepleted _ => [.fram, .aon, .pins, .pw, .reg, .xb, .ad, .ev, .lp, .dl, .irq, .hb]
  | .wakeStepsDone _ => [.fram, .pw, .reg, .ck, .orr, .xb, .ad, .fe, .lg, .ev, .sc, .an, .lp, .tn, .dn, .pl, .irq, .hb]
  | .railsDone _ => [.pins, .pw, .ck, .ad, .ev, .irq]
  | .railsWaitOver5s => [.pw, .ev]
  | .calibDone _ => [.nv, .fram, .aon, .pw, .ck, .orr, .ad, .fe, .lg, .ev, .sc, .an, .lp, .tn, .dl, .dn, .pl, .irq, .hb]
  | .drainDone _ _ => allParts
  | .thermalShutdown _ _ => [.nv, .fram, .aon, .pins, .pw, .reg, .ck, .orr, .xb, .ad, .fe, .lg, .ev, .sc, .an, .lp, .dl, .dn, .pl, .irq, .hb]
  | .thermalCooled _ => allParts
  | .governorTick _ => [.fram, .aon, .pins, .pw, .reg, .ck, .orr, .xb, .ad, .fe, .ev, .an, .lp, .tn, .dl, .dn, .pl, .irq, .hb]
  | .levelRise => [.pw]
  | .serviceRestore => [.pw, .ck, .ad, .ev, .tn, .dl, .dn, .irq]
  | .vresThresholdCross _ => [.pins, .pw, .xb, .ev, .irq]
  | .vresFall10v => [.pins, .pw, .xb, .ad, .fe, .ev, .dl, .irq]
  | .vresFloor => [.fram, .pins, .pw, .xb, .ad, .fe, .lg, .ev, .dl, .irq]
  | .vresFull _ => [.pins, .pw, .xb, .ev, .irq]
  | .regRampEnd _ => [.nv, .reg, .ev, .irq, .hb]
  | .regRetryTimeout _ => [.reg, .ck]
  | .regUndervoltage _ => [.nv, .reg, .ev, .irq, .hb]
  | .regAttemptCountReset => [.reg]
  | .regOvervoltage _ => [.nv, .aon, .reg, .ev, .irq, .hb]
  | .regLatchClear _ => registerParts
  | .setpointChange _ => [.reg]
  | .vselChange _ => [.pins]
  | .syncLock _ => [.reg, .ev]
  | .syncLoss => [.reg, .ev, .irq]
  | .xtalFail => [.aon, .ev, .irq]
  | .xtalReturn => [.aon]
  | .measPllTimeout => [.pw, .ck, .irq]
  | .switchPllLock => [.ck, .ev, .irq]
  | .switchPllLockTimeout => [.pw, .ck, .ev, .irq]
  | .switchPllLoss => [.ck, .xb, .ad, .fe, .ev, .irq]
  | .tapCalibration => [.ck]
  | .mainsLock _ => [.ck, .ev, .irq]
  | .mainsRefAbsent _ => [.ck, .ev, .irq]
  | .mainsRefReturn _ => [.ck]
  | .syTimeLWrite _ => registerParts
  | .syTimeHWrite _ => registerParts
  | .syTimeLRead => readParts
  | .adDatlRead => readParts
  | .rtcDiscipline => [.ck, .lg, .ev, .irq]
  | .secondBoundary => [.aon, .pw, .orr, .ad, .fe, .lg, .ev, .dl, .pl, .irq, .hb]
  | .hostCycleCoreStopped _ _ => [.hb]
  | .toothEdge _ _ _ => [.pw, .ck, .orr, .xb, .ad, .fe, .lg, .ev, .an, .pl, .irq]
  | .syntheticTooth _ => [.pw, .orr, .xb, .ad, .fe, .lg, .ev, .pl, .irq]
  | .standstill => [.orr, .ad, .fe, .lg, .ev, .an, .pl, .irq]
  | .orreryRestart => [.nv, .fram, .aon, .ck, .orr, .ad, .fe, .lg, .ev, .sc, .an, .lp, .dl, .dn, .pl, .irq, .hb]
  | .orrSetChannel _ _ _ => registerParts
  | .orrCommuteBridge _ _ => [.pw, .orr, .xb, .ad, .fe]
  | .orrSampleTag _ _ => [.orr, .ad]
  | .orrStepNco _ _ => [.orr, .ad]
  | .orrFeUpdate _ _ => [.orr, .fe, .lg, .ev, .irq]
  | .orrInterrupt _ _ => [.orr, .irq]
  | .orrReservedAction _ _ => [.orr, .ev]
  | .indexEdge => [.orr]
  | .mapWordWrite _ => registerParts
  | .learnStart _ => registerParts
  | .learnComplete => [.orr, .lg, .ev, .irq]
  | .learnAbort => [.orr, .ev]
  | .eventEntryCommit _ => registerParts
  | .carrierPeak _ => [.xb]
  | .carrierValley => [.ck, .xb, .hb]
  | .bootstrapRefresh => [.xb, .ev, .pl]
  | .coilOpen => [.xb, .ad, .ev, .irq]
  | .boostCycleStart _ => [.ck, .xb, .ev, .pl]
  | .boostCheckWindowEnd => [.xb, .ev, .irq]
  | .boostLimitedRun => [.xb, .ev, .irq]
  | .boostRetryTimeout => [.xb, .ev, .irq]
  | .boostAttemptReset => [.xb]
  | .boostLatchClear _ => registerParts
  | .faultInputTrip _ => [.pins, .xb, .ad, .fe, .ev, .irq]
  | .faultFlagClear _ _ => allParts
  | .faultAutoRestart _ => [.pins, .xb, .ev]
  | .conversionEnd _ => [.ad, .fe, .lg, .ev, .lp, .pl, .irq]
  | .adcEnable _ => registerParts
  | .daLoopWrite _ => registerParts
  | .daAuxWrite _ => registerParts
  | .auxModeChange _ => registerParts
  | .daoCompliance _ => [.ad, .ev, .irq]
  | .daoOpenLoop _ => [.ad, .ev, .irq]
  | .daNcoWrite _ => registerParts
  | .ncoZeroStop => [.ad]
  | .magPairEnd _ => [.xb, .ad, .fe, .lg, .ev, .irq]
  | .inputStale _ => [.fe, .ev, .irq]
  | .feWordCommit _ => registerParts
  | .adaptEvaluation => [.fe, .ev, .irq]
  | .noiseBlockTransform _ => [.fe, .dl]
  | .commitComplete => [.fram, .lg, .ev, .an, .dl, .dn, .irq]
  | .commitRequest _ => registerParts
  | .ledgerInit _ => registerParts
  | .eventEntryWrite => [.fram, .ev, .irq]
  | .sealChange _ => [.fram, .aon, .orr, .fe, .lg, .ev, .sc, .an, .irq, .hb]
  | .unlockFirst _ => registerParts
  | .unlockSecond _ _ => registerParts
  | .syKeyOther _ _ => registerParts
  | .unlockLapse => [.sc]
  | .keyLoadStart _ => registerParts
  | .keyWord _ => registerParts
  | .keyLoadTimeout => [.ev, .sc]
  | .lgTotalsSnapshot => readParts
  | .evEntrySnapshot => readParts
  | .ceremonyArm _ => registerParts
  | .helloSend => [.dl, .dn]
  | .hello _ => [.nv, .fram, .lg, .ev, .an, .dl, .dn, .pl, .irq, .hb]
  | .confirm _ => [.nv, .fram, .lg, .ev, .an, .dl, .dn, .pl, .irq, .hb]
  | .ceremonyTimeout => [.fram, .ev, .an, .irq]
  | .unpair _ => registerParts
  | .exchangeInstant => [.ev, .an, .dl, .dn, .irq]
  | .call _ _ => [.nv, .fram, .lg, .ev, .an, .dl, .dn, .pl, .irq, .hb]
  | .answer _ => [.nv, .fram, .lg, .ev, .an, .dl, .dn, .pl, .irq, .hb]
  | .exchangeMiss => [.fram, .ev, .an, .dl, .pl, .irq]
  | .retractSend => [.an, .dl, .dn]
  | .retract _ => [.nv, .fram, .ev, .an, .dl, .dn, .pl, .irq, .hb]
  | .noticeSend => [.an, .dl, .dn]
  | .notice _ => [.nv, .fram, .ev, .an, .dl, .dn, .pl, .irq, .hb]
  | .restore _ => [.nv, .fram, .lg, .ev, .an, .dl, .dn, .pl, .irq, .hb]
  | .divergenceReset _ => registerParts
  | .periodChange _ => registerParts
  | .cdigRecompute => [.lg]
  | .readbackCheck => [.ad, .ev, .lp, .pl, .irq]
  | .loopFaultRetry => [.ad, .ev, .lp, .irq]
  | .fallbackTimeout _ => [.ev, .lp, .irq]
  | .lowv _ => [.ev, .lp, .irq]
  | .loopBDecode => [.ev, .lp, .irq]
  | .loopBLimit _ => [.lp]
  | .adaptiveTargetFall => [.reg, .lp]
  | .foldRelease => [.ev, .lp]
  | .dieWarning _ => [.ev, .lp, .irq]
  | .repeaterTimeout => [.lp]
  | .trimWrite _ => registerParts
  | .loopSwitch => [.ev, .tn, .irq]
  | .identify _ => [.ev, .tn, .pl, .irq, .hb]
  | .cantusRead _ => [.orr, .ad, .fe, .lg, .ev, .tn, .dl, .dn, .pl, .irq, .hb]
  | .cantusWrite _ => registerParts
  | .cantusHostCommand _ => [.ev, .tn, .pl, .irq, .hb]
  | .cantusReplySend => [.ad, .tn]
  | .hostReplySend => [.ad, .tn]
  | .masterRequestSend => [.ad, .tn]
  | .masterReply _ => [.ad, .ev, .tn, .pl, .irq, .hb]
  | .replyTimeout => [.ad, .ev, .tn, .pl, .irq]
  | .lineJam => [.ev, .tn, .pl, .irq]
  | .watchPoll => [.ad, .tn]
  | .passthroughTx => [.pw, .ad, .tn]
  | .passthroughRx _ => [.ev, .tn, .irq]
  | .tnFifoRead => readParts
  | .lineLock _ => [.ck, .ev, .irq]
  | .lineLockLost => [.ck, .ev, .dl, .pl, .irq]
  | .dmtFrameStart _ => [.fram, .pw, .ev, .an, .dl, .dn, .irq]
  | .frameRelay _ => [.nv, .fram, .ev, .dl, .dn, .irq, .hb]
  | .trainStart _ _ => [.dl]
  | .train _ => [.dl]
  | .trainingSymbolsEnd _ _ => [.dl]
  | .table _ => [.nv, .fram, .dl, .hb]
  | .tableAck _ => [.nv, .fram, .ev, .dl, .irq, .hb]
  | .trainTimeout => [.ev, .dl, .irq]
  | .trainRetry _ _ => [.dl]
  | .retrain _ => [.dl]
  | .retrainTrigger _ _ _ _ => [.ev, .dl, .pl, .irq]
  | .retrainAll _ => registerParts
  | .maskWrite _ => registerParts
  | .descantRead _ => [.nv, .fram, .orr, .ad, .fe, .lg, .ev, .tn, .dl, .dn, .pl, .irq, .hb]
  | .descantWrite _ => registerParts
  | .report _ => [.nv, .fram, .ev, .dl, .dn, .pl, .irq, .hb]
  | .descantNack _ => [.nv, .fram, .ck, .ev, .an, .dl, .dn, .pl, .irq, .hb]
  | .hostFrameIssue => [.fram, .ev, .dl, .dn, .irq]
  | .requestTimeout _ => [.nv, .ev, .dl, .dn, .pl, .irq, .hb]
  | .timeInterval => [.dl, .dn]
  | .time _ => [.nv, .fram, .ev, .dl, .dn, .pl, .irq, .hb]
  | .timeReply _ => [.nv, .fram, .ck, .ev, .dl, .dn, .pl, .irq, .hb]
  | .lineTimeStep => [.ck, .ev, .irq]
  | .leaveLockTimeout => [.fram, .ck, .ev, .dl, .dn, .irq]
  | .leave _ => registerParts
  | .epochStart => [.dl, .dn]
  | .epochWrite _ => registerParts
  | .search _ => [.nv, .fram, .ev, .dl, .dn, .pl, .irq, .hb]
  | .beaconSend _ => [.dl]
  | .beacon _ => [.ck, .ev, .dl, .dn, .irq]
  | .query _ _ => [.dl]
  | .queryWindowEnd _ _ => [.nv, .ev, .dl, .dn, .irq, .hb]
  | .searchAnswer _ => [.ev, .dl, .dn, .pl, .irq, .hb]
  | .discoveryTimeout _ => [.dl, .dn]
  | .searchReplyTimeout _ => [.dl, .dn]
  | .epochEnd => [.nv, .ev, .dn, .irq, .hb]
  | .join _ => [.nv, .fram, .ev, .dl, .dn, .pl, .irq, .hb]
  | .assign _ => [.fram, .ev, .dl, .dn, .irq]
  | .assignAck _ => [.nv, .dl, .dn, .hb]
  | .assignTimeout _ => [.dl, .dn]
  | .sweepIssue => [.fram, .dl, .dn]
  | .sweep _ => [.nv, .fram, .ev, .dl, .dn, .pl, .irq, .hb]
  | .sweepLatch _ => [.fram, .lg, .ev, .dn, .irq]
  | .collectStart => [.nv, .ev, .dl, .dn, .irq, .hb]
  | .collect _ => [.nv, .fram, .ev, .dl, .dn, .pl, .irq, .hb]
  | .collectReply _ => [.nv, .fram, .ev, .dl, .dn, .pl, .irq, .hb]
  | .nodeTableWrite _ => registerParts
  | .ruleAssert _ => [.ad, .fe, .lg, .ev, .an, .lp, .pl, .irq]
  | .ruleRelease _ => [.fram, .ad, .fe, .ev, .an, .lp, .pl, .irq]
  | .ruleAck _ => registerParts
  | .ruleCommit _ => registerParts
  | .defaultsRestore _ => registerParts
  | .policyEnable _ => registerParts
  | .lowByteWrite _ _ => registerParts
  | .registerWrite _ _ => registerParts
  | .framRowWrite => [.nv, .hb]
  | .syIrqClear _ => registerParts
  | .freezeStart _ => registerParts
  | .testPinFreeze => [.pins, .hb]
  | .freezeEnd _ _ => [.pins, .xb, .ad, .fe, .ev, .irq, .hb]
  | .primarySupplyGood => [.pins, .pw, .reg, .xb, .ad, .lp, .dl, .hb]
  | .stepInProgressDone => [.fram, .pw, .ck, .orr, .xb, .ad, .fe, .lg, .ev, .sc, .an, .lp, .tn, .dn, .pl, .irq]
  | .daoComplianceClear => [.ad]
  | .restoreAckTimeout => [.ev, .an, .pl, .hb]
  | .cantusCrcFailure => [.ev, .tn, .pl, .irq, .hb]
  | .cantusReceiveAbort _ _ => [.ev, .tn, .pl, .irq, .hb]
  | .cantusUnknownCommand _ => [.ev, .tn, .pl, .irq, .hb]
  | .descantFrameDropped _ => [.ev, .dl, .dn, .pl, .irq, .hb]
  | .descantReservedType _ => [.nv, .fram, .ev, .dl, .dn, .pl, .irq, .hb]
  | .descantReply _ => [.nv, .fram, .ev, .dl, .dn, .pl, .irq, .hb]
  | .joinReply _ => [.nv, .fram, .ev, .dl, .dn, .pl, .irq, .hb]
  | .searchReply _ => [.nv, .fram, .ev, .dl, .dn, .pl, .irq, .hb]
  | .dsFifoRead => readParts
  | .orreryCountSnapshot => readParts
  | .feLiveSnapshot => readParts
  | .windowDataRead _ => readParts
  | .hostStrobeViolation _ _ _ => [.ev, .hb]
  | .auditRowWritten => [.nv, .fram, .aon, .ck, .orr, .ad, .fe, .lg, .ev, .sc, .an, .lp, .dl, .dn, .pl, .irq, .hb]

/-! ## Events -/

/-- The entry the event log takes now for a code and its data (R230); its sequence number follows when it is written (R231). -/
def State.eventOf (s : State) (code : Word) (data : Nat) : LogEntry :=
  { time := s.stamp, seq := 0, code := code, data := BitVec.ofNat 48 data }

/-! ## Received and sent frames -/

/-- The port receives, and nothing of this EWT's own is being sent on it (R346, R347). -/
def State.listens (s : State) (p : Port) : Prop := s.rxOn p = true ∧ s.sendingOn p = false

/-- A received DMT frame reaches its effect here (R337 to R342, R373, R400): the port receives and nothing of this EWT's own is being sent on it,
its GEN is known, it is for this node in the system or for all from the head, from another address, without an unknown flag. -/
def State.hears (s : State) (f : RxFrame) : Prop :=
  s.rxOn f.port = true ∧ s.sendingOn f.port = false ∧ (s.genCheck f).1 = true ∧ s.inSystem = true ∧ f.frame.src ≠ s.ownAddr ∧
  f.frame.payload.length ≤ 1024 ∧ f.frame.flags.getLsbD 0 = false ∧
  (if f.frame.flags.getLsbD 3 = true then f.frame.src = 0 else f.frame.dest = s.ownAddr)

/-- What reception itself leaves: a pending table that the frame commits (R350), its stamp, count and index (R337, R373), and what a
bridge notes of its source (R372). -/
def State.heard (s : State) (f : RxFrame) : State := ((s.genCheck f).2.stampFrame f).heardFrom f.port f.frame.src

/-- A frame as it stands in a port's queue (R349). -/
def State.queued (s : State) (f : DFrame) (p : Port) : QFrame :=
  { port := p, frame := f, prot := protectedType f.type (f.flags.getLsbD 4),
    peer := if f.flags.getLsbD 3 then none else s.idxOf p f.dest }

/-- A new frame of this node's own (R374). -/
def State.ownFrame (s : State) (dest : BitVec 12) (type : Byte) (flags : BitVec 5) (payload : List Byte) : DFrame :=
  { dest := dest, src := s.ownAddr, type := type, seq := s.dn.seq + 1#16, flags := flags, payload := payload }

/-- A Cantus request that reaches its effect at this device (R324, R325), its count not about to pin (R419). -/
def State.tnHears (s : State) (f : CFrame) : Prop :=
  s.tnOn = true ∧ s.tn.pt = false ∧ f.addr.getLsbD 7 = false ∧ s.tnDevice = true ∧ (f.addr.extractLsb' 0 4).toNat = s.pollAdr ∧
  s.tn.rxCnt.toNat < 0xFFFE

/-- No repeat of the last request within 2 s (R326). -/
def State.tnNew (s : State) (f : CFrame) : Prop :=
  ∀ x, s.tn.stored = some x → ¬ (x.1 = f.seq ∧ x.2.1 = cantusCrc f ∧ s.within x.2.2.2 2000 = true)

/-- What its reception leaves: the level, in fast mode the equaliser's taps and the error figure, the count (R317, R318, R321). -/
def State.tnTaken (s : State) (f : CFrame) : State :=
  State.tnEqualise { s with tn := { s.tn with rssi := f.rssi, rxCnt := s.tn.rxCnt + 1 } } f.soft

/-- After a Cantus violation whose class this second has not logged, its count not about to pin: counted, logged, interrupt 10, and VIO
with TVIOLIM of them in 60 s (R332, R419). -/
def State.toneViolated (s : State) (code : Word) (data : Nat) : State :=
  { s with
    tn := { s.tn with
      vioCnt := s.tn.vioCnt + 1, vioAt := (s.pw.ticks :: s.tn.vioAt.filter (fun a => s.pw.ticks - a < 60000)).take 255,
      vio := s.tn.vio || (s.tviolim != 0 && decide (s.tviolim ≤ (s.tn.vioAt.filter (fun a => s.pw.ticks - a < 60000)).length + 1)) },
    ev := { s.ev with buf := s.ev.buf ++ [s.eventOf code data] },
    hb := { s.hb with secCodes := code :: s.hb.secCodes, irq := s.hb.irq ||| 0x0400#16 } }

/-- An Antiphon message of a KIND reaches its effect in RUN (R262, R263); type 0x09 for a RETRACT. -/
def State.hearsAntiphon (s : State) (f : RxFrame) (type kind : Byte) : Prop :=
  s.hears f ∧ f.frame.type = type ∧ anWellFormed type f.frame.payload = true ∧ payAt f.frame.payload 1 = kind ∧ (s.heard f).running = true

/-- A message of the partner at its address, with a valid tag, while exchanges may run (R257, R264, R268). -/
def State.partners (s : State) (f : RxFrame) : Prop :=
  (s.fram.anState = 3 ∨ s.fram.anState = 4) ∧ f.frame.src = s.paddr ∧ s.anTagOk f.frame.payload s.fram.serial = true ∧
  anSender f.frame.payload = s.fram.pserial

/-- The message may be mirrored (R268): its ASEQ is above the last mirrored one, its CSEQ and totals are not below. -/
def State.fresh (s : State) (p : List Byte) : Prop := s.fram.rxaseq.toNat < beAt p 0x0C 4 ∧ s.notBelow p = true

/-- The message has been mirrored (R268, R270, R275); one of an exchange ends the run of missed exchanges (R260). -/
def State.holdsMessage (t : State) (p : List Byte) : Prop :=
  t.fram.rxaseq = BitVec.ofNat 32 (beAt p 0x0C 4) ∧ t.fram.rxcseq = BitVec.ofNat 32 (beAt p 0x18 4) ∧ t.fram.rxtotals = messageInts p ∧
  t.an.ppend = (List.range 4).map (fun i => (BitVec.ofNat 32 (beAt p (0xCC + 4 * i) 4) : F32)) ∧
  ((payAt p 1 = 0x01 ∨ payAt p 1 = 0x02) → t.an.misses = 0) ∧ t.fram.stale = false

/-- A frame is no repeat of its source's last request of that type within 2 s (R376). -/
def State.noRepeat (s : State) (f : RxFrame) : Prop :=
  ∀ x ∈ s.dn.stored, ¬ (x.src = f.frame.src ∧ x.seq = f.frame.seq ∧ x.crc = crc32 f.frame.payload ∧ x.reply.type = f.frame.type ∧
    s.within x.at_ 2000 = true)

/-- A request to this node alone, heard and new (R374, R376). -/
def State.asksAnew (s : State) (f : RxFrame) (type : Byte) : Prop :=
  s.hears f ∧ f.frame.type = type ∧ f.frame.flags.getLsbD 4 = false ∧ f.frame.flags.getLsbD 3 = false ∧ s.noRepeat f

/-- The reply to a request: its type and SEQ with RSP (R374). -/
def replyOf (f : RxFrame) (payload : List Byte) : DFrame :=
  { dest := f.frame.src, src := f.frame.dest, type := f.frame.type, seq := f.frame.seq, flags := 0x10, payload := payload }

/-- The request is answered: its reply in the port's queue, and among the stored replies of the last 8 sources (R374, R376). -/
def State.answered (s : State) (f : RxFrame) (payload : List Byte) : State :=
  { s with
    dl := { s.dl with queue := s.dl.queue ++ [s.queued (replyOf f payload) f.port] },
    dn := { s.dn with stored := ({ src := f.frame.src, seq := f.frame.seq, crc := crc32 f.frame.payload, reply := replyOf f payload,
                                   at_ := s.pw.ticks } :: s.dn.stored.filter (fun x => x.src != f.frame.src)).take 8 } }

/-- The NACK of a received frame: its TYPE, SEQ and a code (R370, R371). -/
def State.nackOf (s : State) (f : RxFrame) (code : Byte) : DFrame :=
  s.ownFrame f.frame.src 0x0A 0 ([f.frame.type] ++ bytesBE 2 f.frame.seq.toNat ++ [code])

/-- A NACK goes out on the port of the frame it names. -/
def State.nacked (s : State) (f : RxFrame) (code : Byte) : State :=
  { s with dl := { s.dl with queue := s.dl.queue ++ [s.queued (s.nackOf f code) f.port] }, dn := { s.dn with seq := s.dn.seq + 1#16 } }

/-- A request of this node's own goes out and its reply is awaited (R374, R375). -/
def State.asked (s : State) (dest : BitVec 12) (type : Byte) (payload : List Byte) (host : Bool) : State :=
  { s with
    dl := { s.dl with queue := s.dl.queue ++ (s.portsFor dest).map (s.queued (s.ownFrame dest type 0 payload)) },
    dn := { s.dn with seq := s.dn.seq + 1#16,
                      reqs := s.dn.reqs ++ [{ frame := s.ownFrame dest type 0 payload, port := (s.portsFor dest).headD .A, tries := 0,
                                              host := host }] } }

/-- Of the host bus and the system registers a commit changes its latch alone, SY_IRQ apart (R429). -/
def State.latchTaken (s t : State) : Prop := { t.hb with irq := 0 } = { s.hb with irq := 0, wlatch := none }

/-- The node has left its system (R383, R396): not joined and without an address, its line time, queues, search frames, training, requests and
announcements gone; 0x0C0A with cause 3 for each announcement held, then 0x0C01, and interrupt 12. -/
def State.left (s : State) : State :=
  { s with
    fram := { s.fram with joined := false, addr := 0 }, ck := { s.ck with ltv := false, lpend := 0 },
    dl := { s.dl with queue := [], squeue := [], training := [] },
    dn := { s.dn with pend := [], reqs := [], hearing := none, timeT1 := none, phase0 := none, segs := [] },
    hb := { s.hb with irq := s.hb.irq ||| 0x1000#16 },
    ev := { s.ev with buf := s.ev.buf ++ (s.dn.pend.map (fun a => s.eventOf 0x0C0A (a.number.toNat + 3 * 2 ^ 32)) ++
      [s.eventOf 0x0C01 (s.fram.addr.toNat * 2 ^ 8 + s.fram.lidx.toNat * 2 ^ 24 + s.fram.hops.toNat * 2 ^ 32)]) } }

/-- A commit that stores one FRAM-held word through the row buffer; every other word stands (R429, R433). -/
def State.wordStored (s t : State) (k : Nat) (w : Word) : Prop :=
  { t.hb with irq := 0, rows := [] } = { s.hb with irq := 0, rows := [], wlatch := none } ∧ ∀ j, t.nv j = if j = k then w else s.nv j

/-- Of the host bus and the system registers at most words of pending rows change, SY_IRQ apart. -/
def State.hostKept (s t : State) : Prop := { t.hb with irq := 0, rows := [] } = { s.hb with irq := 0, rows := [] }

/-- After a network violation whose class this second has not logged, its count not about to pin: counted, logged, interrupt 12, and VIO
with DVIOLIM of them in 60 s (R400, R419). -/
def State.networkViolated (s : State) (code : Word) (data : Nat) : State :=
  { s with
    dn := { s.dn with
      vioCnt := s.dn.vioCnt + 1, vioAt := (s.pw.ticks :: s.dn.vioAt.filter (fun a => s.pw.ticks - a < 60000)).take 255,
      vio := s.dn.vio || (s.dviolim != 0 && decide (s.dviolim ≤ (s.dn.vioAt.filter (fun a => s.pw.ticks - a < 60000)).length + 1)) },
    ev := { s.ev with buf := s.ev.buf ++ [s.eventOf code data] },
    hb := { s.hb with secCodes := code :: s.hb.secCodes, irq := s.hb.irq ||| 0x1000#16 } }

/-- The premises of such a violation. -/
def State.mayLog (s : State) (code : Word) : Prop :=
  s.dn.vioCnt.toNat < 0xFFFE ∧ s.ev.buf.length < 32 ∧ s.hb.secCodes.contains code = false

/-- A request awaited at the front of its list, answered by a frame (R374, R375). -/
def State.awaits (s : State) (f : RxFrame) (r : Request) (rest : List Request) : Prop :=
  s.dn.reqs = r :: rest ∧ r.frame.type = f.frame.type ∧ r.frame.seq = f.frame.seq ∧ r.frame.dest = f.frame.src

/-- A host frame as the host puts it into DS_FIFO: destination, TYPE, FLAGS, LEN, payload (R379). -/
def hostFrame (dest : BitVec 12) (type flags : Byte) (payload : List Byte) : List Byte :=
  bytesBE 2 dest.toNat ++ [type, flags] ++ bytesBE 2 payload.length ++ payload

/-- A segment's search running on a port (R389). -/
def State.searching (s : State) (p : Port) (g : Segment) : Prop := s.segOn p = some g ∧ g.done = false

/-- The state with the search of its port replaced (R389). -/
def State.withSegment (s : State) (g : Segment) : State :=
  { s with dn := { s.dn with segs := g :: s.dn.segs.filter (fun x => x.port != g.port) } }

/-- A search frame waits for its port (R387). -/
def State.withSearch (s : State) (p : Port) (kind : Byte) (payload : List Byte) : State :=
  { s with dl := { s.dl with squeue := s.dl.squeue ++ [{ port := p, kind := kind, payload := payload }] } }

/-- The state in which a search asks its next query and its window is open (R386, R389, R390). -/
def State.asksQuery (s : State) (g : Segment) (mode : Bool) (l : Nat) (x : Word64) : State :=
  State.withSearch (s.withSegment { g with query := some (mode, l, x), answers := [] }) g.port 0x01
    (bytesBE 2 g.epoch.toNat ++ [BitVec.ofNat 8 (b2n mode * 128 + l)] ++ bytesBE 8 x.toNat)

end Sys2Proof.Machine
end

