-- ==== Sys2Proof/Certificates/Slice0/Obligations.lean ====
section
/-! DEFINITION. Sys2Proof/Certificates/Slice0/Obligations.lean: the statements for the provers. A statement about a command says that exec
answers a next state, what that state holds, and which parts of the machine (Safety.lean, Part) may differ from before; where it gives a
part as a record update, every other field of that part stands. -/

open Sys2Proof Sys2Proof.Machine

/-! ## The queue, reset and the whole machine -/

/-- A step takes the command at the front of the queue and runs it with the queue's rest (the block's form; log entry 19). -/
def Obligations.StepRunsTheFrontCommand : Prop :=
  ∀ (c : Instr) (rest : List Instr) (s : State), s.pending = c :: rest → step s = exec c { s with pending := rest }

/-- With no command waiting a step changes nothing: the model's own choice (log entry 19). -/
def Obligations.EmptyQueueIdles : Prop := ∀ s : State, s.pending = [] → step s = .next s

/-- Every command, in every state, has a next state; it leaves the queue, the serial number and every part that `touches` does not
list for it as they were. -/
def Obligations.EveryCommandKeepsTheRest : Prop :=
  ∀ (c : Instr) (s : State),
    ∃ t, exec c s = .next t ∧ State.sameBut (touches c) s t ∧ t.fram.serial = s.fram.serial

/-- What `State.Inv` says holds again after every step from a state that has it: FRAM words in their canonical form, every buffer and
FIFO within the size the spec gives it, 32 rules. -/
def Obligations.EveryStepKeepsTheInvariant : Prop :=
  ∀ s t : State, s.Inv → step s = .next t → t.Inv

/-- The machine after reset has the invariant. -/
def Obligations.ResetHasTheInvariant : Prop := State.reset.Inv

/-! ## The sequencer (02, R47 to R60) -/

/-- R47, R3, R48: what wakes the machine. The end of a reset in OFF samples the role; the supply good in OFF, or the end of a reset in
BACKUP with the supply good, leads to WAKE; a supply good without an ON request leads from OFF to BACKUP, and VBAK at 2.2 V does so
without a supply. -/
def Obligations.OnAndBackup : Prop :=
  (∀ (s : State) (b1 b0 : Bool) (env : WakeEnv), s.pw.st = .off →
    ∃ t, exec (.resetRelease (if b1 then .high else .low) (if b0 then .high else .low) env) s = .next t ∧
      State.sameBut [.pins] s t ∧
      t.pins = { s.pins with
        role := if b1 then (if b0 then .H else .TM) else if b0 then .M else .T, rstnLow := false }) ∧
  (∀ (s : State) (env : WakeEnv),
    s.pw.st = .backup → s.pins.supply = true → s.aon.softLatch = false → s.aon.thermLatch = false →
    ∃ t, exec (.resetRelease .low .low env) s = .next t ∧ t.pw.st = .wake ∧ t.pins.role = .T ∧ t.pins.rstnLow = false) ∧
  (∀ (s : State) (env : WakeEnv), s.pw.st = .off → s.pins.rstnLow = false → s.aon.softLatch = false →
    ∃ t, exec (.onRequest env) s = .next t ∧
      t.pw.st = .wake ∧ t.pins = { s.pins with supply := true, vioExternal := env.vioExternal } ∧ t.fe.qvp = 0 ∧
      t.pw.rtclost = s.aon.fromOff ∧ t.aon.fromOff = false ∧ t.aon.rtc = s.aon.rtc) ∧
  (∀ s : State, s.pw.st = .off → s.pins.rstnLow = true →
    ∃ t, exec .primarySupplyGood s = .next t ∧ t.pw.st = .backup ∧ t.pins.supply = true ∧ t.aon = s.aon ∧ t.fram = s.fram) ∧
  (∀ (s : State) (vbak : Nat), s.pw.st = .off → s.pins.supply = false → 220 ≤ vbak →
    ∃ t, exec (.vbakBackupEntry vbak) s = .next t ∧ t.pw.st = .backup ∧ t.aon = s.aon ∧ t.fram = s.fram)

/-- R48, R50, R52: an OFF request in RUN leads to DRAIN, with CAUSE 1 or 2 for the loss of the loop's or the line's supply, 3 for
RSTN low, 4 for the soft-off; PW_STATE.LAST names RUN; the soft-off latch clears on the first two and is set by the last. In a start-up
step the request waits for the step's end, where it leads to DRAIN. -/
def Obligations.OffRequests : Prop :=
  (∀ s : State, s.pw.st = .run →
    ∃ t, exec .offLoss s = .next t ∧ t.pw.st = .drain ∧ t.pw.drainRun = true ∧ t.fram.last = 5 ∧
      t.fram.cause = (if s.pins.role = .T then 1 else 2) ∧ t.pins.supply = false ∧ t.aon.softLatch = false ∧
      t.ad.daLoop = 0 ∧ t.ad.daAux = 0 ∧ t.xb.brun = false) ∧
  (∀ s : State, s.pw.st = .run →
    ∃ t, exec .offReset s = .next t ∧ t.pw.st = .drain ∧ t.fram.last = 5 ∧ t.fram.cause = 3 ∧ t.pins.rstnLow = true ∧
      t.aon.softLatch = false) ∧
  (∀ (s : State) (hi lo : Byte), s.pw.st = .run → s.busOn = true → s.hb.wlatch = some (0x0A, lo) → s.sc.armHost = .armed →
    hi.extractLsb' 0 2 = 2 →
    ∃ t, exec (.softOff hi) s = .next t ∧ t.pw.st = .drain ∧ t.fram.cause = 4 ∧ t.aon.softLatch = true ∧ t.sc.armHost = .idle) ∧
  (∀ s : State, s.coreOn = true → s.startUp = true → s.pw.offPend = false → s.pw.stepBusy = true →
    ∃ t, exec .offReset s = .next t ∧ t.pw = { s.pw with offPend := true, offCause := 3 }) ∧
  (∀ s : State, s.coreOn = true → s.startUp = true → s.pw.offPend = true →
    ∃ t, exec .stepInProgressDone s = .next t ∧ t.pw.st = .drain ∧ t.fram.cause = s.pw.offCause ∧ t.pw.drainRun = false)

/-- R47, R51, R52, R85: the way from WAKE to RUN and out of DRAIN: CALIB ends with its conversions, or where the measurement PLL never
locked; an ON request in DRAIN does not end it; DRAIN, once complete, leads to WAKE when an ON request stands. -/
def Obligations.SequencerStates : Prop :=
  (∀ (s : State) (vaux : Nat), s.coreOn = true → s.pw.st = .wake → s.pw.offPend = false →
    ∃ t, exec (.wakeStepsDone vaux) s = .next t ∧ t.pw.st = .rails ∧ t.hb.nvr = true ∧ t.fe.srcLive = bitAt (s.nvReg 0x56) 1 ∧
      t.ad.ch = (s.nvReg 0x2C).extractLsb' 0 4 ∧ t.fram = s.fram) ∧
  (∀ (s : State) (vres : Nat), s.coreOn = true → s.pw.st = .rails → s.pw.offPend = false → s.reg.stepEnded = true → 1000 ≤ vres →
    ∃ t, exec (.railsDone vres) s = .next t ∧ State.sameBut [.pins, .pw, .ck, .ad, .ev, .irq] s t ∧
      t.pw = { s.pw with st := .calib, stepBusy := true } ∧ t.pins = { s.pins with vres := vres } ∧
      (s.mainsEn = true → s.mainsFr = false → t.ck = { s.ck with mainsRun := true })) ∧
  (∀ s : State, s.coreOn = true → s.pw.st = .rails → s.pw.railsLogged = false → s.ev.buf.length < 32 →
    ∃ t, exec .railsWaitOver5s s = .next t ∧ State.sameBut [.pw, .ev] s t ∧
      t.pw = { s.pw with railsLogged := true, stepBusy := false } ∧ t.ev = { s.ev with buf := s.ev.buf ++ [s.eventOf 0x0103 0] }) ∧
  (∀ (s : State) (bad : List Nat), s.coreOn = true → s.pw.st = .calib → s.pw.offPend = false → 8 ≤ s.ad.n13 → 8 ≤ s.ad.n14 →
    ∃ t, exec (.calibDone bad) s = .next t ∧ t.pw.st = .run ∧ t.pw.stepBusy = false) ∧
  (∀ (s : State) (bad : List Nat), s.coreOn = true → s.pw.st = .calib → s.pw.offPend = false → s.ck.measFail = true →
    ∃ t, exec (.calibDone bad) s = .next t ∧ t.pw.st = .run ∧ t.pw.stepBusy = false) ∧
  (∀ (s : State) (env : WakeEnv), s.pw.st = .drain → s.pins.rstnLow = false → s.aon.softLatch = false →
    exec (.onRequest env) s = .next { s with pins := { s.pins with supply := true } }) ∧
  (∀ (s : State) (vbak : Nat) (env : WakeEnv), s.coreOn = true → s.pw.st = .drain → s.drained = true →
    ∃ t, exec (.drainDone vbak env) s = .next t ∧
      t.pw.st = (if s.pins.supply && !s.pins.rstnLow && !s.aon.softLatch then .wake
                 else if vbak < 180 ∧ s.pins.supply = false then .off else .backup)) ∧
  (∀ (s : State) (vbak : Nat), s.pw.st = .backup → s.pins.supply = false → vbak < 180 →
    ∃ t, exec (.vbakDepleted vbak) s = .next t ∧ t.pw.st = .off ∧ t.aon.tv = false ∧ t.aon.rtc = 0 ∧ t.aon.softLatch = false ∧
      t.aon.fromOff = true ∧ t.fram = s.fram)

/-- R53, R54, R47: the thermal shutdown enters HOLD with the latch and the record set and CORE stopped; cooled, HOLD is left for WAKE on
an ON request, else for BACKUP. -/
def Obligations.ThermalShutdown : Prop :=
  (∀ (s : State) (inFlight : Bool) (rows : Nat), s.pw.st = .run → s.aon.thermLatch = false → s.pins.supply = true →
    ∃ t, exec (.thermalShutdown inFlight rows) s = .next t ∧ t.pw.st = .hold ∧ t.aon.thermLatch = true ∧ t.fram.cause = 5 ∧
      t.fram.last = 5 ∧ t.fram.therm.isSome = true ∧ t.ad.daLoop = 0 ∧ t.ad.daAux = 0 ∧ t.xb.pol = 0) ∧
  (∀ (s : State) (env : WakeEnv), s.pw.st = .hold → s.aon.thermLatch = true →
    ∃ t, exec (.thermalCooled env) s = .next t ∧ t.aon.thermLatch = false ∧
      t.pw.st = (if s.pins.supply && !s.pins.rstnLow && !s.aon.softLatch then .wake else .backup))

/-! ## The governor, VRES, the second and the freeze (02, R29 to R43; 16, R440 to R444) -/

/-- R39, R440: a tick with CORE running counts one, takes VRES, VAUX, VBAK, the die temperature and the fault inputs' levels and shows the
temperature in 0.5 K from −64 °C; in BACKUP only the always-on domain counts, 4,096 AON cycles in 125 ticks. -/
def Obligations.GovernorTickCounts : Prop :=
  (∀ (s : State) (e : TickEnv), s.coreOn = true →
    ∃ t, exec (.governorTick e) s = .next t ∧ State.sameBut (touches (.governorTick e)) s t ∧ t.pw.ticks = s.pw.ticks + 1 ∧
      t.pins = { s.pins with vres := e.vres, vaux := e.vaux, die := e.die, vbak := e.vbak, flt := e.flt } ∧
      t.hb.temp = BitVec.ofInt 9 (max 0 (min 511 (Int.fdiv e.die 5 + 128)))) ∧
  (∀ (s : State) (e : TickEnv), s.pw.st = .backup → s.ck.disc = 0 →
    ∃ t, exec (.governorTick e) s = .next t ∧
      t = { s with
        ck := { s.ck with tickPos := (s.ck.tickPos + 1) % 125, discPhase := 0 },
        aon := { s.aon with
          sub := BitVec.ofNat 15 (min 32767 (s.aon.sub.toNat + (4096 * (s.ck.tickPos + 1) / 125 - 4096 * s.ck.tickPos / 125))) } })

/-- R40, R41, R43: where the governor selects the level (not in WAKE and not in DRAIN, which holds its level), the level rises one step
after four ticks in a row that call for it; of the shed services the tone modem comes back first, then the first port's receive, then the
second's, one at a time. A command whose condition does not hold changes nothing (log entry 1). -/
def Obligations.LevelRiseAndRestore : Prop :=
  (∀ s : State, s.governs = true → 4 ≤ s.pw.upCount → s.pw.level.toNat < min 5 s.pw.lmax.toNat →
    exec .levelRise s = .next { s with pw := { s.pw with level := s.pw.level + 1, upCount := 0 } }) ∧
  (∀ s : State, (s.pw.upCount < 4 ∨ s.pw.st = .drain) → exec .levelRise s = .next s) ∧
  (∀ s : State, s.governs = true → 4 ≤ s.pw.fitCount → s.pw.shedTone = true →
    ∃ t, exec .serviceRestore s = .next t ∧ State.sameBut [.pw, .tn, .ev, .irq] s t ∧
      t.pw = { s.pw with shedTone := false, fitCount := 0 } ∧ t.hb.irq = s.hb.irq ||| 0x0400#16 ∧
      (s.tn.heldStat = none → t.tn = s.tn)) ∧
  (∀ s : State, s.governs = true → 4 ≤ s.pw.fitCount → s.pw.shedTone = false → s.pw.shedRx1 = true →
    ∃ t, exec .serviceRestore s = .next t ∧ State.sameBut [.pw, .ck, .dl, .dn, .ev, .irq] s t ∧
      t.pw = { s.pw with shedRx1 := false, fitCount := 0 } ∧ t.hb.irq = s.hb.irq ||| 0x0800#16 ∧
      (s.dl.heldStat = none → t.dl = s.dl ∧ t.dn = s.dn)) ∧
  (∀ s : State, s.governs = true → 4 ≤ s.pw.fitCount → s.pw.shedTone = false → s.pw.shedRx1 = false → s.pw.shedRx2 = true →
    ∃ t, exec .serviceRestore s = .next t ∧ State.sameBut [.pw, .ck, .dl, .dn, .ev, .irq] s t ∧
      t.pw = { s.pw with shedRx2 := false, fitCount := 0 } ∧ t.hb.irq = s.hb.irq ||| 0x0800#16 ∧
      (s.dl.heldStat = none → t.dl = s.dl ∧ t.dn = s.dn))

/-- R33 to R36, R38, R43: VRES thresholds. In RUN below 16.0 V bulk transmit is shed and VBAK is not charged, below 14.0 V the coil, below
12.0 V protected transmit, in the order of R43; a fall to 10.0 V ends a coil half and aborts bulk transmission on the line, never a protected
frame; the floor of 8.0 V ends every peak; the boost stops where VRES reaches 24.0 V ± 0.5, and restarts when VRES has fallen 0.5 V below the
voltage at which it stopped. -/
def Obligations.VresThresholds : Prop :=
  (∀ (s : State) (v : Nat), s.running = true → s.pw.lineShed = 0 →
    ∃ t, exec (.vresThresholdCross v) s = .next t ∧ State.sameBut [.pins, .pw, .xb, .ev, .irq] s t ∧ t.pins = { s.pins with vres := v } ∧
      t.pw.shedBulk = decide (v < 1600) ∧ t.pw.shedCoil = (s.xbEn && decide (v < 1400)) ∧ t.pw.shedProt = decide (v < 1200) ∧
      t.pw.charging = (decide (1600 ≤ v) && s.pw.baki != 0 && decide (s.pins.vbak < 330)) ∧ t.pw.level = s.pw.level ∧
      (s.xb.bfull = false → t.xb = s.xb)) ∧
  (∀ s : State, s.running = true →
    ∃ t, exec .vresFall10v s = .next t ∧ State.sameBut [.pins, .pw, .xb, .ad, .fe, .ev, .dl, .irq] s t ∧
      t.pins = { s.pins with vres := min 1000 s.pins.vres } ∧ t.xb.pol = 0 ∧
      t.dl.onLine = (match s.dl.onLine with
                     | some q => if q.1.prot then some q else none
                     | none => none) ∧
      (s.dl.searchOn = none → t.dl.searchOn = none) ∧ t.dl.burst = none ∧ t.dl.queue = s.dl.queue ∧ t.dl.squeue = s.dl.squeue ∧
      t.hb.irq.getLsbD 0 = true) ∧
  (∀ s : State,
    ∃ t, exec .vresFloor s = .next t ∧ State.sameBut [.fram, .pins, .pw, .xb, .ad, .fe, .lg, .ev, .dl, .irq] s t ∧
      t.pins = { s.pins with vres := min 800 s.pins.vres } ∧ t.xb.pol = 0 ∧ t.dl.onLine = none ∧ t.dl.searchOn = none ∧
      t.dl.burst = none ∧ (s.pw.st ≠ .drain → t.lg = s.lg ∧ t.fram = s.fram) ∧
      (s.pw.st = .drain → t.lg.cur = none ∧ t.lg.waiting = [])) ∧
  (∀ (s : State) (v : Nat), s.xbOn = true → s.xb.brun = true → 2350 ≤ v →
    ∃ t, exec (.vresFull v) s = .next t ∧ State.sameBut [.pins, .pw, .xb, .ev, .irq] s t ∧ t.pins = { s.pins with vres := v } ∧
      t.xb = { s.xb with brun := false, bfull := true, fullAt := v, fullSeen := true, cyc := 0 }) ∧
  (∀ (s : State) (v : Nat), s.xbOn = true → s.xb.brun = false → s.xb.bfull = true → v + 50 ≤ s.xb.fullAt → s.xb.bstate = 2 →
    s.ck.lost = false → s.xb.fl.getLsbD 2 = false →
    ∃ t, exec (.vresFull v) s = .next t ∧ State.sameBut [.pins, .pw, .xb, .ev, .irq] s t ∧ t.pins = { s.pins with vres := v } ∧
      t.xb = { s.xb with brun := true, bfull := false, cyc := 0 }) ∧
  (∀ (s : State) (v : Nat), s.xbOn = true → s.xb.brun = false → s.xb.bfull = true → s.xb.fullAt < v + 50 →
    ∃ t, exec (.vresFull v) s = .next t ∧ State.sameBut [.pins, .pw, .xb, .ev, .irq] s t ∧ t.xb = s.xb)

/-- R102, R39, R223: a second boundary counts RTC by one and starts AON's sub-second afresh in every state but OFF; with CORE stopped it
does nothing else. -/
def Obligations.SecondBoundary : Prop :=
  (∀ s : State, s.pw.st ≠ .off →
    ∃ t, exec .secondBoundary s = .next t ∧ State.sameBut (touches .secondBoundary) s t ∧
      t.aon = { s.aon with rtc := s.aon.rtc + 1#32, sub := 0 } ∧ t.hb.secCodes = []) ∧
  (∀ s : State, s.pw.st = .backup →
    exec .secondBoundary s =
      .next { s with aon := { s.aon with rtc := s.aon.rtc + 1#32, sub := 0 }, hb := { s.hb with secCodes := [] } })

/-- R442, R444: TEST high for 1 µs freezes a running CORE, notes that the seal was closed, and CORE serves nothing; the end of the last
source sets FRZD, FSRC and logs event 0x0E01 with the source and the length. Event data are packed as log entry 12 says. -/
def Obligations.DebugFreeze : Prop :=
  (∀ s : State, s.pw.st = .run → s.pins.rstnLow = false →
    exec .testPinFreeze s =
      .next { s with pins := { s.pins with test := true },
                     hb := { s.hb with frzTest := true, frzTs := s.hb.frzTs, frzClosed := s.hb.frzClosed || !s.aon.sealOpen ||
                                         !s.aon.sealLevel } }) ∧
  (∀ s : State, s.pw.st = .backup → exec .testPinFreeze s = .next { s with pins := { s.pins with test := true } }) ∧
  (∀ (s : State) (ms : Nat), s.hb.frzTest = true → s.hb.frzTs = false →
    ∃ t, exec (.freezeEnd true ms) s = .next t ∧ State.sameBut [.aon, .pins, .xb, .ad, .fe, .ev, .irq, .hb] s t ∧
      t.pins = { s.pins with test := false } ∧
      { t.hb with irq := 0 } = { s.hb with irq := 0, frzTest := false, frzd := true, fsrc := true, frzClosed := false } ∧
      (s.ev.buf.length < 32 → s.hb.frzClosed = false → s.xb.frozenTrip = 0 →
        t.ev = { s.ev with buf := s.ev.buf ++ [s.eventOf 0x0E01 (1 + ms * 256)] })) ∧
  (∀ (s : State) (ms : Nat), s.hb.frzTest = true → s.hb.frzTs = true →
    exec (.freezeEnd true ms) s =
      .next { s with pins := { s.pins with test := false }, hb := { s.hb with frzTest := false } })

/-! ## The auxiliary regulator (03, R61 to R82) -/

/-- R66, R67, R68: a soft start whose output reaches 30 % of its target ends in regulation; one that does not, and an output that falls
below 70 % of the internal target, stops the regulator: with attempts left it waits for the retry (event 0x0201), after the last it
sets the short latch (event 0x0202); either sets SY_IRQ[1]. The retry starts the next attempt from VAUX, its target the setpoint selected
then; 1.0 s at or above 70 % clears the count. -/
def Obligations.RegulatorSoftStart : Prop :=
  (∀ (s : State) (e : RegEnv), s.regOn = true → s.reg.state = 1 → s.reg.aim * 3 ≤ e.vaux * 10 →
    exec (.regRampEnd e) s =
      .next { s with reg := { s.reg with target := s.reg.aim * 100, rampUs := s.regTss, state := 2, stepEnded := true } }) ∧
  (∀ (s : State) (e : RegEnv), s.Inv → s.regOn = true → s.reg.state = 1 → e.vaux * 10 < s.reg.aim * 3 → s.ev.buf.length < 32 →
    ∃ t, exec (.regRampEnd e) s = .next t ∧ State.sameBut [.nv, .reg, .ev, .irq, .hb] s t ∧ s.hostKept t ∧
      t.hb.irq = s.hb.irq ||| 0x0002#16 ∧
      t.reg = { s.reg with
        target := s.reg.aim * 100, rampUs := s.regTss, stepEnded := true,
        state := if fld (s.lgw 0xF803) 4 3 ≤ s.reg.att.toNat then 0 else 3,
        scl := s.reg.scl || decide (fld (s.lgw 0xF803) 4 3 ≤ s.reg.att.toNat) } ∧
      t.ev = { s.ev with buf := s.ev.buf ++
        [s.eventOf (if fld (s.lgw 0xF803) 4 3 ≤ s.reg.att.toNat then 0x0202 else 0x0201) (1 + s.reg.att.toNat * 256)] } ∧
      ∀ k, (k < Config.key 3 0xF810 ∨ Config.key 3 0xF81F < k) → t.nv k = s.nv k) ∧
  (∀ (s : State) (e : RegEnv), s.Inv → s.regOn = true → s.reg.state = 2 → e.vaux * 1000 < s.reg.target * 7 → s.ev.buf.length < 32 →
    ∃ t, exec (.regUndervoltage e) s = .next t ∧ State.sameBut [.nv, .reg, .ev, .irq, .hb] s t ∧ s.hostKept t ∧
      t.hb.irq = s.hb.irq ||| 0x0002#16 ∧
      t.reg = { s.reg with
        stepEnded := true,
        state := if fld (s.lgw 0xF803) 4 3 ≤ s.reg.att.toNat then 0 else 3,
        scl := s.reg.scl || decide (fld (s.lgw 0xF803) 4 3 ≤ s.reg.att.toNat) } ∧
      t.ev = { s.ev with buf := s.ev.buf ++
        [s.eventOf (if fld (s.lgw 0xF803) 4 3 ≤ s.reg.att.toNat then 0x0202 else 0x0201) (2 + s.reg.att.toNat * 256)] } ∧
      ∀ k, (k < Config.key 3 0xF810 ∨ Config.key 3 0xF81F < k) → t.nv k = s.nv k) ∧
  (∀ (s : State) (vaux : Nat), s.regOn = true → s.reg.state = 3 → s.aon.ovl = false →
    ∃ t, exec (.regRetryTimeout vaux) s = .next t ∧ State.sameBut [.reg, .ck] s t ∧
      t.reg = { s.reg with att := s.reg.att + 1, state := 1, target := vaux * 100, aim := s.regAim, rampFrom := vaux * 100, rampUs := 0,
                           fsw := clampNat 250 1000 (fld (s.lgw 0xF800) 0 11), phase := min 71 (fld (s.lgw 0xF801) 0 7) } ∧
      t.ck = { s.ck with hfoReg := s.ck.hfoReg && !s.ck.swlk, tapReg := s.ck.tapReg && !s.ck.swlk }) ∧
  (∀ s : State, s.regOn = true → s.reg.state = 2 →
    exec .regAttemptCountReset s = .next { s with reg := { s.reg with att := 0 } })

/-- R77, R78, R69: an output above OVTH sets OVL in the always-on domain, stops the regulator and logs event 0x0203; a later one changes
nothing. The keyed clear of PW_VSET clears both latches and the attempt count, logs event 0x0204 with what it cleared and begins a soft
start. Event data are packed as log entry 12 says. A command whose condition does not hold changes nothing (log entry 1). -/
def Obligations.RegulatorLatches : Prop :=
  (∀ (s : State) (e : RegEnv), s.Inv → s.regOn = true → s.aon.ovl = false → s.ev.buf.length < 32 →
    (110 + fld (s.lgw 0xF803) 8 4) * s.ovRef < e.vaux * 10000 →
    ∃ t, exec (.regOvervoltage e) s = .next t ∧ State.sameBut [.nv, .aon, .reg, .ev, .irq, .hb] s t ∧ s.hostKept t ∧
      t.aon = { s.aon with ovl := true } ∧ t.reg = { s.reg with state := 0, stepEnded := true } ∧
      t.ev = { s.ev with buf := s.ev.buf ++ [s.eventOf 0x0203 e.vaux] } ∧ t.hb.irq = s.hb.irq ||| 0x0002#16 ∧
      ∀ k, (k < Config.key 3 0xF810 ∨ Config.key 3 0xF81F < k) → t.nv k = s.nv k) ∧
  (∀ (s : State) (e : RegEnv), s.aon.ovl = true → exec (.regOvervoltage e) s = .next s) ∧
  (∀ (s : State) (hi lo : Byte), s.busOn = true → s.hb.wlatch = some (0x0E, lo) → s.sc.armHost = .armed → bitAt (wordOf hi lo) 14 = true →
    s.regOn = true → (s.aon.ovl || s.reg.scl) = true → setpointBad (fld (wordOf hi lo) 0 12) = false → s.ev.buf.length < 32 →
    ∃ t, exec (.regLatchClear hi) s = .next t ∧ State.sameBut [.aon, .reg, .ck, .ev, .sc, .hb] s t ∧ s.latchTaken t ∧
      t.aon = { s.aon with ovl := false } ∧ t.sc = { s.sc with armHost := .idle } ∧
      t.reg = { s.reg with
        code := (wordOf hi lo).extractLsb' 0 12, src := (wordOf hi lo).extractLsb' 12 2, scl := false, att := 0, state := 1,
        target := s.pins.vaux * 100, aim := t.regAim, rampFrom := s.pins.vaux * 100, rampUs := 0,
        fsw := clampNat 250 1000 (fld (s.lgw 0xF800) 0 11), phase := min 71 (fld (s.lgw 0xF801) 0 7) } ∧
      t.ev = { s.ev with buf := s.ev.buf ++ [s.eventOf 0x0204 (b2n s.aon.ovl + b2n s.reg.scl * 2)] })

/-- R79: a stop writes the fault record's sixteen words at LG 0xF810: the cause, the state, the attempt and the latch, the voltages, the
internal target, the currents, the die temperature, RTC and its sub-second, and the count of stops. -/
def Obligations.RegulatorFaultRecord : Prop :=
  ∀ (s : State) (e : RegEnv), s.Inv → s.regOn = true → s.reg.state = 2 → e.vaux * 1000 < s.reg.target * 7 →
    ∃ t, exec (.regUndervoltage e) s = .next t ∧
      t.lgw 0xF810 = pack [(2, 0), (s.pw.st.code, 8), (s.reg.att.toNat, 12),
        (b2n (decide (fld (s.lgw 0xF803) 4 3 ≤ s.reg.att.toNat)), 15)] ∧
      t.lgw 0xF811 = BitVec.ofNat 16 e.vline ∧ t.lgw 0xF812 = BitVec.ofNat 16 e.vaux ∧
      t.lgw 0xF813 = BitVec.ofNat 16 (s.reg.target / 100) ∧ t.lgw 0xF814 = BitVec.ofNat 16 e.cs1 ∧
      t.lgw 0xF815 = BitVec.ofNat 16 e.cs2 ∧ t.lgw 0xF816 = BitVec.ofInt 16 e.die ∧
      t.lgd 0xF817 = (if s.pw.rtclost then 0xFFFFFFFF#32 else s.aon.rtc) ∧ t.lgw 0xF819 = s.aon.sub.setWidth 16 ∧
      t.lgw 0xF81A = satInc (s.lgw 0xF81A) ∧
      ∀ k, (k < Config.key 3 0xF810 ∨ Config.key 3 0xF81F < k) → t.nv k = s.nv k

/-- R64, R65, R66, R72, R73: the internal target slews at SLEW toward the selected setpoint in regulation, and in a soft start stands on the
straight line from VAUX_FB to the target aimed at; VSEL is read in the line roles; SYNCLK is set by a lock on 200 kHz to 1.2 MHz, whose
frequency the phases take over, cleared by a loss, which is logged with SY_IRQ[1], and the relock after a loss is logged. A command whose
condition does not hold changes nothing (log entry 1). -/
def Obligations.SetpointAndSync : Prop :=
  (∀ (s : State) (us : Nat), s.regOn = true → s.reg.state = 2 →
    exec (.setpointChange us) s =
      .next { s with reg := { s.reg with
        target := if s.reg.target ≤ s.regSelected * 100 then min (s.regSelected * 100) (s.reg.target + s.regSlew * us)
                  else max (s.regSelected * 100) (s.reg.target - s.regSlew * us) } }) ∧
  (∀ (s : State) (us : Nat), s.regOn = true → s.reg.state = 1 → s.reg.rampUs + us ≤ s.regTss → s.reg.rampFrom ≤ s.reg.aim * 100 →
    exec (.setpointChange us) s =
      .next { s with reg := { s.reg with
        rampUs := s.reg.rampUs + us,
        target := s.reg.rampFrom + (s.reg.aim * 100 - s.reg.rampFrom) * (s.reg.rampUs + us) / s.regTss } }) ∧
  (∀ (s : State) (v : BitVec 2), s.pins.role ≠ .T → s.pw.st ≠ .off →
    exec (.vselChange v) s = .next { s with pins := { s.pins with vsel := v } }) ∧
  (∀ (s : State) (v : BitVec 2), s.pins.role = .T → exec (.vselChange v) s = .next s) ∧
  (∀ (s : State) (hz : Nat), s.regOn = true → bitAt (s.lgw 0xF801) 7 = true → s.reg.synclk = false → s.reg.syncLost = false →
    200000 ≤ hz → hz ≤ 1200000 →
    exec (.syncLock hz) s = .next { s with reg := { s.reg with synclk := true, syncHz := hz } }) ∧
  (∀ (s : State) (hz : Nat), (hz < 200000 ∨ 1200000 < hz) → exec (.syncLock hz) s = .next s) ∧
  (∀ (s : State) (hz : Nat), s.regOn = true → bitAt (s.lgw 0xF801) 7 = true → s.reg.synclk = false → s.reg.syncLost = true →
    200000 ≤ hz → hz ≤ 1200000 → s.ev.buf.length < 32 →
    exec (.syncLock hz) s =
      .next { s with reg := { s.reg with synclk := true, syncHz := hz, syncLost := false },
                     ev := { s.ev with buf := s.ev.buf ++ [s.eventOf 0x0206 1] } }) ∧
  (∀ s : State, s.regOn = true → s.reg.synclk = true → s.ev.buf.length < 32 →
    exec .syncLoss s =
      .next { s with reg := { s.reg with synclk := false, syncLost := true },
                     ev := { s.ev with buf := s.ev.buf ++ [s.eventOf 0x0206 0] },
                     hb := { s.hb with irq := s.hb.irq ||| 0x0002#16 } })

/-! ## Clocks and timebases (04, R83 to R106) -/

/-- R87: AON moves to the LFO when the crystal fails and sets XTALF and XTALFS: with CORE running event 0x010C and SY_IRQ[0] follow at once,
with CORE stopped they wait for the next WAKE; the crystal's return clears XTALF alone. -/
def Obligations.CrystalFailure : Prop :=
  (∀ s : State, s.coreOn = true → s.aon.xtalf = false → s.ev.buf.length < 32 →
    exec .xtalFail s =
      .next { s with aon := { s.aon with xtalf := true, xtalfs := true },
                     ev := { s.ev with buf := s.ev.buf ++ [s.eventOf 0x010C s.pw.st.code] },
                     hb := { s.hb with irq := s.hb.irq ||| 0x0001#16 } }) ∧
  (∀ s : State, s.coreOn = false → s.pw.st ≠ .off → s.aon.xtalf = false →
    exec .xtalFail s =
      .next { s with aon := { s.aon with xtalf := true, xtalfs := true, xtalPend := true, xtalState := s.pw.st } }) ∧
  (∀ s : State, s.pw.st ≠ .off → s.aon.xtalf = true → exec .xtalReturn s = .next { s with aon := { s.aon with xtalf := false } })

/-- R85, R88, R89, R90: the MEAS PLL's time-out sets CALF; the SWITCH PLL's lock sets SWLK, a lock after a loss or time-out with event
0x010A of 1; its time-out in CALIB sets CALF, and its time-out and its loss log event 0x010A of 0 and set SY_IRQ[0]; the loss returns bridge,
boost and regulator to HFO timing, ends a coil half and stops the boost. A tap calibration, in CALIB and RUN under lock, waits for each
channel's next period boundary, where the channel takes it up: the bridge's at a carrier valley (another statement, of R142), the boost's at
its cycles, the regulator's at its periods. -/
def Obligations.SwitchAndMeasPlls : Prop :=
  (∀ s : State, s.coreOn = true → s.pw.st = .rails → s.pw.calf = false →
    exec .measPllTimeout s =
      .next { s with ck := { s.ck with measFail := true }, pw := { s.pw with calf := true },
                     hb := { s.hb with irq := s.hb.irq ||| 0x0001#16 } }) ∧
  (∀ s : State, s.pllOn = true → s.ck.swlk = false → s.ck.swMissed = false →
    exec .switchPllLock s = .next { s with ck := { s.ck with swlk := true, lost := false, onHfo := s.ck.lost && s.xb.per != 0 } }) ∧
  (∀ s : State, s.pllOn = true → s.ck.swlk = false → s.ck.swMissed = true → s.ev.buf.length < 32 →
    exec .switchPllLock s =
      .next { s with ck := { s.ck with swlk := true, lost := false, onHfo := s.ck.lost && s.xb.per != 0, swMissed := false },
                     ev := { s.ev with buf := s.ev.buf ++ [s.eventOf 0x010A 1] },
                     hb := { s.hb with irq := s.hb.irq ||| 0x0001#16 } }) ∧
  (∀ s : State, s.coreOn = true → s.pw.st = .calib → s.ck.swlk = false → s.ev.buf.length < 32 →
    exec .switchPllLockTimeout s =
      .next { s with ck := { s.ck with swMissed := true }, pw := { s.pw with calf := true },
                     ev := { s.ev with buf := s.ev.buf ++ [s.eventOf 0x010A 0] },
                     hb := { s.hb with irq := s.hb.irq ||| 0x0001#16 } }) ∧
  (∀ s : State, s.pllOn = true → s.ck.swlk = true →
    ∃ t, exec .switchPllLoss s = .next t ∧ State.sameBut [.ck, .xb, .ad, .fe, .ev, .irq] s t ∧
      t.ck = { s.ck with swlk := false, lost := true, onHfo := true, hfoBoost := true, hfoReg := true, swMissed := true } ∧
      t.xb.brun = false ∧ t.xb.pol = 0 ∧ t.hb.irq = s.hb.irq ||| 0x0001#16 ∧
      (s.ev.buf.length < 32 → t.ev = { s.ev with buf := s.ev.buf ++ [s.eventOf 0x010A 0] })) ∧
  (∀ s : State, s.coreOn = true → (s.pw.st = .calib ∨ s.pw.st = .run) → s.ck.swlk = true →
    exec .tapCalibration s =
      .next { s with ck := { s.ck with tapPend := true, tapBoost := true, tapReg := decide (s.pins.role ≠ .T) } })

/-- R92, R93, R94: the MAINS PLL's lock, the absence of its reference (free-run from the frequency as it was) and the reference's return
(pulling in), each logged as event 0x0109 where the rule logs it. With MAINSFR set a lock or a return changes nothing. Event data are packed
as log entry 12 says. A command whose condition does not hold changes nothing (log entry 1). -/
def Obligations.MainsPll : Prop :=
  (∀ (s : State) (freq : Nat), s.pllOn = true → s.mainsEn = true → s.mainsFr = false → s.ck.mplk = false →
    (s.ck.mfree = false ∨ s.ck.pullIn = true) → s.ev.buf.length < 32 →
    exec (.mainsLock freq) s =
      .next { s with ck := { s.ck with mplk := true, mfree := false, pullIn := false, mainsF := freq * 100 },
                     ev := { s.ev with buf := s.ev.buf ++ [s.eventOf 0x0109 (1 + freq * 65536)] },
                     hb := { s.hb with irq := s.hb.irq ||| 0x0001#16 } }) ∧
  (∀ (s : State) (freq : Nat), s.pllOn = true → s.mainsEn = true → (s.ck.mfree = false ∨ s.ck.pullIn = true) → s.ev.buf.length < 32 →
    exec (.mainsRefAbsent freq) s =
      .next { s with ck := { s.ck with mplk := false, mfree := true, pullIn := false, mainsF := freq * 100 },
                     ev := { s.ev with buf := s.ev.buf ++ [s.eventOf 0x0109 (freq * 65536)] },
                     hb := { s.hb with irq := s.hb.irq ||| 0x0001#16 } }) ∧
  (∀ (s : State) (freq : Nat), s.pllOn = true → s.mainsEn = true → s.mainsFr = false → s.ck.mfree = true →
    exec (.mainsRefReturn freq) s = .next { s with ck := { s.ck with pullIn := true, mainsRef := freq * 100 } }) ∧
  (∀ (s : State) (freq : Nat), s.mainsFr = true →
    exec (.mainsLock freq) s = .next s ∧ exec (.mainsRefReturn freq) s = .next s)

/-- R102: SY_TIME_L holds the low word; SY_TIME_H makes the two one audited change of RTC, here put in line for its row: nothing of RTC
moves before the row is written, and the step is taken where it is. A read of SY_TIME_L takes a snapshot of RTC's high word; a read of AD_DATL (R177) takes AD_DATH, SEQ and
MARK and clears NEW. -/
def Obligations.TimeRegisters : Prop :=
  (∀ (s : State) (hi lo : Byte), s.busOn = true → s.hb.wlatch = some (0x76, lo) → s.sc.armHost ≠ .armed →
    exec (.syTimeLWrite hi) s = .next { s with hb := { s.hb with wlatch := none, timeHost := some (wordOf hi lo) } }) ∧
  (∀ (s : State) (hi lo : Byte) (low : Word), s.busOn = true → s.hb.wlatch = some (0x78, lo) → s.sc.armHost ≠ .armed →
    s.hb.timeHost = some low → s.startUp = false → s.lg.acount < 2048 → s.aon.tv = true →
    exec (.syTimeHWrite hi) s =
      .next { s with
        hb := { s.hb with wlatch := none, timeHost := none },
        lg := { s.lg with queue := s.lg.queue ++ [.rtc (some low) (wordOf hi lo)] } }) ∧
  (∀ (s : State) (low hi : Word) (rest : List Change), s.runOrDrain = true → s.lg.queue = .rtc (some low) hi :: rest →
    s.lg.acount < 1983 → s.ev.buf.length < 32 → s.isHead = false →
    ∃ t, exec .auditRowWritten s = .next t ∧ State.sameBut [.fram, .aon, .ck, .lg, .ev, .irq, .hb] s t ∧
      t.aon = { s.aon with rtc := hi ++ low, sub := 0, tv := true } ∧ t.lg.queue = rest ∧ t.lg.acount = s.lg.acount + 1 ∧
      t.ev = { s.ev with buf := s.ev.buf ++ [{
        time := t.stamp, seq := 0, code := 0x010B, data := BitVec.ofNat 48 (s.rtcStep (hi ++ low)).toNat }] } ∧ t.hb.irq.getLsbD 0 = true) ∧
  (∀ (s : State) (hi lo : Byte), s.busOn = true → s.hb.wlatch = some (0x78, lo) → s.sc.armHost ≠ .armed →
    s.startUp = true → s.ev.buf.length < 32 →
    exec (.syTimeHWrite hi) s =
      .next { s with hb := { s.hb with wlatch := none, timeHost := none },
                     ev := { s.ev with buf := s.ev.buf ++ [s.eventOf 0x070B 0x78] } }) ∧
  (∀ s : State, s.busOn = true →
    exec .syTimeLRead s =
      .next { s with hb := { s.hb with adout := loByte (s.readReg 0x76), rlatch := some (0x76, hiByte (s.readReg 0x76)),
                                       timeSnap := some (s.aon.rtc.extractLsb' 16 16) } }) ∧
  (∀ s : State, s.busOn = true →
    ∃ t, exec .adDatlRead s = .next t ∧ State.sameBut [.ad, .hb] s t ∧
      t.ad = { s.ad with dathSnap := some s.adDath, seqSnap := s.ad.seq, markSnap := s.ad.mark, isNew := false } ∧
      t.hb = { s.hb with adout := loByte (s.readReg 0x2E), rlatch := some (0x2E, hiByte (s.readReg 0x2E)) })

/-- R104: at a second boundary of valid line time, in a role other than H with RTCEN set, a lead of at most half a second is slewed; above it,
or with no valid RTC, the step is an audited change of RTC to line time. -/
def Obligations.RtcDiscipline : Prop :=
  (∀ s : State, s.runOrDrain = true → s.pins.role ≠ .H → s.ck.ltv = true → s.ck.ctl.getLsbD 2 = true →
    s.aon.tv = true → ((s.aon.rtc - s.ck.lsec).toInt * 32768 + s.aon.sub.toNat).natAbs ≤ 16384 →
    exec .rtcDiscipline s =
      .next { s with ck := { s.ck with disc := (s.aon.rtc - s.ck.lsec).toInt * 32768 + s.aon.sub.toNat } }) ∧
  (∀ s : State, s.runOrDrain = true → s.pins.role ≠ .H → s.ck.ltv = true → s.ck.ctl.getLsbD 2 = true → s.lg.acount < 2048 →
    s.aon.tv = true → 16384 < ((s.aon.rtc - s.ck.lsec).toInt * 32768 + s.aon.sub.toNat).natAbs →
    exec .rtcDiscipline s =
      .next { s with lg := { s.lg with queue := s.lg.queue ++
        [.rtc (some (s.ck.lsec.extractLsb' 0 16)) (s.ck.lsec.extractLsb' 16 16)] } }) ∧
  (∀ s : State, s.runOrDrain = true → s.pins.role ≠ .H → s.ck.ltv = true → s.ck.ctl.getLsbD 2 = true → s.lg.acount < 2048 →
    s.aon.tv = false →
    exec .rtcDiscipline s =
      .next { s with lg := { s.lg with queue := s.lg.queue ++
        [.rtc (some (s.ck.lsec.extractLsb' 0 16)) (s.ck.lsec.extractLsb' 16 16)] } })

/-- R101: with CORE stopped and VIO present a host cycle completes: a read gives 0, a write is discarded and nothing is logged, and IRQN is
released. -/
def Obligations.StoppedCoreReadsZero : Prop :=
  (∀ s : State, s.coreOn = false → s.irqLow = false) ∧
  (∀ (s : State) (addr : Byte), s.coreOn = false → s.pins.rstnLow = false →
    exec (.hostCycleCoreStopped true addr) s = .next { s with hb := { s.hb with adout := 0 } }) ∧
  (∀ (s : State) (addr : Byte), s.coreOn = false → s.pins.rstnLow = false →
    exec (.hostCycleCoreStopped false addr) s = .next s)

/-! ## The Orrery (05, R107 to R139) -/

/-- R107, R109, R112, R113, R132: an edge of a ROTOR or VORTEX source that is the first since standstill is accepted: the source moves, the
tooth stands pending and is not counted yet. A MAINS step is accepted and confirmed at once (R110); while the domain is stopped there is
none. An edge nearer than TMIN to the last accepted one is dropped and counted. An edge that is no tooth changes nothing but the time
known. -/
def Obligations.TeethAreAccepted : Prop :=
  (∀ (s : State) (now : Nat) (rising bHigh : Bool), s.running = true →
    (s.orSrc = 1 ∧ bHigh = false ∨ s.orSrc = 2 ∧ rising = true) →
    s.orr.hasLast = false → s.orr.hasDir = false → s.orr.pend = [] → s.orr.window = [] →
    ∃ t, exec (.toothEdge now rising bHigh) s = .next t ∧ State.sameBut (touches (.toothEdge now rising bHigh)) s t ∧
      t.orr.tLast = now ∧ t.orr.hasLast = true ∧ t.orr.pend.length = 1 ∧ t.orr.tcnt = s.orr.tcnt ∧ t.orr.still = false) ∧
  (∀ (s : State) (now : Nat) (rising bHigh : Bool), s.running = true → s.orSrc = 3 → s.ck.mainsRun = true → s.orr.pend = [] →
    ∃ t, exec (.toothEdge now rising bHigh) s = .next t ∧ t.orr.tLast = now ∧ t.orr.pend = [] ∧ t.orr.tcnt = s.orr.tcnt + 1#48) ∧
  (∀ (s : State) (now : Nat), s.running = true → s.orSrc = 2 → s.orr.hasLast = true →
    (s.orw 0x304).toNat ≠ 0 → now - s.orr.tLast < (s.orw 0x304).toNat * 16 → s.orr.rejCnt.toNat < 0xFFFE →
    exec (.toothEdge now true false) s = .next { s with orr := { s.orr with rejCnt := s.orr.rejCnt + 1#16, now := now } }) ∧
  (∀ (s : State) (now : Nat) (rising bHigh : Bool), s.running = true →
    (s.orSrc = 0 ∨ s.orSrc = 1 ∧ bHigh = true ∨ s.orSrc = 2 ∧ rising = false ∨ s.orSrc = 3 ∧ s.ck.mainsRun = false) →
    exec (.toothEdge now rising bHigh) s = .next { s with orr := { s.orr with now := now } }) ∧
  (∀ (s : State) (now : Nat) (rising bHigh : Bool), s.running = false → exec (.toothEdge now rising bHigh) s = .next s)

/-- R113, R115: a tooth more than 1.60 × the prediction late is made up: SYNT is set, the counts of synthetic teeth rise, and the tooth
stands at the prediction. -/
def Obligations.SyntheticTeeth : Prop :=
  ∀ (s : State) (now : Nat) (q : Nat × Nat), s.running = true → s.synthDue now = true → s.predict s.moving = some q →
    ∃ t, exec (.syntheticTooth now) s = .next t ∧ State.sameBut (touches (.syntheticTooth now)) s t ∧
      t.orr.synt = true ∧ t.orr.synrun = s.orr.synrun + 1 ∧ t.orr.synCnt = satInc s.orr.synCnt ∧
      t.orr.tLast = s.orr.tLast + (divRne (q.1 : Int) q.2).toNat ∧ (s.orr.synrun = 2 → t.orr.sflt = true)

/-- R132, R119, R110; 05, Edges: standstill empties the window, reads speed 0, clears ANGRUN and leaves no tooth pending; a MAINS source
reaches it only when its domain has stopped. A change of SRC, TPR or AVG restarts the Orrery at standstill without SYNC, at tooth 0, when its
audit row is written. -/
def Obligations.StandstillAndRestart : Prop :=
  (∀ s : State, s.running = true → s.orSrc = 3 → s.ck.mainsRun = true → exec .standstill s = .next s) ∧
  (∀ s : State, s.running = true → s.orr.still = false → (s.orSrc = 3 → s.ck.mainsRun = false) →
    ∃ t, exec .standstill s = .next t ∧ State.sameBut (touches .standstill) s t ∧
      t.orr.still = true ∧ t.orr.angrun = false ∧ t.orr.speed = 0 ∧ t.orr.window = [] ∧ t.orr.pend = [] ∧ t.orr.hasLast = false ∧
      t.orr.synrun = 0) ∧
  (∀ (s : State) (v : Word) (rest : List Change), s.runOrDrain = true → s.lg.queue = .word (Config.key 1 0x300) v :: rest →
    s.lg.acount < 2048 → s.orr.still = true →
    ∃ t, exec .orreryRestart s = .next t ∧ t.orr.still = true ∧ t.orr.sync = false ∧ t.orr.tidx = 0 ∧ t.orr.hasInt = false ∧
      t.lg.acount = s.lg.acount + 1)

/-- R121, R123, R124: an entry that is due fires once for its revolution and does its action: the converter's channel for the next start
(the reserved channel 15 is logged: another statement of R168), against a host commit of AD_CTL in the same cycle too (R167), a
commutation that writes the mask, granted or not, and changes nothing where the mask stands (R150), a tag for the conversion in progress, a
frequency word, a flow update at the position, an interrupt with its argument, or, for a reserved action, one event. Event data are packed
as log entry 12 says; in DRAIN a commutation ends the half in flight (log entry 82). -/
def Obligations.EntriesFire : Prop :=
  (∀ (s : State) (n : BitVec 6) (now : Nat), s.dueAt n.toNat now (· == 1) = true → (s.entry n.toNat).arg.extractLsb' 0 4 ≠ 15#4 →
    ∃ t, exec (.orrSetChannel n now none) s = .next t ∧ State.sameBut [.orr, .ad] s t ∧
      t.ad = { s.ad with ch := (s.entry n.toNat).arg.extractLsb' 0 4 } ∧
      t.orr.fired = (n.toNat, revOf (s.thetaHeld now)) :: s.orr.fired) ∧
  (∀ (s : State) (n : BitVec 6) (now : Nat) (hi lo : Byte), s.Inv → s.dueAt n.toNat now (· == 1) = true →
    (s.entry n.toNat).arg.extractLsb' 0 4 ≠ 15#4 → s.busOn = true → s.hb.wlatch = some (0x2C, lo) → s.sc.armHost ≠ .armed →
    s.hb.nvr = true → s.hb.rows.length < 2 → s.ad.runs = true → fld (wordOf hi lo) 4 4 < 12 →
    ∃ t, exec (.orrSetChannel n now (some hi)) s = .next t ∧ State.sameBut [.orr, .ad, .hb] s t ∧
      t.ad = { s.ad with ch := (s.entry n.toNat).arg.extractLsb' 0 4, drie := bitAt (wordOf hi lo) 9, ovie := bitAt (wordOf hi lo) 10 } ∧
      s.wordStored t (Config.key 0 0x2C) (merge 0x01F0 (s.nvReg 0x2C) (wordOf hi lo))) ∧
  (∀ (s : State) (n : BitVec 6) (now : Nat), s.dueAt n.toNat now (· == 2) = true →
    ∃ t, exec (.orrCommuteBridge n now) s = .next t ∧ State.sameBut [.pw, .orr, .xb, .ad, .fe] s t ∧
      t.xb.mask = maskOf ((s.entry n.toNat).arg.extractLsb' 0 2) ∧
      (t.xb.mask = s.xb.mask → t.xb = s.xb ∧ t.ad = s.ad ∧ t.pw = s.pw) ∧
      (t.xb.mask = 1 → s.xb.mask ≠ 1 → s.pairGranted = true → t.xb.pol = 1 ∧ t.xb.pair = true) ∧
      (t.xb.mask = 1 → s.xb.mask ≠ 1 → s.pairGranted = false → t.xb.pol = 0 ∧ t.xb.pair = false) ∧
      (t.xb.mask = 2 → s.xb.mask ≠ 2 → s.xb.pair = true → t.xb.pol = 2 ∧ t.xb.pairOpen = true) ∧
      (t.xb.mask = 2 → s.xb.mask ≠ 2 → s.xb.pair = false → t.xb.pol = 0) ∧
      (t.xb.mask = 0 → s.xb.mask ≠ 0 → t.xb.pol = 0) ∧
      t.orr.fired = (n.toNat, revOf (s.thetaHeld now)) :: s.orr.fired) ∧
  (∀ (s : State) (n : BitVec 6) (now : Nat), s.runOrDrain = true → s.running = false → s.xb.pol ≠ 0 → (s.entry n.toNat).action = 2 →
    maskOf ((s.entry n.toNat).arg.extractLsb' 0 2) ≠ s.xb.mask →
    ∃ t, exec (.orrCommuteBridge n now) s = .next t ∧ State.sameBut [.xb, .ad] s t ∧ t.xb.pol = 0 ∧ t.xb.pair = false ∧
      t.xb.mask = maskOf ((s.entry n.toNat).arg.extractLsb' 0 2)) ∧
  (∀ (s : State) (n : BitVec 6) (now : Nat), s.dueAt n.toNat now (· == 3) = true → s.ad.runs = true →
    ∃ t, exec (.orrSampleTag n now) s = .next t ∧ State.sameBut [.orr, .ad] s t ∧
      t.ad = { s.ad with tag := some ((s.entry n.toNat).arg.extractLsb' 0 16) } ∧
      t.orr.fired = (n.toNat, revOf (s.thetaHeld now)) :: s.orr.fired) ∧
  (∀ (s : State) (n : BitVec 6) (now : Nat), s.dueAt n.toNat now (· == 4) = true → s.ncoTaken = false →
    (s.entry n.toNat).arg.extractLsb' 0 24 ≠ 0#24 →
    ∃ t, exec (.orrStepNco n now) s = .next t ∧ State.sameBut [.orr, .ad] s t ∧
      t.ad = { s.ad with fw := (s.entry n.toNat).arg.extractLsb' 0 24, ncoFw := (s.entry n.toNat).arg.extractLsb' 0 24,
                         ncoRamp := false, ncoZero := false } ∧
      t.orr.fired = (n.toNat, revOf (s.thetaHeld now)) :: s.orr.fired) ∧
  (∀ (s : State) (n : BitVec 6) (now : Nat), s.dueAt n.toNat now (· == 5) = true →
    ∃ t, exec (.orrFeUpdate n now) s = .next t ∧ State.sameBut (touches (.orrFeUpdate n now)) s t ∧ t.fe.updPos = s.position ∧
      t.fe.updT = s.orr.tLast ∧ t.orr.fired = (n.toNat, revOf (s.thetaHeld now)) :: s.orr.fired) ∧
  (∀ (s : State) (n : BitVec 6) (now : Nat), s.dueAt n.toNat now (· == 6) = true →
    ∃ t, exec (.orrInterrupt n now) s = .next t ∧ State.sameBut [.orr, .irq] s t ∧
      t.orr.evi = true ∧ t.orr.intent = n ∧ t.orr.intarg = (s.entry n.toNat).arg.extractLsb' 0 16 ∧
      t.hb.irq = s.hb.irq ||| 0x0004#16 ∧ t.orr.fired = (n.toNat, revOf (s.thetaHeld now)) :: s.orr.fired) ∧
  (∀ (s : State) (n : BitVec 6) (now : Nat), s.dueAt n.toNat now (fun a => decide (7 ≤ a)) = true → n.toNat ∉ s.orr.resLogged →
    s.ev.buf.length < 32 →
    ∃ t, exec (.orrReservedAction n now) s = .next t ∧ State.sameBut [.orr, .ev] s t ∧ t.orr.resLogged = n.toNat :: s.orr.resLogged ∧
      t.ev = { s.ev with buf := s.ev.buf ++ [s.eventOf 0x030A (n.toNat + (s.entry n.toNat).action * 256)] } ∧
      t.orr.fired = (n.toNat, revOf (s.thetaHeld now)) :: s.orr.fired)

/-- R127, R125, R130: a map word and an event entry written with the seal open are put in line for the audit row, the entry by its word 3
with the three words held before it, and OR_PTR moves on with AINC; the index edge makes the next forward tooth the index tooth. -/
def Obligations.OrreryWindowWrites : Prop :=
  (∀ (s : State) (hi lo : Byte), s.busOn = true → s.hb.wlatch = some (0x20, lo) → s.sc.armHost ≠ .armed → s.hb.nvr = true →
    s.startUp = false → s.aon.sealOpen = true → s.lg.acount < 2048 → 0x100 ≤ s.orr.ptr.toNat → s.orr.ptr.toNat < 0x300 →
    s.orw s.orr.ptr.toNat ≠ wordOf hi lo →
    exec (.mapWordWrite hi) s =
      .next { s with
        hb := { s.hb with wlatch := none },
        lg := { s.lg with queue := s.lg.queue ++ [.word (Config.key 1 s.orr.ptr.toNat) (wordOf hi lo)] },
        orr := { s.orr with ptr := if s.orr.ainc then s.orr.ptr + 1 else s.orr.ptr } }) ∧
  (∀ (s : State) (hi lo : Byte) (w0 w1 w2 : Word), s.busOn = true → s.hb.wlatch = some (0x20, lo) → s.sc.armHost ≠ .armed →
    s.hb.nvr = true → s.startUp = false → s.aon.sealOpen = true → s.lg.acount < 2048 →
    s.orr.ptr.toNat < 0x100 → s.orr.ptr.toNat % 4 = 3 →
    s.hb.held.lookup (Config.key 1 (s.orr.ptr.toNat - 3)) = some w0 → s.hb.held.lookup (Config.key 1 (s.orr.ptr.toNat - 2)) = some w1 →
    s.hb.held.lookup (Config.key 1 (s.orr.ptr.toNat - 1)) = some w2 → s.orw s.orr.ptr.toNat ≠ wordOf hi lo →
    ∃ t, exec (.eventEntryCommit hi) s = .next t ∧ State.sameBut [.orr, .lg, .hb] s t ∧
      t.lg = { s.lg with queue := s.lg.queue ++ [.entry (s.orr.ptr.toNat / 4) [w0, w1, w2, wordOf hi lo]] } ∧
      t.orr = { s.orr with ptr := if s.orr.ainc then s.orr.ptr + 1 else s.orr.ptr } ∧
      t.hb = { (s.unhold (Config.key 1 (s.orr.ptr.toNat - 3)) 4).hb with wlatch := none }) ∧
  (∀ s : State, s.running = true → s.orSrc = 1 → 1 ≤ s.tpr → s.moving = false →
    exec .indexEdge s =
      .next { s with orr := { s.orr with idxNext := true, idxFirst := s.orr.idxFirst || !s.orr.sync, sync := true } })

/-- R128, R129: LEARN written with the seal open is put in line for the audit row; when LRNREV revolutions are measured the learned map is
put in line; a revolution out of the band ends learning with event 0x0309. -/
def Obligations.MapLearning : Prop :=
  (∀ (s : State) (hi lo : Byte), s.Inv → s.busOn = true → s.hb.wlatch = some (0x18, lo) → s.sc.armHost ≠ .armed → s.hb.nvr = true →
    s.running = true → s.aon.sealOpen = true → s.lg.acount < 2048 → s.hb.rows.length < 2 → s.orRun = true →
    bitAt (wordOf hi lo) 3 = true → s.mayLearn = true → s.orr.learn = false →
    ∃ t, exec (.learnStart hi) s = .next t ∧ State.sameBut [.lg, .hb] s t ∧
      t.lg = { s.lg with queue := s.lg.queue ++ [.word (Config.key 0 0x18) (wordOf hi lo)] } ∧
      s.wordStored t (Config.key 0 0x18) (merge 0x0304 (s.nvReg 0x18) (wordOf hi lo))) ∧
  (∀ s : State, s.running = true → s.orr.lrn = true → s.lrnRevs ≤ s.orr.lrnAll.length → s.lg.acount < 2048 →
    exec .learnComplete s =
      .next { s with orr := { s.orr with lrn := false }, lg := { s.lg with queue := s.lg.queue ++ [.learned s.learnedMap] } }) ∧
  (∀ s : State, s.running = true → s.orr.learn = true → s.ev.buf.length < 32 →
    exec .learnAbort s =
      .next { s with orr := { s.orr with learn := false, lrn := false, lrnArm := false, lrnRev := [], lrnAll := [] },
                     ev := { s.ev with buf := s.ev.buf ++ [s.eventOf 0x0309 1] } })

/-! ## The excitation bridge and the boost (06, R140 to R162) -/

/-- R88, R142, R144, R145, R147, R148, R149: at a carrier valley the shadows take XB_PER, XB_DUTY, XB_DT and the on-window computed at the
last peak unless HOLD stands, and a tap calibration that waits takes effect; at a peak of a half with an on-window the sense code is sampled
and, under IREG, the next on-window follows it, held between 0 and the duty, for the next valley; REFN full periods in a row end in a
bootstrap refresh, whose pulse stands about that valley; 64 open samples end the pair with OPEN, event 0x0406 and SY_IRQ[3]. Event data are
packed as log entry 12 says. A command whose condition does not hold changes nothing (log entry 1). -/
def Obligations.CarrierAndRegulation : Prop :=
  (∀ s : State, s.runOrDrain = true → s.xb.hold = false →
    exec .carrierValley s =
      .next { s with
        xb := { s.xb with
          full := if s.fullDuty then s.xb.full + 1 else 0, per := s.nvReg 0x24, duty := s.nvReg 0x26, dt := s.nvReg 0x28, d := s.xb.dNext },
        ck := { s.ck with onHfo := s.ck.onHfo && !s.ck.swlk, tapPend := false,
                          tapCount := if s.ck.tapPend then s.ck.tapCount + 1 else s.ck.tapCount } }) ∧
  (∀ s : State, s.runOrDrain = true → s.xb.hold = true →
    exec .carrierValley s =
      .next { s with
        xb := { s.xb with full := if s.fullDuty then s.xb.full + 1 else 0 },
        ck := { s.ck with onHfo := s.ck.onHfo && !s.ck.swlk, tapPend := false,
                          tapCount := if s.ck.tapPend then s.ck.tapCount + 1 else s.ck.tapCount } }) ∧
  (∀ (s : State) (ics : BitVec 10), s.runOrDrain = true → s.xbIreg = true → s.xb.pol ≠ 0 → s.window ≠ 0 →
    ∃ t, exec (.carrierPeak ics) s = .next t ∧ State.sameBut [.xb] s t ∧ t.xb.ics = ics ∧
      t.xb.icsSum = s.xb.icsSum + ics.toNat ∧ t.xb.icsN = s.xb.icsN + 1 ∧ t.xb.ePrev = (s.iset : Int) - ics.toNat ∧
      t.xb.d = s.xb.d ∧ t.xb.refNow = false ∧ t.xb.dNext = max 0 (min ((s.xb.duty.toNat * 16 : Nat) : Int)
        (s.xb.d + 2 ^ fld (s.lgw 0xF821) 0 4 * (((s.iset : Int) - ics.toNat) - s.xb.ePrev) +
          2 ^ fld (s.lgw 0xF821) 4 4 * ((s.iset : Int) - ics.toNat)))) ∧
  (∀ (s : State) (ics : BitVec 10), s.runOrDrain = true → s.xbIreg = false → s.window = 0 →
    exec (.carrierPeak ics) s = .next { s with xb := { s.xb with refNow := false, dNext := (s.xb.duty.toNat * 16 : Nat) } }) ∧
  (∀ s : State, s.runOrDrain = true → s.xb.pol ≠ 0 → fld (s.lgw 0xF822) 0 8 ≠ 0 → fld (s.lgw 0xF822) 0 8 ≤ s.xb.full →
    s.xb.refCnt.toNat < 0xFFFE →
    exec .bootstrapRefresh s = .next { s with xb := { s.xb with full := 0, refNow := true, refCnt := s.xb.refCnt + 1#16 } }) ∧
  (∀ s : State, s.xb.full < fld (s.lgw 0xF822) 0 8 ∨ fld (s.lgw 0xF822) 0 8 = 0 ∨ s.xb.pol = 0 →
    exec .bootstrapRefresh s = .next s) ∧
  (∀ s : State, s.runOrDrain = true → 64 ≤ s.xb.openRun → s.ev.buf.length < 32 →
    ∃ t, exec .coilOpen s = .next t ∧ State.sameBut [.xb, .ad, .ev, .irq] s t ∧ t.xb.openCoil = true ∧ t.xb.pol = 0 ∧ t.xb.pair = false ∧
      t.ev = { s.ev with buf := s.ev.buf ++ [s.eventOf 0x0406 (s.xb.ics.toNat + (s.dNow.toNat / 16) * 65536)] } ∧
      t.hb.irq = s.hb.irq ||| 0x0008#16)

/-- R89, R153 to R157: a boost that runs turns on; a cycle that is complete is judged limited or not, once, as R155 tells the two, and the
next turns on when TOFF has passed and, in role T, the grant has paid for the last; after a relock it resumes with a turn-on. A check window
with no cycle, or with eight limited ones, stops the boost unless VRES reached the stop voltage in it, and so do 64 limited ones in a row
afterwards; a stop schedules a retry, or after BRETRY attempts sets BSCL; the retry and the keyed clear start it again with FL[1] clear. A
command whose condition does not hold changes nothing (log entry 1). -/
def Obligations.BoostAttempts : Prop :=
  (∀ (s : State) (e : BoostEnv), s.xbOn = true → s.ton ≠ 0 → s.boostMay = true → s.xb.bfull = false →
    (s.xb.brun = true ∧ s.xb.cyc = 0 ∨ s.xb.brun = false ∧ (s.xb.bstate = 1 ∨ s.xb.bstate = 2)) →
    exec (.boostCycleStart e) s =
      .next { s with
        xb := { s.xb with brun := true, cyc := 1 },
        ck := { s.ck with hfoBoost := s.ck.hfoBoost && !s.ck.swlk, tapBoost := s.ck.tapBoost && !s.ck.swlk } }) ∧
  (∀ (s : State) (e : BoostEnv), s.xbOn = true → s.xb.brun = true → s.xb.cyc = 1 → e.elapsed < s.cycleEnd e →
    exec (.boostCycleStart e) s = .next s) ∧
  (∀ (s : State) (e : BoostEnv), s.xbOn = true → s.xb.brun = true → s.ton ≠ 0 → s.xb.cyc = 1 → s.cycleEnd e ≤ e.elapsed →
    s.limited e = false → (s.cycleReady e && s.boostGrant e) = false →
    exec (.boostCycleStart e) s =
      .next { s with xb := { s.xb with cyc := 2, last8 := (false :: s.xb.last8).take 8, limRun := 0 } }) ∧
  (∀ (s : State) (e : BoostEnv), s.xbOn = true → s.xb.brun = true → s.ton ≠ 0 → s.xb.cyc = 1 → s.cycleEnd e ≤ e.elapsed →
    s.limited e = true → s.cycleReady e = true → s.boostGrant e = true → s.xb.limCnt.toNat < 0xFFFE →
    exec (.boostCycleStart e) s =
      .next { s with
        xb := { s.xb with
          cyc := 1, last8 := (true :: s.xb.last8).take 8, limRun := s.xb.limRun + 1, limCnt := s.xb.limCnt + 1#16 },
        ck := { s.ck with hfoBoost := s.ck.hfoBoost && !s.ck.swlk, tapBoost := s.ck.tapBoost && !s.ck.swlk } }) ∧
  (∀ (s : State) (e : BoostEnv), s.bmode = false →
    (s.limited e = true ↔ (∃ n, e.blimAt = some n ∧ n < s.ton) ∨ ∀ n, e.lowAt = some n → 32768 < n)) ∧
  (∀ (s : State) (e : BoostEnv), s.bmode = true → (s.limited e = true ↔ s.blim ≤ e.csOn)) ∧
  (∀ (s : State) (e : BoostEnv), s.boostGrant e = true ↔
    (s.pins.role = .T → ((e.area * 10000 : Nat) : Int) ≤ s.pw.surplus * (e.elapsed * s.brs : Nat))) ∧
  (∀ s : State, s.xbOn = true → s.xb.bstate = 1 → (false ∈ s.xb.last8 ∨ s.xb.bfull = true ∨ s.xb.fullSeen = true) →
    exec .boostCheckWindowEnd s = .next { s with xb := { s.xb with bstate := 2 } }) ∧
  (∀ s : State, s.xbOn = true → s.xb.bstate = 1 → s.xb.bfull = false → s.xb.fullSeen = false → s.xb.last8 = [] → s.ev.buf.length < 32 →
    ∃ t, exec .boostCheckWindowEnd s = .next t ∧ State.sameBut [.xb, .ev, .irq] s t ∧ t.xb.brun = false ∧
      t.xb.bstate = (if s.bretry + 1 ≤ s.xb.batt.toNat + 1 then 0 else 3) ∧
      t.xb.bscl = (s.xb.bscl || decide (s.bretry + 1 ≤ s.xb.batt.toNat + 1)) ∧
      t.ev = { s.ev with buf := s.ev.buf ++
        [s.eventOf (if s.bretry + 1 ≤ s.xb.batt.toNat + 1 then 0x0404 else 0x0403) (1 + (s.xb.batt.toNat + 1) * 256)] } ∧
      t.hb.irq = s.hb.irq ||| 0x0008#16) ∧
  (∀ s : State, s.xbOn = true → s.xb.bstate = 2 → 64 ≤ s.xb.limRun → s.ev.buf.length < 32 →
    ∃ t, exec .boostLimitedRun s = .next t ∧ State.sameBut [.xb, .ev, .irq] s t ∧ t.xb.brun = false ∧
      t.xb.bstate = (if s.bretry + 1 ≤ s.xb.batt.toNat + 1 then 0 else 3) ∧
      t.ev = { s.ev with buf := s.ev.buf ++
        [s.eventOf (if s.bretry + 1 ≤ s.xb.batt.toNat + 1 then 0x0404 else 0x0403) (2 + (s.xb.batt.toNat + 1) * 256)] }) ∧
  (∀ s : State, s.xbOn = true → s.xb.bstate = 3 → s.lgw 0xF826 ≠ 0 → s.xb.lvl.getLsbD 1 = false →
    exec .boostRetryTimeout s =
      .next { s with xb := { s.xb with
        fl := s.xb.fl &&& 0b101#3, limRun := 0, last8 := [], bfull := false, fullSeen := false, cyc := 0, bstate := 1,
        brun := !s.ck.lost && !s.xb.fl.getLsbD 2 } }) ∧
  (∀ s : State, s.xbOn = true → s.xb.bstate = 2 → s.xb.limRun = 0 →
    exec .boostAttemptReset s = .next { s with xb := { s.xb with batt := 0 } }) ∧
  (∀ (s : State) (hi lo : Byte), s.Inv → s.busOn = true → s.hb.wlatch = some (0x22, lo) → s.sc.armHost = .armed → s.hb.nvr = true →
    s.hb.rows.length < 2 → bitAt (wordOf hi lo) 3 = true → s.xb.bscl = true → s.xb.lvl.getLsbD 1 = false → s.ev.buf.length < 32 →
    ∃ t, exec (.boostLatchClear hi) s = .next t ∧ State.sameBut [.pw, .xb, .ev, .irq, .sc, .hb] s t ∧ t.xb.bscl = false ∧ t.xb.batt = 0 ∧
      t.xb.hold = bitAt (wordOf hi lo) 2 ∧ t.sc = { s.sc with armHost := .idle } ∧
      t.xb.bstate = (if t.lgw 0xF826 = 0 then 0 else 1) ∧
      t.pw = { s.pw with shedBulk := t.pw.shedBulk, shedCoil := t.pw.shedCoil, shedProt := t.pw.shedProt } ∧
      (4 ≤ s.shedCode ∨ t.shedCode < 4 →
        t.ev = { s.ev with buf := s.ev.buf ++ [s.eventOf 0x0405 0] } ∧ t.hb.irq = s.hb.irq) ∧
      s.wordStored t (Config.key 0 0x22) (merge 3 (s.nvReg 0x22) (wordOf hi lo)))

/-- R159 to R162: an active fault input sets its flag, logs event 0x0401 with the mask in force and sets SY_IRQ[3]; FLT0 and FLT2 idle the
bridge, FLT1 and FLT2 the boost; LVL is set, and the pin stands at the level FPOL calls active. In a freeze the gates go low and the rest
waits. A write of ones clears the flags whose inputs are inactive; an input inactive for 64 ms restarts its group where ARn allows it. Event
data are packed as log entry 12 says. -/
def Obligations.FaultInputs : Prop :=
  (∀ s : State, s.xbOn = true → s.soonAfterAuto 0 = false → s.ev.buf.length < 32 →
    ∃ t, exec (.faultInputTrip 0) s = .next t ∧ State.sameBut [.pins, .xb, .ad, .fe, .ev, .irq] s t ∧
      t.xb.fl = s.xb.fl ||| 0b001#3 ∧ t.xb.lvl = s.xb.lvl ||| 0b001#3 ∧ t.xb.pol = 0 ∧ t.xb.pair = false ∧ t.xb.brun = s.xb.brun ∧
      t.pins = { s.pins with flt := t.pins.flt } ∧ t.faultActive.getLsbD 0 = true ∧
      t.ev = { s.ev with buf := s.ev.buf ++ [s.eventOf 0x0401 (s.xb.mask.toNat * 256)] } ∧ t.hb.irq = s.hb.irq ||| 0x0008#16) ∧
  (∀ s : State, s.xbOn = true → s.soonAfterAuto 1 = false → (s.xb.bstate = 1 ∨ s.xb.bstate = 2) → s.ev.buf.length < 31 →
    ∃ t, exec (.faultInputTrip 1) s = .next t ∧ State.sameBut [.pins, .xb, .ev, .irq] s t ∧
      t.xb.fl = s.xb.fl ||| 0b010#3 ∧ t.xb.brun = false ∧ t.xb.pol = s.xb.pol ∧
      t.ev = { s.ev with buf := s.ev.buf ++
        [s.eventOf (if s.bretry + 1 ≤ s.xb.batt.toNat + 1 then 0x0404 else 0x0403) (3 + (s.xb.batt.toNat + 1) * 256),
         s.eventOf 0x0401 (1 + s.xb.mask.toNat * 256)] } ∧ t.hb.irq = s.hb.irq ||| 0x0008#16) ∧
  (∀ s : State, s.xbOn = true → s.soonAfterAuto 2 = false → s.ev.buf.length < 32 →
    ∃ t, exec (.faultInputTrip 2) s = .next t ∧ t.xb.fl = s.xb.fl ||| 0b100#3 ∧ t.xb.pol = 0 ∧ t.xb.brun = false ∧
      t.ev = { s.ev with buf := s.ev.buf ++ [s.eventOf 0x0401 (2 + s.xb.mask.toNat * 256)] }) ∧
  (∀ s : State, (s.hb.frzTs || s.hb.frzTest) = true →
    (∃ t, exec (.faultInputTrip 0) s = .next t ∧ State.sameBut [.pins, .xb] s t ∧ t.faultActive.getLsbD 0 = true ∧
      t.xb = { s.xb with frozenTrip := s.xb.frozenTrip ||| 0b001#3 } ∧ ∀ tap since, t.bridgeGates tap since = Gates.low) ∧
    (∃ t, exec (.faultInputTrip 1) s = .next t ∧ State.sameBut [.pins, .xb] s t ∧ t.faultActive.getLsbD 1 = true ∧
      t.xb = { s.xb with frozenTrip := s.xb.frozenTrip ||| 0b010#3 } ∧ ∀ since peak, t.boostGate since peak = false) ∧
    (∃ t, exec (.faultInputTrip 2) s = .next t ∧ State.sameBut [.pins, .xb] s t ∧ t.faultActive.getLsbD 2 = true ∧
      t.xb = { s.xb with frozenTrip := s.xb.frozenTrip ||| 0b100#3 } ∧ (∀ tap since, t.bridgeGates tap since = Gates.low) ∧
      ∀ since peak, t.boostGate since peak = false)) ∧
  (∀ (s : State) (hi lo : Byte) (lvl : BitVec 3), s.busOn = true → s.hb.wlatch = some (0x2A, lo) → s.sc.armHost ≠ .armed →
    ∃ t, exec (.faultFlagClear hi lvl) s = .next t ∧ State.sameBut [.pins, .xb, .ev, .hb] s t ∧ t.xb.lvl = lvl ∧ t.faultActive = lvl ∧
      t.xb.fl = s.xb.fl &&& ~~~((wordOf hi lo).extractLsb' 0 3 &&& ~~~lvl) ∧
      (s.Inv → s.hb.nvr = true → s.hb.rows.length < 2 →
        s.wordStored t (Config.key 0 0x2A) (merge 0x0500 (s.nvReg 0x2A) (wordOf hi lo)))) ∧
  (∀ s : State, s.xbOn = true → bitAt (s.nvReg 0x2A) 8 = true → s.xb.fl.getLsbD 0 = true → s.xb.kept.getLsbD 0 = false →
    ∃ t, exec (.faultAutoRestart 0) s = .next t ∧ State.sameBut [.pins, .xb, .ev] s t ∧ t.xb.fl = s.xb.fl &&& 0b110#3 ∧
      t.xb.lvl = s.xb.lvl &&& 0b110#3 ∧ t.faultActive.getLsbD 0 = false) ∧
  (∀ s : State, s.xbOn = true → bitAt (s.nvReg 0x2A) 8 = false →
    ∃ t, exec (.faultAutoRestart 0) s = .next t ∧ State.sameBut [.pins, .xb] s t ∧ t.xb = { s.xb with lvl := s.xb.lvl &&& 0b110#3 } ∧
      t.faultActive.getLsbD 0 = false)

/-! ## Conversion (07, R163 to R191) -/

/-- R165, R166, R171, R174, R175: the end of a conversion shows its code and channel, raises SEQ by one, sets NEW, and shows the tag and its mark
if the conversion was tagged; the next one starts with the channel and rate as they stand. The code of channels 0 to 7 is the input over the
reference times the gain, in units of 2^−23, held to 24 bits. AD_CTL written with EN starts conversions; during CALIB it is held. -/
def Obligations.Conversions : Prop :=
  (∀ (s : State) (env : ConvEnv), s.coreOn = true → s.ad.runs = true →
    ∃ t, exec (.conversionEnd env) s = .next t ∧ State.sameBut (touches (.conversionEnd env)) s t ∧
      t.ad.seq = s.ad.seq + 1#16 ∧ t.ad.data = (s.codeOf env).1 ∧ t.ad.ovr = (s.codeOf env).2 ∧ t.ad.dataCh = s.ad.curCh ∧
      t.ad.isNew = true ∧ t.ad.tagged = s.ad.tag.isSome ∧ t.ad.mark = s.ad.tag.getD 0) ∧
  (∀ (s : State) (env : ConvEnv), s.ad.curCh.toNat < 8 → bitAt s.ad.curCfg 3 = false →
    s.codeOf env = clip24 (divRne (env.x * ((2 ^ fld s.ad.curCfg 0 3 : Nat) : Int) * 8388608) 2048000000)) ∧
  (∀ (s : State) (env : ConvEnv), s.running = true → s.ad.runs = true → s.adEn = true →
    ∃ t, exec (.conversionEnd env) s = .next t ∧ t.ad.runs = true ∧ t.ad.curCh = s.ad.ch ∧ t.ad.tag = none) ∧
  (∀ (s : State) (hi lo : Byte), s.Inv → s.busOn = true → s.hb.wlatch = some (0x2C, lo) → s.sc.armHost ≠ .armed → s.hb.nvr = true →
    s.hb.rows.length < 2 → s.runOrDrain = true → s.ad.runs = false → bitAt (wordOf hi lo) 8 = true →
    fld (wordOf hi lo) 4 4 < 12 → (wordOf hi lo).extractLsb' 0 4 ≠ 15#4 →
    ∃ t, exec (.adcEnable hi) s = .next t ∧ State.sameBut [.ad, .hb] s t ∧
      t.ad = { s.ad with
        runs := true, ch := (wordOf hi lo).extractLsb' 0 4, curCh := (wordOf hi lo).extractLsb' 0 4,
        curRate := BitVec.ofNat 4 (fld (wordOf hi lo) 4 4), curCfg := t.ad.curCfg, curHalf := s.xb.pol, tag := none,
        drie := bitAt (wordOf hi lo) 9, ovie := bitAt (wordOf hi lo) 10 } ∧
      s.wordStored t (Config.key 0 0x2C) (merge 0x01FF (s.nvReg 0x2C) (wordOf hi lo))) ∧
  (∀ (s : State) (hi lo : Byte), s.busOn = true → s.hb.wlatch = some (0x2C, lo) → s.sc.armHost ≠ .armed → s.pw.st = .calib →
    exec (.adcEnable hi) s =
      .next { s with hb := { s.hb with wlatch := none }, ad := { s.ad with heldCtl := some (wordOf hi lo) } })

/-- R184 to R187, R190, R191, R286: DA_AUX is the auxiliary code; a change of DMODE or DGAIN forces it to zero scale; compliance above 2.60
V sets COMPL and its clear ends it; an open loop forces zero scale with events 0x0504 and 0x0506; DA_LOOP is the host's loop target under
ASRC 1, held to 3.40 mA to 23.00 mA and driven through the trim; DA_NCO holds its low half and commits with its high half; word 0 lets the
output run to the next zero crossing, where the accumulator stands at a multiple of 0x800000. Event data are packed as log entry 12 says. -/
def Obligations.DacsAndNco : Prop :=
  (∀ (s : State) (hi lo : Byte), s.busOn = true → s.hb.wlatch = some (0x34, lo) → s.sc.armHost ≠ .armed →
    exec (.daAuxWrite hi) s = .next { s with hb := { s.hb with wlatch := none }, ad := { s.ad with daAux := wordOf hi lo } }) ∧
  (∀ (s : State) (hi lo : Byte), s.Inv → s.busOn = true → s.hb.wlatch = some (0x60, lo) → s.sc.armHost ≠ .armed → s.hb.nvr = true →
    s.hb.rows.length < 2 → s.lg.ptr = 0xF840 →
    ∃ t, exec (.auxModeChange hi) s = .next t ∧ State.sameBut [.ad, .lg, .hb] s t ∧ s.wordStored t (Config.key 3 0xF840) (wordOf hi lo &&& 0x0003) ∧
      t.lg = { s.lg with ptr := if s.lg.ainc then s.lg.ptr + 1 else s.lg.ptr } ∧
      t.ad = { s.ad with daAux := if fld (s.lgw 0xF840) 0 2 = fld (wordOf hi lo &&& 0x0003) 0 2 then s.ad.daAux else 0 }) ∧
  (∀ (s : State) (mv : Nat), s.coreOn = true → s.daoMode = true → s.ad.compl = false → 2600 < mv → s.ev.buf.length < 32 →
    exec (.daoCompliance mv) s =
      .next { s with ad := { s.ad with compl := true }, ev := { s.ev with buf := s.ev.buf ++ [s.eventOf 0x0503 mv] },
                     hb := { s.hb with irq := s.hb.irq ||| 0x0010#16 } }) ∧
  (∀ s : State, s.coreOn = true → exec .daoComplianceClear s = .next { s with ad := { s.ad with compl := false } }) ∧
  (∀ (s : State) (mv : Nat), s.coreOn = true → s.daoMode = true → 2850 ≤ mv → s.ev.buf.length < 31 →
    exec (.daoOpenLoop mv) s =
      .next { s with ad := { s.ad with dopen := true, daAux := 0 },
                     ev := { s.ev with buf := s.ev.buf ++ [s.eventOf 0x0504 s.ad.daAux.toNat, s.eventOf 0x0506 (1 + 4 * 256)] },
                     hb := { s.hb with irq := s.hb.irq ||| 0x0010#16 } }) ∧
  (∀ (s : State) (hi lo : Byte), s.busOn = true → s.hb.wlatch = some (0x32, lo) → s.sc.armHost ≠ .armed → s.asrc = 1 →
    s.lp.traw = false → s.lp.driving = true → s.lp.alarm = 0 →
    exec (.daLoopWrite hi) s =
      .next { s with
        hb := { s.hb with wlatch := none },
        lp := { s.lp with hostTarget := max 3400000 (min 23000000 ((wordOf hi lo).toNat * 375)), hostRaw := none,
                          target := max 3400000 (min 23000000 ((wordOf hi lo).toNat * 375)) },
        ad := { s.ad with daLoop := s.trimCode (max 3400000 (min 23000000 ((wordOf hi lo).toNat * 375))) } }) ∧
  (∀ (s : State) (hi lo : Byte), s.busOn = true → s.hb.wlatch = some (0x36, lo) → s.sc.armHost ≠ .armed → bitAt (wordOf hi lo) 15 = false →
    exec (.daNcoWrite hi) s =
      .next { s with hb := { s.hb with wlatch := none },
                     ad := { s.ad with nco := wordOf hi lo &&& 0x8FFF#16, ncoLow := (wordOf hi lo &&& 0x8FFF#16).extractLsb' 0 12 } }) ∧
  (∀ (s : State) (hi lo : Byte), s.busOn = true → s.hb.wlatch = some (0x36, lo) → s.sc.armHost ≠ .armed → bitAt (wordOf hi lo) 15 = true →
    s.ncoTaken = false → (wordOf hi lo &&& 0x8FFF#16).extractLsb' 0 12 ++ s.ad.ncoLow ≠ 0#24 →
    exec (.daNcoWrite hi) s =
      .next { s with hb := { s.hb with wlatch := none },
                     ad := { s.ad with nco := wordOf hi lo &&& 0x8FFF#16, fw := (wordOf hi lo &&& 0x8FFF#16).extractLsb' 0 12 ++ s.ad.ncoLow,
                                       ncoFw := (wordOf hi lo &&& 0x8FFF#16).extractLsb' 0 12 ++ s.ad.ncoLow,
                                       ncoRamp := false, ncoZero := false } }) ∧
  (∀ (s : State) (hi lo : Byte), s.busOn = true → s.hb.wlatch = some (0x36, lo) → s.sc.armHost ≠ .armed → bitAt (wordOf hi lo) 15 = true →
    s.ncoTaken = false → (wordOf hi lo &&& 0x8FFF#16).extractLsb' 0 12 ++ s.ad.ncoLow = 0#24 →
    exec (.daNcoWrite hi) s =
      .next { s with hb := { s.hb with wlatch := none },
                     ad := { s.ad with nco := wordOf hi lo &&& 0x8FFF#16, fw := 0, ncoRamp := s.ad.fw != 0 || s.ad.ncoRamp } }) ∧
  (∀ s : State, s.coreOn = true → s.ad.ncoRamp = true →
    ∃ t, exec .ncoZeroStop s = .next t ∧ State.sameBut [.ad] s t ∧
      t.ad = { s.ad with ncoRamp := false, ncoZero := true, phase := t.ad.phase } ∧
      (t.ad.phase = 0 ∨ t.ad.phase = 0x800000#24) ∧ t.ncoSine = 0)

/-! ## The flow engine (08, R192 to R216) -/

/-- R152, R195, R196: a pair without two counted results of a half is truncated: TRUNC, and Q and the totals stand. A complete one gives half
the difference of the means, and Q = K · ΔU · ISET over the mean sense code; either closes the pair. -/
def Obligations.MagneticPairs : Prop :=
  (∀ (s : State) (elapsed : Nat), s.running = true → s.feMag = true → s.xb.pairOpen = true →
    (s.halfResults 1).length < 2 →
    ∃ t, exec (.magPairEnd elapsed) s = .next t ∧ State.sameBut [.xb, .ad, .fe] s t ∧ t.fe.trunc = true ∧ t.fe.q = s.fe.q ∧
      t.xb.pairOpen = false) ∧
  (∀ (s : State) (elapsed : Nat), s.running = true → s.feMag = true → s.xb.pairOpen = true → s.fe.cutPair = false →
    2 ≤ (s.halfResults 1).length → 2 ≤ (s.halfResults 2).length → F32.eq (s.fef 0x002) 0 = false →
    F32.isFinite (F32.div (F32.mul (F32.mul (s.fef 0x002)
        (F32.div (F32.sub (meanCode (s.halfResults 1)) (meanCode (s.halfResults 2))) (F32.ofInt 2))) (F32.ofInt s.iset))
      (F32.ofRatio s.xb.icsSum s.xb.icsN)) = true →
    ∃ t, exec (.magPairEnd elapsed) s = .next t ∧ State.sameBut (touches (.magPairEnd elapsed)) s t ∧
      t.fe.du = F32.div (F32.sub (meanCode (s.halfResults 1)) (meanCode (s.halfResults 2))) (F32.ofInt 2) ∧
      t.fe.q = F32.div (F32.mul (F32.mul (s.fef 0x002) t.fe.du) (F32.ofInt s.iset)) (F32.ofRatio s.xb.icsSum s.xb.icsN) ∧
      t.fe.qAt = s.pw.ticks ∧ t.xb.pairOpen = false ∧ t.xb.icsN = 0)

/-- R201, R203, R215, R365: an input without results for 2 s sets STALE with event 0x0604 and SY_IRQ[5], and a stale loop B, while it is the source,
reads flow 0; CFG, ADAPT and VTH are put in line by one word, a binary32 by its second word, and under PHOLD they are held; a complete
block of the estimator gives the powers of the candidates, or the rms noise (the values are free, log entry 71), and a port's its noise. -/
def Obligations.FlowInputsAndWords : Prop :=
  (∀ s : State, s.running = true → s.feEn = true → s.ev.buf.length < 32 →
    exec (.inputStale .pressure) s =
      .next { s with fe := { s.fe with pStale := true, stale := true },
                     ev := { s.ev with buf := s.ev.buf ++ [s.eventOf 0x0604 1] }, hb := { s.hb with irq := s.hb.irq ||| 0x0020#16 } } ∧
    exec (.inputStale .temperature) s =
      .next { s with fe := { s.fe with tStale := true, stale := true },
                     ev := { s.ev with buf := s.ev.buf ++ [s.eventOf 0x0604 2] }, hb := { s.hb with irq := s.hb.irq ||| 0x0020#16 } }) ∧
  (∀ s : State, s.running = true → s.feEn = true → s.fe.srcLive = false → exec (.inputStale .loopB) s = .next s) ∧
  (∀ s : State, s.running = true → s.feEn = true → s.fe.srcLive = true →
    ∃ t, exec (.inputStale .loopB) s = .next t ∧ State.sameBut [.fe, .ev, .irq] s t ∧ t.fe.bStale = true ∧ t.fe.stale = true ∧
      t.fe.qvp = 0 ∧ t.fe.qvc = 0) ∧
  (∀ (s : State) (hi lo : Byte), s.busOn = true → s.hb.wlatch = some (0x5A, lo) → s.sc.armHost ≠ .armed → s.hb.nvr = true →
    s.startUp = false → s.aon.sealOpen = true → s.lg.acount < 2048 → s.fe.phold = false → s.fe.ptr = 0 → s.few 0 ≠ wordOf hi lo &&& 0x007F →
    exec (.feWordCommit hi) s =
      .next { s with
        hb := { s.hb with wlatch := none }, fe := { s.fe with ptr := if s.fe.ainc then 1 else 0 },
        lg := { s.lg with queue := s.lg.queue ++ [.word (Config.key 2 0) (wordOf hi lo &&& 0x007F)] } }) ∧
  (∀ (s : State) (hi lo : Byte) (low : Word), s.busOn = true → s.hb.wlatch = some (0x5A, lo) → s.sc.armHost ≠ .armed → s.hb.nvr = true →
    s.startUp = false → s.aon.sealOpen = true → s.fe.phold = true → s.fe.ptr = 3 → s.hb.held.lookup (Config.key 2 2) = some low →
    ∃ t, exec (.feWordCommit hi) s = .next t ∧ State.sameBut [.fe, .hb] s t ∧
      t.fe = { s.fe with
        ptr := if s.fe.ainc then 4 else 3,
        heldWrites := s.fe.heldWrites.filter (fun h => h.feKey != Config.key 2 2) ++ [.pair (Config.key 2 2) low (wordOf hi lo)] } ∧
      t.hb = { (s.unhold (Config.key 2 2) 1).hb with wlatch := none }) ∧
  (∀ s : State, s.runOrDrain = true → s.takesIdle = true → s.fe.idle.length = 256 →
    exec (.noiseBlockTransform .converter) s =
      .next { s with fe := { s.fe with powers := [2, 4, 8, 16, 32, 64].map s.candidatePower,
                                       present := s.candidatePower (2 ^ fld (s.nvReg 0x18) 4 3), idle := [] } }) ∧
  (∀ s : State, s.runOrDrain = true → s.takesVor = true → s.fe.vor.length = 256 →
    ∃ rms, exec (.noiseBlockTransform .converter) s = .next { s with fe := { s.fe with rms := some rms, vor := [] } }) ∧
  (∀ s : State, s.runOrDrain = true → s.fe.idle.length ≠ 256 → s.fe.vor.length ≠ 256 →
    exec (.noiseBlockTransform .converter) s = .next s) ∧
  (∀ (s : State) (noise : List Byte), s.runOrDrain = true → s.rxOn .A = true →
    exec (.noiseBlockTransform (.line .A noise)) s = .next { s with dl := { s.dl with noiseA := spread 0#8 noise } })

/-- R212, R213, R214: an evaluation recommends the quietest commutation period, or the vortex threshold; NREC is set by the second differing
evaluation in a row, with event 0x0607 and SY_IRQ[5], and cleared by one that does not differ. -/
def Obligations.AdaptationRecommends : Prop :=
  (∀ s : State, s.running = true → bitAt (s.few 1) 0 = true → s.feMag = true → s.orSrc = 3 → s.fe.powers ≠ [] →
    ∃ t, exec .adaptEvaluation s = .next t ∧ State.sameBut [.fe, .ev, .irq] s t ∧
      t.fe.rcyc = BitVec.ofNat 3 (quietest s.fe.powers + 1) ∧ t.fe.powers = s.fe.powers) ∧
  (∀ s : State, s.running = true → bitAt (s.few 1) 0 = true → s.feMag = true → s.orSrc = 3 → s.fe.powers ≠ [] →
    quietest s.fe.powers + 1 = fld (s.nvReg 0x18) 4 3 →
    ∃ t, exec .adaptEvaluation s = .next t ∧ t.fe.nrec = false ∧ t.fe.recRun = 0 ∧ t.ev = s.ev) ∧
  (∀ (s : State) (rms : Nat), s.running = true → bitAt (s.few 1) 1 = true → s.feTeeth = true → s.fe.modelLive = 3 →
    s.fe.rms = some rms →
    ∃ t, exec .adaptEvaluation s = .next t ∧ State.sameBut [.fe, .ev, .irq] s t ∧ t.fe.rvth = s.rvthOf rms ∧
      ((s.rvthOf rms).toNat ≠ fld (s.few 0x38) 0 11 →
        dbAbove ((s.rvthOf rms).toNat ^ 2) (fld (s.few 0x38) 0 11 ^ 2) (fld (s.few 1) 8 8) = true → 1 ≤ s.fe.recRun → t.fe.nrec = true))

/-! ## The ledger, the audit log and the seal (09, R217 to R251) -/

/-- R222 to R225, R237: COMMIT written in RUN or DRAIN begins a commit: SEQ rises by one, and the bank its bit 0 names is to take 256 bytes
built from the totals, the counts and the times as they stand; while another is being written it waits, with what stands at the trigger.
When the rows are written that bank is the one in force, SY_IRQ[6] is set with CIE, the snapshot of a sweep follows, and the oldest waiting
commit begins. At the last SEQ the ledger is bad, with event 0x070A. LG_CTL.INIT with the unlock is put in line for the audit row. -/
def Obligations.Commits : Prop :=
  (∀ (s : State) (hi lo : Byte), s.busOn = true → s.hb.wlatch = some (0x5C, lo) → s.sc.armHost ≠ .armed → s.runOrDrain = true →
    bitAt (wordOf hi lo) 0 = true → s.lg.lbad = false → s.lg.cur = none → s.lg.seq.toNat < 0xFFFFFFFE →
    ∃ t, exec (.commitRequest hi) s = .next t ∧ State.sameBut [.lg, .hb] s t ∧ s.latchTaken t ∧
      t.lg = { s.lg with
        ainc := bitAt (wordOf hi lo) 1, cie := bitAt (wordOf hi lo) 8, torn := s.lg.torn && !bitAt (wordOf hi lo) 5,
        disc := s.lg.disc && !bitAt (wordOf hi lo) 6, snap := s.lg.snap && !bitAt (wordOf hi lo) 7,
        seq := s.lg.seq + 1#32,
        cur := some {
          toB := (s.lg.seq + 1#32).getLsbD 0, data := s.bankData 0x08 false (s.lg.seq + 1#32), sweeps := [],
          bytes := bankBytes s.ledgerKey s.fram.serial ((s.lg.seq + 1#32).getLsbD 0) (s.bankData 0x08 false (s.lg.seq + 1#32)) } }) ∧
  (∀ (s : State) (hi lo : Byte), s.busOn = true → s.hb.wlatch = some (0x5C, lo) → s.sc.armHost ≠ .armed → s.runOrDrain = true →
    bitAt (wordOf hi lo) 0 = true → s.lg.lbad = false → s.lg.cur = none → s.lg.seq = 0xFFFFFFFE#32 → s.ev.buf.length < 32 →
    ∃ t, exec (.commitRequest hi) s = .next t ∧ State.sameBut [.lg, .ev, .hb] s t ∧ t.lg.seq = 0xFFFFFFFF#32 ∧ t.lg.lbad = true ∧
      t.lg.cur.isSome = true ∧ t.ev = { s.ev with buf := s.ev.buf ++ [s.eventOf 0x070A 0] }) ∧
  (∀ (s : State) (hi lo : Byte) (c : Commit), s.busOn = true → s.hb.wlatch = some (0x5C, lo) → s.sc.armHost ≠ .armed →
    s.runOrDrain = true → bitAt (wordOf hi lo) 0 = true → s.lg.lbad = false → s.lg.cur = some c →
    ∃ t, exec (.commitRequest hi) s = .next t ∧ State.sameBut [.lg, .hb] s t ∧ t.lg.cur = some c ∧ t.lg.seq = s.lg.seq ∧
      t.lg.waiting = s.lg.waiting ++ [{ data := s.bankData 0x08 false 0, sweeps := [] }]) ∧
  (∀ (s : State) (c : Commit), s.runOrDrain = true → s.lg.cur = some c → s.lg.waiting = [] → c.sweeps = [] →
    s.an.restoreAck = none →
    ∃ t, exec .commitComplete s = .next t ∧ State.sameBut [.fram, .lg, .irq] s t ∧ t.lg.cur = none ∧ t.lg.bank = c.toB ∧
      t.lg.seqDone = c.data.seq ∧ t.lg.totalsDone = c.data.totals ∧
      t.fram = (if c.toB then { s.fram with bankB := c.bytes } else { s.fram with bankA := c.bytes }) ∧
      t.hb.irq = (if s.lg.cie then s.hb.irq ||| 0x0040#16 else s.hb.irq)) ∧
  (∀ (s : State) (c : Commit) (sw : Word32 × Word32), s.runOrDrain = true → s.lg.cur = some c → s.lg.waiting = [] → c.sweeps = [sw] →
    s.an.restoreAck = none →
    ∃ t, exec .commitComplete s = .next t ∧ State.sameBut [.fram, .lg, .irq] s t ∧ t.lg.cur = none ∧ t.lg.snap = true ∧
      t.fram.snapCount = s.fram.snapCount + 1 ∧
      t.fram.snaps = (s.snapSlot, snapBytes s.ledgerKey s.fram.serial
        (snapBody c.data.flags sw.1 sw.2 c.data.seq c.data.totals c.data.acount)) :: s.fram.snaps.filter (fun e => e.1 != s.snapSlot) ∧
      t.hb.irq = s.hb.irq ||| 0x0040#16) ∧
  (∀ (s : State) (c : Commit) (w : Waiting) (rest : List Waiting), s.runOrDrain = true → s.lg.cur = some c → s.lg.waiting = w :: rest →
    s.lg.lbad = false → s.lg.seq.toNat < 0xFFFFFFFE → s.an.restoreAck = none →
    ∃ t, exec .commitComplete s = .next t ∧ State.sameBut [.fram, .lg, .irq] s t ∧ t.lg.waiting = rest ∧ t.lg.seq = s.lg.seq + 1#32 ∧
      t.lg.seqDone = c.data.seq ∧ t.lg.cur = some (s.bankCommit { w.data with seq := s.lg.seq + 1#32 } w.sweeps)) ∧
  (∀ (s : State) (hi lo : Byte), s.busOn = true → s.hb.wlatch = some (0x5C, lo) → s.sc.armHost = .armed → s.startUp = false →
    s.aon.sealOpen = true → s.lg.acount < 2048 → bitAt (wordOf hi lo) 0 = false → bitAt (wordOf hi lo) 2 = true →
    ∃ t, exec (.ledgerInit hi) s = .next t ∧ State.sameBut [.lg, .sc, .hb] s t ∧
      t.lg = { s.lg with
        ainc := bitAt (wordOf hi lo) 1, cie := bitAt (wordOf hi lo) 8, torn := s.lg.torn && !bitAt (wordOf hi lo) 5,
        disc := s.lg.disc && !bitAt (wordOf hi lo) 6, snap := s.lg.snap && !bitAt (wordOf hi lo) 7,
        queue := s.lg.queue ++ [.ledgerInit s.lg.seq] } ∧
      t.sc = { s.sc with armHost := .idle } ∧ s.latchTaken t)

/-- R231, R232: the oldest buffered event is written with the next sequence number, which is 1 above the last one; the ring keeps the newest
1,024; SY_IRQ[7] is set. R234, R236: the row of the change in front is written, and only then does the change take effect; a full log
refuses it. -/
def Obligations.EventAndAuditRows : Prop :=
  (∀ (s : State) (e : LogEntry) (rest : List LogEntry), s.runOrDrain = true → s.ev.buf = e :: rest → s.ev.drops = 0 →
    ∃ t, exec .eventEntryWrite s = .next t ∧ State.sameBut [.fram, .ev, .irq] s t ∧ t.ev = { s.ev with buf := rest } ∧
      t.fram = { s.fram with
        events := ({ e with seq := s.fram.eventSeq + 1#32 } :: s.fram.events).take 1024, eventSeq := s.fram.eventSeq + 1#32,
        eventWrap := s.fram.eventWrap || s.fram.events.length == 1024 } ∧
      t.hb.irq = s.hb.irq ||| 0x0080#16) ∧
  (∀ (s : State) (k : Nat) (v : Word) (rest : List Change), s.Inv → s.runOrDrain = true → s.lg.queue = .word k v :: rest →
    s.lg.acount < 1983 → Config.key 3 0xF884 ≤ k →
    ∃ t, exec .auditRowWritten s = .next t ∧ State.sameBut [.nv, .fram, .lg, .hb] s t ∧ s.hostKept t ∧
      t.nv k = v ∧ (∀ j, j ≠ k → t.nv j = s.nv j) ∧ t.lg.queue = rest ∧ t.lg.acount = s.lg.acount + 1 ∧
      t.fram.audit = s.fram.audit ++ [(s.lg.acount,
        { time := s.stamp, seq := BitVec.ofNat 32 (s.lg.acount + 1), code := (s.auditOf (.word k v)).1,
          data := BitVec.ofNat 48 (s.auditOf (.word k v)).2 })]) ∧
  (∀ (s : State) (k : Nat) (v : Word) (rest : List Change), s.runOrDrain = true → s.lg.queue = .word k v :: rest → 2048 ≤ s.lg.acount →
    ∃ t, exec .auditRowWritten s = .next t ∧ State.sameBut [.lg, .ev, .irq] s t ∧ t.lg = { s.lg with queue := rest } ∧
      (s.ev.buf.length < 32 → t.ev = { s.ev with buf := s.ev.buf ++ [s.eventOf 0x0704 (k % 0x10000)] }))

/-- R56, R236, R239, R240, R444: a change of the seal's level is put in line for its audit row in RUN and DRAIN, in a debug freeze too, where
a closing seal is remembered for its end; a full log takes it unaudited, counts it in UNAUD and logs it; in other states with the always-on
domain powered it is counted and held; the level as it was changes nothing. A command whose condition does not hold changes nothing (log entry 1). -/
def Obligations.SealChanges : Prop :=
  (∀ (s : State) (isOpen : Bool), s.aon.sealLevel = isOpen → exec (.sealChange isOpen) s = .next s) ∧
  (∀ (s : State) (isOpen : Bool), s.aon.sealLevel ≠ isOpen → s.runOrDrain = true → s.lg.acount < 2048 →
    exec (.sealChange isOpen) s =
      .next { s with aon := { s.aon with sealLevel := isOpen }, lg := { s.lg with queue := s.lg.queue ++ [.seal isOpen] } }) ∧
  (∀ s : State, s.aon.sealLevel = false → s.runOrDrain = true → 2048 ≤ s.lg.acount → s.ev.buf.length < 32 →
    ∃ t, exec (.sealChange true) s = .next t ∧ State.sameBut [.aon, .lg, .ev, .sc, .irq] s t ∧
      t.aon = { s.aon with sealLevel := true, sealOpen := true } ∧ t.lg = { s.lg with unaud := satAdd s.lg.unaud 1 } ∧
      t.sc = { s.sc with sealch := true } ∧ t.ev = { s.ev with buf := s.ev.buf ++ [s.eventOf 0x0F02 0] } ∧
      t.hb.irq = s.hb.irq ||| 0x8000#16) ∧
  (∀ (s : State) (isOpen : Bool), s.aon.sealLevel ≠ isOpen → (s.pw.st = .run ∨ s.pw.st = .drain) → (s.hb.frzTs || s.hb.frzTest) = true →
    s.lg.acount < 2048 →
    exec (.sealChange isOpen) s =
      .next { s with aon := { s.aon with sealLevel := isOpen }, lg := { s.lg with queue := s.lg.queue ++ [.seal isOpen] },
                     hb := { s.hb with frzClosed := s.hb.frzClosed || !isOpen } }) ∧
  (∀ (s : State) (isOpen : Bool), s.aon.sealLevel ≠ isOpen → s.pw.st ≠ .run → s.pw.st ≠ .drain → s.pw.st ≠ .off →
    s.hb.frzTs = false → s.hb.frzTest = false →
    exec (.sealChange isOpen) s =
      .next { s with aon := { s.aon with sealLevel := isOpen, sealCount := min 255 (s.aon.sealCount + 1) } })

/-- R244: 0x005A is the first step of the unlock, 0x00A5 within 64 CORE cycles of it the second, which arms the writer; a late second word or
another word returns to the start with event 0x0F04 and SY_IRQ[15]; the arm lapses. -/
def Obligations.UnlockSteps : Prop :=
  (∀ s : State, s.busOn = true → s.hb.wlatch = some (0x7A, 0x5A) →
    exec (.unlockFirst 0x00) s = .next { s with hb := { s.hb with wlatch := none }, sc := { s.sc with armHost := .first } }) ∧
  (∀ (s : State) (cycles : Nat), s.busOn = true → s.hb.wlatch = some (0x7A, 0xA5) → s.sc.armHost = .first → s.hb.rdyen = true →
    cycles ≤ 64 →
    exec (.unlockSecond 0x00 cycles) s = .next { s with hb := { s.hb with wlatch := none }, sc := { s.sc with armHost := .armed } }) ∧
  (∀ (s : State) (cycles : Nat), s.busOn = true → s.hb.wlatch = some (0x7A, 0xA5) → s.hb.rdyen = true → 64 < cycles →
    s.ev.buf.length < 32 →
    exec (.unlockSecond 0x00 cycles) s =
      .next { s with hb := { s.hb with wlatch := none, irq := s.hb.irq ||| 0x8000#16 }, sc := { s.sc with armHost := .idle },
                     ev := { s.ev with buf := s.ev.buf ++ [s.eventOf 0x0F04 0xA5] } }) ∧
  (∀ (s : State) (hi lo : Byte) (cycles : Nat), s.busOn = true → s.hb.wlatch = some (0x7A, lo) → s.ev.buf.length < 32 →
    wordOf hi lo ≠ 0x005A#16 → wordOf hi lo ≠ 0x00A5#16 →
    exec (.syKeyOther hi cycles) s =
      .next { s with hb := { s.hb with wlatch := none, irq := s.hb.irq ||| 0x8000#16 }, sc := { s.sc with armHost := .idle },
                     ev := { s.ev with buf := s.ev.buf ++ [s.eventOf 0x0F04 (wordOf hi lo).toNat] } }) ∧
  (∀ s : State, s.coreOn = true → s.sc.armHost = .armed → exec .unlockLapse s = .next { s with sc := { s.sc with armHost := .idle } })

/-- R245: LOAD with the unlock and the seal open begins a key load for slot 0 or 1; each SC_KEY word joins it; the eighth puts the new key
in line for its audit row, unless it is zero (event 0x0F05, cause 3); the time-out ends the load with cause 2. Event data are packed as log
entry 12 says. -/
def Obligations.KeyLoading : Prop :=
  (∀ (s : State) (hi lo : Byte), s.busOn = true → s.hb.wlatch = some (0x68, lo) → s.sc.armHost = .armed → s.startUp = false →
    s.aon.sealOpen = true → s.sc.ldg = false → bitAt (wordOf hi lo) 2 = true → fld (wordOf hi lo) 0 2 < 2 →
    exec (.keyLoadStart hi) s =
      .next { s with
        hb := { s.hb with wlatch := none },
        sc := { s.sc with armHost := .idle, slot := (wordOf hi lo).extractLsb' 0 2, sealch := s.sc.sealch && !bitAt (wordOf hi lo) 10,
                          ldg := true, ldSlot := (wordOf hi lo).extractLsb' 0 2, words := [] } }) ∧
  (∀ (s : State) (hi lo : Byte), s.busOn = true → s.hb.wlatch = some (0x6A, lo) → s.sc.armHost ≠ .armed → s.sc.ldg = true →
    s.sc.words.length < 7 →
    exec (.keyWord hi) s =
      .next { s with hb := { s.hb with wlatch := none }, sc := { s.sc with words := s.sc.words ++ [wordOf hi lo] } }) ∧
  (∀ (s : State) (hi lo : Byte), s.busOn = true → s.hb.wlatch = some (0x6A, lo) → s.sc.armHost ≠ .armed → s.sc.ldg = true →
    s.sc.words.length = 7 → wordOf hi lo ≠ 0 → s.lg.acount < 2048 →
    exec (.keyWord hi) s =
      .next { s with
        hb := { s.hb with wlatch := none }, sc := { s.sc with ldg := false, words := [] },
        lg := { s.lg with queue := s.lg.queue ++ [.key (s.sc.ldSlot == 1) (keyBytes (s.sc.words ++ [wordOf hi lo]))] } }) ∧
  (∀ (s : State) (hi lo : Byte), s.busOn = true → s.hb.wlatch = some (0x6A, lo) → s.sc.armHost ≠ .armed → s.sc.ldg = true →
    s.sc.words = List.replicate 7 0#16 → wordOf hi lo = 0 → s.ev.buf.length < 32 →
    exec (.keyWord hi) s =
      .next { s with
        hb := { s.hb with wlatch := none }, sc := { s.sc with ldg := false, words := [] },
        ev := { s.ev with buf := s.ev.buf ++ [s.eventOf 0x0F05 (s.sc.ldSlot.toNat + 3 * 256)] } }) ∧
  (∀ s : State, s.coreOn = true → s.sc.ldg = true → s.ev.buf.length < 32 →
    exec .keyLoadTimeout s =
      .next { s with sc := { s.sc with ldg := false, words := [] },
                     ev := { s.ev with buf := s.ev.buf ++ [s.eventOf 0x0F05 (s.sc.ldSlot.toNat + 2 * 256)] } })

/-- R428, R431, R251: a read of the first word of the totals and of an event entry takes their snapshot, and the pointer moves on with AINC. -/
def Obligations.LedgerSnapshots : Prop :=
  (∀ s : State, s.busOn = true → s.lg.ptr = 0xF600 →
    ∃ t, exec .lgTotalsSnapshot s = .next t ∧ State.sameBut [.lg, .hb] s t ∧
      t.lg = { s.lg with snapTotals := some s.totalsLive, ptr := if s.lg.ainc then 0xF601 else 0xF600 } ∧
      t.hb = { s.hb with adout := loByte (s.readReg 0x60), rlatch := some (0x60, hiByte (s.readReg 0x60)) }) ∧
  (∀ s : State, s.busOn = true → fld s.ev.ptr 0 3 = 0 → bitAt s.ev.ptr 15 = false →
    ∃ t, exec .evEntrySnapshot s = .next t ∧ State.sameBut [.ev, .hb] s t ∧
      t.ev = { s.ev with snap := some (s.evEntry, s.evLive) } ∧
      t.hb = { s.hb with adout := loByte (s.readReg 0x66), rlatch := some (0x66, hiByte (s.readReg 0x66)) })

/-! ## The Antiphon pair (10, R252 to R282) -/

/-- R254 to R256: CER with the unlock, the seal open and STATE 0 begins a ceremony; HELLO goes to PADDR while it lasts; a HELLO for any
serial from PADDR is answered by CONFIRM; with both confirmations the pairing is put in line for its audit row; the time-out ends the
ceremony with event 0x0802, cause 1; UNPAIR puts the end of the pairing in line. -/
def Obligations.Ceremony : Prop :=
  (∀ (s : State) (hi lo : Byte), s.Inv → s.busOn = true → s.hb.wlatch = some (0x52, lo) → s.sc.armHost = .armed → s.running = true →
    s.aon.sealOpen = true → s.hb.nvr = true → s.hb.rows.length < 2 → s.lg.acount < 2048 → s.fram.anState = 0 →
    (wordOf hi lo).extractLsb' 1 6 = (s.nvReg 0x52).extractLsb' 1 6 → bitAt (wordOf hi lo) 7 = true → bitAt (wordOf hi lo) 9 = false →
    bitAt (wordOf hi lo) 10 = false → (bitAt (wordOf hi lo) 8 = false ∨ s.lg.lbad = true) →
    ∃ t, exec (.ceremonyArm hi) s = .next t ∧ State.sameBut [.fram, .an, .sc, .dl, .hb] s t ∧ t.fram = { s.fram with anState := 1 } ∧
      t.dl = (s.dropAntiphon pairKinds).dl ∧
      t.an = { s.an with
        rst := bitAt (wordOf hi lo) 8, before := 0, peer := 0, hasPeer := false, sentConfirm := false, gotConfirm := none, peerIntent := 0,
        wantRestore := bitAt (wordOf hi lo) 8, restoreWait := none, awaiting := false } ∧
      t.sc = { s.sc with armHost := .idle } ∧ s.wordStored t (Config.key 0 0x52) (merge 1 (s.nvReg 0x52) (wordOf hi lo))) ∧
  (∀ s : State, s.running = true → s.fram.anState = 1 → s.fram.aseq ≠ 0xFFFFFFFF#32 →
    exec .helloSend s =
      .next { s with
        dn := { s.dn with seq := s.dn.seq + 1#16 },
        dl := { s.dl with queue := s.dl.queue ++
          (s.portsFor s.paddr).map (s.queued (s.ownFrame s.paddr 0x08 0 (s.anHello 0x03 0))) } }) ∧
  (∀ (s u : State) (f : RxFrame), s.hearsAntiphon f 0x08 0x03 → u = s.heard f → u.fram.anState = 1 →
    anSender f.frame.payload ≠ u.fram.serial → f.frame.src = u.paddr → u.anTagOk f.frame.payload 0 = true → u.fram.aseq ≠ 0xFFFFFFFF#32 →
    (u.an.gotConfirm = some (anSender f.frame.payload) → u.lg.acount < 2048 ∧ u.pairQueued = false) →
    exec (.hello f) s =
      .next { u with
        an := { u.an with peer := anSender f.frame.payload, hasPeer := true, peerIntent := payAt f.frame.payload 2, peerSeq := f.frame.seq,
                          sentConfirm := true },
        dn := { u.dn with seq := u.dn.seq + 1#16 },
        dl := { u.dl with queue := u.dl.queue ++
          (u.portsFor u.paddr).map (u.queued (u.ownFrame u.paddr 0x08 0 (u.anHello 0x04 (anSender f.frame.payload)))) },
        lg := { u.lg with queue := u.lg.queue ++ (if u.an.gotConfirm = some (anSender f.frame.payload) then
          [.paired (anSender f.frame.payload) (payAt f.frame.payload 2 == 1)] else []) } }) ∧
  (∀ (s u : State) (f : RxFrame), s.hearsAntiphon f 0x08 0x04 → u = s.heard f → u.fram.anState = 1 → f.frame.src = u.paddr →
    u.anTagOk f.frame.payload u.fram.serial = true → beAt f.frame.payload 0x0C 8 = u.fram.serial.toNat → u.an.hasPeer = true →
    u.an.sentConfirm = true → u.an.peer = anSender f.frame.payload → u.lg.acount < 2048 → u.pairQueued = false →
    exec (.confirm f) s =
      .next { u with
        an := { u.an with gotConfirm := some (anSender f.frame.payload), peerIntent := payAt f.frame.payload 2, peerSeq := f.frame.seq },
        lg := { u.lg with queue := u.lg.queue ++ [.paired (anSender f.frame.payload) (payAt f.frame.payload 2 == 1)] } }) ∧
  (∀ s : State, s.coreOn = true → s.fram.anState = 1 → s.ev.buf.length < 32 →
    exec .ceremonyTimeout s =
      .next { s with
        fram := { s.fram with anState := s.an.before },
        an := { s.an with hasPeer := false, sentConfirm := false, gotConfirm := none, wantRestore := false },
        ev := { s.ev with buf := s.ev.buf ++ [s.eventOf 0x0802 1] }, hb := { s.hb with irq := s.hb.irq ||| 0x0100#16 } }) ∧
  (∀ (s : State) (hi lo : Byte), s.Inv → s.busOn = true → s.hb.wlatch = some (0x52, lo) → s.sc.armHost = .armed → s.startUp = false →
    s.aon.sealOpen = true → s.hb.nvr = true → s.hb.rows.length < 2 → s.lg.acount < 2048 →
    (wordOf hi lo).extractLsb' 1 6 = (s.nvReg 0x52).extractLsb' 1 6 → bitAt (wordOf hi lo) 7 = false → bitAt (wordOf hi lo) 9 = false →
    bitAt (wordOf hi lo) 10 = true →
    ∃ t, exec (.unpair hi) s = .next t ∧ State.sameBut [.fram, .an, .sc, .dl, .lg, .hb] s t ∧
      (t.dl = s.dl ∨ t.dl = (s.dropAntiphon pairKinds).dl) ∧
      t.lg = { s.lg with queue := s.lg.queue ++ [.dissolve 1] } ∧ t.sc = { s.sc with armHost := .idle } ∧
      t.fram = { s.fram with anState := t.fram.anState } ∧ t.an = { s.an with rst := bitAt (wordOf hi lo) 8 } ∧
      s.wordStored t (Config.key 0 0x52) (merge 1 (s.nvReg 0x52) (wordOf hi lo)))

/-- R258 to R260, R265, R268, R269, R274: at an instant the caller queues a CALL and waits, the answerer only waits, and a retraction unsent by
then is logged; a message takes the next ASEQ when its frame begins; a fresh CALL is answered and mirrored, an ANSWER to the last CALL is
mirrored; a miss is counted and its unsent CALL dropped, and the LOSSNth in a row sets STATE 4 and STALE with event 0x0803. -/
def Obligations.Exchanges : Prop :=
  (∀ s : State, s.exchOk = true → s.caller = true → s.an.wdCount = 0 →
    (∀ q ∈ s.dl.queue, s.ownAntiphon q = true → payAt q.frame.payload 1 ≠ 0x07) →
    exec .exchangeInstant s =
      .next { s with
        an := { s.an with awaiting := true },
        dn := { s.dn with seq := s.dn.seq + 1#16 },
        dl := { s.dl with queue := s.dl.queue ++ (s.portsFor s.paddr).map (s.queued (s.ownFrame s.paddr 0x08 0
          (s.anMessage 0x01 s.fram.rxaseq s.fram.rxcseq s.ck.lsec))) } }) ∧
  (∀ s : State, s.exchOk = true → s.caller = false → s.an.wdCount = 0 →
    (∀ q ∈ s.dl.queue, s.ownAntiphon q = true → payAt q.frame.payload 1 ≠ 0x07) →
    exec .exchangeInstant s = .next { s with an := { s.an with awaiting := true } }) ∧
  (∀ s : State, s.exchOk = true → s.caller = false → s.an.wdCount ≠ 0 → s.ev.buf.length < 32 →
    (∀ q ∈ s.dl.queue, s.ownAntiphon q = true → payAt q.frame.payload 1 ≠ 0x07) →
    exec .exchangeInstant s =
      .next { s with
        an := { s.an with awaiting := true, wd := [0, 0, 0, 0], wdCount := 0 },
        ev := { s.ev with buf := s.ev.buf ++ [s.eventOf 0x080C s.an.wdCount] }, hb := { s.hb with irq := s.hb.irq ||| 0x0100#16 } }) ∧
  (∀ (s : State) (q : QFrame), s.unstamped q = true → s.fram.aseq ≠ 0xFFFFFFFF#32 →
    (s.anStamp q).fram.aseq = s.fram.aseq + 1#32 ∧ (s.anStamp q).dl.queue = s.dl.queue.replace q
      { q with frame := { q.frame with payload := s.anStamped q.frame.payload } }) ∧
  (∀ (s u : State) (f : RxFrame) (spacing : Nat), s.hearsAntiphon f 0x08 0x01 → u = s.heard f → u.partners f → u.exchOk = true →
    u.caller = false → u.fresh f.frame.payload → (200 ≤ spacing ∨ u.fram.rxaseq = 0) →
    ∃ t, exec (.call f spacing) s = .next t ∧ State.sameBut [.fram, .lg, .ev, .an, .dl, .dn, .pl, .irq] u t ∧
      t.holdsMessage f.frame.payload ∧ t.fram.aseq = u.fram.aseq ∧ t.an.awaiting = false ∧ t.dn.seq = u.dn.seq + 1#16) ∧
  (∀ (s u : State) (f : RxFrame) (spacing : Nat), s.hearsAntiphon f 0x08 0x01 → u = s.heard f → u.partners f → u.exchOk = true →
    u.caller = false → beAt f.frame.payload 0x0C 4 = u.fram.rxaseq.toNat → u.an.lastAnswer ≠ [] → u.an.resent = false →
    exec (.call f spacing) s =
      .next { u with
        an := { u.an with tagFails := 0, resent := true }, dn := { u.dn with seq := u.dn.seq + 1#16 },
        dl := { u.dl with queue := u.dl.queue ++
          (u.portsFor f.frame.src).map (u.queued (u.ownFrame f.frame.src 0x08 0 u.an.lastAnswer)) } }) ∧
  (∀ (s u : State) (f : RxFrame), s.hearsAntiphon f 0x08 0x02 → u = s.heard f → u.partners f → u.ck.ltv = true → u.caller = true →
    u.an.restoreWait = none → BitVec.ofNat 32 (beAt f.frame.payload 0x10 4) = u.an.lastCall → u.fresh f.frame.payload →
    ∃ t, exec (.answer f) s = .next t ∧ State.sameBut [.fram, .lg, .ev, .an, .irq] u t ∧
      t.holdsMessage f.frame.payload ∧ t.fram.aseq = u.fram.aseq ∧ t.an.awaiting = false) ∧
  (∀ s : State, s.exchOk = true → s.an.awaiting = true → s.an.missCnt.toNat < 0xFFFE →
    (s.fram.anState = 4 ∨ s.an.misses + 1 < s.lossn) →
    ∃ t, exec .exchangeMiss s = .next t ∧ State.sameBut [.an, .dl] s t ∧ t.dl = (s.dropAntiphon [0x01]).dl ∧
      t.an = { s.an with awaiting := false, missCnt := s.an.missCnt + 1, miss := true, misses := s.an.misses + 1 }) ∧
  (∀ s : State, s.exchOk = true → s.an.awaiting = true → s.an.missCnt.toNat < 0xFFFE → s.fram.anState = 3 → s.lossn ≤ s.an.misses + 1 →
    s.ev.buf.length < 32 →
    ∃ t, exec .exchangeMiss s = .next t ∧ State.sameBut [.fram, .an, .dl, .ev, .irq] s t ∧ t.fram.anState = 4 ∧ t.fram.stale = true ∧
      t.an = { s.an with awaiting := false, missCnt := s.an.missCnt + 1, miss := true, misses := s.an.misses + 1 } ∧
      t.ev = { s.ev with buf := s.ev.buf ++ [s.eventOf 0x0803 s.fram.rxaseq.toNat] } ∧ t.hb.irq = s.hb.irq ||| 0x0100#16)

/-- R261, R266, R272, R276 to R278: a new PERIOD is put in line for its audit row; DRST asks for a new divergence reference; a RESTORE to
a replacement with an empty or bad ledger is put in line; an acknowledgement that does not come ends the wait; CDIG is the digest of the
words it covers. -/
def Obligations.PairSettings : Prop :=
  (∀ (s : State) (hi lo : Byte), s.Inv → s.busOn = true → s.hb.wlatch = some (0x52, lo) → s.sc.armHost ≠ .armed → s.startUp = false →
    s.aon.sealOpen = true → s.hb.nvr = true → s.hb.rows.length < 2 → s.lg.acount < 2048 →
    (wordOf hi lo).extractLsb' 1 6 ≠ (s.nvReg 0x52).extractLsb' 1 6 →
    ∃ t, exec (.periodChange hi) s = .next t ∧ State.sameBut [.fram, .an, .dl, .lg, .hb] s t ∧
      (t.dl = s.dl ∨ t.dl = (s.dropAntiphon pairKinds).dl) ∧
      t.lg = { s.lg with queue := s.lg.queue ++ [.period ((s.nvReg 0x52).extractLsb' 1 6) ((wordOf hi lo).extractLsb' 1 6)] } ∧
      t.fram = { s.fram with anState := t.fram.anState } ∧ t.an = { s.an with rst := bitAt (wordOf hi lo) 8 } ∧
      s.wordStored t (Config.key 0 0x52) (merge 1 (s.nvReg 0x52) (wordOf hi lo))) ∧
  (∀ (s : State) (hi lo : Byte), s.Inv → s.busOn = true → s.hb.wlatch = some (0x52, lo) → s.sc.armHost = .armed → s.startUp = false →
    s.aon.sealOpen = true → s.hb.nvr = true → s.hb.rows.length < 2 → s.lg.acount < 2048 →
    (wordOf hi lo).extractLsb' 1 6 = (s.nvReg 0x52).extractLsb' 1 6 → bitAt (wordOf hi lo) 7 = false → bitAt (wordOf hi lo) 9 = true →
    bitAt (wordOf hi lo) 10 = false → (s.fram.anState = 2 ∨ s.fram.anState = 3 ∨ s.fram.anState = 4) →
    ∃ t, exec (.divergenceReset hi) s = .next t ∧ State.sameBut [.fram, .an, .sc, .dl, .lg, .hb] s t ∧
      (t.dl = s.dl ∨ t.dl = (s.dropAntiphon pairKinds).dl) ∧
      t.fram = { s.fram with anState := t.fram.anState, drefPend := some 2 } ∧ t.an = { s.an with rst := bitAt (wordOf hi lo) 8 } ∧
      t.sc = { s.sc with armHost := .idle } ∧ t.lg = { s.lg with queue := t.lg.queue } ∧ (s.fram.rxaseq = 0 → t.lg = s.lg) ∧
      s.wordStored t (Config.key 0 0x52) (merge 1 (s.nvReg 0x52) (wordOf hi lo))) ∧
  (∀ s : State, s.coreOn = true → s.lg.cdigDirty = true →
    exec .cdigRecompute s = .next { s with lg := { s.lg with cdig := s.cdigNow, cdigDirty := false } }) ∧
  (∀ (s u : State) (f : RxFrame), s.hearsAntiphon f 0x08 0x06 → u = s.heard f → u.anTagOk f.frame.payload u.fram.serial = true →
    u.an.wantRestore = true → u.fram.anState ≠ 0 → u.fram.anState ≠ 1 → (u.lg.lbad = true ∨ u.lg.totalsDone.any (fun x => x != 0) = false) →
    u.aon.sealOpen = true → u.lg.acount < 2048 →
    exec (.restore f) s =
      .next { u with
        an := { u.an with wantRestore := false },
        lg := { u.lg with queue := u.lg.queue ++ [.restored (BitVec.ofNat 32 (beAt f.frame.payload 0x18 4)) (anSender f.frame.payload)
          (messageTotals f.frame.payload) (BitVec.ofNat 32 (beAt f.frame.payload 0x0C 4))] } }) ∧
  (∀ (s : State) (a c : Word32), s.coreOn = true → s.an.restoreWait = some (a, c) → s.an.vioCnt.toNat < 0xFFFE → s.ev.buf.length < 32 →
    s.hb.secCodes.contains 0x081B = false →
    ∃ t, exec .restoreAckTimeout s = .next t ∧ State.sameBut [.an, .ev, .hb] s t ∧
      t.an = { s.an with restoreWait := none, vioCnt := s.an.vioCnt + 1, vio := t.an.vio, vioAt := t.an.vioAt } ∧
      t.hb = { s.hb with secCodes := 0x081B :: s.hb.secCodes } ∧ t.ev = { s.ev with buf := s.ev.buf ++ [s.eventOf 0x081B c.toNat] })

/-- R269 to R271, R411: withdrawn figures go to the partner in one RETRACT, which takes them off its pending figures; a NOTICE goes out
when one is due and is dropped when STATE has left 3; a received NOTICE is mirrored and sets PNOT and SY_IRQ[8]. -/
def Obligations.RetractionsAndNotices : Prop :=
  (∀ s : State, s.exchOk = true → s.fram.anState = 3 → s.an.wdCount ≠ 0 → s.spaced s.an.retractAt 100 = true →
    ∃ t, exec .retractSend s = .next t ∧ State.sameBut [.an, .dl, .dn] s t ∧
      t.an = { s.an with wd := [0, 0, 0, 0], wdCount := 0, retractAt := some s.pw.ticks } ∧
      t.dl = { s.dl with queue := s.dl.queue ++ (s.portsFor s.paddr).map (s.queued (s.ownFrame s.paddr 0x09 0 (
        [0x01, 0x07] ++ bytesBE 2 (min 65535 s.an.wdCount) ++ bytesBE 8 s.fram.serial.toNat ++ bytesBE 4 0 ++ bytesBE 6 s.orr.tcnt.toNat ++
          [0, 0] ++ floatsBE s.an.wd ++ List.replicate 8 0))) }) ∧
  (∀ (s u : State) (f : RxFrame), s.hearsAntiphon f 0x09 0x07 → u = s.heard f → u.partners f → beAt f.frame.payload 2 2 ≠ 0 →
    u.fram.rxaseq.toNat < beAt f.frame.payload 0x0C 4 →
    exec (.retract f) s =
      .next { u with an := { u.an with
        tagFails := 0, pret := true,
        ppend := (List.range 4).map (fun i => F32.sub (u.an.ppend.getD i 0) (BitVec.ofNat 32 (beAt f.frame.payload (0x18 + 4 * i) 4))) } }) ∧
  (∀ s : State, s.an.noticeDue = true → s.spaced s.an.noticeAt 1000 = true → s.exchOk = true → s.fram.anState = 3 →
    exec .noticeSend s =
      .next { s with
        an := { s.an with noticeDue := false, noticeAt := some s.pw.ticks },
        dn := { s.dn with seq := s.dn.seq + 1#16 },
        dl := { s.dl with queue := s.dl.queue ++ (s.portsFor s.paddr).map (s.queued (s.ownFrame s.paddr 0x08 0
          (s.anMessage 0x05 s.fram.rxaseq s.fram.rxcseq s.ck.lsec))) } }) ∧
  (∀ s : State, s.an.noticeDue = true → s.spaced s.an.noticeAt 1000 = true → s.fram.anState ≠ 3 →
    exec .noticeSend s = .next { s with an := { s.an with noticeDue := false } }) ∧
  (∀ (s u : State) (f : RxFrame), s.hearsAntiphon f 0x08 0x05 → u = s.heard f → u.partners f → u.ck.ltv = true → u.fresh f.frame.payload →
    ∃ t, exec (.notice f) s = .next t ∧ State.sameBut [.fram, .ev, .an, .irq] u t ∧
      t.holdsMessage f.frame.payload ∧ t.an.pnot = true ∧ t.hb.irq.getLsbD 8 = true ∧ t.fram.aseq = u.fram.aseq)

/-! ## The loop interface (11, R283 to R310) -/

/-- R188, R290, R294, R296, R297, R299, R309: a loop fault puts DA_LOOP to zero scale, gives loop A to the fallback and is retried; the
fallback timer's run is logged, and an alarm level it ends too; LOWV follows the terminal voltage; the repeater falls to ALO without a channel 9 result; M4 and M20 are held and audited at their second word. Event data
are packed as log entry 12 says. -/
def Obligations.LoopA : Prop :=
  (∀ s : State, s.running = true → s.loopARole = true → bitAt (s.nvReg 0x38) 6 = true → s.lp.driving = true → s.readbackBad = true →
    s.lp.lfCnt.toNat < 0xFFFE → s.ev.buf.length < 30 →
    ∃ t, exec .readbackCheck s = .next t ∧ State.sameBut [.ad, .ev, .lp, .irq] s t ∧
      t.ad = { s.ad with daLoop := 0 } ∧ t.hb.irq = s.hb.irq ||| 0x0200#16 ∧
      t.lp = { s.lp with lflt := true, amode := 0, driving := false, faulted := true, filt := none, satIn := 0, lfCnt := s.lp.lfCnt + 1,
                         rbSum := 0, rbN := 0, rbCmd := 0, rbTicks := 0 } ∧
      t.ev = { s.ev with buf := s.ev.buf ++ (if isAlarmMode s.lp.amode then [s.eventOf 0x0901 s.lp.amode.toNat] else []) ++
        [s.eventOf 0x0506 (5 * 256), s.eventOf 0x0903 ((s.lp.rbSum / ((s.lp.rbN * 1000 : Nat) : Int)).toNat % 65536 + s.lp.rbCmd / (s.lp.rbTicks * 1000) * 65536)] }) ∧
  (∀ s : State, s.running = true → s.loopARole = true →
    (bitAt (s.nvReg 0x38) 6 = false ∨ s.lp.driving = false ∨ s.readbackBad = false) →
    exec .readbackCheck s = .next { s with lp := { s.lp with rbSum := 0, rbN := 0, rbCmd := 0, rbTicks := 0 } }) ∧
  (∀ s : State, s.running = true → s.lp.faulted = true → s.loopARole = true → s.asrc = 1 → s.lp.alarm = 0 → s.lp.traw = false →
    ∃ t, exec .loopFaultRetry s = .next t ∧ State.sameBut [.ad, .ev, .lp, .irq] s t ∧ t.lp.faulted = false ∧ t.lp.driving = true ∧
      t.lp.target = s.lp.hostTarget ∧ t.lp.amode = 1 ∧ t.ad = { s.ad with daLoop := s.trimCode s.lp.hostTarget }) ∧
  (∀ (s : State) (ms : Nat), s.running = true → s.loopARole = true → s.ev.buf.length < 31 →
    ∃ t, exec (.fallbackTimeout ms) s = .next t ∧ State.sameBut [.ev, .lp, .irq] s t ∧
      t.lp = { s.lp with timerOut := true, driving := false, amode := 0, satIn := 0 } ∧
      t.ev = { s.ev with buf := s.ev.buf ++ (if isAlarmMode s.lp.amode then [s.eventOf 0x0901 s.lp.amode.toNat] else []) ++
        [s.eventOf 0x0905 ms] } ∧
      t.hb.irq = (if isAlarmMode s.lp.amode then s.hb.irq ||| 0x0200#16 else s.hb.irq)) ∧
  (∀ (s : State) (v : Nat), s.running = true → s.loopARole = true → s.lp.lowv = false → v < 950 → s.ev.buf.length < 32 →
    exec (.lowv v) s =
      .next { s with lp := { s.lp with lowv := true }, ev := { s.ev with buf := s.ev.buf ++ [s.eventOf 0x0906 (v * 65536)] },
                     hb := { s.hb with irq := s.hb.irq ||| 0x0200#16 } }) ∧
  (∀ (s : State) (v : Nat), s.running = true → s.loopARole = true → s.lp.lowv = true → 970 ≤ v →
    exec (.lowv v) s = .next { s with lp := { s.lp with lowv := false } }) ∧
  (∀ s : State, s.running = true → s.pins.role = .TM → s.asrc = 2 →
    exec .repeaterTimeout s = .next { s with lp := { s.lp with repTarget := s.alo } }) ∧
  (∀ (s : State) (hi lo : Byte), s.busOn = true → s.hb.wlatch = some (0x60, lo) → s.sc.armHost ≠ .armed → s.hb.nvr = true →
    s.startUp = false → s.aon.sealOpen = true → s.lg.acount < 2048 → s.lg.ptr = 0xF8C7 → s.lg.ainc = false →
    3900000 ≤ (dword (s.heldWord (Config.key 3 0xF8C6)) (wordOf hi lo)).toNat →
    (dword (s.heldWord (Config.key 3 0xF8C6)) (wordOf hi lo)).toNat ≤ 4100000 →
    (s.nv (Config.key 3 0xF8C6) ≠ s.heldWord (Config.key 3 0xF8C6) ∨ s.nv (Config.key 3 0xF8C7) ≠ wordOf hi lo) →
    ∃ t, exec (.trimWrite hi) s = .next t ∧ State.sameBut [.lg, .hb] s t ∧
      t.lg = { s.lg with queue := s.lg.queue ++ [.trim (Config.key 3 0xF8C6) (s.heldWord (Config.key 3 0xF8C6)) (wordOf hi lo)] } ∧
      t.hb = { (s.unhold (Config.key 3 0xF8C6) 1).hb with wlatch := none }) ∧
  (∀ (s : State) (hi lo : Byte), s.busOn = true → s.hb.wlatch = some (0x60, lo) → s.sc.armHost ≠ .armed → s.hb.nvr = true →
    s.startUp = false → s.aon.sealOpen = true → s.lg.ptr = 0xF8C7 → s.lg.ainc = false → s.ev.buf.length < 32 →
    ((dword (s.heldWord (Config.key 3 0xF8C6)) (wordOf hi lo)).toNat < 3900000 ∨
      4100000 < (dword (s.heldWord (Config.key 3 0xF8C6)) (wordOf hi lo)).toNat) →
    ∃ t, exec (.trimWrite hi) s = .next t ∧ State.sameBut [.ev, .hb] s t ∧
      t.ev = { s.ev with buf := s.ev.buf ++ [s.eventOf 0x0904 0] } ∧
      t.hb = { (s.unhold (Config.key 3 0xF8C6) 1).hb with wlatch := none })

/-- R301 to R304, R307, R308, R312: loop B's current and state from the mean of an interval, its limit, the fall of the adaptive target, the
release of a fold, the die warning with its fold, and the modem's change of loop. Event data are packed as log entry 12 says. -/
def Obligations.LoopB : Prop :=
  (∀ s : State, s.coreOn = true → s.loopBOn = true → s.lp.bN = 0 →
    exec .loopBDecode s = .next { s with lp := { s.lp with bAbsent := true, bSum := 0, bOvr := false } }) ∧
  (∀ s : State, s.coreOn = true → s.loopBOn = true → s.lp.bN ≠ 0 →
    ∃ t, exec .loopBDecode s = .next t ∧ State.sameBut [.ev, .lp, .irq] s t ∧ t.lp.ib = (s.lp.bSum / (s.lp.bN : Int)).toNat ∧
      t.lp.bAbsent = false ∧ t.lp.bSum = 0 ∧ t.lp.bN = 0 ∧ t.lp.remb = rembOf (s.lp.bSum / (s.lp.bN : Int)).toNat s.lp.bOvr ∧
      t.lp.lbcl = s.lp.lbcl ∧ t.lp.fold = s.lp.fold) ∧
  (∀ (s : State) (acts : Bool), s.coreOn = true → s.loopBOn = true →
    exec (.loopBLimit acts) s = .next { s with lp := { s.lp with lbcl := acts } }) ∧
  (∀ s : State, s.coreOn = true → 1000 ≤ s.lp.fallRun → s.lp.lbcl = false →
    exec .adaptiveTargetFall s =
      .next { s with reg := { s.reg with loopTarget := s.lp.vreqMax }, lp := { s.lp with fallRun := 0, vreqMax := 0 } }) ∧
  (∀ s : State, s.coreOn = true → s.lp.fold = true → s.lp.dwarn = false → 10000 ≤ s.lp.coolRun → s.ev.buf.length < 32 →
    exec .foldRelease s =
      .next { s with lp := { s.lp with fold := false, lbth := false },
                     ev := { s.ev with buf := s.ev.buf ++ [s.eventOf 0x0908 (dteOf s.lp.dT * 65536)] } }) ∧
  (∀ (s : State) (die : Int), s.coreOn = true → s.lp.dwarn = false → 1250 ≤ die → s.ev.buf.length < 31 →
    exec (.dieWarning die) s =
      .next { s with
        lp := { s.lp with dwarn := true, fold := s.lp.fold || s.loopBOn },
        ev := { s.ev with buf := s.ev.buf ++ [s.eventOf 0x0909 (BitVec.ofInt 16 die).toNat] ++
          (if s.loopBOn && !s.lp.fold then [s.eventOf 0x0908 (1 + dteOf s.lp.dT * 65536)] else []) },
        hb := { s.hb with irq := s.hb.irq ||| 0x4000#16 } }) ∧
  (∀ (s : State) (die : Int), s.coreOn = true → s.lp.dwarn = true → die ≤ 1200 →
    exec (.dieWarning die) s = .next { s with lp := { s.lp with dwarn := false } }) ∧
  (∀ s : State, s.running = true → s.pins.role = .TM → s.lsel ≠ s.tn.loopB → s.tnIdle = true → s.ev.buf.length < 32 →
    exec .loopSwitch s =
      .next { s with tn := { s.tn with loopB := s.lsel, txf := [], watch := [] },
                     ev := { s.ev with buf := s.ev.buf ++ [s.eventOf 0x0A06 (b2n s.lsel + s.tn.txf.length * 256)] },
                     hb := { s.hb with irq := s.hb.irq ||| 0x0400#16 } })

/-! ## The loop tone modem (12, R311 to R333) -/

/-- R314, R319, R322, R324 to R327, R331, R332: a device answers IDENTIFY, READ and WRITE once each, with the data the spec gives, and a repeat with the
stored reply; a command from 0x80 on goes to the host, whose reply it sends; 0x03 to 0x7F are answered by NACK; what is sent
becomes a wave of the NCO, from the phase the NCO holds; pass-through moves characters of 11 bits. Event data are packed as log entry 12 says. -/
def Obligations.ToneDevice : Prop :=
  (∀ (s : State) (f : CFrame), s.tnHears f → s.tnNew f → f.cmd = 0x00 → f.data = [] →
    exec (.identify f) s =
      .next { s.tnTaken f with tn := { (s.tnTaken f).tn with
        reply := some (cantusReply f 0x00 s.identity), stored := some (f.seq, cantusCrc f, cantusReply f 0x00 s.identity, s.pw.ticks) } }) ∧
  (∀ (s : State) (f : CFrame) (r : CFrame) (since : Nat), s.tnHears f → s.tn.stored = some (f.seq, cantusCrc f, r, since) →
    s.within since 2000 = true → f.cmd = 0x00 → s.tn.vioCnt.toNat < 0xFFFE →
    exec (.identify f) s =
      .next { s.tnTaken f with tn := { (s.tnTaken f).tn with vioCnt := s.tn.vioCnt + 1, reply := some r } }) ∧
  (∀ (s u : State) (f : CFrame) (a c : Byte) (n step : Nat), s.tnHears f → s.tnNew f → u = s.tnTaken f → f.cmd = 0x01 → f.data = [a, c] →
    n = c.toNat % 128 → step = (if c.getLsbD 7 then 0 else 2) → a.toNat % 2 = 0 → a.toNat ≤ 0x7E → a.toNat + step * n ≤ 0x80 →
    ∃ v : Nat → State, v 0 = u ∧ (∀ i, i < n → v (i + 1) = (v i).readEffect (a.toNat + step * i)) ∧
      exec (.cantusRead f) s =
        .next ((v n).tnReply f ((List.range n).map (fun i => bytesBE 2 ((v i).readReg (a.toNat + step * i)).toNat)).flatten)) ∧
  (∀ (s u : State) (f : CFrame), s.tnHears f → s.tnNew f → u = s.tnTaken f → f.cmd = 0x02 → triplesFit f.data = true → u.hb.rlock = true →
    f.data ≠ [] → s.ev.buf.length < 32 →
    exec (.cantusWrite f) s =
      .next { u with
        tn := { u.tn with reply := some (cantusReply f 0x02 [BitVec.ofNat 8 (triples f.data).length]),
                          stored := some (f.seq, cantusCrc f, cantusReply f 0x02 [BitVec.ofNat 8 (triples f.data).length], s.pw.ticks) },
        ev := { u.ev with buf := u.ev.buf ++ [s.eventOf 0x0E05 ((triples f.data).length * 256)] } }) ∧
  (∀ (s u : State) (f : CFrame) (ts : List (Nat × Word)), s.tnHears f → s.tnNew f → u = s.tnTaken f → f.cmd = 0x02 →
    f.data = (ts.map (fun t => [BitVec.ofNat 8 t.1, hiByte t.2, loByte t.2])).flatten → (∀ t ∈ ts, t.1 % 2 = 0 ∧ t.1 ≤ 0x7E) →
    u.hb.rlock = false →
    ∃ v : Nat → State, v 0 = { u with sc := { u.sc with armCantus := .idle } } ∧
      (∀ i, i < ts.length → v (i + 1) = (v i).writeWord .cantus (ts.getD i (0, 0)).1 (ts.getD i (0, 0)).2 true) ∧
      exec (.cantusWrite f) s =
        .next (State.tnReply { v ts.length with sc := { (v ts.length).sc with armCantus := .idle } } f
          [BitVec.ofNat 8 ((List.range ts.length).filter (fun i => (v i).refusedBy .cantus (ts.getD i (0, 0)))).length])) ∧
  (∀ (s u : State) (f : CFrame), s.tnHears f → s.tnNew f → u = s.tnTaken f → 0x80 ≤ f.cmd.toNat → s.hostCmd = true → s.tnFits f = true →
    exec (.cantusHostCommand f) s =
      .next { u with tn := { u.tn with rxf := u.tn.rxf ++ cantusWords f, hostSeq := some (f.seq, cantusCrc f) },
                     hb := { u.hb with irq := u.hb.irq ||| 0x0400#16 } }) ∧
  (∀ (s : State) (f : CFrame), s.tnHears f → 3 ≤ f.cmd.toNat → f.cmd.toNat < 0x80 → s.tn.vioCnt.toNat < 0xFFFE → s.ev.buf.length < 32 →
    s.hb.secCodes.contains 0x0A13 = false →
    exec (.cantusUnknownCommand f) s =
      .next { (s.tnTaken f).toneViolated 0x0A13 f.cmd.toNat with tn := { ((s.tnTaken f).toneViolated 0x0A13 f.cmd.toNat).tn with
        reply := some (cantusReply f 0x7F [f.cmd, 0x01]) } }) ∧
  (∀ (s : State) (r : CFrame) (w : Wave), s.tnOn = true → s.tnDevice = true → s.tn.reply = some r →
    w = { fast := s.tnFast, syms := waveSyms s.tnFast (s.wireBytes r), cyc := 0 } →
    exec .cantusReplySend s =
      .next { s with tn := { s.tn with reply := none, stopAfter := false, sent := s.wireBytes r, tx := some w },
                     ad := s.ad.tune (w.fwAt 0) }) ∧
  (∀ (s : State) (seq crc : Word) (w : Wave), s.tnOn = true → s.tnDevice = true → s.tn.pt = false → s.tnReady = true →
    s.tn.hostSeq = some (seq, crc) → w = { fast := s.tnFast, syms := waveSyms s.tnFast (s.wireBytes (s.tnFrame seq)), cyc := 0 } →
    exec .hostReplySend s =
      .next { s with
        tn := { s.tn with hostSeq := none, stored := some (seq, crc, s.tnFrame seq, s.pw.ticks), sent := s.wireBytes (s.tnFrame seq),
                          txf := s.tn.txf.drop (s.tnLen + 3), tx := some w },
        ad := s.ad.tune (w.fwAt 0) }) ∧
  (∀ s : State, s.tnOn = true → s.tn.pt = true → s.tn.txf ≠ [] → s.tn.tx = none →
    exec .passthroughTx s =
      .next { s with
        tn := { s.tn with sent := s.tn.txf, txf := [],
                          tx := some { fast := false, syms := waveSyms false s.tn.txf ++ List.replicate 11 1, cyc := 0 } },
        ad := { s.ad with fw := 0x075555, ncoFw := 0x075555, ncoRamp := false, ncoZero := false } }) ∧
  (∀ (s : State) (w : Wave), s.tnOn = true → s.tn.pt = true → s.tn.txf ≠ [] → s.tn.tx = some w →
    exec .passthroughTx s =
      .next { s with
        tn := { s.tn with sent := s.tn.txf, txf := [],
                          tx := some { w with syms := w.unsent ++ waveSyms false s.tn.txf ++ List.replicate 11 1 } } }) ∧
  (∀ (s : State) (c : BitVec 11) (bad : Bool), s.tnOn = true → s.tn.pt = true → s.tn.rxf.length < 528 →
    (bad = true ↔ c.getLsbD 0 = true ∨ c.getLsbD 10 = false ∨
      ((List.range 9).filter (fun i => c.getLsbD (i + 1))).length % 2 = 0) →
    exec (.passthroughRx c) s =
      .next { s with tn := { s.tn with rxf := s.tn.rxf ++ [BitVec.ofNat 16 ((c.extractLsb' 1 8).toNat + b2n bad * 256)] } }) ∧
  (∀ s : State, s.busOn = true → s.toneRun = true →
    exec .tnFifoRead s =
      .next { s with tn := { s.tn with rxf := s.tn.rxf.drop 1 },
                     hb := { s.hb with adout := loByte (s.readReg 0x44), rlatch := some (0x44, hiByte (s.readReg 0x44)) } })

/-- R328 to R330, R332: the master sends the host's request with a new SEQ, takes the matching reply, resends after a time-out and gives up
after RETRY; a jam is counted and logged once; a watch round begins with IDENTIFY for its first address; a frame with a bad CRC and an
aborted one are counted as violations. Event data are packed as log entry 12 says. -/
def Obligations.ToneMaster : Prop :=
  (∀ (s : State) (w : Wave), s.tnOn = true → s.tnDevice = false → s.tn.pt = false → s.tnReady = true → s.tn.req = none →
    w = { fast := s.tnFast, syms := waveSyms s.tnFast (s.wireBytes (s.tnFrame (s.tn.txseq + 1#16))), cyc := 0 } →
    exec .masterRequestSend s =
      .next { s with
        tn := { s.tn with
          txf := s.tn.txf.drop (s.tnLen + 3), txseq := s.tn.txseq + 1#16, req := some (s.tnFrame (s.tn.txseq + 1#16)),
          sent := s.wireBytes (s.tnFrame (s.tn.txseq + 1#16)), tx := some w, attempts := 1, reqWatch := false, cd := false,
          jamEpisode := false },
        ad := s.ad.tune (w.fwAt 0) }) ∧
  (∀ (s : State) (f r : CFrame), s.tnOn = true → s.tn.pt = false → f.addr.getLsbD 7 = true → s.tnDevice = false → s.tn.req = some r →
    r.seq = f.seq → f.addr.extractLsb' 0 4 = r.addr.extractLsb' 0 4 → s.tn.rxCnt.toNat < 0xFFFE → s.tnFits f = true →
    s.tn.reqWatch = false → s.tn.watch = [] →
    exec (.masterReply f) s =
      .next { s.tnTaken f with
        tn := { (s.tnTaken f).tn with req := none, rxf := s.tn.rxf ++ cantusWords f }, hb := { s.hb with irq := s.hb.irq ||| 0x0400#16 } }) ∧
  (∀ (s : State) (r : CFrame) (w : Wave), s.tnOn = true → s.tnDevice = false → s.tn.req = some r → s.tn.attempts ≤ s.tnRetry →
    w = { fast := s.tnFast, syms := waveSyms s.tnFast (s.wireBytes r), cyc := 0 } →
    exec .replyTimeout s =
      .next { s with tn := { s.tn with attempts := s.tn.attempts + 1, sent := s.wireBytes r, tx := some w },
                     ad := s.ad.tune (w.fwAt 0) }) ∧
  (∀ (s : State) (r : CFrame), s.tnOn = true → s.tnDevice = false → s.tn.req = some r → s.tnRetry < s.tn.attempts →
    s.tn.toCnt.toNat < 0xFFFE → s.tn.reqWatch = false → s.tn.watch = [] → s.ev.buf.length < 32 →
    exec .replyTimeout s =
      .next { s with
        tn := { s.tn with req := none, tout := true, toCnt := s.tn.toCnt + 1 },
        ev := { s.ev with buf := s.ev.buf ++ [s.eventOf 0x0A05 (presentBit r + s.tn.attempts * 256)] },
        hb := { s.hb with irq := s.hb.irq ||| 0x0400#16 } }) ∧
  (∀ s : State, s.tnOn = true → s.tnDevice = false → s.tn.pt = false → s.tnReady = true → s.tn.req = none → s.tn.vioCnt.toNat < 0xFFFE →
    s.tn.jamEpisode = false → s.ev.buf.length < 32 →
    exec .lineJam s =
      .next { s with
        tn := { s.tn with jam := true, cd := true, jamEpisode := true, vioCnt := s.tn.vioCnt + 1 },
        ev := { s.ev with buf := s.ev.buf ++ [s.eventOf 0x0A18 0] }, hb := { s.hb with irq := s.hb.irq ||| 0x0400#16 } }) ∧
  (∀ (s : State) (a : Nat) (rest : List Nat) (f : CFrame), s.tnOn = true → s.tnDevice = false → s.tn.pt = false → s.plint ≠ 0 →
    s.plmap = a :: rest → s.tnReady = false → s.tn.req = none →
    f = { addr := BitVec.ofNat 8 a, cmd := 0x00, seq := s.tn.txseq + 1#16, data := [], rssi := 0, soft := [] } →
    ∃ t, exec .watchPoll s = .next t ∧ State.sameBut [.ad, .tn] s t ∧ t.tn.watch = rest ∧ t.tn.reqWatch = true ∧ t.tn.req = some f ∧
      t.tn.sent = s.wireBytes f ∧ t.tn.tx = some { fast := s.tnFast, syms := waveSyms s.tnFast (s.wireBytes f), cyc := 0 }) ∧
  (∀ s : State, s.tnOn = true → s.tn.pt = false → s.tn.crcCnt.toNat < 0xFFFE → s.tn.vioCnt.toNat < 0xFFFE → s.ev.buf.length < 32 →
    s.hb.secCodes.contains 0x0A10 = false →
    exec .cantusCrcFailure s =
      .next (State.toneViolated { s with tn := { s.tn with crcCnt := s.tn.crcCnt + 1 } } 0x0A10 (1 + (s.tn.crcCnt + 1#16).toNat * 65536))) ∧
  (∀ (s : State) (n : Nat), s.tnOn = true → s.tn.pt = false → s.tn.vioCnt.toNat < 0xFFFE → s.ev.buf.length < 32 →
    s.hb.secCodes.contains 0x0A11 = false →
    exec (.cantusReceiveAbort .carrier n) s = .next (State.toneViolated { s with tn := { s.tn with cd := false } } 0x0A11 n)) ∧
  (∀ (s : State) (n : Nat), s.tnOn = true → s.tn.pt = false → s.tnFast = false → s.tn.vioCnt.toNat < 0xFFFE → s.ev.buf.length < 32 →
    s.hb.secCodes.contains 0x0A12 = false →
    exec (.cantusReceiveAbort .parity n) s = .next (s.toneViolated 0x0A12 n))

/-! ## The line (13, R334 to R366) -/

/-- R91, R265, R337, R339, R342, R346, R353, R354, R372, R380: lock and its loss; what a received frame leaves behind; the frame that takes
the line, with the carriers, loading, mask and FIR of its start, a TIME its stamp, a message of the pair its ASEQ and TAG; the relay of a
head or bridge; a mask word, which drops the port's tables when it changes the notches and is refused below 50 carriers. Event data are
packed as log entry 12 says. -/
def Obligations.LineFrames : Prop :=
  (∀ (s : State) (steer : Int), s.isHead = false → s.coreOn = true → s.lineOn = true → s.ck.linelk = false → s.ev.buf.length < 32 →
    exec (.lineLock steer) s =
      .next { s with
        ck := { s.ck with linelk := true, steerGoal := clampInt (-20000) 20000 steer },
        ev := { s.ev with buf := s.ev.buf ++ [s.eventOf 0x0B01 (1 + (BitVec.ofInt 16 (clampInt (-20000) 20000 steer)).toNat * 65536)] },
        hb := { s.hb with irq := s.hb.irq ||| 0x0800#16 } }) ∧
  (∀ s : State, s.isHead = false → s.coreOn = true → s.ck.linelk = true → (s.live s.fram.upPort).lockLost.toNat < 0xFFFE →
    s.ev.buf.length < 32 →
    ∃ t, exec .lineLockLost s = .next t ∧ State.sameBut [.ck, .dl, .ev, .irq] s t ∧ t.ck = { s.ck with linelk := false } ∧
      t.live s.fram.upPort = { s.live s.fram.upPort with lockLost := (s.live s.fram.upPort).lockLost + 1 } ∧
      t.live (otherPort s.fram.upPort) = s.live (otherPort s.fram.upPort) ∧
      t.ev = { s.ev with buf := s.ev.buf ++ [s.eventOf 0x0B01 ((BitVec.ofInt 16 s.ck.steer).toNat * 65536)] } ∧
      t.hb.irq = s.hb.irq ||| 0x0800#16) ∧
  (∀ (s : State) (f : RxFrame), f.load = false → (s.live f.port).frCnt.toNat < 0xFFFE → s.isBridge = false →
    State.sameBut [.dl] s (s.heard f) ∧ (s.heard f).idxOf f.port f.frame.src = some f.txidx ∧
    (s.heard f).live f.port = { s.live f.port with s1sec := f.sec, s1cyc := f.cyc, frCnt := (s.live f.port).frCnt + 1 } ∧
    (s.heard f).dl.queue = s.dl.queue ∧ (s.heard f).dl.squeue = s.dl.squeue) ∧
  (∀ (s : State) (p : Port) (q : QFrame), s.mayDmt p = true → s.nextFrame p = some q → q.frame.type ≠ 0x0B → s.unstamped q = false →
    exec (.dmtFrameStart p) s =
      .next { s with
        dl := { (s.lineClear p).dl with
          queue := s.dl.queue.erase q, onLine := some (q, s.symbolsOf q * 720, (s.loadFor q).isSome, (s.loadFor q).getD 0),
          shape := s.shapeOf p (q.peer.getD 0) (if (s.loadFor q).isSome then q.peer.map (fun i => i.toNat) else none) },
        pw := { s.pw with txSymbols := if q.prot then s.pw.txSymbols else s.pw.txSymbols + s.symbolsOf q } }) ∧
  (∀ (s : State) (p : Port) (q : QFrame), s.mayDmt p = true → s.nextFrame p = some q → q.frame.type = 0x0B →
    q.frame.flags.getLsbD 4 = false →
    ∃ t, exec (.dmtFrameStart p) s = .next t ∧ State.sameBut [.dl, .dn, .pw] s t ∧ t.dl.queue = s.dl.queue.erase q ∧
      t.dl.onLine.map (fun x => x.1.frame) = some { q.frame with payload := timeBytes s.ck.lsec s.ck.lcyc } ∧
      t.dn = { s.dn with timeT1 := some (s.ck.lsec, s.ck.lcyc) }) ∧
  (∀ (s : State) (p : Port) (q : QFrame), s.mayDmt p = true → s.nextFrame p = some q → s.unstamped q = true →
    s.fram.aseq.toNat < 0xFFFFFFFE →
    ∃ t, exec (.dmtFrameStart p) s = .next t ∧ State.sameBut [.fram, .an, .dl, .pw] s t ∧ t.fram.aseq = s.fram.aseq + 1#32 ∧
      t.dl.onLine.map (fun x => x.1.frame) = some { q.frame with payload := s.anStamped q.frame.payload }) ∧
  (∀ (s u : State) (f : RxFrame), s.listens f.port → s.running = true → f.load = false →
    u = (s.learnIdx f.port f.frame.src f.txidx).heardFrom f.port f.frame.src → u.relays f = true →
    (f.frame.type ≠ 0x05 ∨ f.frame.flags.getLsbD 4 = false) →
    exec (.frameRelay f) s =
      .next { u with dl := { u.dl with queue := u.dl.queue ++
        [u.queued { f.frame with flags := f.frame.flags ||| 0x02#5 } (otherPort f.port)] } }) ∧
  (∀ (s u : State) (f : RxFrame), s.listens f.port → s.running = true → f.load = false →
    u = (s.learnIdx f.port f.frame.src f.txidx).heardFrom f.port f.frame.src → u.relays f = true → f.frame.type = 0x05 →
    f.frame.flags.getLsbD 4 = true →
    ∃ t, exec (.frameRelay f) s = .next t ∧ State.sameBut [.dl, .dn] u t ∧
      t.dl.queue = u.dl.queue ++ [u.queued { f.frame with flags := f.frame.flags ||| 0x02#5 } (otherPort f.port)] ∧
      (u.isBridge = true → f.port = u.fram.upPort → t.dn.down.contains (BitVec.ofNat 12 (beAt f.frame.payload 8 2)) = true)) ∧
  (∀ (s : State) (hi lo : Byte) (a : Nat), s.Inv → s.busOn = true → s.hb.wlatch = some (0x50, lo) → s.sc.armHost ≠ .armed → s.hb.nvr = true →
    s.hb.rows.length < 2 → s.dn.ptr = BitVec.ofNat 16 a → isMaskWord a = true →
    50 ≤ ((s.nvPut (Config.key 4 a) (wordOf hi lo &&& 0x1F1F#16)).usable (dsPortOf a)).length →
    ∃ t, exec (.maskWrite hi) s = .next t ∧ State.sameBut [.fram, .dl, .hb] s t ∧
      s.wordStored t (Config.key 4 a) (wordOf hi lo &&& 0x1F1F#16) ∧
      t.fram.gens = (if (s.nvPut (Config.key 4 a) (wordOf hi lo &&& 0x1F1F#16)).usable (dsPortOf a) = s.usable (dsPortOf a) then s.fram.gens
        else s.fram.gens.filter (fun g => g.1 != (dsPortOf a == .B)))) ∧
  (∀ (s : State) (hi lo : Byte) (a : Nat), s.busOn = true → s.hb.wlatch = some (0x50, lo) → s.sc.armHost ≠ .armed → s.hb.nvr = true →
    s.hb.rows.length < 2 → s.dn.ptr = BitVec.ofNat 16 a → isMaskWord a = true → s.ev.buf.length < 32 →
    ((s.nvPut (Config.key 4 a) (wordOf hi lo &&& 0x1F1F#16)).usable (dsPortOf a)).length < 50 →
    exec (.maskWrite hi) s =
      .next { s with
        hb := { s.hb with wlatch := none, irq := s.hb.irq ||| 0x0800#16 },
        ev := { s.ev with buf := s.ev.buf ++ [s.eventOf 0x0B07 (a + (wordOf hi lo &&& 0x1F1F#16).toNat * 65536)] } })

/-- R350 to R352: a node with a frame for a peer and no table sends TRAIN; the peer measures the symbols that follow and answers with TABLE,
which is stored and acknowledged, and is in use when the TABLE-ACK has ended; TABLE-ACK commits the pending table. TRAIN goes out three times before training fails; a retrain request
or trigger starts it again, a trigger at most once in 10 s. Event data are packed as log entry 12 says. -/
def Obligations.LineTraining : Prop :=
  (∀ (s : State) (p : Port) (peer : BitVec 6), s.mayTrain p peer = true → s.trainDue p peer = true →
    exec (.trainStart p peer) s =
      .next { s with dl := { s.dl with
        training := s.dl.training.filter (fun t => !(t.port == p && t.peer == peer)) ++ [{ port := p, peer := peer, sent := 1 }],
        squeue := s.dl.squeue ++
          [{ port := p, kind := 0x40, payload := [byteOfIdx peer, byteOfIdx (s.ownIdx p), BitVec.ofNat 8 (s.ntr p)] }] } }) ∧
  (∀ (s : State) (r : RxSearch), s.listens r.port → idxByte (payAt r.payload 0) = s.ownIdx r.port →
    exec (.train r) s =
      .next { s.latchRssi r with dl := { (s.latchRssi r).dl with
        rxTrain := some (r.port, idxByte (payAt r.payload 1), (payAt r.payload 2).toNat) } }) ∧
  (∀ (s : State) (p : Port) (snr : List Byte) (peer : BitVec 6) (n : Nat), s.rxOn p = true → s.dl.rxTrain = some (p, peer, n) →
    ∃ t gen bits, exec (.trainingSymbolsEnd p snr) s = .next t ∧ State.sameBut [.dl] s t ∧ t.dl.rxTrain = none ∧
      gen = (match s.genOf true p peer.toNat with | some g => (g + 1) % 16 | none => 1) ∧
      bits = (List.range 64).map (fun i =>
        if i % 16 = 8 || s.notched p (16 + i) then 0 else s.loadBits p ((spread 0#8 snr).getD i 0).toNat) ∧
      t.dl.rxPend = (p, peer, gen, bits) :: s.dl.rxPend.filter (fun r => !(r.1 == p && r.2.1 == peer)) ∧
      t.dl.squeue = s.dl.squeue ++ [{
        port := p, kind := 0x41,
        payload := [byteOfIdx peer, byteOfIdx (s.ownIdx p), BitVec.ofNat 8 gen, BitVec.ofNat 8 (s.margin p)] ++ tableBytes bits }]) ∧
  (∀ (s : State) (r : RxSearch) (peer : BitVec 6) (gen : Nat), s.Inv → s.listens r.port →
    idxByte (payAt r.payload 0) = s.ownIdx r.port → peer = idxByte (payAt r.payload 1) → gen = (payAt r.payload 2).toNat % 16 →
    s.dl.training.any (fun t => t.port == r.port && t.peer == peer) = true →
    ∃ t, exec (.table r) s = .next t ∧ State.sameBut [.nv, .fram, .dl, .hb] s t ∧ s.hostKept t ∧
      t.genOf false r.port peer.toNat = some gen ∧
      (∀ k, 16 ≤ k → k < 80 → t.tableBits false r.port peer.toNat k = (tableOfBytes (slice r.payload 4 32)).getD (k - 16) 0 ∧
        t.tableBits true r.port peer.toNat k = s.tableBits true r.port peer.toNat k) ∧
      (∀ k, (k < Config.key 4 (slotBase r.port peer.toNat) ∨ Config.key 4 (slotBase r.port peer.toNat + 31) < k) → t.nv k = s.nv k) ∧
      t.dl.training = s.dl.training.map (fun x => if x.port == r.port && x.peer == peer then { x with gen := some gen } else x) ∧
      t.dl.squeue = s.dl.squeue ++
        [{ port := r.port, kind := 0x42, payload := [byteOfIdx peer, byteOfIdx (s.ownIdx r.port), payAt r.payload 2] }]) ∧
  (∀ (s : State) (f : SFrame) (x : Training) (g : Nat), f.kind = 0x42 → s.dl.training = [x] → x.port = f.port →
    x.peer = idxByte (payAt f.payload 0) → x.gen = some g → s.ev.buf.length < 32 →
    ∃ t, s.searchSent f = t ∧ State.sameBut [.dl, .ev, .irq] s t ∧ t.dl.searchOn = none ∧ t.dl.training = [] ∧
      t.ev = { s.ev with buf := s.ev.buf ++
        [s.eventOf 0x0B03 (evData [(Port.code x.port, 0), (x.peer.toNat, 8), (s.tableB false x.port x.peer.toNat, 16), (g, 32)])] } ∧
      t.hb.irq = s.hb.irq ||| 0x0800#16) ∧
  (∀ (s : State) (r : RxSearch) (peer : BitVec 6) (gen : Nat) (bits : List Nat) (rest : List (Port × BitVec 6 × Nat × List Nat)),
    s.Inv → s.listens r.port → idxByte (payAt r.payload 0) = s.ownIdx r.port → peer = idxByte (payAt r.payload 1) →
    gen = (payAt r.payload 2).toNat % 16 → s.dl.rxPend = (r.port, peer, gen, bits) :: rest →
    ∃ t, exec (.tableAck r) s = .next t ∧ State.sameBut [.nv, .fram, .dl, .ev, .irq, .hb] s t ∧ s.hostKept t ∧
      t.genOf true r.port peer.toNat = some gen ∧
      (∀ k, 16 ≤ k → k < 80 → t.tableBits true r.port peer.toNat k = bits.getD (k - 16) 0 % 16 ∧
        t.tableBits false r.port peer.toNat k = s.tableBits false r.port peer.toNat k) ∧
      (∀ k, (k < Config.key 4 (slotBase r.port peer.toNat) ∨ Config.key 4 (slotBase r.port peer.toNat + 31) < k) → t.nv k = s.nv k) ∧
      t.dl.rxPend = rest.filter (fun x => !(x.1 == r.port && x.2.1 == peer)) ∧
      t.hb.irq = s.hb.irq ||| 0x0800#16) ∧
  (∀ (s : State) (t0 : Training) (rest : List Training), s.running = true → s.dl.training = t0 :: rest → t0.gen = none → t0.sent < 3 →
    ∃ t, exec .trainTimeout s = .next t ∧ State.sameBut [.dl] s t ∧
      t.dl.training = (t0 :: rest).filter (fun x => !(x.port == t0.port && x.peer == t0.peer)) ++ [{ t0 with sent := t0.sent + 1 }] ∧
      t.dl.squeue = s.dl.squeue ++
        [{ port := t0.port, kind := 0x40, payload := [byteOfIdx t0.peer, byteOfIdx (s.ownIdx t0.port), BitVec.ofNat 8 (s.ntr t0.port)] }]) ∧
  (∀ (s : State) (t0 : Training) (rest : List Training), s.running = true → s.dl.training = t0 :: rest → t0.gen = none → 3 ≤ t0.sent →
    s.ev.buf.length < 32 →
    exec .trainTimeout s =
      .next { s with
        dl := { s.dl with training := rest, failed := (t0.port, t0.peer) :: s.dl.failed },
        ev := { s.ev with buf := s.ev.buf ++ [s.eventOf 0x0B04 (Port.code t0.port + t0.peer.toNat * 256)] },
        hb := { s.hb with irq := s.hb.irq ||| 0x0800#16 } }) ∧
  (∀ (s : State) (p : Port) (peer : BitVec 6), s.dl.failed.contains (p, peer) = true → s.mayTrain p peer = true →
    exec (.trainRetry p peer) s =
      .next { s with dl := { s.dl with
        failed := s.dl.failed.erase (p, peer),
        training := s.dl.training.filter (fun t => !(t.port == p && t.peer == peer)) ++ [{ port := p, peer := peer, sent := 1 }],
        squeue := s.dl.squeue ++
          [{ port := p, kind := 0x40, payload := [byteOfIdx peer, byteOfIdx (s.ownIdx p), BitVec.ofNat 8 (s.ntr p)] }] } }) ∧
  (∀ (s : State) (r : RxSearch) (peer : BitVec 6), s.listens r.port → idxByte (payAt r.payload 0) = s.ownIdx r.port →
    peer = idxByte (payAt r.payload 1) → s.mayTrain r.port peer = true →
    ∃ t, exec (.retrain r) s = .next t ∧ State.sameBut [.dl] s t ∧ t.dl.rtrq = true ∧
      t.dl.squeue = s.dl.squeue ++
        [{ port := r.port, kind := 0x40, payload := [byteOfIdx peer, byteOfIdx (s.ownIdx r.port), BitVec.ofNat 8 (s.ntr r.port)] }]) ∧
  (∀ (s : State) (p : Port) (peer : BitVec 6) (cause : BitVec 3) (snr : List Byte), s.rxOn p = true → s.inSystem = true →
    s.retrainDue p peer cause.toNat snr = true →
    s.dl.retrainAt.any (fun r => r.1 == p && r.2.1 == peer && s.within r.2.2 10000) = false → (s.live p).rtCnt.toNat < 0xFFFE →
    s.ev.buf.length < 32 →
    ∃ t, exec (.retrainTrigger p peer cause snr) s = .next t ∧ State.sameBut [.dl, .ev, .irq] s t ∧ t.dl.rtrq = true ∧
      (cause = 1 → t.failsOf p peer = 0) ∧
      t.live p = { s.live p with rtCnt := (s.live p).rtCnt + 1 } ∧
      t.dl.squeue = s.dl.squeue ++
        [{ port := p, kind := 0x43, payload := [byteOfIdx peer, byteOfIdx (s.ownIdx p), BitVec.ofNat 8 cause.toNat] }] ∧
      t.ev = { s.ev with buf := s.ev.buf ++ [s.eventOf 0x0B02 (Port.code p + peer.toNat * 256 + cause.toNat * 65536)] } ∧
      t.hb.irq = s.hb.irq ||| 0x0800#16) ∧
  (∀ (s : State) (p : Port) (peer : BitVec 6) (cause : BitVec 3) (snr : List Byte), s.rxOn p = true → s.inSystem = true →
    s.retrainDue p peer cause.toNat snr = true →
    s.dl.retrainAt.any (fun r => r.1 == p && r.2.1 == peer && s.within r.2.2 10000) = true →
    ∃ t, exec (.retrainTrigger p peer cause snr) s = .next t ∧ State.sameBut [.dl] s t ∧
      t.dl.robust = (p, peer) :: s.dl.robust.erase (p, peer) ∧ t.dl.squeue = s.dl.squeue ∧ t.dl.retrainAt = s.dl.retrainAt) ∧
  (∀ (s : State) (hi lo : Byte) (i : BitVec 6), s.Inv → s.busOn = true → s.hb.wlatch = some (0x46, lo) → s.sc.armHost ≠ .armed →
    s.hb.nvr = true → s.hb.rows.length < 2 → s.running = true → bitAt (wordOf hi lo) 0 = true → bitAt (wordOf hi lo) 1 = true →
    bitAt (wordOf hi lo) 8 = false → bitAt (wordOf hi lo) 10 = false → s.peersOf .A = [i] → s.peersOf .B = [] →
    s.portUsed .A = true → s.dl.retrainAt = [] → s.dl.liveA.rtCnt.toNat < 0xFFFE → s.ev.buf.length < 32 →
    ∃ t, exec (.retrainAll hi) s = .next t ∧ State.sameBut [.dl, .ev, .irq, .hb] s t ∧
      s.wordStored t (Config.key 0 0x46) (merge 0x0201 (s.nvReg 0x46) (wordOf hi lo)) ∧ t.dl.rtrq = true ∧
      t.dl.squeue = s.dl.squeue ++ [{ port := .A, kind := 0x43, payload := [byteOfIdx i, byteOfIdx (t.ownIdx .A), 5] }] ∧
      t.ev = { s.ev with buf := s.ev.buf ++ [s.eventOf 0x0B02 (i.toNat * 256 + 5 * 65536)] })


/-! ## The network (14, R367 to R384) -/

/-- R374 to R379, R371, R400, R366: a READ or WRITE for this node is executed word by word and answered; a repeat brings the stored reply; a
WRITE under RLOCK changes nothing, one not permitted is refused; a REPORT goes whole to the receive FIFO or is refused; replies and NACKs
settle the host's requests; the host's frames go out; an unanswered request is resent up to NRETRY times; reserved types and dropped frames
are counted. Event data are packed as log entry 12 says. -/
def Obligations.NetworkRequests : Prop :=
  (∀ (s u : State) (f : RxFrame) (a h l : Byte) (n step : Nat), s.asksAnew f 0x01 → u = s.heard f → f.frame.payload = [a, h, l] →
    n = (h.toNat % 128) * 256 + l.toNat → step = (if h.getLsbD 7 then 0 else 2) → a.toNat % 2 = 0 → a.toNat ≤ 0x7E → n ≤ 511 →
    a.toNat + step * n ≤ 0x80 →
    ∃ v : Nat → State, v 0 = u ∧ (∀ i, i < n → v (i + 1) = (v i).readEffect (a.toNat + step * i)) ∧
      exec (.descantRead f) s =
        .next ((v n).answered f ((List.range n).map (fun i => bytesBE 2 ((v i).readReg (a.toNat + step * i)).toNat)).flatten)) ∧
  (∀ (s u : State) (f : RxFrame) (x : Stored) (rest : List Stored), s.hears f → u = s.heard f → f.frame.type = 0x01 →
    f.frame.flags.getLsbD 4 = false → f.frame.flags.getLsbD 3 = false → s.dn.stored = x :: rest → x.src = f.frame.src →
    x.seq = f.frame.seq → x.crc = crc32 f.frame.payload → x.reply.type = 0x01 → s.within x.at_ 2000 = true → s.dn.vioCnt.toNat < 0xFFFE →
    exec (.descantRead f) s =
      .next { u with dn := { u.dn with vioCnt := u.dn.vioCnt + 1 },
                     dl := { u.dl with queue := u.dl.queue ++ [u.queued x.reply f.port] } }) ∧
  (∀ (s u : State) (f : RxFrame) (ts : List (Nat × Word)), s.asksAnew f 0x02 → u = s.heard f →
    (f.frame.src = 0 ∨ bitAt (u.nvReg 0x46) 9 = true) → f.frame.payload = (ts.map (fun t => [BitVec.ofNat 8 t.1, hiByte t.2, loByte t.2])).flatten →
    (∀ t ∈ ts, t.1 % 2 = 0 ∧ t.1 ≤ 0x7E) → u.hb.rlock = false →
    ∃ v : Nat → State, v 0 = { u with sc := { u.sc with armDescant := .idle } } ∧
      (∀ i, i < ts.length → v (i + 1) = (v i).writeWord .descant (ts.getD i (0, 0)).1 (ts.getD i (0, 0)).2 true) ∧
      exec (.descantWrite f) s =
        .next (State.answered { v ts.length with sc := { (v ts.length).sc with armDescant := .idle } } f
          (bytesBE 2 ((List.range ts.length).filter (fun i => (v i).refusedBy .descant (ts.getD i (0, 0)))).length))) ∧
  (∀ (s u : State) (f : RxFrame), s.asksAnew f 0x02 → u = s.heard f → f.frame.src = 0 → triplesFit f.frame.payload = true →
    f.frame.payload ≠ [] → u.hb.rlock = true → u.ev.buf.length < 32 →
    exec (.descantWrite f) s =
      .next (State.answered { u with ev := { u.ev with buf := u.ev.buf ++
        [u.eventOf 0x0E05 (1 + (triples f.frame.payload).length * 256)] } } f (bytesBE 2 (triples f.frame.payload).length))) ∧
  (∀ (s u : State) (f : RxFrame), s.asksAnew f 0x02 → u = s.heard f → f.frame.src ≠ 0 → bitAt (u.nvReg 0x46) 9 = false → u.mayLog 0x0C14 →
    exec (.descantWrite f) s = .next ((u.networkViolated 0x0C14 f.frame.src.toNat).nacked f 0x05)) ∧
  (∀ (s u : State) (f : RxFrame), s.hears f → u = s.heard f → f.frame.type = 0x03 → u.dn.rxf.length + 8 + f.frame.payload.length ≤ 4120 →
    exec (.report f) s = .next { u with dn := { u.dn with rxf := u.dn.rxf ++ fifoWords (entryBytes f.frame) } }) ∧
  (∀ (s u : State) (f : RxFrame), s.hears f → u = s.heard f → f.frame.type = 0x03 → 4120 < u.dn.rxf.length + 8 + f.frame.payload.length →
    exec (.report f) s = .next (u.nacked f 0x04)) ∧
  (∀ (s u : State) (f : RxFrame) (r : Request) (rest : List Request), s.hears f → u = s.heard f →
    (f.frame.type = 0x01 ∨ f.frame.type = 0x02) → f.frame.flags.getLsbD 4 = true → u.awaits f r rest → r.host = true →
    u.dn.rxf.length + 8 + f.frame.payload.length ≤ 4120 →
    exec (.descantReply f) s =
      .next { u with dn := { u.dn with reqs := rest, rxf := u.dn.rxf ++ fifoWords (entryBytes f.frame) } }) ∧
  (∀ (s u : State) (f : RxFrame), s.hears f → u = s.heard f → (f.frame.type = 0x01 ∨ f.frame.type = 0x02) → f.frame.flags.getLsbD 4 = true →
    u.dn.reqs = [] → u.mayLog 0x0C18 →
    exec (.descantReply f) s = .next (u.networkViolated 0x0C18 (f.frame.src.toNat + f.frame.seq.toNat * 65536))) ∧
  (∀ (s u : State) (f : RxFrame) (r : Request) (rest : List Request) (ty h l code : Byte), s.hears f → u = s.heard f → f.frame.type = 0x0A →
    f.frame.payload = [ty, h, l, code] → ty ≠ 0x08 → ty ≠ 0x09 → u.dn.reqs = r :: rest → r.frame.type = ty →
    r.frame.seq.toNat = h.toNat * 256 + l.toNat → r.frame.dest = f.frame.src → r.host = true → u.dn.rxf.length + 12 ≤ 4120 →
    exec (.descantNack f) s =
      .next { u with dn := { u.dn with reqs := rest, rxf := u.dn.rxf ++ fifoWords (entryBytes f.frame) } }) ∧
  (∀ (s u : State) (f : RxFrame) (h l : Byte), s.hears f → u = s.heard f → f.frame.type = 0x0A → f.frame.payload = [0x08, h, l, 0x85] →
    exec (.descantNack f) s = .next { u with an := { u.an with restoreWait := none } }) ∧
  (∀ (s u : State) (f : RxFrame), s.hears f → u = s.heard f → (f.frame.type = 0x00 ∨ 0x0B < f.frame.type.toNat) → u.mayLog 0x0C10 →
    exec (.descantReservedType f) s =
      .next ((u.networkViolated 0x0C10 (f.frame.type.toNat + f.frame.src.toNat * 256)).nacked f 0x01)) ∧
  (∀ (s : State) (p : Port), s.coreOn = true → s.lineOn = true → (s.live p).hdrErr.toNat < 0xFFFE →
    ∃ t, exec (.descantFrameDropped (.header p)) s = .next t ∧ State.sameBut [.dl] s t ∧ t.dl.herr = true ∧
      t.dl.secHdr = s.dl.secHdr + 1 ∧ t.live p = { s.live p with hdrErr := (s.live p).hdrErr + 1 } ∧
      t.live (otherPort p) = s.live (otherPort p)) ∧
  (∀ (s : State) (p : Port) (peer : BitVec 6) (load : Bool), s.coreOn = true → s.lineOn = true →
    ∃ t, exec (.descantFrameDropped (.payload p peer load)) s = .next t ∧ State.sameBut [.dl] s t ∧ t.dl.secPay = s.dl.secPay + 1 ∧
      t.failsOf p peer = s.failsOf p peer + b2n load) ∧
  (∀ s : State, s.coreOn = true → s.lineOn = true →
    exec (.descantFrameDropped .search) s = .next { s with dl := { s.dl with secSearch := s.dl.secSearch + 1 } }) ∧
  (∀ (s : State) (kind : Byte), s.coreOn = true → s.lineOn = true → s.mayLog 0x0C1A →
    exec (.descantFrameDropped (.reservedKind kind)) s = .next (s.networkViolated 0x0C1A kind.toNat)) ∧
  (∀ (s : State) (dest : BitVec 12) (type flags : Byte) (payload rest : List Byte), s.runOrDrain = true → s.inSystem = true →
    s.dn.txf = hostFrame dest type flags payload ++ rest → payload.length ≤ 1024 → (type = 0x01 ∨ type = 0x02) → flags.getLsbD 3 = false →
    exec .hostFrameIssue s = .next (State.asked { s with dn := { s.dn with txf := rest } } dest type payload true)) ∧
  (∀ (s : State) (dest : BitVec 12) (flags : Byte) (payload rest : List Byte), s.runOrDrain = true → s.inSystem = true →
    s.dn.txf = hostFrame dest 0x03 flags payload ++ rest → payload.length ≤ 1024 → flags.getLsbD 3 = false →
    exec .hostFrameIssue s =
      .next { s with dn := { s.dn with txf := rest, seq := s.dn.seq + 1#16 },
                     dl := { s.dl with queue := s.dl.queue ++ (s.portsFor dest).map (s.queued (s.ownFrame dest 0x03 0 payload)) } }) ∧
  (∀ (s : State) (dest : BitVec 12) (type flags : Byte) (payload rest : List Byte), s.runOrDrain = true → s.ev.buf.length < 32 →
    s.dn.txf = hostFrame dest type flags payload ++ rest → payload.length ≤ 1024 → (type = 0x00 ∨ 0x08 ≤ type.toNat) →
    exec .hostFrameIssue s =
      .next { s with dn := { s.dn with txf := rest }, hb := { s.hb with irq := s.hb.irq ||| 0x1000#16 },
                     ev := { s.ev with buf := s.ev.buf ++ [s.eventOf 0x0C0C type.toNat] } }) ∧
  (∀ (s : State) (r : Request) (rest : List Request) (g : DFrame), s.coreOn = true → s.dn.reqs = r :: rest →
    (∀ x ∈ rest, x.frame.seq ≠ r.frame.seq) → r.tries < fld (s.dsw 0x2003) 0 3 →
    g = { r.frame with flags := r.frame.flags ||| 0x04#5,
                       payload := if r.frame.type = 0x0B then timeBytes s.ck.lsec s.ck.lcyc else r.frame.payload } →
    exec (.requestTimeout r.frame.seq) s =
      .next { s with dn := { s.dn with reqs := { r with frame := g, tries := r.tries + 1 } :: rest },
                     dl := { s.dl with queue := s.dl.queue ++ [s.queued g r.port] } }) ∧
  (∀ (s : State) (r : Request) (rest : List Request), s.coreOn = true → s.dn.reqs = r :: rest → fld (s.dsw 0x2003) 0 3 ≤ r.tries →
    r.host = true → s.dn.rtxCnt.toNat < 0xFFFE → s.dn.rxf.length + 12 ≤ 4120 →
    exec (.requestTimeout r.frame.seq) s =
      .next { s with dn := { s.dn with
        reqs := rest, rtxCnt := s.dn.rtxCnt + 1,
        rxf := s.dn.rxf ++ fifoWords (entryBytes { dest := s.ownAddr, src := r.frame.dest, type := 0x0A, seq := r.frame.seq, flags := 0,
                                                   payload := [r.frame.type] ++ bytesBE 2 r.frame.seq.toNat ++ [0x08] }) } })

/-- R380 to R385: a joined node asks its agent for time with T1; the agent answers with T1, T2, T3; the node takes θ and D from the four
times and steps its line time at the next second; without lock for the time-out, by LEAVE, or where the agent no longer knows it, it leaves;
an epoch begins with a SEARCH to all and the first query on every enabled port. Event data are packed as log entry 12 says. -/
def Obligations.LineTimeAndMembership : Prop :=
  (∀ s : State, s.running = true → s.isHead = false → s.fram.joined = true → s.ck.linelk = true →
    exec .timeInterval s = .next (s.asked s.fram.upaddr 0x0B (timeBytes s.ck.lsec s.ck.lcyc) false)) ∧
  (∀ (s u : State) (f : RxFrame), s.asksAnew f 0x0B → u = s.heard f → f.frame.payload.length = 8 →
    exec (.time f) s = .next (
      if u.agentOn f.port = false then u
      else if u.segOf f.port f.frame.src = none then u.nacked f 0x0A
      else if u.ck.ltv = false then u.nacked f 0x09
      else u.answered f (f.frame.payload ++ timeBytes f.sec f.cyc.toNat ++ timeBytes u.ck.lsec u.ck.lcyc))) ∧
  (∀ (s u : State) (f : RxFrame) (r : Request) (rest : List Request) (T : Nat → Int) (θ d : Int), s.hears f → u = s.heard f →
    f.frame.type = 0x0B → f.frame.flags.getLsbD 4 = true → u.awaits f r rest → f.frame.payload.length = 24 →
    T = (fun i => lineCount (BitVec.ofNat 32 (beAt f.frame.payload (8 * i) 4)) (beAt f.frame.payload (8 * i + 4) 4)) →
    θ = ((T 1 - T 0) + (T 2 - lineCount f.sec f.cyc.toNat)) / 2 → d = ((lineCount f.sec f.cyc.toNat - T 0) - (T 2 - T 1)) / 2 →
    0 ≤ d → d ≤ 60 → u.ck.ltv = true →
    exec (.timeReply f) s =
      .next { u with
        dn := { u.dn with reqs := rest, timeT1 := none, offs := BitVec.ofInt 16 (clampInt (-32768) 32767 θ), dly := BitVec.ofInt 16 d },
        ck := { u.ck with lpend := if 2 < θ.natAbs then θ else u.ck.lpend } }) ∧
  (∀ (s u : State) (f : RxFrame) (r : Request) (rest : List Request) (T : Nat → Int) (d : Int), s.hears f → u = s.heard f →
    f.frame.type = 0x0B → f.frame.flags.getLsbD 4 = true → u.awaits f r rest → f.frame.payload.length = 24 →
    T = (fun i => lineCount (BitVec.ofNat 32 (beAt f.frame.payload (8 * i) 4)) (beAt f.frame.payload (8 * i + 4) 4)) →
    d = ((lineCount f.sec f.cyc.toNat - T 0) - (T 2 - T 1)) / 2 → (d < 0 ∨ 60 < d) → u.mayLog 0x0C1B →
    exec (.timeReply f) s =
      .next (State.networkViolated { u with dn := { u.dn with reqs := rest, timeT1 := none } } 0x0C1B (BitVec.ofInt 48 d).toNat)) ∧
  (∀ (s : State) (n : Nat), s.coreOn = true → s.lineOn = true → s.ck.ltv = true → s.ck.lpend ≠ 0 → s.ev.buf.length < 32 →
    n = ((lineCount s.ck.lsec s.ck.lcyc + s.ck.lpend) % ((2 ^ 32 * 400000 : Nat) : Int)).toNat →
    ∃ t, exec .lineTimeStep s = .next t ∧ State.sameBut [.ck, .ev, .irq] s t ∧
      t.ck = { s.ck with lpend := 0, lsec := BitVec.ofNat 32 (n / 400000), lcyc := n % 400000 } ∧
      t.ev = (if 400 < s.ck.lpend.natAbs then
        { s.ev with buf := s.ev.buf ++ [s.eventOf 0x0C08 (BitVec.ofInt 48 s.ck.lpend).toNat] } else s.ev)) ∧
  (∀ s : State, s.running = true → s.ck.linelk = false → s.isHead = false → s.fram.joined = true →
    s.ev.buf.length + s.dn.pend.length < 32 → exec .leaveLockTimeout s = .next s.left) ∧
  (∀ (s u : State) (f : RxFrame) (r : Request) (rest : List Request) (h l : Byte), s.hears f → u = s.heard f → f.frame.type = 0x0A →
    f.frame.payload = [0x0B, h, l, 0x0A] → u.dn.reqs = r :: rest → r.frame.type = 0x0B → r.frame.seq.toNat = h.toNat * 256 + l.toNat →
    r.frame.dest = f.frame.src → r.host = false → u.isHead = false → u.fram.joined = true →
    ∃ t, exec (.descantNack f) s = .next t ∧ State.sameBut [.fram, .ck, .dl, .dn, .ev, .irq] u t ∧ t.fram.joined = false ∧ t.fram.addr = 0 ∧
      t.ck.ltv = false ∧ t.dl.queue = [] ∧ t.dn.reqs = []) ∧
  (∀ (s : State) (hi lo : Byte), s.Inv → s.busOn = true → s.hb.wlatch = some (0x46, lo) → s.sc.armHost ≠ .armed → s.hb.nvr = true →
    s.hb.rows.length < 2 → bitAt (wordOf hi lo) 0 = true → bitAt (wordOf hi lo) 1 = false → bitAt (wordOf hi lo) 8 = false →
    bitAt (wordOf hi lo) 10 = true → s.runOrDrain = true → s.isHead = false → s.fram.joined = true →
    s.ev.buf.length + s.dn.pend.length < 32 →
    ∃ t, exec (.leave hi) s = .next t ∧ State.sameBut [.fram, .ck, .dl, .dn, .ev, .irq, .hb] s t ∧
      s.wordStored t (Config.key 0 0x46) (merge 0x0201 (s.nvReg 0x46) (wordOf hi lo)) ∧ t.fram.joined = false ∧ t.fram.addr = 0 ∧
      t.ck = s.left.ck ∧ t.dl.queue = [] ∧ t.dn = s.left.dn ∧ t.hb.irq = s.left.hb.irq ∧ t.ev = s.left.ev) ∧
  (∀ (s : State) (hi lo : Byte), s.Inv → s.busOn = true → s.hb.wlatch = some (0x46, lo) → s.sc.armHost ≠ .armed → s.hb.nvr = true →
    s.hb.rows.length < 2 → bitAt (wordOf hi lo) 0 = true → s.runOrDrain = false →
    ∃ t, exec (.leave hi) s = .next t ∧ State.sameBut [.dl, .hb] s t ∧
      s.wordStored t (Config.key 0 0x46) (merge 0x0201 (s.nvReg 0x46) (wordOf hi lo)) ∧
      t.dl = { s.dl with txoff := bitAt (wordOf hi lo) 2, heldCtl := s.dl.heldCtl ||| (wordOf hi lo &&& 0x0502#16) }) ∧
  (∀ s : State, s.epochDue = true →
    ∃ t, exec .epochStart s = .next t ∧ State.sameBut [.dl, .dn] s t ∧ t.dn.epochNo = s.dn.epochNo + 1 ∧ t.dn.epr = true ∧
      t.dn.await = (s.nodesIn (fun st => st == 2)).map (fun a => (a, 0)) ∧
      t.dl.queue = s.dl.queue ++ ([Port.A, Port.B].filter s.portOn).map
        (s.queued (s.ownFrame 0 0x04 0x08 (bytesBE 2 (s.dn.epochNo + 1).toNat))) ∧
      ∀ p, s.portOn p = true → ∃ g, t.segOn p = some g ∧ g.epoch = s.dn.epochNo + 1 ∧ g.roll = s.segIdxs p ∧ g.done = false ∧
        g.query = (match s.segIdxs p with
          | i :: _ => (s.segEntry p i).map (fun e => (true, 64, e.1.setWidth 64))
          | [] => some (false, 0, 0))) ∧
  (∀ (s : State) (hi lo : Byte), s.Inv → s.busOn = true → s.hb.wlatch = some (0x46, lo) → s.sc.armHost ≠ .armed → s.hb.nvr = true →
    s.hb.rows.length < 2 → bitAt (wordOf hi lo) 0 = true → bitAt (wordOf hi lo) 1 = false → bitAt (wordOf hi lo) 8 = true →
    bitAt (wordOf hi lo) 10 = false → s.running = true → s.isHead = true → s.dn.epr = false →
    ∃ t, exec (.epochWrite hi) s = .next t ∧ State.sameBut [.dl, .dn, .hb] s t ∧
      s.wordStored t (Config.key 0 0x46) (merge 0x0201 (s.nvReg 0x46) (wordOf hi lo)) ∧ t.dn.epochNo = s.dn.epochNo + 1 ∧ t.dn.epr = true)

/-! ## Searches, joining and sweeps (14, R385 to R399, R484) -/

/-- R385, R389 to R392, R400: SEARCH starts an agent's search, whose first query opens at once, or asks for its result; BEACONs go out and
are followed; a QUERY is answered while VRES allows; a window's end moves the search on; answers in a window are noted; discovery is cut
short; a bridge that is silent is asked again, then departed; the epoch ends with its departures. Event data are packed as log entry 12
says. -/
def Obligations.SegmentSearch : Prop :=
  (∀ (s u : State) (f : RxFrame) (e : Word) (p : Port), s.hears f → u = s.heard f → f.frame.type = 0x04 → f.frame.flags.getLsbD 4 = false →
    s.noRepeat f → f.frame.src = 0 → f.frame.payload = bytesBE 2 e.toNat → u.isBridge = true → p = otherPort u.fram.upPort →
    (∀ g, u.segOn p = some g → g.epoch ≠ e) →
    ∃ t g, exec (.search f) s = .next t ∧ State.sameBut [.dl, .dn] u t ∧ t.searching p g ∧ g.epoch = e ∧ g.seq = f.frame.seq ∧
      g.roll = u.segIdxs p ∧ g.query = (match u.segIdxs p with
        | i :: _ => (u.segEntry p i).map (fun e => (true, 64, e.1.setWidth 64))
        | [] => some (false, 0, 0))) ∧
  (∀ (s u : State) (f : RxFrame) (g : Segment), s.asksAnew f 0x04 → u = s.heard f → f.frame.src = 0 →
    f.frame.payload = bytesBE 2 g.epoch.toNat → u.isBridge = true → u.segOn (otherPort u.fram.upPort) = some g → g.done = true →
    exec (.search f) s =
      .next (u.answered f (bytesBE 2 g.epoch.toNat ++ [BitVec.ofNat 8 (u.segIdxs g.port).length, BitVec.ofNat 8 g.joined] ++
        (g.departed.map (fun a => bytesBE 2 a.toNat)).flatten))) ∧
  (∀ (s : State) (p : Port) (g : Segment), s.running = true → s.agentOn p = true → s.searching p g → s.isHead = false →
    exec (.beaconSend p) s =
      .next (s.withSearch p 0x00 (bytesBE 2 g.epoch.toNat ++ bytesBE 6 s.dn.sysid.toNat ++ bytesBE 2 s.fram.addr.toNat ++
        [BitVec.ofNat 8 (s.fram.hops.toNat + 1), 1]))) ∧
  (∀ (s u : State) (r : RxSearch) (e : Word) (sys : Word48) (agent : BitVec 12) (hops : Byte), s.listens r.port → u = s.latchRssi r →
    r.payload = bytesBE 2 e.toNat ++ bytesBE 6 sys.toNat ++ bytesBE 2 agent.toNat ++ [hops, 0] → s.isHead = false → s.agentOn r.port = false →
    (s.fram.joined = true ∧ r.port = s.fram.upPort ∨ s.fram.joined = false ∧ (s.dn.hearing = none ∨ s.dn.hearing = some r.port)) →
    exec (.beacon r) s =
      .next { u with dn := { u.dn with hearing := some r.port, sysid := sys, agent := agent, segHops := hops, phase0 := some e, defer := false } }) ∧
  (∀ (s u : State) (r : RxSearch) (e : Word) (sys : Word48) (agent : BitVec 12) (hops : Byte), s.listens r.port → u = s.latchRssi r →
    r.payload = bytesBE 2 e.toNat ++ bytesBE 6 sys.toNat ++ bytesBE 2 agent.toNat ++ [hops, 1] → s.isHead = false → s.agentOn r.port = false →
    s.fram.joined = false → (s.dn.hearing = none ∨ s.dn.hearing = some r.port) → s.dn.phase0 ≠ some e → s.dn.defer = false →
    s.ev.buf.length < 32 →
    exec (.beacon r) s =
      .next { u with
        dn := { u.dn with hearing := some r.port, sysid := sys, agent := agent, segHops := hops, defer := true },
        ev := { u.ev with buf := u.ev.buf ++ [s.eventOf 0x0C05 e.toNat] }, hb := { u.hb with irq := u.hb.irq ||| 0x1000#16 } }) ∧
  (∀ (s u : State) (r : RxSearch) (e : Word) (sys : Word48) (agent : BitVec 12) (hops phase : Byte) (late : Bool), s.listens r.port →
    u = s.latchRssi r →
    r.payload = bytesBE 2 e.toNat ++ bytesBE 6 sys.toNat ++ bytesBE 2 agent.toNat ++ [hops, phase] → s.isHead = true →
    sys ≠ s.fram.serial.setWidth 48 → late = (phase == 1 && !s.fram.joined && s.dn.phase0 != some e && !s.dn.defer) →
    s.ev.buf.length + s.dn.pend.length < 31 →
    exec (.beacon r) s =
      .next { u with
        dn := { u.dn with
          otherHead := some r.port, hearing := some r.port, epr := false, segs := [], await := [], reqs := [], copies := [], pend := [],
          sysid := sys, agent := agent, segHops := hops, phase0 := if phase = 0 then some e else s.dn.phase0,
          defer := (s.dn.defer && phase != 0) || late },
        dl := { u.dl with queue := [], squeue := [] }, ck := { u.ck with ltv := false, lpend := 0 },
        ev := { u.ev with buf := u.ev.buf ++ (s.dn.pend.map (fun a => s.eventOf 0x0C0A (a.number.toNat + 3 * 2 ^ 32)) ++
          s.eventOf 0x0C07 sys.toNat :: if late then [s.eventOf 0x0C05 e.toNat] else []) },
        hb := { u.hb with irq := u.hb.irq ||| 0x1000#16 } }) ∧
  (∀ (s u : State) (r : RxSearch) (e : Word) (mode : Bool) (l vres : Nat) (x : Word64), s.listens r.port → u = s.latchRssi r →
    r.payload = bytesBE 2 e.toNat ++ [BitVec.ofNat 8 (b2n mode * 128 + l)] ++ bytesBE 8 x.toNat → l ≤ 64 → s.isHead = false →
    s.agentOn r.port = false → s.portUsed r.port = true →
    (mode = true ∧ s.fram.joined = true ∨ s.fram.joined = false ∧ s.dn.phase0 = some e ∧ s.dn.refused ≠ some e) →
    (∀ i, i < l → x.getLsbD (63 - i) = s.fram.serial.getLsbD (63 - i)) →
    exec (.query r vres) s = .next (
      if vres < 1200 then u
      else u.withSearch r.port 0x02 (bytesBE 8 s.fram.serial.toNat ++
        [BitVec.ofNat 8 (Role.code s.pins.role), BitVec.ofNat 8 (b2n (s.lineRole && s.pben) + 2 * b2n s.fram.joined)]))) ∧
  (∀ (s : State) (r : RxSearch) (e : Word) (rest : List Byte) (vres : Nat), s.listens r.port → r.payload = bytesBE 2 e.toNat ++ rest →
    s.fram.joined = false → s.dn.refused = some e → exec (.query r vres) s = .next (s.latchRssi r)) ∧
  (∀ (s : State) (p : Port) (g : Segment) (carrier : Bool) (l : Nat) (x : Word64), s.running = true → s.searching p g →
    g.query = some (false, l, x) → l < 64 → g.roll = [] → g.cut = false → (carrier = true ∨ 2 ≤ g.answers.length) →
    exec (.queryWindowEnd p carrier) s =
      .next (s.asksQuery { g with stack := (l + 1, x ||| (1#64 <<< (63 - l))) :: g.stack } false (l + 1) (x &&& ~~~(1#64 <<< (63 - l))))) ∧
  (∀ (s : State) (p : Port) (g : Segment) (l l' : Nat) (x x' : Word64) (rest : List (Nat × Word64)), s.running = true → s.searching p g →
    g.query = some (false, l, x) → g.roll = [] → g.cut = false → g.answers = [] → g.stack = (l', x') :: rest →
    exec (.queryWindowEnd p false) s = .next (s.asksQuery { g with stack := rest } false l' x')) ∧
  (∀ (s : State) (p : Port) (g : Segment) (l : Nat) (x : Word64) (a : List Byte), s.running = true → s.searching p g →
    g.query = some (false, l, x) → g.answers = [a] → s.isHead = false →
    exec (.queryWindowEnd p false) s =
      .next (State.asked (s.withSegment { g with stack := (l, x) :: g.stack, query := none,
                                                  joining := some (BitVec.ofNat 64 (beAt a 0 8), (payAt a 9).getLsbD 0) })
        0 0x05 (bytesBE 8 (BitVec.ofNat 64 (beAt a 0 8)).toNat ++
          [BitVec.ofNat 8 (s.fram.hops.toNat + 1), BitVec.ofNat 8 ((s.segIdxs p).length + 2)]) false)) ∧
  (∀ (s : State) (p : Port) (g : Segment) (i l l' : Nat) (x x' : Word64) (rest : List (Nat × Word64)) (e : Word48 × BitVec 12 × Bool),
    s.Inv → s.running = true → s.searching p g → g.query = some (true, l, x) → g.answers = [] → g.roll = [i] → g.tries = 3 → g.cut = false →
    g.stack = (l', x') :: rest → s.segEntry p i = some e →
    ∃ t g', exec (.queryWindowEnd p false) s = .next t ∧ State.sameBut [.nv, .dl, .dn, .hb] s t ∧ s.hostKept t ∧ t.segEntry p i = none ∧
      t.searching p g' ∧
      g'.departed = g.departed ++ [e.2.1] ∧ g'.query = some (false, l', x') ∧
      ∀ k, (k < Config.key 4 (segBase p + 8 * (i - 1)) ∨ Config.key 4 (segBase p + 8 * (i - 1) + 7) < k) → t.nv k = s.nv k) ∧
  (∀ (s u : State) (r : RxSearch) (g : Segment), s.listens r.port → u = s.latchRssi r → s.segOn r.port = some g → g.query.isSome = true →
    r.payload.length = 10 → exec (.searchAnswer r) s = .next (u.withSegment { g with answers := g.answers ++ [r.payload] })) ∧
  (∀ (s u : State) (r : RxSearch), s.listens r.port → u = s.latchRssi r → s.segOn r.port = none → u.mayLog 0x0C1A →
    exec (.searchAnswer r) s = .next (u.networkViolated 0x0C1A 2)) ∧
  (∀ (s : State) (p : Port) (g : Segment), s.running = true → s.searching p g → g.roll = [] → g.joining = none → s.isHead = false →
    ∃ t g', exec (.discoveryTimeout p) s = .next t ∧ State.sameBut [.dl, .dn] s t ∧ t.segOn p = some g' ∧ g'.done = true ∧ g'.cut = true ∧
      g'.departed = g.departed ∧ g'.joined = g.joined ∧
      t.dl.squeue = s.dl.squeue ++ [{
        port := p, kind := 0x00,
        payload := bytesBE 2 g.epoch.toNat ++ bytesBE 6 s.dn.sysid.toNat ++ bytesBE 2 s.fram.addr.toNat ++ [BitVec.ofNat 8 (s.fram.hops.toNat + 1), 2] }] ∧
      t.dl.queue = s.dl.queue ++ (s.portsFor 0).map (s.queued {
        dest := 0, src := s.fram.addr, type := 0x04, seq := g.seq, flags := 0x10,
        payload := bytesBE 2 g.epoch.toNat ++ [BitVec.ofNat 8 (s.segIdxs p).length, BitVec.ofNat 8 g.joined] ++
          (g.departed.map (fun a => bytesBE 2 a.toNat)).flatten })) ∧
  (∀ (s : State) (b : BitVec 12) (n : Nat), s.running = true → s.isHead = true → s.dn.epr = true → s.dn.await.lookup b = some n → n < 3 →
    exec (.searchReplyTimeout b) s =
      .next { s with
        dn := { s.dn with await := s.dn.await.map (fun x => if x.1 = b then (b, n + 1) else x), seq := s.dn.seq + 1#16 },
        dl := { s.dl with queue := s.dl.queue ++ (s.portsFor b).map (s.queued (s.ownFrame b 0x04 0 (bytesBE 2 s.dn.epochNo.toNat))) } }) ∧
  (∀ (s : State) (b : BitVec 12) (n : Nat), s.running = true → s.isHead = true → s.dn.epr = true → s.dn.await.lookup b = some n → 3 ≤ n →
    exec (.searchReplyTimeout b) s =
      .next { s with dn := { s.dn with await := s.dn.await.filter (fun x => x.1 != b), departed := s.dn.departed ++ [b] } }) ∧
  (∀ (s u : State) (f : RxFrame) (n j : Byte) (gone : List (BitVec 12)), s.hears f → u = s.heard f → f.frame.type = 0x04 →
    f.frame.flags.getLsbD 4 = true → u.isHead = true → u.dn.epr = true → u.Inv →
    f.frame.payload = bytesBE 2 u.dn.epochNo.toNat ++ [n, j] ++ (gone.map (fun a => bytesBE 2 a.toNat)).flatten →
    ∃ t, exec (.searchReply f) s = .next t ∧ State.sameBut [.nv, .dn, .hb] u t ∧ u.hostKept t ∧
      t.dn.await = u.dn.await.filter (fun x => x.1 != f.frame.src) ∧ t.dn.departed = u.dn.departed ++ gone ∧
      t.nodeState f.frame.src.toNat = (if u.nodeState f.frame.src.toNat = 1 then 2 else u.nodeState f.frame.src.toNat) ∧
      ∀ k, k ≠ Config.key 6 (4 * f.frame.src.toNat + 3) → t.nv k = u.nv k) ∧
  (∀ s : State, s.running = true → s.epochOver = true → s.dn.departed = [] → s.dn.arrived = [] → s.dn.cut = false → s.ev.buf.length < 32 →
    exec .epochEnd s =
      .next { s with
        dn := { s.dn with epr := false, dirty := false, follow := 0 }, hb := { s.hb with irq := s.hb.irq ||| 0x1000#16 },
        ev := { s.ev with buf := s.ev.buf ++ [s.eventOf 0x0C02 s.dn.epochNo.toNat] } }) ∧
  (∀ (s : State) (a : BitVec 12), s.Inv → s.running = true → s.epochOver = true → s.dn.departed = [a] → s.dn.arrived = [] →
    s.present a.toNat = true → s.ev.buf.length < 31 →
    ∃ t, exec .epochEnd s = .next t ∧ State.sameBut [.nv, .ev, .dn, .irq, .hb] s t ∧ s.hostKept t ∧ t.nodeState a.toNat = 3 ∧
      t.dn.epr = false ∧ t.dn.dirty = true ∧ t.dn.follow = s.dn.follow + 1 ∧ t.hb.irq = s.hb.irq ||| 0x1000#16 ∧
      t.ev = { s.ev with buf := s.ev.buf ++
        [s.eventOf 0x0C04 (a.toNat + ((s.nodeSerial a.toNat).toNat % 2 ^ 32) * 2 ^ 16),
         s.eventOf 0x0C02 (s.dn.epochNo.toNat + 2 ^ 16 + 1 * 2 ^ 36)] } ∧
      ∀ k, k ≠ Config.key 6 (4 * a.toNat + 3) → t.nv k = s.nv k)

/-- R393 to R399, R484: the head admits a serial at the lowest free entry or refuses it; the node adopts its address or records the refusal;
the agent assigns the lowest free index, repeats it, and enters the acknowledged node; the host reserves an entry; a sweep is announced,
held, latched at its instant with a snapshot's commit, collected in order and its record closed. Event data are packed as log entry 12 says.
-/
def Obligations.JoiningAndSweeps : Prop :=
  (∀ (s u : State) (f : RxFrame) (serial : Word64) (hops segn : Byte), s.asksAnew f 0x05 → u = s.heard f → u.isHead = true →
    f.frame.payload = bytesBE 8 serial.toNat ++ [hops, segn] →
    (16 < hops.toNat → exec (.join f) s = .next (u.nacked f 0x12)) ∧
    (hops.toNat ≤ 16 → 64 < segn.toNat → exec (.join f) s = .next (u.nacked f 0x11)) ∧
    (hops.toNat ≤ 16 → segn.toNat ≤ 64 →
      (∀ m, 1 ≤ m → m ≤ 4095 → u.nodeState m ≠ 0 ∧ u.nodeSerial m ≠ serial.setWidth 48) → exec (.join f) s = .next (u.nacked f 0x10))) ∧
  (∀ (s u : State) (f : RxFrame) (serial : Word64) (hops segn : Byte) (n : Nat), s.asksAnew f 0x05 → u = s.heard f → u.isHead = true → u.Inv →
    f.frame.payload = bytesBE 8 serial.toNat ++ [hops, segn] → hops.toNat ≤ 16 → segn.toNat ≤ 64 → 1 ≤ n → n ≤ 4095 →
    (u.nodeSerial n = serial.setWidth 48 ∧ (∀ m, 1 ≤ m → m < n → u.nodeSerial m ≠ serial.setWidth 48) ∧ u.present n = false ∨
      u.nodeState n = 0 ∧ (∀ m, 1 ≤ m → m < n → u.nodeState m ≠ 0) ∧ (∀ m, 1 ≤ m → m ≤ 4095 → u.nodeSerial m ≠ serial.setWidth 48)) →
    fld (u.nodeWord n) 11 5 = 0 →
    ∃ t, exec (.join f) s = .next t ∧ State.sameBut [.nv, .dl, .dn, .hb] u t ∧ u.hostKept t ∧ t.nodeSerial n = serial.setWidth 48 ∧
      t.nodeState n = 1 ∧ fld (t.nodeWord n) 0 5 = hops.toNat ∧ t.dn.arrived = u.dn.arrived ++ [BitVec.ofNat 12 n] ∧
      t.dl.queue = u.dl.queue ++ [u.queued (replyOf f (bytesBE 8 serial.toNat ++ bytesBE 2 n)) f.port] ∧
      ∀ k, (k < Config.key 6 (4 * n) ∨ Config.key 6 (4 * n + 3) < k) → t.nv k = u.nv k) ∧
  (∀ (s u : State) (r : RxSearch) (a : BitVec 12) (idx hops : Byte) (e : Word), s.listens r.port → u = s.latchRssi r → s.running = true →
    s.agentOn r.port = false → s.isHead = false → s.fram.joined = false → s.ev.buf.length < 32 →
    r.payload = bytesBE 8 s.fram.serial.toNat ++ bytesBE 2 a.toNat ++ [idx, hops] ++ bytesBE 2 e.toNat →
    ∃ t, exec (.assign r) s = .next t ∧ State.sameBut [.fram, .dl, .dn, .ev, .irq] u t ∧
      t.fram = { u.fram with addr := a, lidx := idxByte idx, hops := BitVec.ofNat 5 hops.toNat, joined := true, upPort := r.port,
                             upaddr := s.dn.agent } ∧
      t.dl.squeue = s.dl.squeue ++ (if 1200 ≤ s.pins.vres then
        [{ port := r.port, kind := 0x04, payload := bytesBE 8 s.fram.serial.toNat ++ bytesBE 2 a.toNat }] else []) ∧
      t.hb.irq = s.hb.irq ||| 0x1000#16 ∧
      t.ev = { s.ev with buf := s.ev.buf ++
        [s.eventOf 0x0C01 (1 + a.toNat * 2 ^ 8 + (idxByte idx).toNat * 2 ^ 24 + (BitVec.ofNat 5 hops.toNat).toNat * 2 ^ 32)] }) ∧
  (∀ (s u : State) (r : RxSearch) (code idx hops : Byte) (e : Word), s.listens r.port → u = s.latchRssi r → s.running = true →
    s.agentOn r.port = false → s.isHead = false → s.fram.joined = false → s.ev.buf.length < 32 →
    r.payload = bytesBE 8 s.fram.serial.toNat ++ bytesBE 2 (0x8000 + code.toNat) ++ [idx, hops] ++ bytesBE 2 e.toNat →
    exec (.assign r) s =
      .next { u with dn := { u.dn with refused := some e }, hb := { u.hb with irq := u.hb.irq ||| 0x1000#16 },
                     ev := { u.ev with buf := u.ev.buf ++ [s.eventOf 0x0C06 code.toNat] } }) ∧
  (∀ (s u : State) (f : RxFrame) (r : Request) (rest : List Request) (serial : Word64) (a : BitVec 12) (g : Segment) (ag : Bool)
    (segs : List Segment) (i : Nat), s.hears f → u = s.heard f → f.frame.type = 0x05 → f.frame.flags.getLsbD 4 = true → u.awaits f r rest →
    f.frame.payload = bytesBE 8 serial.toNat ++ bytesBE 2 a.toNat → u.dn.segs = g :: segs → g.joining = some (serial, ag) → g.assign = none →
    1 ≤ i → i ≤ 63 → u.segEntry g.port i = none → (∀ j, 1 ≤ j → j < i → (u.segEntry g.port j).isSome = true) → u.isHead = false →
    exec (.joinReply f) s =
      .next (State.withSearch (State.withSegment { u with dn := { u.dn with reqs := rest } } { g with assign := some (a, BitVec.ofNat 6 i, 1) })
        g.port 0x03 (bytesBE 8 serial.toNat ++ bytesBE 2 a.toNat ++ [BitVec.ofNat 8 i, BitVec.ofNat 8 (u.fram.hops.toNat + 1)] ++
          bytesBE 2 g.epoch.toNat))) ∧
  (∀ (s : State) (p : Port) (g : Segment) (serial : Word64) (ag : Bool) (a : BitVec 12) (i : BitVec 6) (n : Nat), s.running = true →
    s.searching p g → g.joining = some (serial, ag) → g.assign = some (a, i, n) → n < 3 → s.isHead = false →
    exec (.assignTimeout p) s =
      .next (State.withSearch (s.withSegment { g with assign := some (a, i, n + 1) }) p 0x03
        (bytesBE 8 serial.toNat ++ bytesBE 2 a.toNat ++ [BitVec.ofNat 8 i.toNat, BitVec.ofNat 8 (s.fram.hops.toNat + 1)] ++
          bytesBE 2 g.epoch.toNat))) ∧
  (∀ (s : State) (r : RxSearch) (g : Segment) (serial : Word64) (ag : Bool) (a : BitVec 12) (i : BitVec 6) (n l : Nat) (x : Word64)
    (rest : List (Nat × Word64)), s.Inv → s.listens r.port → s.searching r.port g → g.joining = some (serial, ag) →
    g.assign = some (a, i, n) → r.payload = bytesBE 8 serial.toNat ++ bytesBE 2 a.toNat → 1 ≤ i.toNat → g.roll = [] → g.cut = false →
    g.stack = (l, x) :: rest → s.isHead = false →
    ∃ t g', exec (.assignAck r) s = .next t ∧ State.sameBut [.nv, .dl, .dn, .hb] s t ∧ s.hostKept t ∧
      t.segEntry r.port i.toNat = some (serial.setWidth 48, a, ag) ∧ t.searching r.port g' ∧ g'.joined = g.joined + 1 ∧ g'.joining = none ∧
      g'.assign = none ∧ g'.query = some (false, l, x) ∧
      ∀ k, (k < Config.key 4 (segBase r.port + 8 * (i.toNat - 1)) ∨ Config.key 4 (segBase r.port + 8 * (i.toNat - 1) + 7) < k) →
        t.nv k = s.nv k) ∧
  (∀ (s : State) (hi lo : Byte) (n : Nat), s.Inv → s.busOn = true → s.hb.wlatch = some (0x50, lo) → s.sc.armHost ≠ .armed → s.hb.nvr = true →
    s.hb.rows = [] → s.dn.ptr = BitVec.ofNat 16 (0x4000 + (4 * n + 3)) → n ≤ 4095 → s.pins.role = .H →
    (fld (wordOf hi lo) 5 3 = 0 ∨ fld (wordOf hi lo) 5 3 = 4) → (s.nodeState n = 0 ∨ s.nodeState n = 3 ∨ s.nodeState n = 4) →
    ∃ t, exec (.nodeTableWrite hi) s = .next t ∧ State.sameBut [.hb] s t ∧ t.nodeState n = fld (wordOf hi lo) 5 3 ∧
      { t.hb with rows := [] } = { (s.unhold (Config.key 6 (4 * n)) 4).hb with rows := [], wlatch := none } ∧
      t.nodeWord n = merge (mask 5 3) (s.nodeWord n) (pack [(fld (wordOf hi lo) 5 3, 5)]) ∧
      (∀ i, i < 3 → t.nv (Config.key 6 (4 * n + i)) = s.heldWord (Config.key 6 (4 * n + i))) ∧
      ∀ k, (k < Config.key 6 (4 * n) ∨ Config.key 6 (4 * n + 3) < k) → t.nv k = s.nv k) ∧
  (∀ (s : State) (per : Nat) (number : Word32) (f : DFrame), s.running = true → s.isHead = true → s.ck.ltv = true → per = (s.dsw 0x2004).toNat * 60 →
    per ≠ 0 → s.lg.sweep = s.fram.lastSweep → number = s.fram.lastSweep + 1 → s.dn.pend = [] →
    f = s.ownFrame 0 0x06 0x08 (bytesBE 4 number.toNat ++ timeBytes (BitVec.ofNat 32 ((s.ck.lsec.toNat / per + 1) * per)) 0 ++
      bytesBE 2 (max 10 (s.dsw 0x2005).toNat * 10)) →
    ∃ t, exec .sweepIssue s = .next t ∧ State.sameBut [.fram, .dl, .dn] s t ∧ t.fram = { s.fram with lastSweep := number } ∧
      t.dn.pend = [{ number := number, sec := BitVec.ofNat 32 ((s.ck.lsec.toNat / per + 1) * per), cyc := 0 }] ∧
      t.dn.sweepSet = s.nodesIn (fun st => st == 1 || st == 2) ∧ t.dn.seq = s.dn.seq + 1#16 ∧
      t.dl.queue = s.dl.queue ++ ([Port.A, Port.B].filter s.portOn).map (s.queued f) ∧
      t.dn.copies = s.dn.copies ++ (List.range (max 1 (fld (s.dsw 0x2006) 0 2) - 1)).map (fun i => (f, s.pw.ticks + 50 * (i + 1)))) ∧
  (∀ (s : State) (f : DFrame) (at_ : Nat), s.running = true → s.dn.copies = [(f, at_)] → at_ ≤ s.pw.ticks → f.flags.getLsbD 3 = true →
    s.copiesTick = { s with dn := { s.dn with copies := [] },
                            dl := { s.dl with queue := s.dl.queue ++ ([Port.A, Port.B].filter s.portOn).map (s.queued f) } }) ∧
  (∀ (s u : State) (f : RxFrame) (number sec : Word32) (cyc lead : Nat), s.hears f → u = s.heard f → f.frame.type = 0x06 → f.frame.src = 0 →
    f.frame.payload = bytesBE 4 number.toNat ++ timeBytes sec cyc ++ bytesBE 2 lead → cyc < 400000 → 100 ≤ lead → lead < 65536 →
    newer 32 u.lg.sweep number = true → (∀ a ∈ u.dn.pend, a.number ≠ number) → u.ck.ltv = true →
    lineCount u.ck.lsec u.ck.lcyc < lineCount sec cyc → u.dn.pend.length < 4 →
    exec (.sweep f) s =
      .next { u with dn := { u.dn with pend := u.dn.pend ++ [{ number := number, sec := sec, cyc := cyc }] } }) ∧
  (∀ (s : State) (a : Announce), s.running = true → s.ck.ltv = true → s.dn.pend = [a] → s.isHead = false → s.lg.lbad = false →
    s.lg.cur = none → s.lg.seq.toNat < 0xFFFFFFFE → s.ev.buf.length < 32 →
    ∃ t, exec (.sweepLatch false) s = .next t ∧ State.sameBut [.fram, .lg, .ev, .dn, .irq] s t ∧ t.dn = { s.dn with pend := [], swl := true } ∧
      t.fram = { s.fram with lastSweep := a.number } ∧ t.lg.sweep = a.number ∧ t.lg.seq = s.lg.seq + 1 ∧
      t.lg.cur.map (fun c => c.sweeps) = some [(a.number, a.sec)] ∧ t.hb.irq = s.hb.irq ||| 0x1000#16 ∧
      t.ev = { s.ev with buf := s.ev.buf ++ [s.eventOf 0x0C09 a.number.toNat] }) ∧
  (∀ (s : State) (a : Announce) (c : Commit), s.running = true → s.ck.ltv = true → s.dn.pend = [a] → s.isHead = false → s.lg.lbad = false →
    s.lg.cur = some c → s.lg.waiting = [] → s.ev.buf.length < 32 →
    ∃ t d, exec (.sweepLatch true) s = .next t ∧ State.sameBut [.fram, .lg, .ev, .dn, .irq] s t ∧
      d = { c.data with reason := c.data.reason ||| 2, sweep := a.number } ∧
      t.lg = { s.lg with sweep := a.number, cur := some { toB := d.seq.getLsbD 0, data := d, sweeps := c.sweeps ++ [(a.number, a.sec)],
                                                          bytes := bankBytes s.ledgerKey s.fram.serial (d.seq.getLsbD 0) d } }) ∧
  (∀ s : State, s.running = true → s.isHead = true → s.dn.collects = [] → (∀ a ∈ s.dn.sweepSet, a ≠ 0 ∧ s.present a.toNat = true) →
    (∃ a : BitVec 12, a ≠ 0 ∧ s.present a.toNat = true) →
    ∃ t u a todo, exec .collectStart s = .next t ∧ t = State.asked u a 0x07 (bytesBE 4 s.lg.sweep.toNat) false ∧
      u = { s with dn := { s.dn with
        counts := [0, 0, 0, 0], collects := [{ number := s.lg.sweep, todo := todo, asked := some a, counts := [], late := false }] } } ∧
      a :: todo = ((List.range 4096).map (BitVec.ofNat 12)).filter (fun x => x != 0 && s.present x.toNat)) ∧
  (∀ (s u : State) (f : RxFrame) (number : Word32), s.asksAnew f 0x07 → u = s.heard f → f.frame.src = 0 →
    f.frame.payload = bytesBE 4 number.toNat →
    exec (.collect f) s = .next (
      match u.snapOf number with
      | some b => u.answered f (f.frame.payload ++ [0] ++ b)
      | none => u.answered f (f.frame.payload ++
          [if u.fram.snaps.length = 64 ∧ ∀ e ∈ u.fram.snaps, newer 32 number (BitVec.ofNat 32 (leAt e.2 4 4)) = true then 2 else 1]))) ∧
  (∀ (s u : State) (f : RxFrame) (r : Request) (rest : List Request) (c : Collect) (n0 n1 n2 n3 : Nat) (number : List Byte),
    s.hears f → u = s.heard f → f.frame.type = 0x07 → f.frame.flags.getLsbD 4 = true → u.awaits f r rest → r.host = false → u.Inv →
    u.dn.rxf.length + 8 + f.frame.payload.length ≤ 4120 → number.length = 4 → (∃ b, f.frame.payload = number ++ [0] ++ b) →
    u.dn.collects = [c] → c.asked = some f.frame.src → c.todo = [] → c.late = false → u.dn.counts = [n0, n1, n2, n3] → u.ev.buf.length < 32 →
    ∃ t, exec (.collectReply f) s = .next t ∧ State.sameBut [.nv, .dn, .ev, .irq, .hb] u t ∧ u.hostKept t ∧ t.dn.collects = [] ∧ t.dn.swl = true ∧
      t.dn.rxf = u.dn.rxf ++ fifoWords (entryBytes f.frame) ∧ t.dn.counts = [n0 + 1, n1, n2, n3] ∧
      fld (t.nodeWord f.frame.src.toNat) 8 3 = 1 ∧ fld (t.nodeWord f.frame.src.toNat) 11 5 = 0 ∧ t.hb.irq = u.hb.irq ||| 0x1000#16 ∧
      t.ev = { u.ev with buf := u.ev.buf ++
        [u.eventOf 0x0C0B (c.number.toNat % 4096 + (n0 + 1) * 2 ^ 12 + n1 * 2 ^ 24 + n2 * 2 ^ 36)] } ∧
      ∀ k, k ≠ Config.key 6 (4 * f.frame.src.toNat + 3) → t.nv k = u.nv k) ∧
  (∀ (s u : State) (f : RxFrame) (r : Request) (rest : List Request), s.hears f → u = s.heard f → f.frame.type = 0x07 →
    f.frame.flags.getLsbD 4 = true → u.awaits f r rest → r.host = true → u.dn.rxf.length + 8 + f.frame.payload.length ≤ 4120 →
    exec (.collectReply f) s =
      .next { u with dn := { u.dn with reqs := rest, rxf := u.dn.rxf ++ fifoWords (entryBytes f.frame) } })

/-! ## The policy engine (15, R402 to R416) -/

/-- R404 to R416: a due assertion puts the rule in force with its action, its log and its interrupt, and an alarm action sets the alarm
level; a due release latches the rule or ends its action; an ACK is taken from a latched rule whose condition is false; the table, the
defaults and EN change by audit, and an unchanged rule is no change. Event data are packed as log entry 12 says. -/
def Obligations.PolicyRules : Prop :=
  (∀ (s : State) (n : BitVec 5), s.Inv → s.running = true → s.plEn = true → (s.ruleAt n.toNat).dueOn = true →
    ∃ t, exec (.ruleAssert n) s = .next t ∧ State.sameBut [.ad, .fe, .lg, .ev, .an, .lp, .pl, .irq] s t ∧ (t.ruleAt n.toNat).state = 2 ∧
      (t.ruleAt n.toNat).dueOn = false ∧ (t.ruleAt n.toNat).value = (s.ruleAt n.toNat).value ∧
      (s.ruleAction n.toNat = 4 → t.fe.alm = true) ∧
      (s.ruleAction n.toNat = 7 → s.fram.anState = 3 → t.an.noticeDue = true) ∧
      (s.ruleIrq n.toNat = true ∨ s.ruleAction n.toNat = 8 → t.hb.irq.getLsbD 13 = true)) ∧
  (∀ (s : State) (n : BitVec 5), s.Inv → s.running = true → s.plEn = true → (s.ruleAt n.toNat).dueOn = true →
    (s.ruleAction n.toNat = 6 ∨ s.ruleAction n.toNat = 8) → s.prevailing = none → s.lp.alarm = 0 → s.fe.alm = s.actionOn 4 →
    (s.ruleAt n.toNat).secLogs < 8 → s.ev.buf.length < 32 →
    exec (.ruleAssert n) s =
      .next { s with
        pl := { s.pl with rules := setAt s.pl.rules n.toNat { s.ruleAt n.toNat with
          state := 2, count := 0, dueOn := false, dueOff := false, secLogs := (s.ruleAt n.toNat).secLogs + 1 } },
        ev := { s.ev with buf := s.ev.buf ++
          [s.eventOf 0x0D01 (n.toNat + s.ruleAction n.toNat * 2 ^ 8 + (s.ruleAt n.toNat).value.toNat * 2 ^ 16)] },
        hb := if s.ruleIrq n.toNat = true ∨ s.ruleAction n.toNat = 8 then { s.hb with irq := s.hb.irq ||| 0x2000#16 } else s.hb }) ∧
  (∀ (s : State) (n : BitVec 5), s.Inv → s.running = true → s.plEn = true → (s.ruleAt n.toNat).dueOn = true →
    1 ≤ s.ruleAction n.toNat → s.ruleAction n.toNat ≤ 3 → s.loopARole = true → s.prevailing = none → s.lp.alarm = 0 → s.lp.driving = false →
    ∃ t, exec (.ruleAssert n) s = .next t ∧
      t.lp = { s.lp with alarm := BitVec.ofNat 2 (s.ruleAction n.toNat),
                         holdAt := if s.ruleAction n.toNat = 3 then max 3400000 s.lp.target else s.lp.holdAt } ∧
      t.prevailing = some (n.toNat, s.ruleAction n.toNat)) ∧
  (∀ (s : State) (n : BitVec 5), s.running = true → s.plEn = true → (s.ruleAt n.toNat).dueOff = true → s.ruleLatch n.toNat = true →
    exec (.ruleRelease n) s =
      .next { s with
        pl := { s.pl with rules := setAt s.pl.rules n.toNat { s.ruleAt n.toNat with state := 4, count := 0, dueOff := false } },
        fram := { s.fram with latched := s.fram.latched ||| (1#32 <<< n.toNat) } }) ∧
  (∀ (s : State) (n : BitVec 5), s.Inv → s.running = true → s.plEn = true → (s.ruleAt n.toNat).dueOff = true → s.ruleLatch n.toNat = false →
    (s.ruleAt n.toNat).inForce = true →
    ∃ t, exec (.ruleRelease n) s = .next t ∧ State.sameBut [.fram, .ad, .fe, .ev, .an, .lp, .pl, .irq] s t ∧ (t.ruleAt n.toNat).state = 0 ∧
      t.fram = { s.fram with latched := s.fram.latched &&& ~~~(1#32 <<< n.toNat) } ∧ t.fe.alm = t.actionOn 4 ∧
      (s.ruleAction n.toNat = 7 → s.fram.anState = 3 → t.an.noticeDue = true) ∧
      (s.ruleIrq n.toNat = true → t.hb.irq.getLsbD 13 = true)) ∧
  (∀ (s : State) (n : BitVec 5), s.Inv → s.running = true → s.plEn = true → (s.ruleAt n.toNat).dueOff = true → s.ruleLatch n.toNat = false →
    (s.ruleAt n.toNat).inForce = true → (s.ruleAction n.toNat = 6 ∨ s.ruleAction n.toNat = 8) → s.prevailing = none → s.lp.alarm = 0 →
    s.fe.alm = s.actionOn 4 → s.ev.buf.length < 32 →
    exec (.ruleRelease n) s =
      .next { s with
        pl := { s.pl with rules := setAt s.pl.rules n.toNat { s.ruleAt n.toNat with state := 0, count := 0, dueOn := false, dueOff := false } },
        fram := { s.fram with latched := s.fram.latched &&& ~~~(1#32 <<< n.toNat) },
        ev := { s.ev with buf := s.ev.buf ++
          [s.eventOf 0x0D02 (n.toNat + s.ruleAction n.toNat * 2 ^ 8 + (s.ruleAt n.toNat).value.toNat * 2 ^ 16)] },
        hb := if s.ruleIrq n.toNat = true then { s.hb with irq := s.hb.irq ||| 0x2000#16 } else s.hb }) ∧
  (∀ (s : State) (hi lo : Byte) (half : Nat), s.busOn = true → s.hb.wlatch = some (0x72, lo) → s.sc.armHost ≠ .armed → half ≤ 1 →
    s.pl.ptr = BitVec.ofNat 9 (0x104 + half) →
    ∃ t, exec (.ruleAck hi) s = .next t ∧ State.sameBut [.pl, .hb] s t ∧ s.latchTaken t ∧
      t.pl = { s.pl with ack := t.pl.ack, ptr := if s.pl.ainc then s.pl.ptr + 1 else s.pl.ptr } ∧
      ∀ n, n < 32 → t.pl.ack.getLsbD n = (s.pl.ack.getLsbD n ||
        (decide (n / 16 = half) && bitAt (wordOf hi lo) (n % 16) && (s.ruleAt n).state == 4 &&
          !ruleCond (s.ruleCmp n) (s.source (s.ruleSrc n)) (s.ruleThr n)))) ∧
  (∀ (s : State) (hi lo : Byte) (n : Nat) (ws : List Word), s.busOn = true → s.hb.wlatch = some (0x72, lo) → s.sc.armHost ≠ .armed →
    s.hb.nvr = true → s.startUp = false → s.aon.sealOpen = true → s.lg.acount < 2048 → n < 32 → s.pl.ptr = BitVec.ofNat 9 (8 * n + 7) →
    ws = (List.range 7).map (fun i => s.heldWord (Config.key 5 (8 * n + i))) ++ [0] →
    ∃ t, exec (.ruleCommit hi) s = .next t ∧ State.sameBut [.lg, .pl, .hb] s t ∧
      t.hb = { (s.unhold (Config.key 5 (8 * n)) 8).hb with wlatch := none } ∧
      t.pl = { s.pl with ptr := if s.pl.ainc then s.pl.ptr + 1 else s.pl.ptr } ∧
      t.lg = (if ws = (List.range 8).map (fun i => s.nv (Config.key 5 (8 * n + i))) then s.lg
        else { s.lg with queue := s.lg.queue ++ [.rule n ws] })) ∧
  (∀ (s : State) (hi lo : Byte), s.busOn = true → s.hb.wlatch = some (0x6E, lo) → s.sc.armHost = .armed → s.hb.nvr = true →
    s.startUp = false → s.aon.sealOpen = true → s.lg.acount < 2048 → bitAt (wordOf hi lo) 0 = s.plEn → bitAt (wordOf hi lo) 1 = true →
    exec (.defaultsRestore hi) s =
      .next { s with hb := { s.hb with wlatch := none }, sc := { s.sc with armHost := .idle },
                     lg := { s.lg with queue := s.lg.queue ++ [.defaults] } }) ∧
  (∀ (s : State) (hi lo : Byte), s.busOn = true → s.hb.wlatch = some (0x6E, lo) → s.sc.armHost ≠ .armed → s.hb.nvr = true →
    s.startUp = false → s.aon.sealOpen = true → s.lg.acount < 2048 →
    exec (.policyEnable hi) s =
      .next { s with hb := { s.hb with wlatch := none },
                     lg := if bitAt (wordOf hi lo) 0 = s.plEn then s.lg
                       else { s.lg with queue := s.lg.queue ++ [.policyEn (bitAt (wordOf hi lo) 0)] } }) ∧
  (∀ (s : State) (hi lo : Byte), s.busOn = true → s.hb.wlatch = some (0x6E, lo) → s.sc.armHost ≠ .armed → s.hb.nvr = true →
    s.startUp = false → s.aon.sealOpen = false → s.ev.buf.length < 32 →
    exec (.policyEnable hi) s =
      .next { s with hb := { s.hb with wlatch := none }, ev := { s.ev with buf := s.ev.buf ++ [s.eventOf 0x0F01 0x6E] } })

/-! ## The host bus (16, R422 to R445) -/

/-- R429, R430, R431, R433, R438, R442, R445: a low byte is latched and the high byte commits the word to its register; a read-only register
ignores it; a low byte missing or lost, an address with AD7 and a strobe out of order are violations and set HBV; a data register read
drives the word's low byte, latches the high byte and moves the pointer where auto-increment is set; a buffered row reaches FRAM with every
word as it was; SY_IRQ clears by writing one; FRZ with the unlock queues the freeze. Event data are packed as log entry 12 says. -/
def Obligations.HostBusCycles : Prop :=
  (∀ (s : State) (addr lo : Byte), s.busOn = true → addr.getLsbD 7 = false → addr.getLsbD 0 = false →
    (s.hb.wlatch = none ∨ ∃ b, s.hb.wlatch = some (addr, b)) →
    exec (.lowByteWrite addr lo) s = .next { s with hb := { s.hb with wlatch := some (addr, lo) } }) ∧
  (∀ (s : State) (addr lo r b : Byte), s.busOn = true → addr.getLsbD 7 = false → addr.getLsbD 0 = false → s.hb.wlatch = some (r, b) →
    r ≠ addr → 0x0E11 ∉ s.hb.secCodes → s.ev.buf.length < 32 →
    exec (.lowByteWrite addr lo) s =
      .next { s with hb := { s.hb with hbv := true, flags := s.hb.flags ||| 0x02#6, secCodes := 0x0E11 :: s.hb.secCodes,
                                       wlatch := some (addr, lo) },
                     ev := { s.ev with buf := s.ev.buf ++ [s.eventOf 0x0E11 (r.toNat + addr.toNat * 2 ^ 8)] } }) ∧
  (∀ (s : State) (addr v : Byte), s.busOn = true → addr.getLsbD 7 = true → 0x0E17 ∉ s.hb.secCodes → s.ev.buf.length < 32 →
    exec (.lowByteWrite addr v) s =
      .next { s with hb := { s.hb with hbv := true, flags := s.hb.flags ||| 0x20#6, secCodes := 0x0E17 :: s.hb.secCodes },
                     ev := { s.ev with buf := s.ev.buf ++ [s.eventOf 0x0E17 addr.toNat] } } ∧
    exec (.registerWrite addr v) s = exec (.lowByteWrite addr v) s) ∧
  (∀ (s : State) (hi lo r : Byte), s.busOn = true → s.hb.wlatch = some (r, lo) → s.sc.armHost ≠ .armed →
    (r = 0x7E → exec (.registerWrite 0x7F hi) s = .next { s with hb := { s.hb with wlatch := none, scratch := wordOf hi lo } }) ∧
    (r = 0x02 → exec (.registerWrite 0x03 hi) s = .next { s with hb := { s.hb with wlatch := none, gie := bitAt (wordOf hi lo) 0 } }) ∧
    (r = 0x04 → exec (.registerWrite 0x05 hi) s =
      .next { s with hb := { s.hb with wlatch := none, hbv := s.hb.hbv && !bitAt (wordOf hi lo) 8 } }) ∧
    (r = 0x08 → exec (.registerWrite 0x09 hi) s = .next { s with hb := { s.hb with wlatch := none, ien := wordOf hi lo } }) ∧
    (r = 0x74 → exec (.registerWrite 0x75 hi) s =
      .next { s with hb := { s.hb with wlatch := none, rdyen := bitAt (wordOf hi lo) 0, rlock := bitAt (wordOf hi lo) 1,
                                       flags := s.hb.flags &&& ~~~((wordOf hi lo).extractLsb' 8 6) } }) ∧
    (r = 0x4E → exec (.registerWrite 0x4F hi) s =
      .next { s with hb := { s.hb with wlatch := none }, dn := { s.dn with ptr := wordOf hi lo } }) ∧
    (r = 0x5E → exec (.registerWrite 0x5F hi) s =
      .next { s with hb := { s.hb with wlatch := none }, lg := { s.lg with ptr := wordOf hi lo } }) ∧
    (r = 0x70 → exec (.registerWrite 0x71 hi) s =
      .next { s with hb := { s.hb with wlatch := none },
                     pl := { s.pl with ptr := (wordOf hi lo).extractLsb' 0 9, ainc := bitAt (wordOf hi lo) 15 } }) ∧
    (r = 0x00 ∨ r = 0x12 ∨ r = 0x1C ∨ r = 0x2E ∨ r = 0x30 ∨ r = 0x3E ∨ r = 0x4A → exec (.registerWrite (r + 1) hi) s =
      .next { s with hb := { s.hb with wlatch := none } })) ∧
  (∀ (s : State) (hi : Byte), s.busOn = true → s.hb.wlatch = none → s.sc.armHost ≠ .armed → 0x0E10 ∉ s.hb.secCodes →
    s.ev.buf.length < 32 →
    exec (.registerWrite 0x7F hi) s =
      .next { s with hb := { s.hb with hbv := true, flags := s.hb.flags ||| 0x01#6, secCodes := 0x0E10 :: s.hb.secCodes,
                                       scratch := wordOf hi (loByte s.hb.scratch) },
                     ev := { s.ev with buf := s.ev.buf ++ [s.eventOf 0x0E10 0x7F] } } ∧
    ∃ t, exec (.registerWrite 0x75 hi) s = .next t ∧ State.sameBut [.ev, .hb] s t ∧ t.hb.hbv = true ∧
      t.hb.flags = (s.hb.flags &&& ~~~(hi.extractLsb' 0 6)) ||| 0x01#6 ∧
      t.ev = { s.ev with buf := s.ev.buf ++ [s.eventOf 0x0E10 0x75] }) ∧
  (∀ (s : State) (r : RowWrite) (rest : List RowWrite), s.Inv → (s.pw.st = .wake ∨ s.pw.st = .run ∨ s.pw.st = .drain) → s.hb.rows = r :: rest →
    ∃ t, exec .framRowWrite s = .next t ∧ State.sameBut [.nv, .hb] s t ∧ t.hb = { s.hb with rows := rest } ∧ ∀ k, t.nv k = s.nv k) ∧
  (∀ (s : State) (hi lo : Byte), s.busOn = true → s.hb.wlatch = some (0x06, lo) → s.sc.armHost ≠ .armed →
    exec (.syIrqClear hi) s = .next { s with hb := { s.hb with wlatch := none, irq := s.hb.irq &&& ~~~(wordOf hi lo) } }) ∧
  (∀ (s : State) (hi lo : Byte), s.busOn = true → s.hb.wlatch = some (0x7C, lo) → s.sc.armHost = .armed → s.startUp = false →
    s.aon.sealOpen = true → s.lg.acount < 2048 → bitAt (wordOf hi lo) 0 = true → hi ≠ 0 →
    exec (.freezeStart hi) s =
      .next { s with hb := { s.hb with wlatch := none, frzd := s.hb.frzd && !bitAt (wordOf hi lo) 1, fdur := hi },
                     sc := { s.sc with armHost := .idle },
                     lg := { s.lg with queue := s.lg.queue ++ [.freeze (wordOf hi lo)] } }) ∧
  (∀ (s : State) (w : WinKind), s.busOn = true →
    ∃ t, exec (.windowDataRead w) s = .next t ∧ State.sameBut [.orr, .fe, .lg, .ev, .dn, .pl, .hb] s t ∧
      t.hb = { s.hb with adout := loByte (s.readReg (winReg w)),
                         rlatch := some (BitVec.ofNat 8 (winReg w), hiByte (s.readReg (winReg w))) } ∧
      (w = .pl → t.pl = { s.pl with ptr := if s.pl.ainc then s.pl.ptr + 1 else s.pl.ptr }) ∧
      (w = .orr → t.orr.ptr = if s.orr.ainc then s.orr.ptr + 1 else s.orr.ptr) ∧
      (w = .fe → t.fe.ptr = if s.fe.ainc then s.fe.ptr + 1 else s.fe.ptr) ∧
      (w = .lg → t.lg.ptr = if s.lg.ainc then s.lg.ptr + 1 else s.lg.ptr)) ∧
  (∀ s : State, s.busOn = true → s.orr.ptr = 0x310 →
    ∃ t, exec .orreryCountSnapshot s = .next t ∧ State.sameBut [.orr, .hb] s t ∧
      t.orr = { s.orr with snap := some s.orLive, ptr := if s.orr.ainc then s.orr.ptr + 1 else s.orr.ptr } ∧
      t.hb = { s.hb with adout := loByte (s.readReg 0x20), rlatch := some (0x20, hiByte (s.readReg 0x20)) }) ∧
  (∀ s : State, s.busOn = true → s.fe.ptr = 0x380 →
    ∃ t, exec .feLiveSnapshot s = .next t ∧ State.sameBut [.fe, .hb] s t ∧
      t.fe = { s.fe with snap := some s.feLive, ptr := if s.fe.ainc then s.fe.ptr + 1 else s.fe.ptr } ∧
      t.hb = { s.hb with adout := loByte (s.readReg 0x5A), rlatch := some (0x5A, hiByte (s.readReg 0x5A)) }) ∧
  (∀ (s : State) (w : Word) (rest : List Word), s.busOn = true → s.lineOn = true → s.dn.rxf = w :: rest → s.dn.collectRepeat = [] →
    exec .dsFifoRead s =
      .next { s with dn := { s.dn with rxf := rest }, hb := { s.hb with adout := loByte w, rlatch := some (0x4C, hiByte w) } }) ∧
  (∀ (s : State) (addr new : Byte), s.busOn = true → s.ev.buf.length < 32 →
    (0x0E12 ∉ s.hb.secCodes →
      exec (.hostStrobeViolation .aleHigh addr new) s =
        .next { s with hb := { s.hb with hbv := true, flags := s.hb.flags ||| 0x04#6, secCodes := 0x0E12 :: s.hb.secCodes },
                       ev := { s.ev with buf := s.ev.buf ++ [s.eventOf 0x0E12 (addr.toNat + new.toNat * 2 ^ 8)] } }) ∧
    (0x0E13 ∉ s.hb.secCodes →
      exec (.hostStrobeViolation .bothLow addr new) s =
        .next { s with hb := { s.hb with hbv := true, flags := s.hb.flags ||| 0x04#6, secCodes := 0x0E13 :: s.hb.secCodes },
                       ev := { s.ev with buf := s.ev.buf ++ [s.eventOf 0x0E13 addr.toNat] } }) ∧
    (0x0E14 ∉ s.hb.secCodes → s.hb.rdyen = true →
      exec (.hostStrobeViolation .earlyRaise addr new) s =
        .next { s with hb := { s.hb with hbv := true, flags := s.hb.flags ||| 0x04#6, secCodes := 0x0E14 :: s.hb.secCodes },
                       ev := { s.ev with buf := s.ev.buf ++ [s.eventOf 0x0E14 addr.toNat] } }) ∧
    (0x0E17 ∉ s.hb.secCodes → addr.getLsbD 7 = true →
      exec (.hostStrobeViolation .ad7 addr new) s =
        .next { s with hb := { s.hb with hbv := true, flags := s.hb.flags ||| 0x20#6, secCodes := 0x0E17 :: s.hb.secCodes, adout := 0 },
                       ev := { s.ev with buf := s.ev.buf ++ [s.eventOf 0x0E17 addr.toNat] } }))
end

