-- ==== Sys2Proof/Laws/Bits.lean ====
section
/-! SUPPORT. Sys2Proof/Laws/Bits.lean: fields and bits of a word put together from its bytes. -/

set_option Elab.async false

namespace Sys2Proof.Machine

theorem wordOf_toNat (hi lo : Byte) : (wordOf hi lo).toNat = hi.toNat * 256 + lo.toNat := by
  have := lo.isLt
  simp only [wordOf, BitVec.toNat_append]
  rw [← Nat.shiftLeft_add_eq_or_of_lt (by omega), Nat.shiftLeft_eq]

theorem wordOf_testBit (hi lo : Byte) (i : Nat) :
    (wordOf hi lo).getLsbD i = if i < 8 then lo.getLsbD i else hi.getLsbD (i - 8) := by
  rw [BitVec.getLsbD, wordOf_toNat, show hi.toNat * 256 + lo.toNat = 2 ^ 8 * hi.toNat + lo.toNat by omega,
    Nat.testBit_two_pow_mul_add _ lo.isLt]
  rfl

/-- A field of the high byte. -/
theorem fld_wordOf_hi (hi lo : Byte) (i n : Nat) : fld (wordOf hi lo) (8 + i) n = (hi.toNat >>> i) % 2 ^ n := by
  have := lo.isLt
  rw [fld, wordOf_toNat, Nat.shiftRight_add]
  congr 2
  rw [Nat.shiftRight_eq_div_pow]
  omega

theorem bitAt_wordOf_hi (hi lo : Byte) (i : Nat) : bitAt (wordOf hi lo) (8 + i) = hi.getLsbD i := by
  rw [bitAt, wordOf_testBit, if_neg (by omega), Nat.add_sub_cancel_left]

theorem bitAt_wordOf_lo (hi lo : Byte) (i : Nat) (h : i < 8) : bitAt (wordOf hi lo) i = lo.getLsbD i := by
  rw [bitAt, wordOf_testBit, if_pos h]

theorem loByte_wordOf (hi lo : Byte) : loByte (wordOf hi lo) = lo := by
  apply BitVec.eq_of_toNat_eq
  have := lo.isLt
  rw [loByte, BitVec.extractLsb'_toNat, wordOf_toNat, Nat.shiftRight_zero]
  omega

theorem hiByte_wordOf (hi lo : Byte) : hiByte (wordOf hi lo) = hi := by
  apply BitVec.eq_of_toNat_eq
  have := lo.isLt
  have := hi.isLt
  rw [hiByte, BitVec.extractLsb'_toNat, wordOf_toNat, Nat.shiftRight_eq_div_pow]
  omega

/-- Bit i of a field. -/
theorem fld_testBit (w : Word) (lo n i : Nat) : (fld w lo n).testBit i = (decide (i < n) && w.getLsbD (lo + i)) := by
  unfold fld
  rw [Nat.testBit_mod_two_pow, Nat.testBit_shiftRight, BitVec.testBit_toNat]

/-- A field outside the mask keeps the old word's value. -/
theorem fld_merge_old {m : Word} {lo n : Nat} (h : fld m lo n = 0) (a b : Word) : fld (merge m a b) lo n = fld a lo n := by
  refine Nat.eq_of_testBit_eq fun i => ?_
  have hm := congrArg (fun x => x.testBit i) h
  simp only [fld_testBit, Nat.zero_testBit, Bool.and_eq_false_iff, decide_eq_false_iff_not] at hm
  simp only [fld_testBit, merge, BitVec.getLsbD_or, BitVec.getLsbD_and, BitVec.getLsbD_not]
  by_cases hi : i < n
  · have hb : m.getLsbD (lo + i) = false := hm.resolve_left (by simpa using hi)
    by_cases hl : lo + i < 16
    · simp only [hb, hl, decide_true, Bool.not_false, Bool.and_true, Bool.and_false, Bool.or_false]
    · simp [hb, BitVec.getLsbD_of_ge _ _ (by omega : 16 ≤ lo + i)]
  · simp [hi]

/-- A field inside the mask takes the new word's value. -/
theorem fld_merge_new {m : Word} {lo n : Nat} (h : ∀ i < n, m.getLsbD (lo + i) = true) (a b : Word) :
    fld (merge m a b) lo n = fld b lo n := by
  refine Nat.eq_of_testBit_eq fun i => ?_
  simp only [fld_testBit, merge, BitVec.getLsbD_or, BitVec.getLsbD_and, BitVec.getLsbD_not]
  by_cases hi : i < n
  · simp [h i hi]
  · simp [hi]

/-- The same for a field as bits. -/
theorem extract_merge_old {m : Word} {lo n : Nat} (h : fld m lo n = 0) (a b : Word) :
    (merge m a b).extractLsb' lo n = a.extractLsb' lo n := by
  apply BitVec.eq_of_toNat_eq
  have := fld_merge_old h a b
  simpa only [fld, BitVec.extractLsb'_toNat] using this

/-- A bit inside the mask takes the new word's value. -/
theorem bitAt_merge_new {m : Word} {i : Nat} (h : m.getLsbD i = true) (a b : Word) : bitAt (merge m a b) i = bitAt b i := by
  simp only [bitAt, merge, BitVec.getLsbD_or, BitVec.getLsbD_and, BitVec.getLsbD_not, h]
  simp

/-- A bit outside the mask keeps the old word's value. -/
theorem bitAt_merge_old {m : Word} {i : Nat} (h : m.getLsbD i = false) (a b : Word) : bitAt (merge m a b) i = bitAt a i := by
  simp only [bitAt, merge, BitVec.getLsbD_or, BitVec.getLsbD_and, BitVec.getLsbD_not, h]
  by_cases hl : i < 16
  · simp [hl]
  · simp [BitVec.getLsbD_of_ge _ _ (by omega : 16 ≤ i)]

end Sys2Proof.Machine
end

