-- ==== Sys2Proof/Laws/Memory.lean ====
section
/-! SUPPORT. Sys2Proof/Laws/Memory.lean: the laws of word memory: a read after a write, and that every write keeps the canonical form. -/

set_option Elab.async false

namespace Sys2Proof.Machine

variable {d : Nat → Word}

theorem WMem.above_mono {b c : Nat} (h : b ≤ c) : ∀ {m : WMem}, WMem.above c m = true → WMem.above b m = true
  | [], _ => rfl
  | (a, _) :: m, hm => by
    simp only [WMem.above, Bool.and_eq_true, decide_eq_true_eq] at hm ⊢
    exact ⟨by omega, WMem.above_mono h hm.2⟩

theorem WMem.above_filter (p : Nat × Word → Bool) {b : Nat} : ∀ {m : WMem}, WMem.above b m = true → WMem.above b (m.filter p) = true
  | [], _ => rfl
  | (a, v) :: m, hm => by
    simp only [WMem.above, Bool.and_eq_true, decide_eq_true_eq] at hm
    have ih := WMem.above_filter p hm.2
    by_cases hp : p (a, v) = true
    · simp [List.filter, hp, WMem.above, hm.1, ih]
    · simp only [Bool.not_eq_true] at hp
      simpa [List.filter, hp] using ih

theorem WMem.wf_filter (p : Nat × Word → Bool) : ∀ {m : WMem}, WMem.wf d m = true → WMem.wf d (m.filter p) = true
  | [], _ => rfl
  | (a, v) :: m, hm => by
    simp only [WMem.wf, Bool.and_eq_true] at hm
    have ih := WMem.wf_filter p hm.2
    by_cases hp : p (a, v) = true
    · simp only [List.filter, hp, WMem.wf, ih, Bool.and_true, Bool.and_eq_true]
      exact ⟨WMem.above_filter p hm.1.1, hm.1.2⟩
    · simp only [Bool.not_eq_true] at hp
      simpa [List.filter, hp] using ih

theorem WMem.above_erase {b : Nat} (k : Nat) : ∀ {m : WMem}, WMem.above b m = true → WMem.above b (WMem.erase m k) = true
  | [], _ => rfl
  | (a, v) :: m, hm => by
    simp only [WMem.above, Bool.and_eq_true] at hm
    unfold WMem.erase
    split
    · exact hm.2
    · simp [WMem.above, hm.1, WMem.above_erase k hm.2]

theorem WMem.wf_erase (k : Nat) : ∀ {m : WMem}, WMem.wf d m = true → WMem.wf d (WMem.erase m k) = true
  | [], _ => rfl
  | (a, v) :: m, hm => by
    simp only [WMem.wf, Bool.and_eq_true] at hm
    unfold WMem.erase
    split
    · exact hm.2
    · simp only [WMem.wf, Bool.and_eq_true]
      exact ⟨⟨WMem.above_erase k hm.1.1, hm.1.2⟩, WMem.wf_erase k hm.2⟩

theorem WMem.above_insert {b : Nat} {k : Nat} (w : Word) (hb : b < k) :
    ∀ {m : WMem}, WMem.above b m = true → WMem.above b (WMem.insert m k w) = true
  | [], _ => by simp [WMem.insert, WMem.above, hb]
  | (a, v) :: m, hm => by
    simp only [WMem.above, Bool.and_eq_true, decide_eq_true_eq] at hm
    unfold WMem.insert
    split
    · simp [WMem.above, hb, hm]
    · split
      · simp [WMem.above, hb, hm]
      · simp [WMem.above, hm.1, WMem.above_insert w hb hm.2]

theorem WMem.wf_insert {k : Nat} {w : Word} (hw : w ≠ d k) :
    ∀ {m : WMem}, WMem.wf d m = true → WMem.wf d (WMem.insert m k w) = true
  | [], _ => by simp [WMem.insert, WMem.wf, WMem.above, hw]
  | (a, v) :: m, hm => by
    simp only [WMem.wf, Bool.and_eq_true, decide_eq_true_eq] at hm
    unfold WMem.insert
    split
    · rename_i h
      simp [WMem.wf, WMem.above, hw, h, hm, WMem.above_mono (Nat.le_of_lt h) hm.1.1]
    · split
      · rename_i h
        subst h
        simp [WMem.wf, hw, hm]
      · simp only [WMem.wf, Bool.and_eq_true, decide_eq_true_eq]
        exact ⟨⟨WMem.above_insert w (by omega) hm.1.1, hm.1.2⟩, WMem.wf_insert hw hm.2⟩

/-- A write keeps the canonical form. -/
theorem WMem.wf_set {m : WMem} (d : Nat → Word) (hm : WMem.wf d m = true) (k : Nat) (w : Word) : WMem.wf d (WMem.set d m k w) = true := by
  unfold WMem.set
  split
  · exact WMem.wf_erase k hm
  · exact WMem.wf_insert ‹_› hm

theorem WMem.wf_setAll (d : Nat → Word) (ws : List (Nat × Word)) : ∀ {m : WMem}, WMem.wf d m = true → WMem.wf d (WMem.setAll d m ws) = true := by
  unfold WMem.setAll
  induction ws with
  | nil => exact fun h => h
  | cons p ws ih => exact fun h => ih (WMem.wf_set d h p.1 p.2)

theorem WMem.get_above {b k : Nat} (h : k ≤ b) : ∀ {m : WMem}, WMem.above b m = true → WMem.get d m k = d k
  | [], _ => rfl
  | (a, v) :: m, hm => by
    simp only [WMem.above, Bool.and_eq_true, decide_eq_true_eq] at hm
    rw [WMem.get, if_neg (by omega), WMem.get_above h hm.2]

theorem WMem.get_insert (k j : Nat) (w : Word) : ∀ (m : WMem), WMem.wf d m = true →
    WMem.get d (WMem.insert m k w) j = if j = k then w else WMem.get d m j
  | [], _ => by
    by_cases h : j = k
    · simp [WMem.insert, WMem.get, h]
    · simp [WMem.insert, WMem.get, h, Ne.symm h]
  | (a, v) :: m, hm => by
    simp only [WMem.wf, Bool.and_eq_true, decide_eq_true_eq] at hm
    have ih := WMem.get_insert k j w m hm.2
    unfold WMem.insert
    by_cases hj : j = k
    · subst hj
      by_cases h1 : j < a
      · simp [h1, WMem.get]
      · by_cases h2 : j = a
        · simp [h2, WMem.get]
        · simp [h1, h2, WMem.get, Ne.symm h2, ih]
    · by_cases h1 : k < a
      · simp [h1, WMem.get, hj, Ne.symm hj]
      · by_cases h2 : k = a
        · subst h2
          simp [WMem.get, hj, Ne.symm hj]
        · simp [h1, h2, WMem.get, ih, hj]

theorem WMem.get_erase (k j : Nat) : ∀ (m : WMem), WMem.wf d m = true →
    WMem.get d (WMem.erase m k) j = if j = k then d k else WMem.get d m j
  | [], _ => by
    by_cases h : j = k <;> simp [WMem.erase, WMem.get, h]
  | (a, v) :: m, hm => by
    simp only [WMem.wf, Bool.and_eq_true, decide_eq_true_eq] at hm
    have ih := WMem.get_erase k j m hm.2
    unfold WMem.erase
    by_cases h2 : a = k
    · subst h2
      rw [if_pos rfl]
      by_cases hj : j = a
      · subst hj
        rw [if_pos rfl, WMem.get_above (Nat.le_refl _) hm.1.1]
      · simp [WMem.get, hj, Ne.symm hj]
    · rw [if_neg h2]
      by_cases hj : j = k
      · subst hj
        simp [WMem.get, h2, ih]
      · simp [WMem.get, ih, hj]

/-- A read after a write: the word written at its key, every other key as it was. -/
theorem WMem.get_set (m : WMem) (hm : WMem.wf d m = true) (k j : Nat) (w : Word) :
    WMem.get d (WMem.set d m k w) j = if j = k then w else WMem.get d m j := by
  unfold WMem.set
  split
  · rename_i h
    rw [WMem.get_erase k j m hm, h]
  · exact WMem.get_insert k j w m hm

end Sys2Proof.Machine
end

