-- ==== Sys2Proof/Laws/Keeps.lean ====
section
/-! SUPPORT. Sys2Proof/Laws/Keeps.lean: what an operation can do to the machine, said once: the parts it may touch, the queue, the
serial number and the invariant. Every operation has one lemma, `<operation>_keeps`; they chain with `Keeps.after`. -/

set_option Elab.async false

namespace Sys2Proof.Machine

/-- From s to t only the parts listed may differ, the serial number stands, and the invariant is kept. -/
def Keeps (L : List Part) (s t : State) : Prop :=
  State.sameBut L s t ∧ t.fram.serial = s.fram.serial ∧ (s.Inv → t.Inv)

theorem Part.same_refl (s : State) (p : Part) : Part.same s s p := by cases p <;> rfl

theorem Part.same_trans {s t u : State} {p : Part} (h : Part.same s t p) (k : Part.same t u p) : Part.same s u p := by
  cases p <;> exact Eq.trans k h

theorem Keeps.refl (L : List Part) (s : State) : Keeps L s s := ⟨⟨rfl, fun p _ => Part.same_refl s p⟩, rfl, id⟩

/-- One operation after others: what it touches must be listed. -/
theorem Keeps.after {M L : List Part} {s t u : State} (k : Keeps M t u) (h : Keeps L s t)
    (hM : M.all (L.contains ·) = true := by with_unfolding_all rfl) : Keeps L s u := by
  refine ⟨⟨k.1.1.trans h.1.1, fun p hp => ?_⟩, k.2.1.trans h.2.1, fun i => k.2.2 (h.2.2 i)⟩
  refine Part.same_trans (h.1.2 p hp) (k.1.2 p fun hm => hp ?_)
  have := List.all_eq_true.mp hM p hm
  simpa using this

theorem Keeps.mono {M L : List Part} {s t : State} (k : Keeps M s t) (hM : M.all (L.contains ·) = true := by with_unfolding_all rfl) : Keeps L s t :=
  k.after (Keeps.refl L s) hM

/-- What an operation touches is listed when a longer list is. -/
theorem Keeps.sub {M N L : List Part} (h : M.all (N.contains ·) = true) (k : N.all (L.contains ·) = true) : M.all (L.contains ·) = true := by
  simp only [List.all_eq_true, List.contains_eq_mem, decide_eq_true_eq] at *
  exact fun p hp => k p (h p hp)

theorem Keeps.next {L : List Part} {s t u : State} (k : Keeps L t u) (h : Keeps L s t) : Keeps L s u := k.after h (by simp)

theorem Keeps.left {L : List Part} {s t : State} (h : Keeps L s t) : State.sameBut L s t := h.1

/-- A part that is not listed stands. -/
theorem Keeps.part {L : List Part} {s t : State} (h : Keeps L s t) (p : Part) (hp : L.contains p = false := by with_unfolding_all rfl) :
    Part.same s t p := h.1.2 p (by simpa using hp)

theorem Keeps.ite {L : List Part} {s t u : State} {c : Prop} [Decidable c] (h : c → Keeps L s t) (k : ¬c → Keeps L s u) :
    Keeps L s (if c then t else u) := by
  split
  · exact h ‹_›
  · exact k ‹_›

/-- The second half of a pair that a match has opened. -/
theorem Keeps.ofPair {α : Type} {L : List Part} {s t : State} {p : α × State} {a : α} (e : p = (a, t)) (h : Keeps L s p.2) : Keeps L s t := by
  rw [e] at h; exact h

theorem Keeps.foldl {α : Type} {L : List Part} {s t : State} {f : State → α → State} {l : List α} (h : Keeps L s t)
    (hf : ∀ u x, Keeps L u (f u x)) : Keeps L s (l.foldl f t) := by
  induction l generalizing t with
  | nil => exact h
  | cons x xs ih => exact ih ((hf t x).after h (by simp))

/-! ## One part that an operation does not touch -/

theorem Keeps.eqNv {L : List Part} {s t : State} (h : Keeps L s t)
    (hp : L.contains .nv = false := by with_unfolding_all rfl) : t.fram.nv = s.fram.nv := h.part .nv hp

theorem Keeps.eqFram {L : List Part} {s t : State} (h : Keeps L s t)
    (hp : L.contains .fram = false := by with_unfolding_all rfl) : { t.fram with nv := [] } = { s.fram with nv := [] } := h.part .fram hp

theorem Keeps.eqAon {L : List Part} {s t : State} (h : Keeps L s t)
    (hp : L.contains .aon = false := by with_unfolding_all rfl) : t.aon = s.aon := h.part .aon hp

theorem Keeps.eqPins {L : List Part} {s t : State} (h : Keeps L s t)
    (hp : L.contains .pins = false := by with_unfolding_all rfl) : t.pins = s.pins := h.part .pins hp

theorem Keeps.eqPw {L : List Part} {s t : State} (h : Keeps L s t)
    (hp : L.contains .pw = false := by with_unfolding_all rfl) : t.pw = s.pw := h.part .pw hp

theorem Keeps.eqReg {L : List Part} {s t : State} (h : Keeps L s t)
    (hp : L.contains .reg = false := by with_unfolding_all rfl) : t.reg = s.reg := h.part .reg hp

theorem Keeps.eqCk {L : List Part} {s t : State} (h : Keeps L s t)
    (hp : L.contains .ck = false := by with_unfolding_all rfl) : t.ck = s.ck := h.part .ck hp

theorem Keeps.eqOrr {L : List Part} {s t : State} (h : Keeps L s t)
    (hp : L.contains .orr = false := by with_unfolding_all rfl) : t.orr = s.orr := h.part .orr hp

theorem Keeps.eqXb {L : List Part} {s t : State} (h : Keeps L s t)
    (hp : L.contains .xb = false := by with_unfolding_all rfl) : t.xb = s.xb := h.part .xb hp

theorem Keeps.eqAd {L : List Part} {s t : State} (h : Keeps L s t)
    (hp : L.contains .ad = false := by with_unfolding_all rfl) : t.ad = s.ad := h.part .ad hp

theorem Keeps.eqFe {L : List Part} {s t : State} (h : Keeps L s t)
    (hp : L.contains .fe = false := by with_unfolding_all rfl) : t.fe = s.fe := h.part .fe hp

theorem Keeps.eqLg {L : List Part} {s t : State} (h : Keeps L s t)
    (hp : L.contains .lg = false := by with_unfolding_all rfl) : t.lg = s.lg := h.part .lg hp

theorem Keeps.eqEv {L : List Part} {s t : State} (h : Keeps L s t)
    (hp : L.contains .ev = false := by with_unfolding_all rfl) : t.ev = s.ev := h.part .ev hp

theorem Keeps.eqSc {L : List Part} {s t : State} (h : Keeps L s t)
    (hp : L.contains .sc = false := by with_unfolding_all rfl) : t.sc = s.sc := h.part .sc hp

theorem Keeps.eqAn {L : List Part} {s t : State} (h : Keeps L s t)
    (hp : L.contains .an = false := by with_unfolding_all rfl) : t.an = s.an := h.part .an hp

theorem Keeps.eqLp {L : List Part} {s t : State} (h : Keeps L s t)
    (hp : L.contains .lp = false := by with_unfolding_all rfl) : t.lp = s.lp := h.part .lp hp

theorem Keeps.eqTn {L : List Part} {s t : State} (h : Keeps L s t)
    (hp : L.contains .tn = false := by with_unfolding_all rfl) : t.tn = s.tn := h.part .tn hp

theorem Keeps.eqDl {L : List Part} {s t : State} (h : Keeps L s t)
    (hp : L.contains .dl = false := by with_unfolding_all rfl) : t.dl = s.dl := h.part .dl hp

theorem Keeps.eqDn {L : List Part} {s t : State} (h : Keeps L s t)
    (hp : L.contains .dn = false := by with_unfolding_all rfl) : t.dn = s.dn := h.part .dn hp

theorem Keeps.eqPl {L : List Part} {s t : State} (h : Keeps L s t)
    (hp : L.contains .pl = false := by with_unfolding_all rfl) : t.pl = s.pl := h.part .pl hp

theorem Keeps.eqIrq {L : List Part} {s t : State} (h : Keeps L s t)
    (hp : L.contains .irq = false := by with_unfolding_all rfl) : t.hb.irq = s.hb.irq := h.part .irq hp

theorem Keeps.eqHb {L : List Part} {s t : State} (h : Keeps L s t)
    (hp : L.contains .hb = false := by with_unfolding_all rfl) : { t.hb with irq := 0 } = { s.hb with irq := 0 } := h.part .hb hp

/-- Neither half of FRAM is touched. -/
theorem Keeps.eqFramAll {L : List Part} {s t : State} (h : Keeps L s t) (hp : L.contains .fram = false := by with_unfolding_all rfl)
    (hn : L.contains .nv = false := by with_unfolding_all rfl) : t.fram = s.fram := by
  have a := h.eqFram hp
  have b := h.eqNv hn
  cases hs : s.fram
  cases ht : t.fram
  simp_all

/-- Neither half of the host bus is touched. -/
theorem Keeps.eqHbAll {L : List Part} {s t : State} (h : Keeps L s t) (hp : L.contains .hb = false := by with_unfolding_all rfl)
    (hn : L.contains .irq = false := by with_unfolding_all rfl) : t.hb = s.hb := by
  have a := h.eqHb hp
  have b := h.eqIrq hn
  cases hs : s.hb
  cases ht : t.hb
  simp_all

/-- A record update: each part is listed or stands, and what the invariant speaks of keeps it. -/
theorem Keeps.upd {L : List Part} {s t : State} (h : Keeps L s t) {fr : Fram} {ao : Aon} {pi : Pins} {pw : Pw} {re : Reg} {ck : Ck} {oo : Orr} {xb : Xb} {ad : Ad} {fe : Fe} {lg : Lg} {ev : Ev} {sc : Sc} {an : An} {lp : Lp} {tn : Tn} {dl : Dl} {dn : Dn} {pl : Pl} {hb : Hb} {dr : Nat}
    (h1 : L.contains .nv = true ∨ fr.nv = t.fram.nv := by first | exact Or.inl (by with_unfolding_all rfl) | with_reducible exact Or.inr rfl | exact Or.inr (by split <;> rfl))
    (h2 : L.contains .fram = true ∨ { fr with nv := [] } = { t.fram with nv := [] } := by first | exact Or.inl (by with_unfolding_all rfl) | with_reducible exact Or.inr rfl)
    (h3 : fr.serial = t.fram.serial := by first | with_reducible rfl | (split <;> rfl))
    (h4 : t.fram.ok → fr.ok := by first | with_reducible exact fun h => h | (intro h; unfold Fram.ok at h ⊢; with_reducible exact h) | (intro h; unfold Fram.ok at h ⊢; split <;> with_reducible exact h))
    (h_ao : L.contains .aon = true ∨ ao = t.aon := by first | exact Or.inl (by with_unfolding_all rfl) | with_reducible exact Or.inr rfl)
    (h_pi : L.contains .pins = true ∨ pi = t.pins := by first | exact Or.inl (by with_unfolding_all rfl) | with_reducible exact Or.inr rfl)
    (h_pw : L.contains .pw = true ∨ pw = t.pw := by first | exact Or.inl (by with_unfolding_all rfl) | with_reducible exact Or.inr rfl)
    (h_re : L.contains .reg = true ∨ re = t.reg := by first | exact Or.inl (by with_unfolding_all rfl) | with_reducible exact Or.inr rfl)
    (h_ck : L.contains .ck = true ∨ ck = t.ck := by first | exact Or.inl (by with_unfolding_all rfl) | with_reducible exact Or.inr rfl)
    (h_oo : L.contains .orr = true ∨ oo = t.orr := by first | exact Or.inl (by with_unfolding_all rfl) | with_reducible exact Or.inr rfl)
    (h_xb : L.contains .xb = true ∨ xb = t.xb := by first | exact Or.inl (by with_unfolding_all rfl) | with_reducible exact Or.inr rfl)
    (h_ad : L.contains .ad = true ∨ ad = t.ad := by first | exact Or.inl (by with_unfolding_all rfl) | with_reducible exact Or.inr rfl)
    (h_fe : L.contains .fe = true ∨ fe = t.fe := by first | exact Or.inl (by with_unfolding_all rfl) | with_reducible exact Or.inr rfl)
    (h_lg : L.contains .lg = true ∨ lg = t.lg := by first | exact Or.inl (by with_unfolding_all rfl) | with_reducible exact Or.inr rfl)
    (h_ev : L.contains .ev = true ∨ ev = t.ev := by first | exact Or.inl (by with_unfolding_all rfl) | with_reducible exact Or.inr rfl)
    (i_ev : t.ev.ok → ev.ok := by first | with_reducible exact fun h => h | (intro h; unfold Ev.ok at h ⊢; with_reducible exact h) | (intro h; unfold Ev.ok at h ⊢; split <;> with_reducible exact h))
    (h_sc : L.contains .sc = true ∨ sc = t.sc := by first | exact Or.inl (by with_unfolding_all rfl) | with_reducible exact Or.inr rfl)
    (h_an : L.contains .an = true ∨ an = t.an := by first | exact Or.inl (by with_unfolding_all rfl) | with_reducible exact Or.inr rfl)
    (h_lp : L.contains .lp = true ∨ lp = t.lp := by first | exact Or.inl (by with_unfolding_all rfl) | with_reducible exact Or.inr rfl)
    (h_tn : L.contains .tn = true ∨ tn = t.tn := by first | exact Or.inl (by with_unfolding_all rfl) | with_reducible exact Or.inr rfl)
    (i_tn : t.tn.ok → tn.ok := by first | with_reducible exact fun h => h | (intro h; unfold Tn.ok at h ⊢; with_reducible exact h) | (intro h; unfold Tn.ok at h ⊢; split <;> with_reducible exact h))
    (h_dl : L.contains .dl = true ∨ dl = t.dl := by first | exact Or.inl (by with_unfolding_all rfl) | with_reducible exact Or.inr rfl)
    (h_dn : L.contains .dn = true ∨ dn = t.dn := by first | exact Or.inl (by with_unfolding_all rfl) | with_reducible exact Or.inr rfl)
    (i_dn : t.dn.ok → dn.ok := by first | with_reducible exact fun h => h | (intro h; unfold Dn.ok at h ⊢; with_reducible exact h) | (intro h; unfold Dn.ok at h ⊢; split <;> with_reducible exact h))
    (h_pl : L.contains .pl = true ∨ pl = t.pl := by first | exact Or.inl (by with_unfolding_all rfl) | with_reducible exact Or.inr rfl)
    (i_pl : t.pl.ok → pl.ok := by first | with_reducible exact fun h => h | (intro h; unfold Pl.ok at h ⊢; with_reducible exact h) | (intro h; unfold Pl.ok at h ⊢; split <;> with_reducible exact h))
    (h5 : L.contains .irq = true ∨ hb.irq = t.hb.irq := by first | exact Or.inl (by with_unfolding_all rfl) | with_reducible exact Or.inr rfl)
    (h6 : L.contains .hb = true ∨ { hb with irq := 0 } = { t.hb with irq := 0 } := by first | exact Or.inl (by with_unfolding_all rfl) | with_reducible exact Or.inr rfl)
    (h7 : t.hb.ok → hb.ok := by first | with_reducible exact fun h => h | (intro h; unfold Hb.ok at h ⊢; with_reducible exact h) | (intro h; unfold Hb.ok at h ⊢; split <;> with_reducible exact h)) :
    Keeps L s (State.mk t.pending fr ao pi pw re ck oo xb ad fe lg ev sc an lp tn dl dn pl hb dr) := by
  refine ⟨⟨h.1.1, fun p hp => Part.same_trans (h.1.2 p hp) ?_⟩, h3.trans h.2.1, fun i => ?_⟩
  · have e : ∀ {q : Part} {P : Prop}, q ∉ L → (L.contains q = true ∨ P) → P := fun hq k => k.resolve_left (by simpa using hq)
    cases p with
    | nv => exact e hp h1
    | fram => exact e hp h2
    | aon => exact e hp h_ao
    | pins => exact e hp h_pi
    | pw => exact e hp h_pw
    | reg => exact e hp h_re
    | ck => exact e hp h_ck
    | orr => exact e hp h_oo
    | xb => exact e hp h_xb
    | ad => exact e hp h_ad
    | fe => exact e hp h_fe
    | lg => exact e hp h_lg
    | ev => exact e hp h_ev
    | sc => exact e hp h_sc
    | an => exact e hp h_an
    | lp => exact e hp h_lp
    | tn => exact e hp h_tn
    | dl => exact e hp h_dl
    | dn => exact e hp h_dn
    | pl => exact e hp h_pl
    | irq => exact e hp h5
    | hb => exact e hp h6
  · obtain ⟨a, b, c, d, x, f⟩ := h.2.2 i
    exact ⟨h4 a, i_ev b, h7 c, i_tn d, i_dn x, i_pl f⟩

end Sys2Proof.Machine
end

