-- ==== Sys2Proof/Laws/KeepsBlocks.lean ====
section
/-! SUPPORT. Sys2Proof/Laws/KeepsBlocks.lean: what each operation may touch: the operations of the blocks: flow, loop, conversion, bridge, Orrery, regulator, clocks. -/

set_option Elab.async false

set_option linter.unusedTactic false
set_option linter.unreachableTactic false

namespace Sys2Proof.Machine

/-! ## Machine/Ops.lean -/

theorem State.when_keeps {L : List Part} (s : State) (b : Bool) (f : State → State) (h0 : ∀ y0, Keeps L y0 (f y0)) (hL : List.all [] (L.contains ·) = true) :
    Keeps L s (State.when s b f) := by
  unfold State.when
  try dsimp only
  with_reducible repeat' first
    | exact Keeps.refl _ _ | refine Keeps.ite (fun _ => ?_) (fun _ => ?_) | refine (h0 _ ).next ?_
    | fail_if_no_progress (refine (Keeps.upd (L := []) (Keeps.refl _ _)).after ?_ hL)

theorem State.draw_keeps (s : State) : Keeps [] s (State.draw s).2 := by
  unfold State.draw
  try dsimp only
  with_reducible repeat' first
    | exact Keeps.refl _ _ | refine Keeps.ite (fun _ => ?_) (fun _ => ?_) | fail_if_no_progress (refine Keeps.upd ?_) | split

theorem State.nvPut_keeps (s : State) (k : Nat) (w : Word) : Keeps [.nv, .hb] s (State.nvPut s k w) := by
  unfold State.nvPut
  refine Keeps.upd (Keeps.refl _ _) (h4 := fun h => ⟨WMem.wf_set _ h.1 k w, h.2⟩) (h7 := fun h => ?_)
  refine ⟨by simpa using h.1, fun r hr p hp => ?_⟩
  simp only [List.mem_map] at hr
  obtain ⟨r', hr', rfl⟩ := hr
  simp only [RowWrite.put, List.mem_map] at hp ⊢
  obtain ⟨q, hq, rfl⟩ := hp
  have := h.2 r' hr' q hq
  split
  · rename_i hk; rw [← this, hk]
  · exact this

theorem State.nvPutAll_keeps (s : State) (ws : List (Nat × Word)) : Keeps [.nv, .hb] s (State.nvPutAll s ws) := by
  unfold State.nvPutAll
  exact Keeps.foldl (Keeps.refl _ _) fun t p => State.nvPut_keeps t p.1 p.2

theorem State.logEv_keeps (s : State) (code : Word) (data : Nat) : Keeps [.ev] s (State.logEv s code data) := by
  unfold State.logEv
  split
  · refine Keeps.upd (Keeps.refl _ _) (i_ev := fun _ => ?_)
    simp only [Ev.ok, List.length_append, List.length_singleton]
    omega
  · exact Keeps.upd (Keeps.refl _ _)

theorem State.irq_keeps (s : State) (n : Nat) : Keeps [.irq] s (State.irq s n) := by
  unfold State.irq
  try dsimp only
  with_reducible repeat' first
    | exact Keeps.refl _ _ | refine Keeps.ite (fun _ => ?_) (fun _ => ?_) | fail_if_no_progress (refine Keeps.upd ?_)

theorem State.pinned_keeps (s : State) (block word : Nat) (v : Word) : Keeps [.ev, .pl] s (State.pinned s block word v) := by
  unfold State.pinned
  try dsimp only
  with_reducible repeat' first
    | exact Keeps.refl _ _ | refine Keeps.ite (fun _ => ?_) (fun _ => ?_) | refine (State.logEv_keeps ..).after ?_
    | fail_if_no_progress (refine Keeps.upd ?_)

theorem State.logOnce_keeps (s : State) (code : Word) (data : Nat) : Keeps [.ev, .hb] s (State.logOnce s code data) := by
  unfold State.logOnce
  try dsimp only
  with_reducible repeat' first
    | exact Keeps.refl _ _ | refine Keeps.ite (fun _ => ?_) (fun _ => ?_) | refine (State.logEv_keeps ..).after ?_
    | fail_if_no_progress (refine Keeps.upd ?_)

theorem State.busViolation_keeps (s : State) (code : Word) (flag data : Nat) :
    Keeps [.ev, .hb] s (State.busViolation s code flag data) := by
  unfold State.busViolation
  try dsimp only
  with_reducible repeat' first
    | exact Keeps.refl _ _ | refine Keeps.ite (fun _ => ?_) (fun _ => ?_) | refine (State.logOnce_keeps ..).after ?_
    | fail_if_no_progress (refine Keeps.upd ?_)

theorem State.bufferRow_ok {rows r : List RowWrite} {k : Nat} {w : Word} (h : bufferRow rows k w = some r)
    (hr : rows.length ≤ 2 ∧ ∀ r ∈ rows, ∀ p ∈ r.words, p.1 / 16 = r.row) :
    r.length ≤ 2 ∧ ∀ x ∈ r, ∀ p ∈ x.words, p.1 / 16 = x.row := by
  unfold bufferRow at h
  split at h
  · cases h
    refine ⟨by simpa using hr.1, fun x hx p hp => ?_⟩
    simp only [List.mem_map] at hx
    obtain ⟨y, hy, rfl⟩ := hx
    split at hp
    · rename_i hk
      simp only [List.mem_append, List.mem_singleton] at hp
      rw [if_pos hk]
      rcases hp with hp | rfl
      · exact hr.2 y hy p hp
      · exact hk.symm
    · rename_i hk
      rw [if_neg hk]
      exact hr.2 y hy p hp
  · split at h
    · cases h
      refine ⟨by simp only [List.length_append, List.length_singleton]; omega, fun x hx p hp => ?_⟩
      simp only [List.mem_append, List.mem_singleton] at hx
      rcases hx with hx | rfl
      · exact hr.2 x hx p hp
      · simp only [List.mem_singleton] at hp
        rw [hp]
    · cases h

theorem State.nvWrite_keeps (s : State) (reg : Nat) (word : Nat) (k : Nat) (w : Word) : Keeps [.ev, .hb] s (State.nvWrite s reg word k w) := by
  unfold State.nvWrite
  split
  · split
    · exact Keeps.upd (Keeps.refl _ _) (h7 := fun h => State.bufferRow_ok ‹_› h)
    · exact (State.busViolation_keeps ..).mono rfl
  · exact (State.busViolation_keeps ..).mono rfl

theorem State.queueChange_keeps (s : State) (c : Change) : Keeps [.lg] s (State.queueChange s c) := by
  unfold State.queueChange
  try dsimp only
  with_reducible repeat' first
    | exact Keeps.refl _ _ | refine Keeps.ite (fun _ => ?_) (fun _ => ?_) | fail_if_no_progress (refine Keeps.upd ?_)

theorem State.refuseFull_keeps (s : State) (what : Nat) : Keeps [.ev, .irq] s (State.refuseFull s what) := by
  unfold State.refuseFull
  try dsimp only
  with_reducible repeat' first
    | exact Keeps.refl _ _ | refine Keeps.ite (fun _ => ?_) (fun _ => ?_) | refine (State.logEv_keeps ..).after ?_
    | refine (State.irq_keeps ..).after ?_ | fail_if_no_progress (refine Keeps.upd ?_)

theorem State.audited_keeps (s : State) (what : Nat) (c : Change) : Keeps [.lg, .ev, .irq] s (State.audited s what c) := by
  unfold State.audited
  try dsimp only
  with_reducible repeat' first
    | exact Keeps.refl _ _ | refine Keeps.ite (fun _ => ?_) (fun _ => ?_) | refine (State.logEv_keeps ..).after ?_
    | refine (State.refuseFull_keeps ..).after ?_ | refine (State.queueChange_keeps ..).after ?_ | fail_if_no_progress (refine Keeps.upd ?_)

theorem State.gate_keeps {L : List Part} (s : State) (what : Nat) (f : State → State) (h0 : ∀ y0, Keeps L y0 (f y0)) (hL : List.all [.ev] (L.contains ·) = true) :
    Keeps L s (State.gate s what f) := by
  unfold State.gate
  try dsimp only
  with_reducible repeat' first
    | exact Keeps.refl _ _ | refine Keeps.ite (fun _ => ?_) (fun _ => ?_) | refine (h0 _ ).next ?_
    | refine (State.logEv_keeps ..).after ?_ (Keeps.sub (by with_unfolding_all rfl) hL)
    | fail_if_no_progress (refine (Keeps.upd (L := [.ev]) (Keeps.refl _ _)).after ?_ hL)

theorem State.propose_keeps (s : State) (what : Nat) (changed : Bool) (c : Change) :
    Keeps [.lg, .ev, .irq] s (State.propose s what changed c) := by
  unfold State.propose
  try dsimp only
  with_reducible repeat' first
    | exact Keeps.refl _ _ | refine Keeps.ite (fun _ => ?_) (fun _ => ?_) | refine (State.refuseFull_keeps ..).after ?_
    | refine (State.queueChange_keeps ..).after ?_ | fail_if_no_progress (refine Keeps.upd ?_)

theorem State.sealedWrite_keeps (s : State) (what : Nat) (changed : Bool) (c : Change) :
    Keeps [.lg, .ev, .irq] s (State.sealedWrite s what changed c) := by
  unfold State.sealedWrite
  try dsimp only
  with_reducible repeat' first
    | exact Keeps.refl _ _ | refine Keeps.ite (fun _ => ?_) (fun _ => ?_)
    | refine (State.gate_keeps (L := [.lg, .ev, .irq]) (h0 := fun _ => ?_) (hL := by with_unfolding_all rfl) ..).next ?_
    | refine (State.propose_keeps ..).after ?_ | fail_if_no_progress (refine Keeps.upd ?_)

theorem State.auditEntry_keeps (s : State) (code : Word) (data : Nat) : Keeps [.fram, .lg, .ev, .irq] s (State.auditEntry s code data) := by
  unfold State.auditEntry
  try dsimp only
  with_reducible repeat' first
    | exact Keeps.refl _ _ | refine Keeps.ite (fun _ => ?_) (fun _ => ?_) | refine (State.logEv_keeps ..).after ?_
    | refine (State.irq_keeps ..).after ?_ | fail_if_no_progress (refine Keeps.upd ?_)

theorem State.exhaust_keeps (s : State) : Keeps [.lg, .ev] s (State.exhaust s) := by
  unfold State.exhaust
  try dsimp only
  with_reducible repeat' first
    | exact Keeps.refl _ _ | refine Keeps.ite (fun _ => ?_) (fun _ => ?_) | refine (State.logEv_keeps ..).after ?_
    | fail_if_no_progress (refine Keeps.upd ?_)

theorem State.beginCommit_keeps (s : State) (w : Waiting) : Keeps [.lg, .ev] s (State.beginCommit s w) := by
  unfold State.beginCommit
  try dsimp only
  with_reducible repeat' first
    | exact Keeps.refl _ _ | refine Keeps.ite (fun _ => ?_) (fun _ => ?_) | refine (State.exhaust_keeps ..).after ?_
    | fail_if_no_progress (refine Keeps.upd ?_)

theorem State.trigger_keeps (s : State) (reason : Byte) (disc : Bool) (sweeps : List (Word32 × Word32)) :
    Keeps [.lg, .ev] s (State.trigger s reason disc sweeps) := by
  unfold State.trigger
  try dsimp only
  with_reducible repeat' first
    | exact Keeps.refl _ _ | refine Keeps.ite (fun _ => ?_) (fun _ => ?_) | refine (State.beginCommit_keeps ..).after ?_
    | fail_if_no_progress (refine Keeps.upd ?_) | split

theorem State.joinTrigger_keeps (s : State) (sweep : Word32) (sweeps : List (Word32 × Word32)) :
    Keeps [.lg, .ev] s (State.joinTrigger s sweep sweeps) := by
  unfold State.joinTrigger
  try dsimp only
  with_reducible repeat' first
    | exact Keeps.refl _ _ | refine Keeps.ite (fun _ => ?_) (fun _ => ?_) | refine (State.trigger_keeps ..).after ?_
    | fail_if_no_progress (refine Keeps.upd ?_) | split

/-! ## Machine/Flow.lean -/

theorem State.ferr_keeps (s : State) (step qty : Nat) : Keeps [.fe, .ev] s (State.ferr s step qty) := by
  unfold State.ferr
  try dsimp only
  with_reducible repeat' first
    | exact Keeps.refl _ _ | refine Keeps.ite (fun _ => ?_) (fun _ => ?_) | refine (State.logEv_keeps ..).after ?_
    | fail_if_no_progress (refine Keeps.upd ?_)

theorem State.rangeEvents_keeps (s : State) (out : List (Nat × F32)) : Keeps [.fe, .ev, .irq] s (State.rangeEvents s out) := by
  unfold State.rangeEvents
  try dsimp only
  with_reducible repeat' first
    | exact Keeps.refl _ _ | refine Keeps.ite (fun _ => ?_) (fun _ => ?_) | refine (State.logEv_keeps ..).after ?_
    | refine (State.irq_keeps ..).after ?_ | refine Keeps.foldl ?_ (fun _ _ => ?_) | fail_if_no_progress (refine Keeps.upd ?_)

theorem State.wetEvents_keeps (s : State) (sh : Option F32) : Keeps [.fe, .ev, .irq] s (State.wetEvents s sh) := by
  unfold State.wetEvents
  try dsimp only
  with_reducible repeat' first
    | exact Keeps.refl _ _ | refine Keeps.ite (fun _ => ?_) (fun _ => ?_) | refine (State.logEv_keeps ..).after ?_
    | refine (State.irq_keeps ..).after ?_ | fail_if_no_progress (refine Keeps.upd ?_) | split

theorem State.queueBatch_keeps (s : State) (cs : List Change) : Keeps [.lg] s (State.queueBatch s cs) := by
  induction cs generalizing s with
  | nil => exact Keeps.refl _ _
  | cons c cs ih =>
    cases cs with
    | nil => exact State.queueChange_keeps ..
    | cons d ds => exact (ih _).next (State.queueChange_keeps ..)

theorem State.releaseHeld_keeps (s : State) : Keeps [.fe, .lg, .ev, .irq] s (State.releaseHeld s) := by
  unfold State.releaseHeld
  try dsimp only
  with_reducible repeat' first
    | exact Keeps.refl _ _ | refine Keeps.ite (fun _ => ?_) (fun _ => ?_) | refine (State.refuseFull_keeps ..).after ?_
    | refine (State.queueBatch_keeps ..).after ?_ | refine Keeps.foldl ?_ (fun _ _ => ?_) | fail_if_no_progress (refine Keeps.upd ?_)

theorem State.feUpdate_keeps (s : State) : Keeps [.fe, .lg, .ev, .irq] s (State.feUpdate s) := by
  unfold State.feUpdate
  try dsimp only
  with_reducible repeat' first
    | exact Keeps.refl _ _ | refine Keeps.ite (fun _ => ?_) (fun _ => ?_) | refine (State.releaseHeld_keeps ..).after ?_
    | refine (State.ferr_keeps ..).after ?_ | refine (State.rangeEvents_keeps ..).after ?_ | refine (State.wetEvents_keeps ..).after ?_
    | fail_if_no_progress (refine Keeps.upd ?_) | split

theorem State.toothIncrement_keeps (s : State) (pitch nominal : Nat × Nat) (rev : Bool) :
    Keeps [.fe, .ev] s (State.toothIncrement s pitch nominal rev).2 := by
  unfold State.toothIncrement
  try dsimp only
  with_reducible repeat' first
    | exact Keeps.refl _ _ | refine Keeps.ite (fun _ => ?_) (fun _ => ?_) | refine (State.ferr_keeps ..).after ?_
    | fail_if_no_progress (refine Keeps.upd ?_) | split

theorem State.dropPending_keeps (s : State) (inc : List F32) : Keeps [.fe] s (State.dropPending s inc) := by
  unfold State.dropPending
  try dsimp only
  with_reducible repeat' first
    | exact Keeps.refl _ _ | refine Keeps.ite (fun _ => ?_) (fun _ => ?_) | fail_if_no_progress (refine Keeps.upd ?_)

theorem State.addTotal_keeps (s : State) (n : Nat) (x : F32) : Keeps [.lg, .ev] s (State.addTotal s n x) := by
  unfold State.addTotal
  try dsimp only
  with_reducible repeat' first
    | exact Keeps.refl _ _ | refine Keeps.ite (fun _ => ?_) (fun _ => ?_) | refine (State.logEv_keeps ..).after ?_
    | fail_if_no_progress (refine Keeps.upd ?_) | split

theorem State.commitInc_keeps (s : State) (inc : List F32) : Keeps [.fe, .lg, .ev] s (State.commitInc s inc) := by
  unfold State.commitInc
  try dsimp only
  with_reducible repeat' first
    | exact Keeps.refl _ _ | refine Keeps.ite (fun _ => ?_) (fun _ => ?_) | refine (State.addTotal_keeps ..).after ?_
    | refine Keeps.foldl ?_ (fun _ _ => ?_) | fail_if_no_progress (refine Keeps.upd ?_)

theorem State.confirmInc_keeps (s : State) (inc : List F32) : Keeps [.fe, .lg, .ev] s (State.confirmInc s inc) := by
  unfold State.confirmInc
  try dsimp only
  with_reducible repeat' first
    | exact Keeps.refl _ _ | refine Keeps.ite (fun _ => ?_) (fun _ => ?_) | refine (State.dropPending_keeps ..).after ?_
    | refine (State.commitInc_keeps ..).after ?_ | fail_if_no_progress (refine Keeps.upd ?_)

theorem State.totaliseQ_keeps (s : State) (q : F32) (ms : Nat) (step : Nat) : Keeps [.fe, .lg, .ev] s (State.totaliseQ s q ms step) := by
  unfold State.totaliseQ
  try dsimp only
  with_reducible repeat' first
    | exact Keeps.refl _ _ | refine Keeps.ite (fun _ => ?_) (fun _ => ?_) | refine (State.ferr_keeps ..).after ?_
    | refine (State.commitInc_keeps ..).after ?_ | fail_if_no_progress (refine Keeps.upd ?_) | split

theorem State.setFlows_keeps (s : State) (step : Nat) (qv : F32) : Keeps [.fe, .ev] s (State.setFlows s step qv) := by
  unfold State.setFlows
  try dsimp only
  with_reducible repeat' first
    | exact Keeps.refl _ _ | refine Keeps.ite (fun _ => ?_) (fun _ => ?_) | refine (State.ferr_keeps ..).after ?_
    | fail_if_no_progress (refine Keeps.upd ?_) | split

theorem State.magUpTo_keeps (s : State) : Keeps [.fe, .lg, .ev] s (State.magUpTo s) := by
  unfold State.magUpTo
  try dsimp only
  with_reducible repeat' first
    | exact Keeps.refl _ _ | refine Keeps.ite (fun _ => ?_) (fun _ => ?_) | refine (State.totaliseQ_keeps ..).after ?_
    | fail_if_no_progress (refine Keeps.upd ?_)

theorem State.feUpdateNow_keeps (s : State) : Keeps [.fe, .lg, .ev, .irq] s (State.feUpdateNow s) := by
  unfold State.feUpdateNow
  try dsimp only
  with_reducible repeat' first
    | exact Keeps.refl _ _ | refine Keeps.ite (fun _ => ?_) (fun _ => ?_) | refine (State.magUpTo_keeps ..).after ?_
    | refine (State.feUpdate_keeps ..).after ?_ | fail_if_no_progress (refine Keeps.upd ?_)

theorem State.emptyEnter_keeps (s : State) (test : Nat) : Keeps [.fe, .ev, .irq] s (State.emptyEnter s test) := by
  unfold State.emptyEnter
  try dsimp only
  with_reducible repeat' first
    | exact Keeps.refl _ _ | refine Keeps.ite (fun _ => ?_) (fun _ => ?_) | refine (State.logEv_keeps ..).after ?_
    | refine (State.irq_keeps ..).after ?_ | fail_if_no_progress (refine Keeps.upd ?_)

theorem State.emptyByCommon_keeps (s : State) : Keeps [.fe, .lg, .ev, .irq] s (State.emptyByCommon s) := by
  unfold State.emptyByCommon
  try dsimp only
  with_reducible repeat' first
    | exact Keeps.refl _ _ | refine Keeps.ite (fun _ => ?_) (fun _ => ?_) | refine (State.magUpTo_keeps ..).after ?_
    | refine (State.emptyEnter_keeps ..).after ?_ | refine (State.setFlows_keeps ..).after ?_ | fail_if_no_progress (refine Keeps.upd ?_)

theorem State.emptyPipe_keeps (s : State) : Keeps [.fe, .ev, .irq] s (State.emptyPipe s) := by
  unfold State.emptyPipe
  try dsimp only
  with_reducible repeat' first
    | exact Keeps.refl _ _ | refine Keeps.ite (fun _ => ?_) (fun _ => ?_) | refine (State.logEv_keeps ..).after ?_
    | refine (State.emptyEnter_keeps ..).after ?_ | fail_if_no_progress (refine Keeps.upd ?_) | split

theorem State.clearPair_keeps (s : State) : Keeps [.xb, .ad, .fe] s (State.clearPair s) := by
  unfold State.clearPair
  try dsimp only
  with_reducible repeat' first
    | exact Keeps.refl _ _ | refine Keeps.ite (fun _ => ?_) (fun _ => ?_) | fail_if_no_progress (refine Keeps.upd ?_)

theorem State.truncPair_keeps (s : State) : Keeps [.xb, .ad, .fe] s (State.truncPair s) := by
  unfold State.truncPair
  try dsimp only
  with_reducible repeat' first
    | exact Keeps.refl _ _ | refine Keeps.ite (fun _ => ?_) (fun _ => ?_) | refine (State.clearPair_keeps ..).after ?_
    | fail_if_no_progress (refine Keeps.upd ?_)

theorem State.pairEnd_keeps (s : State) (elapsed : Nat) : Keeps [.xb, .ad, .fe, .lg, .ev, .irq] s (State.pairEnd s elapsed) := by
  unfold State.pairEnd
  try dsimp only
  with_reducible repeat' first
    | exact Keeps.refl _ _ | refine Keeps.ite (fun _ => ?_) (fun _ => ?_) | refine (State.truncPair_keeps ..).after ?_
    | refine (State.totaliseQ_keeps ..).after ?_ | refine (State.emptyPipe_keeps ..).after ?_ | refine (State.setFlows_keeps ..).after ?_
    | refine (State.ferr_keeps ..).after ?_ | refine (State.clearPair_keeps ..).after ?_ | fail_if_no_progress (refine Keeps.upd ?_)

theorem State.loopBTotalise_keeps (s : State) (code : BitVec 24) (cycles : Nat) :
    Keeps [.fe, .lg, .ev] s (State.loopBTotalise s code cycles) := by
  unfold State.loopBTotalise
  try dsimp only
  with_reducible repeat' first
    | exact Keeps.refl _ _ | refine Keeps.ite (fun _ => ?_) (fun _ => ?_) | refine (State.ferr_keeps ..).after ?_
    | refine (State.commitInc_keeps ..).after ?_ | refine (State.setFlows_keeps ..).after ?_ | fail_if_no_progress (refine Keeps.upd ?_)
    | split

theorem State.takeSource_keeps (s : State) : Keeps [.fe] s (State.takeSource s) := by
  unfold State.takeSource
  try dsimp only
  with_reducible repeat' first
    | exact Keeps.refl _ _ | refine Keeps.ite (fun _ => ?_) (fun _ => ?_) | fail_if_no_progress (refine Keeps.upd ?_)

theorem State.feSecond_keeps (s : State) : Keeps [.fe, .lg, .ev, .irq] s (State.feSecond s) := by
  unfold State.feSecond
  try dsimp only
  with_reducible repeat' first
    | exact Keeps.refl _ _ | refine Keeps.ite (fun _ => ?_) (fun _ => ?_) | refine (State.magUpTo_keeps ..).after ?_
    | refine (State.setFlows_keeps ..).after ?_ | refine (State.feUpdate_keeps ..).after ?_ | refine (State.takeSource_keeps ..).after ?_
    | fail_if_no_progress (refine Keeps.upd ?_)

theorem State.recommend_keeps (s : State) (differs : Bool) (what noise : Nat) :
    Keeps [.fe, .ev, .irq] s (State.recommend s differs what noise) := by
  unfold State.recommend
  try dsimp only
  with_reducible repeat' first
    | exact Keeps.refl _ _ | refine Keeps.ite (fun _ => ?_) (fun _ => ?_) | refine (State.logEv_keeps ..).after ?_
    | refine (State.irq_keeps ..).after ?_ | fail_if_no_progress (refine Keeps.upd ?_)

theorem State.converterBlock_keeps (s : State) : Keeps [.fe] s (State.converterBlock s) := by
  unfold State.converterBlock
  try dsimp only
  with_reducible repeat' first
    | exact Keeps.refl _ _ | refine Keeps.ite (fun _ => ?_) (fun _ => ?_) | fail_if_no_progress (refine Keeps.upd ?_)

theorem State.evalMag_keeps (s : State) : Keeps [.fe, .ev, .irq] s (State.evalMag s) := by
  unfold State.evalMag
  try dsimp only
  with_reducible repeat' first
    | exact Keeps.refl _ _ | refine Keeps.ite (fun _ => ?_) (fun _ => ?_) | refine (State.recommend_keeps ..).after ?_
    | fail_if_no_progress (refine Keeps.upd ?_)

theorem State.evalVor_keeps (s : State) : Keeps [.fe, .ev, .irq] s (State.evalVor s) := by
  unfold State.evalVor
  try dsimp only
  with_reducible repeat' first
    | exact Keeps.refl _ _ | refine Keeps.ite (fun _ => ?_) (fun _ => ?_) | refine (State.recommend_keeps ..).after ?_
    | fail_if_no_progress (refine Keeps.upd ?_) | split

theorem State.applyAdapt_keeps (s : State) : Keeps [.lg, .ev, .irq] s (State.applyAdapt s) := by
  unfold State.applyAdapt
  try dsimp only
  with_reducible repeat' first
    | exact Keeps.refl _ _ | refine Keeps.ite (fun _ => ?_) (fun _ => ?_) | refine (State.refuseFull_keeps ..).after ?_
    | refine (State.queueChange_keeps ..).after ?_ | fail_if_no_progress (refine Keeps.upd ?_)

/-! ## Machine/Loop.lean -/

theorem State.zeroDac_keeps (s : State) (aux : Bool) (cause : Nat) : Keeps [.ad, .ev] s (State.zeroDac s aux cause) := by
  unfold State.zeroDac
  try dsimp only
  with_reducible repeat' first
    | exact Keeps.refl _ _ | refine Keeps.ite (fun _ => ?_) (fun _ => ?_) | refine (State.logEv_keeps ..).after ?_
    | fail_if_no_progress (refine Keeps.upd ?_)

theorem State.zeroDacs_keeps (s : State) (cause : Nat) : Keeps [.ad, .ev] s (State.zeroDacs s cause) := by
  unfold State.zeroDacs
  try dsimp only
  with_reducible repeat' first
    | exact Keeps.refl _ _ | refine Keeps.ite (fun _ => ?_) (fun _ => ?_) | refine (State.zeroDac_keeps ..).after ?_
    | fail_if_no_progress (refine Keeps.upd ?_)

theorem State.amodeEvents_keeps (s : State) (before after : BitVec 3) : Keeps [.ev, .lp, .irq] s (State.amodeEvents s before after) := by
  unfold State.amodeEvents
  try dsimp only
  with_reducible repeat' first
    | exact Keeps.refl _ _ | refine Keeps.ite (fun _ => ?_) (fun _ => ?_) | refine (State.logEv_keeps ..).after ?_
    | refine (State.irq_keeps ..).after ?_ | fail_if_no_progress (refine Keeps.upd ?_)

theorem State.toFallback_keeps (s : State) : Keeps [.ev, .lp, .irq] s (State.toFallback s) := by
  unfold State.toFallback
  try dsimp only
  with_reducible repeat' first
    | exact Keeps.refl _ _ | refine Keeps.ite (fun _ => ?_) (fun _ => ?_) | refine (State.amodeEvents_keeps ..).after ?_
    | fail_if_no_progress (refine Keeps.upd ?_)

theorem State.loopATick_keeps (s : State) : Keeps [.ad, .ev, .lp, .irq] s (State.loopATick s) := by
  unfold State.loopATick
  try dsimp only
  with_reducible repeat' first
    | exact Keeps.refl _ _ | refine Keeps.ite (fun _ => ?_) (fun _ => ?_) | refine (State.amodeEvents_keeps ..).after ?_
    | fail_if_no_progress (refine Keeps.upd ?_)

theorem State.writeDaLoop_keeps (s : State) (v : Word) : Keeps [.ad, .lp] s (State.writeDaLoop s v) := by
  unfold State.writeDaLoop
  try dsimp only
  with_reducible repeat' first
    | exact Keeps.refl _ _ | refine Keeps.ite (fun _ => ?_) (fun _ => ?_) | fail_if_no_progress (refine Keeps.upd ?_)

theorem State.clearReadback_keeps (s : State) : Keeps [.lp] s (State.clearReadback s) := by
  unfold State.clearReadback
  try dsimp only
  with_reducible repeat' first
    | exact Keeps.refl _ _ | refine Keeps.ite (fun _ => ?_) (fun _ => ?_) | fail_if_no_progress (refine Keeps.upd ?_)

theorem State.loopFault_keeps (s : State) : Keeps [.ad, .ev, .lp, .pl, .irq] s (State.loopFault s) := by
  unfold State.loopFault
  try dsimp only
  with_reducible repeat' first
    | exact Keeps.refl _ _ | refine Keeps.ite (fun _ => ?_) (fun _ => ?_) | refine (State.toFallback_keeps ..).after ?_
    | refine (State.pinned_keeps ..).after ?_ | refine (State.zeroDac_keeps ..).after ?_ | refine (State.logEv_keeps ..).after ?_
    | refine (State.irq_keeps ..).after ?_ | fail_if_no_progress (refine Keeps.upd ?_)

theorem State.readback_keeps (s : State) : Keeps [.ad, .ev, .lp, .pl, .irq] s (State.readback s) := by
  unfold State.readback
  try dsimp only
  with_reducible repeat' first
    | exact Keeps.refl _ _ | refine Keeps.ite (fun _ => ?_) (fun _ => ?_) | refine (State.loopFault_keeps ..).after ?_
    | refine (State.clearReadback_keeps ..).after ?_ | fail_if_no_progress (refine Keeps.upd ?_)

theorem State.lowvTest_keeps (s : State) (v : Nat) : Keeps [.ev, .lp, .irq] s (State.lowvTest s v) := by
  unfold State.lowvTest
  try dsimp only
  with_reducible repeat' first
    | exact Keeps.refl _ _ | refine Keeps.ite (fun _ => ?_) (fun _ => ?_) | refine (State.logEv_keeps ..).after ?_
    | refine (State.irq_keeps ..).after ?_ | fail_if_no_progress (refine Keeps.upd ?_)

theorem State.decodeB_keeps (s : State) : Keeps [.ev, .lp, .irq] s (State.decodeB s) := by
  unfold State.decodeB
  try dsimp only
  with_reducible repeat' first
    | exact Keeps.refl _ _ | refine Keeps.ite (fun _ => ?_) (fun _ => ?_) | refine (State.logEv_keeps ..).after ?_
    | refine (State.irq_keeps ..).after ?_ | fail_if_no_progress (refine Keeps.upd ?_)

theorem State.hdrmTest_keeps (s : State) (v : Nat) : Keeps [.ev, .lp, .irq] s (State.hdrmTest s v) := by
  unfold State.hdrmTest
  try dsimp only
  with_reducible repeat' first
    | exact Keeps.refl _ _ | refine Keeps.ite (fun _ => ?_) (fun _ => ?_) | refine (State.logEv_keeps ..).after ?_
    | refine (State.irq_keeps ..).after ?_ | fail_if_no_progress (refine Keeps.upd ?_)

theorem State.adaptiveTick_keeps (s : State) : Keeps [.reg, .ev, .lp, .irq] s (State.adaptiveTick s) := by
  unfold State.adaptiveTick
  try dsimp only
  with_reducible repeat' first
    | exact Keeps.refl _ _ | refine Keeps.ite (fun _ => ?_) (fun _ => ?_) | refine (State.hdrmTest_keeps ..).after ?_
    | fail_if_no_progress (refine Keeps.upd ?_)

theorem State.foldEvent_keeps (s : State) (code : Nat) : Keeps [.ev] s (State.foldEvent s code) := by
  unfold State.foldEvent
  try dsimp only
  with_reducible repeat' first
    | exact Keeps.refl _ _ | refine Keeps.ite (fun _ => ?_) (fun _ => ?_) | refine (State.logEv_keeps ..).after ?_
    | fail_if_no_progress (refine Keeps.upd ?_)

theorem State.foldNow_keeps (s : State) : Keeps [.ev, .lp, .irq] s (State.foldNow s) := by
  unfold State.foldNow
  try dsimp only
  with_reducible repeat' first
    | exact Keeps.refl _ _ | refine Keeps.ite (fun _ => ?_) (fun _ => ?_) | refine (State.foldEvent_keeps ..).after ?_
    | refine (State.irq_keeps ..).after ?_ | fail_if_no_progress (refine Keeps.upd ?_)

theorem State.foldTick_keeps (s : State) : Keeps [.ev, .lp, .irq] s (State.foldTick s) := by
  unfold State.foldTick
  try dsimp only
  with_reducible repeat' first
    | exact Keeps.refl _ _ | refine Keeps.ite (fun _ => ?_) (fun _ => ?_) | refine (State.foldNow_keeps ..).after ?_
    | refine (State.foldEvent_keeps ..).after ?_ | refine (State.irq_keeps ..).after ?_ | fail_if_no_progress (refine Keeps.upd ?_) | split

theorem State.loopBIdle_keeps (s : State) : Keeps [.lp] s (State.loopBIdle s) := by
  unfold State.loopBIdle
  try dsimp only
  with_reducible repeat' first
    | exact Keeps.refl _ _ | refine Keeps.ite (fun _ => ?_) (fun _ => ?_) | fail_if_no_progress (refine Keeps.upd ?_)

theorem State.dieWarn_keeps (s : State) (die : Int) : Keeps [.ev, .lp, .irq] s (State.dieWarn s die) := by
  unfold State.dieWarn
  try dsimp only
  with_reducible repeat' first
    | exact Keeps.refl _ _ | refine Keeps.ite (fun _ => ?_) (fun _ => ?_) | refine (State.logEv_keeps ..).after ?_
    | refine (State.irq_keeps ..).after ?_ | refine (State.foldNow_keeps ..).after ?_ | fail_if_no_progress (refine Keeps.upd ?_)

/-! ## Machine/Convert.lean -/

theorem State.startConv_keeps (s : State) (ch : BitVec 4) (rate : BitVec 4) : Keeps [.ad] s (State.startConv s ch rate) := by
  unfold State.startConv
  try dsimp only
  with_reducible repeat' first
    | exact Keeps.refl _ _ | refine Keeps.ite (fun _ => ?_) (fun _ => ?_) | fail_if_no_progress (refine Keeps.upd ?_)

theorem State.nextConv_keeps (s : State) : Keeps [.ad] s (State.nextConv s) := by
  unfold State.nextConv
  try dsimp only
  with_reducible repeat' first
    | exact Keeps.refl _ _ | refine Keeps.ite (fun _ => ?_) (fun _ => ?_) | refine (State.startConv_keeps ..).after ?_
    | fail_if_no_progress (refine Keeps.upd ?_)

theorem State.overrange_keeps (s : State) : Keeps [.ad, .ev, .pl, .irq] s (State.overrange s) := by
  unfold State.overrange
  try dsimp only
  with_reducible repeat' first
    | exact Keeps.refl _ _ | refine Keeps.ite (fun _ => ?_) (fun _ => ?_) | refine (State.pinned_keeps ..).after ?_
    | refine (State.irq_keeps ..).after ?_ | fail_if_no_progress (refine Keeps.upd ?_)

theorem State.showResult_keeps (s : State) (code : BitVec 24) (ovr : Bool) : Keeps [.ad] s (State.showResult s code ovr) := by
  unfold State.showResult
  try dsimp only
  with_reducible repeat' first
    | exact Keeps.refl _ _ | refine Keeps.ite (fun _ => ?_) (fun _ => ?_) | fail_if_no_progress (refine Keeps.upd ?_)

theorem State.takeResult_keeps (s : State) (env : ConvEnv) (code : BitVec 24) (ovr : Bool) :
    Keeps [.ad, .fe, .lg, .ev, .lp, .irq] s (State.takeResult s env code ovr) := by
  unfold State.takeResult
  try dsimp only
  with_reducible repeat' first
    | exact Keeps.refl _ _ | refine Keeps.ite (fun _ => ?_) (fun _ => ?_) | refine (State.emptyByCommon_keeps ..).after ?_
    | refine (State.loopBTotalise_keeps ..).after ?_ | fail_if_no_progress (refine Keeps.upd ?_)

theorem State.keepResult_keeps (s : State) (env : ConvEnv) (code : BitVec 24) (ovr : Bool) :
    Keeps [.ad] s (State.keepResult s env code ovr) := by
  unfold State.keepResult
  try dsimp only
  with_reducible repeat' first
    | exact Keeps.refl _ _ | refine Keeps.ite (fun _ => ?_) (fun _ => ?_) | fail_if_no_progress (refine Keeps.upd ?_)

theorem State.calibResult_keeps (s : State) (code : BitVec 24) : Keeps [.ad] s (State.calibResult s code) := by
  unfold State.calibResult
  try dsimp only
  with_reducible repeat' first
    | exact Keeps.refl _ _ | refine Keeps.ite (fun _ => ?_) (fun _ => ?_) | fail_if_no_progress (refine Keeps.upd ?_)

theorem State.convEnd_keeps (s : State) (env : ConvEnv) : Keeps [.ad, .fe, .lg, .ev, .lp, .pl, .irq] s (State.convEnd s env) := by
  unfold State.convEnd
  try dsimp only
  with_reducible repeat' first
    | exact Keeps.refl _ _ | refine Keeps.ite (fun _ => ?_) (fun _ => ?_) | refine (State.showResult_keeps ..).after ?_
    | refine (State.overrange_keeps ..).after ?_ | refine (State.irq_keeps ..).after ?_ | refine (State.calibResult_keeps ..).after ?_
    | refine (State.keepResult_keeps ..).after ?_ | refine (State.takeResult_keeps ..).after ?_ | refine (State.nextConv_keeps ..).after ?_
    | fail_if_no_progress (refine Keeps.upd ?_) | split

theorem State.markUnreliable_keeps (s : State) (at_ : Word) : Keeps [.ad, .fe] s (State.markUnreliable s at_) := by
  unfold State.markUnreliable
  try dsimp only
  with_reducible repeat' first
    | exact Keeps.refl _ _ | refine Keeps.ite (fun _ => ?_) (fun _ => ?_) | fail_if_no_progress (refine Keeps.upd ?_)

theorem State.channel15_keeps (s : State) (ch : BitVec 4) (who : Nat) : Keeps [.ev] s (State.channel15 s ch who) := by
  unfold State.channel15
  try dsimp only
  with_reducible repeat' first
    | exact Keeps.refl _ _ | refine Keeps.ite (fun _ => ?_) (fun _ => ?_) | refine (State.logEv_keeps ..).after ?_
    | fail_if_no_progress (refine Keeps.upd ?_)

theorem State.setChannel_keeps (s : State) (ch : BitVec 4) (n : Nat) : Keeps [.ad, .ev] s (State.setChannel s ch n) := by
  unfold State.setChannel
  try dsimp only
  with_reducible repeat' first
    | exact Keeps.refl _ _ | refine Keeps.ite (fun _ => ?_) (fun _ => ?_) | refine (State.channel15_keeps ..).after ?_
    | fail_if_no_progress (refine Keeps.upd ?_)

theorem State.sampleTag_keeps (s : State) (mark : Word) : Keeps [.ad] s (State.sampleTag s mark) := by
  unfold State.sampleTag
  try dsimp only
  with_reducible repeat' first
    | exact Keeps.refl _ _ | refine Keeps.ite (fun _ => ?_) (fun _ => ?_) | fail_if_no_progress (refine Keeps.upd ?_)

theorem State.setFw_keeps (s : State) (fw : BitVec 24) : Keeps [.ad] s (State.setFw s fw) := by
  unfold State.setFw
  try dsimp only
  with_reducible repeat' first
    | exact Keeps.refl _ _ | refine Keeps.ite (fun _ => ?_) (fun _ => ?_) | fail_if_no_progress (refine Keeps.upd ?_)

theorem State.writeNco_keeps (s : State) (v : Word) : Keeps [.ad] s (State.writeNco s v) := by
  unfold State.writeNco
  try dsimp only
  with_reducible repeat' first
    | exact Keeps.refl _ _ | refine Keeps.ite (fun _ => ?_) (fun _ => ?_) | refine (State.setFw_keeps ..).after ?_
    | fail_if_no_progress (refine Keeps.upd ?_)

theorem State.auxMode_keeps (s : State) (before : Word) : Keeps [.ad] s (State.auxMode s before) := by
  unfold State.auxMode
  try dsimp only
  with_reducible repeat' first
    | exact Keeps.refl _ _ | refine Keeps.ite (fun _ => ?_) (fun _ => ?_) | fail_if_no_progress (refine Keeps.upd ?_)

theorem State.compliance_keeps (s : State) (mv : Nat) : Keeps [.ad, .ev, .irq] s (State.compliance s mv) := by
  unfold State.compliance
  try dsimp only
  with_reducible repeat' first
    | exact Keeps.refl _ _ | refine Keeps.ite (fun _ => ?_) (fun _ => ?_) | refine (State.logEv_keeps ..).after ?_
    | refine (State.irq_keeps ..).after ?_ | fail_if_no_progress (refine Keeps.upd ?_)

theorem State.openLoop_keeps (s : State) (mv : Nat) : Keeps [.ad, .ev, .irq] s (State.openLoop s mv) := by
  unfold State.openLoop
  try dsimp only
  with_reducible repeat' first
    | exact Keeps.refl _ _ | refine Keeps.ite (fun _ => ?_) (fun _ => ?_) | refine (State.logEv_keeps ..).after ?_
    | refine (State.irq_keeps ..).after ?_ | refine (State.zeroDac_keeps ..).after ?_ | fail_if_no_progress (refine Keeps.upd ?_)

theorem State.calibFail_keeps (s : State) (ch : Nat) (sum : Int) : Keeps [.pw, .ev, .irq] s (State.calibFail s ch sum) := by
  unfold State.calibFail
  try dsimp only
  with_reducible repeat' first
    | exact Keeps.refl _ _ | refine Keeps.ite (fun _ => ?_) (fun _ => ?_) | refine (State.logEv_keeps ..).after ?_
    | refine (State.irq_keeps ..).after ?_ | fail_if_no_progress (refine Keeps.upd ?_)

theorem State.calibCheck_keeps (s : State) : Keeps [.pw, .ev, .irq] s (State.calibCheck s) := by
  unfold State.calibCheck
  try dsimp only
  with_reducible repeat' first
    | exact Keeps.refl _ _ | refine Keeps.ite (fun _ => ?_) (fun _ => ?_) | refine (State.calibFail_keeps ..).after ?_
    | fail_if_no_progress (refine Keeps.upd ?_)

theorem State.adSecond_keeps (s : State) : Keeps [.ad, .ev] s (State.adSecond s) := by
  unfold State.adSecond
  try dsimp only
  with_reducible repeat' first
    | exact Keeps.refl _ _ | refine Keeps.ite (fun _ => ?_) (fun _ => ?_) | refine (State.logEv_keeps ..).after ?_
    | fail_if_no_progress (refine Keeps.upd ?_)

theorem State.inputStale_keeps (s : State) (k : InputKind) : Keeps [.fe, .ev, .irq] s (State.inputStale s k) := by
  unfold State.inputStale
  try dsimp only
  with_reducible repeat' first
    | exact Keeps.refl _ _ | refine Keeps.ite (fun _ => ?_) (fun _ => ?_) | refine (State.setFlows_keeps ..).after ?_
    | refine (State.logEv_keeps ..).after ?_ | refine (State.irq_keeps ..).after ?_ | fail_if_no_progress (refine Keeps.upd ?_) | split

/-! ## Machine/Bridge.lean -/

theorem State.endHalf_keeps (s : State) : Keeps [.xb, .ad] s (State.endHalf s) := by
  unfold State.endHalf
  try dsimp only
  with_reducible repeat' first
    | exact Keeps.refl _ _ | refine Keeps.ite (fun _ => ?_) (fun _ => ?_) | fail_if_no_progress (refine Keeps.upd ?_)

theorem State.beginHalf_keeps (s : State) (m : BitVec 2) : Keeps [.xb, .ad] s (State.beginHalf s m) := by
  unfold State.beginHalf
  try dsimp only
  with_reducible repeat' first
    | exact Keeps.refl _ _ | refine Keeps.ite (fun _ => ?_) (fun _ => ?_) | refine (State.endHalf_keeps ..).after ?_
    | fail_if_no_progress (refine Keeps.upd ?_)

theorem State.commutePos_keeps (s : State) : Keeps [.pw, .xb, .ad, .fe] s (State.commutePos s) := by
  unfold State.commutePos
  try dsimp only
  with_reducible repeat' first
    | exact Keeps.refl _ _ | refine Keeps.ite (fun _ => ?_) (fun _ => ?_) | refine (State.endHalf_keeps ..).after ?_
    | refine (State.clearPair_keeps ..).after ?_ | refine (State.beginHalf_keeps ..).after ?_ | fail_if_no_progress (refine Keeps.upd ?_)

theorem State.applyMask_keeps (s : State) (m : BitVec 2) : Keeps [.pw, .xb, .ad, .fe] s (State.applyMask s m) := by
  unfold State.applyMask
  try dsimp only
  with_reducible repeat' first
    | exact Keeps.refl _ _ | refine Keeps.ite (fun _ => ?_) (fun _ => ?_) | refine (State.commutePos_keeps ..).after ?_
    | refine (State.beginHalf_keeps ..).after ?_ | refine (State.endHalf_keeps ..).after ?_ | fail_if_no_progress (refine Keeps.upd ?_)

theorem State.commute_keeps (s : State) (m : BitVec 2) : Keeps [.pw, .xb, .ad, .fe] s (State.commute s m) := by
  unfold State.commute
  try dsimp only
  with_reducible repeat' first
    | exact Keeps.refl _ _ | refine Keeps.ite (fun _ => ?_) (fun _ => ?_) | refine (State.applyMask_keeps ..).after ?_
    | fail_if_no_progress (refine Keeps.upd ?_)

theorem State.cutHalf_keeps (s : State) : Keeps [.xb, .ad, .fe] s (State.cutHalf s) := by
  unfold State.cutHalf
  try dsimp only
  with_reducible repeat' first
    | exact Keeps.refl _ _ | refine Keeps.ite (fun _ => ?_) (fun _ => ?_) | refine (State.endHalf_keeps ..).after ?_
    | refine (State.truncPair_keeps ..).after ?_ | fail_if_no_progress (refine Keeps.upd ?_)

theorem State.regulated_keeps (s : State) (ics : Nat) (ceiling : Bool) : Keeps [.xb] s (State.regulated s ics ceiling) := by
  unfold State.regulated
  try dsimp only
  with_reducible repeat' first
    | exact Keeps.refl _ _ | refine Keeps.ite (fun _ => ?_) (fun _ => ?_) | fail_if_no_progress (refine Keeps.upd ?_)

theorem State.carrierPeak_keeps (s : State) (sample : BitVec 10) : Keeps [.xb] s (State.carrierPeak s sample) := by
  unfold State.carrierPeak
  try dsimp only
  with_reducible repeat' first
    | exact Keeps.refl _ _ | refine Keeps.ite (fun _ => ?_) (fun _ => ?_) | refine (State.regulated_keeps ..).after ?_
    | fail_if_no_progress (refine Keeps.upd ?_)

theorem State.carrierValley_keeps (s : State) : Keeps [.ck, .xb, .hb] s (State.carrierValley s) := by
  unfold State.carrierValley
  try dsimp only
  with_reducible repeat' first
    | exact Keeps.refl _ _ | refine Keeps.ite (fun _ => ?_) (fun _ => ?_) | refine (State.hold_keeps ..).after ?_
    | fail_if_no_progress (refine Keeps.upd ?_)

theorem State.refresh_keeps (s : State) : Keeps [.xb, .ev, .pl] s (State.refresh s) := by
  unfold State.refresh
  try dsimp only
  with_reducible repeat' first
    | exact Keeps.refl _ _ | refine Keeps.ite (fun _ => ?_) (fun _ => ?_) | refine (State.pinned_keeps ..).after ?_
    | fail_if_no_progress (refine Keeps.upd ?_)

theorem State.coilOpen_keeps (s : State) : Keeps [.xb, .ad, .ev, .irq] s (State.coilOpen s) := by
  unfold State.coilOpen
  try dsimp only
  with_reducible repeat' first
    | exact Keeps.refl _ _ | refine Keeps.ite (fun _ => ?_) (fun _ => ?_) | refine (State.endHalf_keeps ..).after ?_
    | refine (State.logEv_keeps ..).after ?_ | refine (State.irq_keeps ..).after ?_ | fail_if_no_progress (refine Keeps.upd ?_)

theorem State.boostStop_keeps (s : State) (cause : Nat) : Keeps [.xb, .ev, .irq] s (State.boostStop s cause) := by
  unfold State.boostStop
  try dsimp only
  with_reducible repeat' first
    | exact Keeps.refl _ _ | refine Keeps.ite (fun _ => ?_) (fun _ => ?_) | refine (State.logEv_keeps ..).after ?_
    | refine (State.irq_keeps ..).after ?_ | fail_if_no_progress (refine Keeps.upd ?_)

theorem State.tripFlag_keeps (s : State) (n : Nat) : Keeps [.xb, .ev, .irq] s (State.tripFlag s n) := by
  unfold State.tripFlag
  try dsimp only
  with_reducible repeat' first
    | exact Keeps.refl _ _ | refine Keeps.ite (fun _ => ?_) (fun _ => ?_) | refine (State.logEv_keeps ..).after ?_
    | refine (State.irq_keeps ..).after ?_ | fail_if_no_progress (refine Keeps.upd ?_)

theorem State.boostStart_keeps (s : State) : Keeps [.xb, .ev, .irq] s (State.boostStart s) := by
  unfold State.boostStart
  try dsimp only
  with_reducible repeat' first
    | exact Keeps.refl _ _ | refine Keeps.ite (fun _ => ?_) (fun _ => ?_) | refine (State.tripFlag_keeps ..).after ?_
    | refine (State.boostStop_keeps ..).after ?_ | fail_if_no_progress (refine Keeps.upd ?_)

theorem State.judgeCycle_keeps (s : State) (limited : Bool) : Keeps [.xb, .ev, .pl] s (State.judgeCycle s limited) := by
  unfold State.judgeCycle
  try dsimp only
  with_reducible repeat' first
    | exact Keeps.refl _ _ | refine Keeps.ite (fun _ => ?_) (fun _ => ?_) | refine (State.pinned_keeps ..).after ?_
    | fail_if_no_progress (refine Keeps.upd ?_)

theorem State.turnOn_keeps (s : State) : Keeps [.ck, .xb] s (State.turnOn s) := by
  unfold State.turnOn
  try dsimp only
  with_reducible repeat' first
    | exact Keeps.refl _ _ | refine Keeps.ite (fun _ => ?_) (fun _ => ?_) | fail_if_no_progress (refine Keeps.upd ?_)

theorem State.boostResume_keeps (s : State) : Keeps [.xb] s (State.boostResume s) := by
  unfold State.boostResume
  try dsimp only
  with_reducible repeat' first
    | exact Keeps.refl _ _ | refine Keeps.ite (fun _ => ?_) (fun _ => ?_) | fail_if_no_progress (refine Keeps.upd ?_)

theorem State.boostCycle_keeps (s : State) (e : BoostEnv) : Keeps [.ck, .xb, .ev, .pl] s (State.boostCycle s e) := by
  unfold State.boostCycle
  try dsimp only
  with_reducible repeat' first
    | exact Keeps.refl _ _ | refine Keeps.ite (fun _ => ?_) (fun _ => ?_) | refine (State.boostResume_keeps ..).after ?_
    | refine (State.turnOn_keeps ..).after ?_ | refine (State.judgeCycle_keeps ..).after ?_ | fail_if_no_progress (refine Keeps.upd ?_)

theorem State.boostCheck_keeps (s : State) : Keeps [.xb, .ev, .irq] s (State.boostCheck s) := by
  unfold State.boostCheck
  try dsimp only
  with_reducible repeat' first
    | exact Keeps.refl _ _ | refine Keeps.ite (fun _ => ?_) (fun _ => ?_) | refine (State.boostStop_keeps ..).after ?_
    | fail_if_no_progress (refine Keeps.upd ?_)

theorem State.boostRestart_keeps (s : State) : Keeps [.xb] s (State.boostRestart s) := by
  unfold State.boostRestart
  try dsimp only
  with_reducible repeat' first
    | exact Keeps.refl _ _ | refine Keeps.ite (fun _ => ?_) (fun _ => ?_) | fail_if_no_progress (refine Keeps.upd ?_)

theorem State.boostFull_keeps (s : State) : Keeps [.xb] s (State.boostFull s) := by
  unfold State.boostFull
  try dsimp only
  with_reducible repeat' first
    | exact Keeps.refl _ _ | refine Keeps.ite (fun _ => ?_) (fun _ => ?_) | refine (State.boostRestart_keeps ..).after ?_
    | fail_if_no_progress (refine Keeps.upd ?_)

theorem State.boostOff_keeps (s : State) : Keeps [.xb] s (State.boostOff s) := by
  unfold State.boostOff
  try dsimp only
  with_reducible repeat' first
    | exact Keeps.refl _ _ | refine Keeps.ite (fun _ => ?_) (fun _ => ?_) | fail_if_no_progress (refine Keeps.upd ?_)

theorem State.boostClear_keeps (s : State) : Keeps [.xb, .ev, .irq] s (State.boostClear s) := by
  unfold State.boostClear
  try dsimp only
  with_reducible repeat' first
    | exact Keeps.refl _ _ | refine Keeps.ite (fun _ => ?_) (fun _ => ?_) | refine (State.logEv_keeps ..).after ?_
    | refine (State.boostStart_keeps ..).after ?_ | fail_if_no_progress (refine Keeps.upd ?_)

theorem State.groupLow_keeps (s : State) (n : Nat) : Keeps [.xb, .ad, .fe, .ev, .irq] s (State.groupLow s n) := by
  unfold State.groupLow
  try dsimp only
  with_reducible repeat' first
    | exact Keeps.refl _ _ | refine Keeps.ite (fun _ => ?_) (fun _ => ?_) | refine (State.cutHalf_keeps ..).after ?_
    | refine (State.boostStop_keeps ..).after ?_ | fail_if_no_progress (refine Keeps.upd ?_)

theorem State.faultTrip_keeps (s : State) (n : Nat) : Keeps [.xb, .ad, .fe, .ev, .irq] s (State.faultTrip s n) := by
  unfold State.faultTrip
  try dsimp only
  with_reducible repeat' first
    | exact Keeps.refl _ _ | refine Keeps.ite (fun _ => ?_) (fun _ => ?_) | refine (State.groupLow_keeps ..).after ?_
    | refine (State.tripFlag_keeps ..).after ?_ | refine (State.logEv_keeps ..).after ?_ | refine (State.irq_keeps ..).after ?_
    | fail_if_no_progress (refine Keeps.upd ?_)

theorem State.frozenFault_keeps (s : State) (n : Nat) : Keeps [.xb] s (State.frozenFault s n) := by
  unfold State.frozenFault
  try dsimp only
  with_reducible repeat' first
    | exact Keeps.refl _ _ | refine Keeps.ite (fun _ => ?_) (fun _ => ?_) | fail_if_no_progress (refine Keeps.upd ?_)

theorem State.releaseTrips_keeps (s : State) : Keeps [.xb, .ad, .fe, .ev, .irq] s (State.releaseTrips s) := by
  unfold State.releaseTrips
  try dsimp only
  with_reducible repeat' first
    | exact Keeps.refl _ _ | refine Keeps.ite (fun _ => ?_) (fun _ => ?_) | refine (State.faultTrip_keeps ..).after ?_
    | refine Keeps.foldl ?_ (fun _ _ => ?_) | fail_if_no_progress (refine Keeps.upd ?_)

theorem State.groupRestart_keeps (s : State) (n : Nat) (host : Bool) : Keeps [.xb, .ev] s (State.groupRestart s n host) := by
  unfold State.groupRestart
  try dsimp only
  with_reducible repeat' first
    | exact Keeps.refl _ _ | refine Keeps.ite (fun _ => ?_) (fun _ => ?_) | refine (State.logEv_keeps ..).after ?_
    | fail_if_no_progress (refine Keeps.upd ?_)

theorem State.clearFlags_keeps (s : State) (bits : BitVec 3) : Keeps [.xb, .ev] s (State.clearFlags s bits) := by
  unfold State.clearFlags
  try dsimp only
  with_reducible repeat' first
    | exact Keeps.refl _ _ | refine Keeps.ite (fun _ => ?_) (fun _ => ?_) | refine (State.groupRestart_keeps ..).after ?_
    | refine Keeps.foldl ?_ (fun _ _ => ?_) | fail_if_no_progress (refine Keeps.upd ?_)

theorem State.faultLevels_keeps (s : State) : Keeps [.xb, .ad, .fe, .ev, .irq] s (State.faultLevels s) := by
  unfold State.faultLevels
  try dsimp only
  with_reducible repeat' first
    | exact Keeps.refl _ _ | refine Keeps.ite (fun _ => ?_) (fun _ => ?_) | refine (State.faultTrip_keeps ..).after ?_
    | refine Keeps.foldl ?_ (fun _ _ => ?_) | fail_if_no_progress (refine Keeps.upd ?_)

theorem State.fltPin_keeps (s : State) (n : Nat) (active : Bool) : Keeps [.pins] s (State.fltPin s n active) := by
  unfold State.fltPin
  try dsimp only
  with_reducible repeat' first
    | exact Keeps.refl _ _ | refine Keeps.ite (fun _ => ?_) (fun _ => ?_) | fail_if_no_progress (refine Keeps.upd ?_)

theorem State.autoRestart_keeps (s : State) (n : Nat) : Keeps [.xb, .ev] s (State.autoRestart s n) := by
  unfold State.autoRestart
  try dsimp only
  with_reducible repeat' first
    | exact Keeps.refl _ _ | refine Keeps.ite (fun _ => ?_) (fun _ => ?_) | refine (State.groupRestart_keeps ..).after ?_
    | fail_if_no_progress (refine Keeps.upd ?_)

/-! ## Machine/Orrery.lean -/

theorem State.pushInterval_keeps (s : State) (i : Interval) : Keeps [.orr] s (State.pushInterval s i) := by
  unfold State.pushInterval
  try dsimp only
  with_reducible repeat' first
    | exact Keeps.refl _ _ | refine Keeps.ite (fun _ => ?_) (fun _ => ?_) | fail_if_no_progress (refine Keeps.upd ?_)

theorem State.respeedIn_keeps (s : State) (rev : Bool) : Keeps [.orr] s (State.respeedIn s rev) := by
  unfold State.respeedIn
  try dsimp only
  with_reducible repeat' first
    | exact Keeps.refl _ _ | refine Keeps.ite (fun _ => ?_) (fun _ => ?_) | fail_if_no_progress (refine Keeps.upd ?_) | split

theorem State.respeed_keeps (s : State) : Keeps [.orr] s (State.respeed s) := by
  unfold State.respeed
  try dsimp only
  with_reducible repeat' first
    | exact Keeps.refl _ _ | refine Keeps.ite (fun _ => ?_) (fun _ => ?_) | refine (State.respeedIn_keeps ..).after ?_
    | fail_if_no_progress (refine Keeps.upd ?_)

theorem State.seenAt_keeps (s : State) (now : Nat) : Keeps [.orr] s (State.seenAt s now) := by
  unfold State.seenAt
  try dsimp only
  with_reducible repeat' first
    | exact Keeps.refl _ _ | refine Keeps.ite (fun _ => ?_) (fun _ => ?_) | fail_if_no_progress (refine Keeps.upd ?_)

theorem State.reservedAction_keeps (s : State) (n code : Nat) : Keeps [.orr, .ev] s (State.reservedAction s n code) := by
  unfold State.reservedAction
  try dsimp only
  with_reducible repeat' first
    | exact Keeps.refl _ _ | refine Keeps.ite (fun _ => ?_) (fun _ => ?_) | refine (State.logEv_keeps ..).after ?_
    | fail_if_no_progress (refine Keeps.upd ?_)

theorem State.orrInterrupt_keeps (s : State) (n : Nat) (arg : Word32) : Keeps [.orr, .irq] s (State.orrInterrupt s n arg) := by
  unfold State.orrInterrupt
  try dsimp only
  with_reducible repeat' first
    | exact Keeps.refl _ _ | refine Keeps.ite (fun _ => ?_) (fun _ => ?_) | refine (State.irq_keeps ..).after ?_
    | fail_if_no_progress (refine Keeps.upd ?_)

theorem State.orrUpdate_keeps (s : State) : Keeps [.fe, .lg, .ev, .irq] s (State.orrUpdate s) := by
  unfold State.orrUpdate
  try dsimp only
  with_reducible repeat' first
    | exact Keeps.refl _ _ | refine Keeps.ite (fun _ => ?_) (fun _ => ?_) | refine (State.feUpdateNow_keeps ..).after ?_
    | fail_if_no_progress (refine Keeps.upd ?_)

theorem State.act_keeps (s : State) (n : Nat) (e : Entry) : Keeps [.pw, .orr, .xb, .ad, .fe, .lg, .ev, .irq] s (State.act s n e) := by
  unfold State.act
  try dsimp only
  with_reducible repeat' first
    | exact Keeps.refl _ _ | refine Keeps.ite (fun _ => ?_) (fun _ => ?_) | refine (State.setChannel_keeps ..).after ?_
    | refine (State.commute_keeps ..).after ?_ | refine (State.sampleTag_keeps ..).after ?_ | refine (State.setFw_keeps ..).after ?_
    | refine (State.orrUpdate_keeps ..).after ?_ | refine (State.orrInterrupt_keeps ..).after ?_
    | refine (State.reservedAction_keeps ..).after ?_ | fail_if_no_progress (refine Keeps.upd ?_) | split

theorem State.markFired_keeps (s : State) (n : Nat) (r : Word32) : Keeps [.orr] s (State.markFired s n r) := by
  unfold State.markFired
  try dsimp only
  with_reducible repeat' first
    | exact Keeps.refl _ _ | refine Keeps.ite (fun _ => ?_) (fun _ => ?_) | fail_if_no_progress (refine Keeps.upd ?_) | split

theorem State.fire_keeps (s : State) (n : Nat) (r : Word32) : Keeps [.pw, .orr, .xb, .ad, .fe, .lg, .ev, .irq] s (State.fire s n r) := by
  unfold State.fire
  try dsimp only
  with_reducible repeat' first
    | exact Keeps.refl _ _ | refine Keeps.ite (fun _ => ?_) (fun _ => ?_) | refine (State.markFired_keeps ..).after ?_
    | refine (State.act_keeps ..).after ?_ | fail_if_no_progress (refine Keeps.upd ?_)

theorem State.fireLate_keeps (s : State) (n : Nat) (r : Word32) :
    Keeps [.pw, .orr, .xb, .ad, .fe, .lg, .ev, .pl, .irq] s (State.fireLate s n r) := by
  unfold State.fireLate
  try dsimp only
  with_reducible repeat' first
    | exact Keeps.refl _ _ | refine Keeps.ite (fun _ => ?_) (fun _ => ?_) | refine (State.fire_keeps ..).after ?_
    | refine (State.pinned_keeps ..).after ?_ | fail_if_no_progress (refine Keeps.upd ?_)

theorem State.lateFires_keeps (s : State) (a b : Word48) (rev : Bool) :
    Keeps [.pw, .orr, .xb, .ad, .fe, .lg, .ev, .pl, .irq] s (State.lateFires s a b rev) := by
  unfold State.lateFires
  try dsimp only
  with_reducible repeat' first
    | exact Keeps.refl _ _ | refine Keeps.ite (fun _ => ?_) (fun _ => ?_) | refine (State.fireLate_keeps ..).after ?_
    | refine Keeps.foldl ?_ (fun _ _ => ?_) | fail_if_no_progress (refine Keeps.upd ?_) | split

theorem State.onTime_keeps {L : List Part} (s : State) (n : BitVec 6) (now : Nat) (action : Nat → Bool) (f : State → Entry → State) (h0 : ∀ y0 y1, Keeps L y0 (f y0 y1)) (hL : List.all [.orr] (L.contains ·) = true) :
    Keeps L s (State.onTime s n now action f) := by
  unfold State.onTime
  try dsimp only
  with_reducible repeat' first
    | exact Keeps.refl _ _ | refine Keeps.ite (fun _ => ?_) (fun _ => ?_) | refine (h0 _ _ ).next ?_
    | refine (State.when_keeps (L := L) (h0 := fun _ => ?_) (hL := Keeps.sub (by with_unfolding_all rfl) hL) ..).next ?_
    | refine (State.markFired_keeps ..).after ?_ (Keeps.sub (by with_unfolding_all rfl) hL)
    | refine (State.seenAt_keeps ..).after ?_ (Keeps.sub (by with_unfolding_all rfl) hL)
    | fail_if_no_progress (refine (Keeps.upd (L := [.orr]) (Keeps.refl _ _)).after ?_ hL)

theorem State.learnAbort_keeps (s : State) (cause : Nat) : Keeps [.orr, .ev] s (State.learnAbort s cause) := by
  unfold State.learnAbort
  try dsimp only
  with_reducible repeat' first
    | exact Keeps.refl _ _ | refine Keeps.ite (fun _ => ?_) (fun _ => ?_) | refine (State.logEv_keeps ..).after ?_
    | fail_if_no_progress (refine Keeps.upd ?_)

theorem State.learnIndex_keeps (s : State) : Keeps [.orr, .ev] s (State.learnIndex s) := by
  unfold State.learnIndex
  try dsimp only
  with_reducible repeat' first
    | exact Keeps.refl _ _ | refine Keeps.ite (fun _ => ?_) (fun _ => ?_) | refine (State.learnAbort_keeps ..).after ?_
    | fail_if_no_progress (refine Keeps.upd ?_)

theorem State.confirmTooth_keeps (s : State) (p : Pending) : Keeps [.orr, .fe, .lg, .ev] s (State.confirmTooth s p) := by
  unfold State.confirmTooth
  try dsimp only
  with_reducible repeat' first
    | exact Keeps.refl _ _ | refine Keeps.ite (fun _ => ?_) (fun _ => ?_) | refine (State.confirmInc_keeps ..).after ?_
    | fail_if_no_progress (refine Keeps.upd ?_)

theorem State.confirmAll_keeps (s : State) : Keeps [.orr, .fe, .lg, .ev] s (State.confirmAll s) := by
  unfold State.confirmAll
  try dsimp only
  with_reducible repeat' first
    | exact Keeps.refl _ _ | refine Keeps.ite (fun _ => ?_) (fun _ => ?_) | refine (State.confirmTooth_keeps ..).after ?_
    | refine Keeps.foldl ?_ (fun _ _ => ?_) | fail_if_no_progress (refine Keeps.upd ?_)

theorem State.withdraw_keeps (s : State) (inc : List F32) : Keeps [.an] s (State.withdraw s inc) := by
  unfold State.withdraw
  try dsimp only
  with_reducible repeat' first
    | exact Keeps.refl _ _ | refine Keeps.ite (fun _ => ?_) (fun _ => ?_) | fail_if_no_progress (refine Keeps.upd ?_)

theorem State.retract_keeps (s : State) (p : Pending) (now : Nat) :
    Keeps [.orr, .ad, .fe, .ev, .an, .pl, .irq] s (State.retract s p now) := by
  unfold State.retract
  try dsimp only
  with_reducible repeat' first
    | exact Keeps.refl _ _ | refine Keeps.ite (fun _ => ?_) (fun _ => ?_) | refine (State.dropPending_keeps ..).after ?_
    | refine (State.pinned_keeps ..).after ?_ | refine (State.markUnreliable_keeps ..).after ?_ | refine (State.withdraw_keeps ..).after ?_
    | refine (State.irq_keeps ..).after ?_ | refine (State.learnAbort_keeps ..).after ?_ | fail_if_no_progress (refine Keeps.upd ?_)

theorem State.mapCheck_keeps (s : State) : Keeps [.orr, .ev] s (State.mapCheck s) := by
  unfold State.mapCheck
  try dsimp only
  with_reducible repeat' first
    | exact Keeps.refl _ _ | refine Keeps.ite (fun _ => ?_) (fun _ => ?_) | refine (State.logEv_keeps ..).after ?_
    | fail_if_no_progress (refine Keeps.upd ?_) | split

theorem State.takeCycle_keeps (s : State) (before : Word48) : Keeps [.orr] s (State.takeCycle s before) := by
  unfold State.takeCycle
  try dsimp only
  with_reducible repeat' first
    | exact Keeps.refl _ _ | refine Keeps.ite (fun _ => ?_) (fun _ => ?_) | fail_if_no_progress (refine Keeps.upd ?_)

theorem State.moveTooth_keeps (s : State) (rev : Bool) (reached : Word48) : Keeps [.orr] s (State.moveTooth s rev reached) := by
  unfold State.moveTooth
  try dsimp only
  with_reducible repeat' first
    | exact Keeps.refl _ _ | refine Keeps.ite (fun _ => ?_) (fun _ => ?_) | fail_if_no_progress (refine Keeps.upd ?_)

theorem State.indexTooth_keeps (s : State) (expected : Nat) (reached : Word48) :
    Keeps [.orr, .ev, .pl, .irq] s (State.indexTooth s expected reached) := by
  unfold State.indexTooth
  try dsimp only
  with_reducible repeat' first
    | exact Keeps.refl _ _ | refine Keeps.ite (fun _ => ?_) (fun _ => ?_) | refine (State.pinned_keeps ..).after ?_
    | refine (State.logEv_keeps ..).after ?_ | refine (State.irq_keeps ..).after ?_ | refine (State.learnAbort_keeps ..).after ?_
    | refine (State.mapCheck_keeps ..).after ?_ | refine (State.learnIndex_keeps ..).after ?_ | fail_if_no_progress (refine Keeps.upd ?_)

theorem State.pruneFired_keeps (s : State) : Keeps [.orr] s (State.pruneFired s) := by
  unfold State.pruneFired
  try dsimp only
  with_reducible repeat' first
    | exact Keeps.refl _ _ | refine Keeps.ite (fun _ => ?_) (fun _ => ?_) | fail_if_no_progress (refine Keeps.upd ?_)

theorem State.passAt_keeps (s : State) (ns : List Nat) (rev : Bool) (pos : Word48) : Keeps [.orr] s (State.passAt s ns rev pos) := by
  unfold State.passAt
  try dsimp only
  with_reducible repeat' first
    | exact Keeps.refl _ _ | refine Keeps.ite (fun _ => ?_) (fun _ => ?_) | fail_if_no_progress (refine Keeps.upd ?_)

theorem State.passEntries_keeps (s : State) (ns : List Nat) : Keeps [.orr] s (State.passEntries s ns) := by
  unfold State.passEntries
  try dsimp only
  with_reducible repeat' first
    | exact Keeps.refl _ _ | refine Keeps.ite (fun _ => ?_) (fun _ => ?_) | refine (State.passAt_keeps ..).after ?_
    | fail_if_no_progress (refine Keeps.upd ?_)

theorem State.orStatClear_keeps (s : State) (v : Word) : Keeps [.orr] s (State.orStatClear s v) := by
  unfold State.orStatClear
  try dsimp only
  with_reducible repeat' first
    | exact Keeps.refl _ _ | refine Keeps.ite (fun _ => ?_) (fun _ => ?_) | fail_if_no_progress (refine Keeps.upd ?_)

theorem State.orStatHeld_keeps (s : State) : Keeps [.orr] s (State.orStatHeld s) := by
  unfold State.orStatHeld
  try dsimp only
  with_reducible repeat' first
    | exact Keeps.refl _ _ | refine Keeps.ite (fun _ => ?_) (fun _ => ?_) | refine (State.orStatClear_keeps ..).after ?_
    | fail_if_no_progress (refine Keeps.upd ?_) | split

theorem State.resume_keeps (s : State) (rev : Bool) : Keeps [.orr, .ev, .irq] s (State.resume s rev) := by
  unfold State.resume
  try dsimp only
  with_reducible repeat' first
    | exact Keeps.refl _ _ | refine Keeps.ite (fun _ => ?_) (fun _ => ?_) | refine (State.orStatHeld_keeps ..).after ?_
    | refine (State.logEv_keeps ..).after ?_ | refine (State.irq_keeps ..).after ?_ | fail_if_no_progress (refine Keeps.upd ?_)

theorem State.placeMove_keeps (s : State) (synthetic rev reversal : Bool) (t d : Nat) :
    Keeps [.orr, .ev, .pl, .irq] s (State.placeMove s synthetic rev reversal t d) := by
  unfold State.placeMove
  try dsimp only
  with_reducible repeat' first
    | exact Keeps.refl _ _ | refine Keeps.ite (fun _ => ?_) (fun _ => ?_) | refine (State.passAt_keeps ..).after ?_
    | refine (State.resume_keeps ..).after ?_ | refine (State.pushInterval_keeps ..).after ?_ | refine (State.moveTooth_keeps ..).after ?_
    | refine (State.indexTooth_keeps ..).after ?_ | refine (State.respeedIn_keeps ..).after ?_ | fail_if_no_progress (refine Keeps.upd ?_)

theorem State.place_keeps (s : State) (synthetic rev reversal : Bool) (t d : Nat) (pred : Option (Nat × Nat)) :
    Keeps [.pw, .orr, .xb, .ad, .fe, .lg, .ev, .pl, .irq] s (State.place s synthetic rev reversal t d pred) := by
  unfold State.place
  try dsimp only
  with_reducible repeat' first
    | exact Keeps.refl _ _ | refine Keeps.ite (fun _ => ?_) (fun _ => ?_) | refine (State.placeMove_keeps ..).after ?_
    | refine (State.toothIncrement_keeps ..).after ?_ | refine (State.lateFires_keeps ..).after ?_
    | refine (State.takeCycle_keeps ..).after ?_ | refine (State.pruneFired_keeps ..).after ?_ | refine Keeps.ofPair ‹_› ?_
    | fail_if_no_progress (refine Keeps.upd ?_) | split

theorem State.acceptReal_keeps (s : State) (rev reversal : Bool) (t d : Nat) (pred : Option (Nat × Nat)) :
    Keeps [.pw, .orr, .xb, .ad, .fe, .lg, .ev, .pl, .irq] s (State.acceptReal s rev reversal t d pred) := by
  unfold State.acceptReal
  try dsimp only
  with_reducible repeat' first
    | exact Keeps.refl _ _ | refine Keeps.ite (fun _ => ?_) (fun _ => ?_) | refine (State.place_keeps ..).after ?_
    | fail_if_no_progress (refine Keeps.upd ?_)

theorem State.reject_keeps (s : State) : Keeps [.orr, .ev, .pl] s (State.reject s) := by
  unfold State.reject
  try dsimp only
  with_reducible repeat' first
    | exact Keeps.refl _ _ | refine Keeps.ite (fun _ => ?_) (fun _ => ?_) | refine (State.pinned_keeps ..).after ?_
    | fail_if_no_progress (refine Keeps.upd ?_)

theorem State.resolvePrev_keeps (s : State) (t d : Nat) :
    Keeps [.orr, .ad, .fe, .lg, .ev, .an, .pl, .irq] s (State.resolvePrev s t d).2 := by
  unfold State.resolvePrev
  try dsimp only
  with_reducible repeat' first
    | exact Keeps.refl _ _ | refine Keeps.ite (fun _ => ?_) (fun _ => ?_) | refine (State.confirmAll_keeps ..).after ?_
    | refine (State.retract_keeps ..).after ?_ | fail_if_no_progress (refine Keeps.upd ?_) | split

theorem State.dropRocking_keeps (s : State) (p : Pending) (t : Nat) :
    Keeps [.orr, .ad, .fe, .ev, .an, .pl, .irq] s (State.dropRocking s p t) := by
  unfold State.dropRocking
  try dsimp only
  with_reducible repeat' first
    | exact Keeps.refl _ _ | refine Keeps.ite (fun _ => ?_) (fun _ => ?_) | refine (State.retract_keeps ..).after ?_
    | refine (State.respeedIn_keeps ..).after ?_ | refine (State.passAt_keeps ..).after ?_ | fail_if_no_progress (refine Keeps.upd ?_)

theorem State.tooth_keeps (s : State) (t : Nat) (rev : Bool) :
    Keeps [.pw, .orr, .xb, .ad, .fe, .lg, .ev, .an, .pl, .irq] s (State.tooth s t rev) := by
  unfold State.tooth
  try dsimp only
  with_reducible repeat' first
    | exact Keeps.refl _ _ | refine Keeps.ite (fun _ => ?_) (fun _ => ?_) | refine (State.reject_keeps ..).after ?_
    | refine (State.dropRocking_keeps ..).after ?_ | refine (State.confirmAll_keeps ..).after ?_
    | refine (State.learnAbort_keeps ..).after ?_ | refine (State.acceptReal_keeps ..).after ?_
    | refine (State.resolvePrev_keeps ..).after ?_ | refine Keeps.ofPair ‹_› ?_ | fail_if_no_progress (refine Keeps.upd ?_) | split

theorem State.mainsHalt_keeps (s : State) : Keeps [.ck] s (State.mainsHalt s) := by
  unfold State.mainsHalt
  try dsimp only
  with_reducible repeat' first
    | exact Keeps.refl _ _ | refine Keeps.ite (fun _ => ?_) (fun _ => ?_) | fail_if_no_progress (refine Keeps.upd ?_)

theorem State.mainsTooth_keeps (s : State) (t : Nat) :
    Keeps [.pw, .ck, .orr, .xb, .ad, .fe, .lg, .ev, .pl, .irq] s (State.mainsTooth s t) := by
  unfold State.mainsTooth
  try dsimp only
  with_reducible repeat' first
    | exact Keeps.refl _ _ | refine Keeps.ite (fun _ => ?_) (fun _ => ?_) | refine (State.acceptReal_keeps ..).after ?_
    | refine (State.confirmAll_keeps ..).after ?_ | refine (State.mainsHalt_keeps ..).after ?_ | fail_if_no_progress (refine Keeps.upd ?_)

theorem State.edge_keeps (s : State) (t : Nat) (rising bHigh : Bool) :
    Keeps [.pw, .ck, .orr, .xb, .ad, .fe, .lg, .ev, .an, .pl, .irq] s (State.edge s t rising bHigh) := by
  unfold State.edge
  try dsimp only
  with_reducible repeat' first
    | exact Keeps.refl _ _ | refine Keeps.ite (fun _ => ?_) (fun _ => ?_) | refine (State.tooth_keeps ..).after ?_
    | refine (State.mainsTooth_keeps ..).after ?_ | fail_if_no_progress (refine Keeps.upd ?_) | split

theorem State.sensorFault_keeps (s : State) : Keeps [.orr, .ev, .irq] s (State.sensorFault s) := by
  unfold State.sensorFault
  try dsimp only
  with_reducible repeat' first
    | exact Keeps.refl _ _ | refine Keeps.ite (fun _ => ?_) (fun _ => ?_) | refine (State.logEv_keeps ..).after ?_
    | refine (State.irq_keeps ..).after ?_ | fail_if_no_progress (refine Keeps.upd ?_)

theorem State.insertSynthetic_keeps (s : State) : Keeps [.pw, .orr, .xb, .ad, .fe, .lg, .ev, .pl, .irq] s (State.insertSynthetic s) := by
  unfold State.insertSynthetic
  try dsimp only
  with_reducible repeat' first
    | exact Keeps.refl _ _ | refine Keeps.ite (fun _ => ?_) (fun _ => ?_) | refine (State.confirmAll_keeps ..).after ?_
    | refine (State.pinned_keeps ..).after ?_ | refine (State.learnAbort_keeps ..).after ?_ | refine (State.place_keeps ..).after ?_
    | refine (State.sensorFault_keeps ..).after ?_ | fail_if_no_progress (refine Keeps.upd ?_) | split

theorem State.settle_keeps (s : State) : Keeps [.orr, .ad, .fe, .lg, .ev, .an, .pl, .irq] s (State.settle s) := by
  unfold State.settle
  try dsimp only
  with_reducible repeat' first
    | exact Keeps.refl _ _ | refine Keeps.ite (fun _ => ?_) (fun _ => ?_) | refine (State.confirmAll_keeps ..).after ?_
    | refine (State.retract_keeps ..).after ?_ | refine (State.logEv_keeps ..).after ?_ | refine Keeps.foldl ?_ (fun _ _ => ?_)
    | fail_if_no_progress (refine Keeps.upd ?_)

theorem State.standstill_keeps (s : State) : Keeps [.orr, .ad, .fe, .lg, .ev, .an, .pl, .irq] s (State.standstill s) := by
  unfold State.standstill
  try dsimp only
  with_reducible repeat' first
    | exact Keeps.refl _ _ | refine Keeps.ite (fun _ => ?_) (fun _ => ?_) | refine (State.settle_keeps ..).after ?_
    | refine (State.learnAbort_keeps ..).after ?_ | refine (State.logEv_keeps ..).after ?_ | refine (State.irq_keeps ..).after ?_
    | fail_if_no_progress (refine Keeps.upd ?_)

theorem State.orrRestart_keeps (s : State) : Keeps [.orr, .ad, .fe, .lg, .ev, .an, .pl, .irq] s (State.orrRestart s) := by
  unfold State.orrRestart
  try dsimp only
  with_reducible repeat' first
    | exact Keeps.refl _ _ | refine Keeps.ite (fun _ => ?_) (fun _ => ?_) | refine (State.standstill_keeps ..).after ?_
    | fail_if_no_progress (refine Keeps.upd ?_)

theorem State.orrRun0_keeps (s : State) : Keeps [.orr] s (State.orrRun0 s) := by
  unfold State.orrRun0
  try dsimp only
  with_reducible repeat' first
    | exact Keeps.refl _ _ | refine Keeps.ite (fun _ => ?_) (fun _ => ?_) | refine (State.passEntries_keeps ..).after ?_
    | fail_if_no_progress (refine Keeps.upd ?_)

theorem State.orrTick_keeps (s : State) : Keeps [.orr] s (State.orrTick s) := by
  unfold State.orrTick
  try dsimp only
  with_reducible repeat' first
    | exact Keeps.refl _ _ | refine Keeps.ite (fun _ => ?_) (fun _ => ?_) | refine (State.seenAt_keeps ..).after ?_
    | fail_if_no_progress (refine Keeps.upd ?_)

theorem State.discardPending_keeps (s : State) : Keeps [.orr, .fe, .lg, .ev] s (State.discardPending s).2 := by
  unfold State.discardPending
  try dsimp only
  with_reducible repeat' first
    | exact Keeps.refl _ _ | refine Keeps.ite (fun _ => ?_) (fun _ => ?_) | refine (State.logEv_keeps ..).after ?_
    | fail_if_no_progress (refine Keeps.upd ?_) | split

theorem State.orrSecond_keeps (s : State) : Keeps [.orr, .ev] s (State.orrSecond s) := by
  unfold State.orrSecond
  try dsimp only
  with_reducible repeat' first
    | exact Keeps.refl _ _ | refine Keeps.ite (fun _ => ?_) (fun _ => ?_) | refine (State.logEv_keeps ..).after ?_
    | fail_if_no_progress (refine Keeps.upd ?_)

theorem State.commuteDrain_keeps (s : State) (e : Entry) : Keeps [.xb, .ad] s (State.commuteDrain s e) := by
  unfold State.commuteDrain
  try dsimp only
  with_reducible repeat' first
    | exact Keeps.refl _ _ | refine Keeps.ite (fun _ => ?_) (fun _ => ?_) | refine (State.endHalf_keeps ..).after ?_
    | fail_if_no_progress (refine Keeps.upd ?_)

/-! ## Machine/Regulator.lean -/

theorem State.regSlewed_keeps (s : State) (us : Nat) : Keeps [.reg] s (State.regSlewed s us) := by
  unfold State.regSlewed
  try dsimp only
  with_reducible repeat' first
    | exact Keeps.refl _ _ | refine Keeps.ite (fun _ => ?_) (fun _ => ?_) | fail_if_no_progress (refine Keeps.upd ?_)

theorem State.regClamped_keeps (s : State) (item : Nat) (code : Word) (bad : Bool) :
    Keeps [.reg, .ev] s (State.regClamped s item code bad) := by
  unfold State.regClamped
  try dsimp only
  with_reducible repeat' first
    | exact Keeps.refl _ _ | refine Keeps.ite (fun _ => ?_) (fun _ => ?_) | refine (State.logEv_keeps ..).after ?_
    | fail_if_no_progress (refine Keeps.upd ?_)

theorem State.regWord_keeps (s : State) (a : Nat) (w : Word) : Keeps [.reg, .ev] s (State.regWord s a w) := by
  unfold State.regWord
  try dsimp only
  with_reducible repeat' first
    | exact Keeps.refl _ _ | refine Keeps.ite (fun _ => ?_) (fun _ => ?_) | refine (State.regClamped_keeps ..).after ?_
    | fail_if_no_progress (refine Keeps.upd ?_)

theorem State.regBoundary_keeps (s : State) : Keeps [.reg, .ck] s (State.regBoundary s) := by
  unfold State.regBoundary
  try dsimp only
  with_reducible repeat' first
    | exact Keeps.refl _ _ | refine Keeps.ite (fun _ => ?_) (fun _ => ?_) | fail_if_no_progress (refine Keeps.upd ?_)

theorem State.regStart_keeps (s : State) (vaux : Nat) : Keeps [.reg, .ck] s (State.regStart s vaux) := by
  unfold State.regStart
  try dsimp only
  with_reducible repeat' first
    | exact Keeps.refl _ _ | refine Keeps.ite (fun _ => ?_) (fun _ => ?_) | refine (State.regBoundary_keeps ..).after ?_
    | fail_if_no_progress (refine Keeps.upd ?_)

theorem State.faultRecord_keeps (s : State) (cause : Nat) (latched : Bool) (e : RegEnv) :
    Keeps [.nv, .hb] s (State.faultRecord s cause latched e) := by
  unfold State.faultRecord
  try dsimp only
  with_reducible repeat' first
    | exact Keeps.refl _ _ | refine Keeps.ite (fun _ => ?_) (fun _ => ?_) | refine (State.nvPutAll_keeps ..).after ?_
    | fail_if_no_progress (refine Keeps.upd ?_)

theorem State.regFail_keeps (s : State) (cause : Nat) (e : RegEnv) : Keeps [.nv, .reg, .ev, .irq, .hb] s (State.regFail s cause e) := by
  unfold State.regFail
  try dsimp only
  with_reducible repeat' first
    | exact Keeps.refl _ _ | refine Keeps.ite (fun _ => ?_) (fun _ => ?_) | refine (State.faultRecord_keeps ..).after ?_
    | refine (State.logEv_keeps ..).after ?_ | refine (State.irq_keeps ..).after ?_ | fail_if_no_progress (refine Keeps.upd ?_)

theorem State.regRampEnd_keeps (s : State) (e : RegEnv) : Keeps [.nv, .reg, .ev, .irq, .hb] s (State.regRampEnd s e) := by
  unfold State.regRampEnd
  try dsimp only
  with_reducible repeat' first
    | exact Keeps.refl _ _ | refine Keeps.ite (fun _ => ?_) (fun _ => ?_) | refine (State.regFail_keeps ..).after ?_
    | fail_if_no_progress (refine Keeps.upd ?_)

theorem State.regRetry_keeps (s : State) (vaux : Nat) : Keeps [.reg, .ck] s (State.regRetry s vaux) := by
  unfold State.regRetry
  try dsimp only
  with_reducible repeat' first
    | exact Keeps.refl _ _ | refine Keeps.ite (fun _ => ?_) (fun _ => ?_) | refine (State.regStart_keeps ..).after ?_
    | fail_if_no_progress (refine Keeps.upd ?_)

theorem State.regUnder_keeps (s : State) (e : RegEnv) : Keeps [.nv, .reg, .ev, .irq, .hb] s (State.regUnder s e) := by
  unfold State.regUnder
  try dsimp only
  with_reducible repeat' first
    | exact Keeps.refl _ _ | refine Keeps.ite (fun _ => ?_) (fun _ => ?_) | refine (State.regFail_keeps ..).after ?_
    | fail_if_no_progress (refine Keeps.upd ?_)

theorem State.regOver_keeps (s : State) (e : RegEnv) : Keeps [.nv, .aon, .reg, .ev, .irq, .hb] s (State.regOver s e) := by
  unfold State.regOver
  try dsimp only
  with_reducible repeat' first
    | exact Keeps.refl _ _ | refine Keeps.ite (fun _ => ?_) (fun _ => ?_) | refine (State.faultRecord_keeps ..).after ?_
    | refine (State.logEv_keeps ..).after ?_ | refine (State.irq_keeps ..).after ?_ | fail_if_no_progress (refine Keeps.upd ?_)

theorem State.regClear_keeps (s : State) : Keeps [.aon, .reg, .ck, .ev] s (State.regClear s) := by
  unfold State.regClear
  try dsimp only
  with_reducible repeat' first
    | exact Keeps.refl _ _ | refine Keeps.ite (fun _ => ?_) (fun _ => ?_) | refine (State.logEv_keeps ..).after ?_
    | refine (State.regStart_keeps ..).after ?_ | fail_if_no_progress (refine Keeps.upd ?_)

theorem State.regStop_keeps (s : State) : Keeps [.reg] s (State.regStop s) := by
  unfold State.regStop
  try dsimp only
  with_reducible repeat' first
    | exact Keeps.refl _ _ | refine Keeps.ite (fun _ => ?_) (fun _ => ?_) | fail_if_no_progress (refine Keeps.upd ?_)

/-! ## Machine/Clock.lean -/

theorem State.setCalf_keeps (s : State) : Keeps [.pw, .irq] s (State.setCalf s) := by
  unfold State.setCalf
  try dsimp only
  with_reducible repeat' first
    | exact Keeps.refl _ _ | refine Keeps.ite (fun _ => ?_) (fun _ => ?_) | refine (State.irq_keeps ..).after ?_
    | fail_if_no_progress (refine Keeps.upd ?_)

theorem State.xtalFail_keeps (s : State) : Keeps [.aon, .ev, .irq] s (State.xtalFail s) := by
  unfold State.xtalFail
  try dsimp only
  with_reducible repeat' first
    | exact Keeps.refl _ _ | refine Keeps.ite (fun _ => ?_) (fun _ => ?_) | refine (State.logEv_keeps ..).after ?_
    | refine (State.irq_keeps ..).after ?_ | fail_if_no_progress (refine Keeps.upd ?_)

theorem State.xtalReport_keeps (s : State) : Keeps [.aon, .ev, .irq] s (State.xtalReport s) := by
  unfold State.xtalReport
  try dsimp only
  with_reducible repeat' first
    | exact Keeps.refl _ _ | refine Keeps.ite (fun _ => ?_) (fun _ => ?_) | refine (State.logEv_keeps ..).after ?_
    | refine (State.irq_keeps ..).after ?_ | fail_if_no_progress (refine Keeps.upd ?_)

theorem State.switchLock_keeps (s : State) : Keeps [.ck, .ev, .irq] s (State.switchLock s) := by
  unfold State.switchLock
  try dsimp only
  with_reducible repeat' first
    | exact Keeps.refl _ _ | refine Keeps.ite (fun _ => ?_) (fun _ => ?_) | refine (State.logEv_keeps ..).after ?_
    | refine (State.irq_keeps ..).after ?_ | fail_if_no_progress (refine Keeps.upd ?_)

theorem State.switchLoss_keeps (s : State) : Keeps [.ck, .xb, .ad, .fe, .ev, .irq] s (State.switchLoss s) := by
  unfold State.switchLoss
  try dsimp only
  with_reducible repeat' first
    | exact Keeps.refl _ _ | refine Keeps.ite (fun _ => ?_) (fun _ => ?_) | refine (State.cutHalf_keeps ..).after ?_
    | refine (State.logEv_keeps ..).after ?_ | refine (State.irq_keeps ..).after ?_ | fail_if_no_progress (refine Keeps.upd ?_)

theorem State.tapCalibrate_keeps (s : State) : Keeps [.ck] s (State.tapCalibrate s) := by
  unfold State.tapCalibrate
  try dsimp only
  with_reducible repeat' first
    | exact Keeps.refl _ _ | refine Keeps.ite (fun _ => ?_) (fun _ => ?_) | fail_if_no_progress (refine Keeps.upd ?_)

theorem State.mainsLost_keeps (s : State) (freq : Nat) : Keeps [.ck, .ev, .irq] s (State.mainsLost s freq) := by
  unfold State.mainsLost
  try dsimp only
  with_reducible repeat' first
    | exact Keeps.refl _ _ | refine Keeps.ite (fun _ => ?_) (fun _ => ?_) | refine (State.logEv_keeps ..).after ?_
    | refine (State.irq_keeps ..).after ?_ | fail_if_no_progress (refine Keeps.upd ?_)

theorem State.mainsForce_keeps (s : State) : Keeps [.ck, .ev, .irq] s (State.mainsForce s) := by
  unfold State.mainsForce
  try dsimp only
  with_reducible repeat' first
    | exact Keeps.refl _ _ | refine Keeps.ite (fun _ => ?_) (fun _ => ?_) | refine (State.mainsLost_keeps ..).after ?_
    | fail_if_no_progress (refine Keeps.upd ?_)

theorem State.mainsSwitch_keeps (s : State) : Keeps [.ck] s (State.mainsSwitch s) := by
  unfold State.mainsSwitch
  try dsimp only
  with_reducible repeat' first
    | exact Keeps.refl _ _ | refine Keeps.ite (fun _ => ?_) (fun _ => ?_) | refine (State.mainsHalt_keeps ..).after ?_
    | fail_if_no_progress (refine Keeps.upd ?_)

theorem State.mainsTick_keeps (s : State) : Keeps [.ck] s (State.mainsTick s) := by
  unfold State.mainsTick
  try dsimp only
  with_reducible repeat' first
    | exact Keeps.refl _ _ | refine Keeps.ite (fun _ => ?_) (fun _ => ?_) | fail_if_no_progress (refine Keeps.upd ?_)

theorem State.setRtc_keeps (s : State) (v : Word32) : Keeps [.aon, .ck, .ev, .irq] s (State.setRtc s v) := by
  unfold State.setRtc
  try dsimp only
  with_reducible repeat' first
    | exact Keeps.refl _ _ | refine Keeps.ite (fun _ => ?_) (fun _ => ?_) | refine (State.logEv_keeps ..).after ?_
    | refine (State.irq_keeps ..).after ?_ | fail_if_no_progress (refine Keeps.upd ?_)

theorem State.discipline_keeps (s : State) : Keeps [.ck, .lg, .ev, .irq] s (State.discipline s) := by
  unfold State.discipline
  try dsimp only
  with_reducible repeat' first
    | exact Keeps.refl _ _ | refine Keeps.ite (fun _ => ?_) (fun _ => ?_) | refine (State.audited_keeps ..).after ?_
    | fail_if_no_progress (refine Keeps.upd ?_)

theorem State.discTick_keeps (s : State) (cycles : Nat) : Keeps [.ck] s (State.discTick s cycles).2 := by
  unfold State.discTick
  try dsimp only
  with_reducible repeat' first
    | exact Keeps.refl _ _ | refine Keeps.ite (fun _ => ?_) (fun _ => ?_) | fail_if_no_progress (refine Keeps.upd ?_) | split

theorem State.aonTick_keeps (s : State) : Keeps [.aon, .ck] s (State.aonTick s) := by
  unfold State.aonTick
  try dsimp only
  with_reducible repeat' first
    | exact Keeps.refl _ _ | refine Keeps.ite (fun _ => ?_) (fun _ => ?_) | refine (State.discTick_keeps ..).after ?_
    | refine Keeps.ofPair ‹_› ?_ | fail_if_no_progress (refine Keeps.upd ?_) | split

theorem State.steerStep_keeps (s : State) : Keeps [.ck] s (State.steerStep s) := by
  unfold State.steerStep
  try dsimp only
  with_reducible repeat' first
    | exact Keeps.refl _ _ | refine Keeps.ite (fun _ => ?_) (fun _ => ?_) | fail_if_no_progress (refine Keeps.upd ?_)

theorem State.lineTick_keeps (s : State) : Keeps [.ck] s (State.lineTick s) := by
  unfold State.lineTick
  try dsimp only
  with_reducible repeat' first
    | exact Keeps.refl _ _ | refine Keeps.ite (fun _ => ?_) (fun _ => ?_) | refine (State.steerStep_keeps ..).after ?_
    | fail_if_no_progress (refine Keeps.upd ?_) | split

theorem State.headTime_keeps (s : State) : Keeps [.ck] s (State.headTime s) := by
  unfold State.headTime
  try dsimp only
  with_reducible repeat' first
    | exact Keeps.refl _ _ | refine Keeps.ite (fun _ => ?_) (fun _ => ?_) | fail_if_no_progress (refine Keeps.upd ?_)

end Sys2Proof.Machine
end

