-- ==== Sys2Proof/Laws/KeepsNet.lean ====
section
/-! SUPPORT. Sys2Proof/Laws/KeepsNet.lean: what each operation may touch: the operations of the line, the ledger, the network and the tone modem. -/

set_option Elab.async false

set_option linter.unusedTactic false
set_option linter.unreachableTactic false

namespace Sys2Proof.Machine

/-! ## Machine/Line.lean -/

theorem State.setGen_keeps (s : State) (rx : Bool) (p : Port) (slot : Nat) (g : Option Nat) :
    Keeps [.fram] s (State.setGen s rx p slot g) := by
  unfold State.setGen
  try dsimp only
  with_reducible repeat' first
    | exact Keeps.refl _ _ | refine Keeps.ite (fun _ => ?_) (fun _ => ?_) | fail_if_no_progress (refine Keeps.upd ?_) | split

theorem State.storeTable_keeps (s : State) (rx : Bool) (p : Port) (slot gen : Nat) (bits : List Nat) :
    Keeps [.nv, .fram, .hb] s (State.storeTable s rx p slot gen bits) := by
  unfold State.storeTable
  try dsimp only
  with_reducible repeat' first
    | exact Keeps.refl _ _ | refine Keeps.ite (fun _ => ?_) (fun _ => ?_) | refine (State.nvPutAll_keeps ..).after ?_
    | refine (State.setGen_keeps ..).after ?_ | fail_if_no_progress (refine Keeps.upd ?_)

theorem State.dropTables_keeps (s : State) (p : Port) : Keeps [.fram, .dl] s (State.dropTables s p) := by
  unfold State.dropTables
  try dsimp only
  with_reducible repeat' first
    | exact Keeps.refl _ _ | refine Keeps.ite (fun _ => ?_) (fun _ => ?_) | fail_if_no_progress (refine Keeps.upd ?_)

theorem State.dslEvent_keeps (s : State) (code : Word) (data : Nat) : Keeps [.ev, .irq] s (State.dslEvent s code data) := by
  unfold State.dslEvent
  try dsimp only
  with_reducible repeat' first
    | exact Keeps.refl _ _ | refine Keeps.ite (fun _ => ?_) (fun _ => ?_) | refine (State.logEv_keeps ..).after ?_
    | refine (State.irq_keeps ..).after ?_ | fail_if_no_progress (refine Keeps.upd ?_)

theorem State.dslClamp_keeps (s : State) (word : Nat) (v : Word) : Keeps [.ev, .irq] s (State.dslClamp s word v) := by
  unfold State.dslClamp
  try dsimp only
  with_reducible repeat' first
    | exact Keeps.refl _ _ | refine Keeps.ite (fun _ => ?_) (fun _ => ?_) | refine (State.dslEvent_keeps ..).after ?_
    | fail_if_no_progress (refine Keeps.upd ?_)

theorem State.stampTime_keeps (s : State) (f : DFrame) : Keeps [.dn] s (State.stampTime s f).2 := by
  unfold State.stampTime
  try dsimp only
  with_reducible repeat' first
    | exact Keeps.refl _ _ | refine Keeps.ite (fun _ => ?_) (fun _ => ?_) | fail_if_no_progress (refine Keeps.upd ?_) | split

theorem State.startFrame_keeps (s : State) (p : Port) : Keeps [.pw, .dl, .dn] s (State.startFrame s p) := by
  unfold State.startFrame
  try dsimp only
  with_reducible repeat' first
    | exact Keeps.refl _ _ | refine Keeps.ite (fun _ => ?_) (fun _ => ?_) | refine (State.stampTime_keeps ..).after ?_
    | refine Keeps.ofPair ‹_› ?_ | fail_if_no_progress (refine Keeps.upd ?_) | split

theorem State.trainDone_keeps (s : State) (p : Port) (peer : BitVec 6) : Keeps [.ev, .dl, .irq] s (State.trainDone s p peer) := by
  unfold State.trainDone
  try dsimp only
  with_reducible repeat' first
    | exact Keeps.refl _ _ | refine Keeps.ite (fun _ => ?_) (fun _ => ?_) | refine (State.dslEvent_keeps ..).after ?_
    | fail_if_no_progress (refine Keeps.upd ?_) | split

theorem State.searchSent_keeps (s : State) (f : SFrame) : Keeps [.ev, .dl, .irq] s (State.searchSent s f) := by
  unfold State.searchSent
  try dsimp only
  with_reducible repeat' first
    | exact Keeps.refl _ _ | refine Keeps.ite (fun _ => ?_) (fun _ => ?_) | refine (State.trainDone_keeps ..).after ?_
    | fail_if_no_progress (refine Keeps.upd ?_)

theorem State.burstBegin_keeps (s : State) (b : Burst) : Keeps [.pw, .dl] s (State.burstBegin s b) := by
  unfold State.burstBegin
  try dsimp only
  with_reducible repeat' first
    | exact Keeps.refl _ _ | refine Keeps.ite (fun _ => ?_) (fun _ => ?_) | fail_if_no_progress (refine Keeps.upd ?_)

theorem State.burstTick_keeps (s : State) : Keeps [.pw, .dl] s (State.burstTick s) := by
  unfold State.burstTick
  try dsimp only
  with_reducible repeat' first
    | exact Keeps.refl _ _ | refine Keeps.ite (fun _ => ?_) (fun _ => ?_) | refine (State.burstBegin_keeps ..).after ?_
    | fail_if_no_progress (refine Keeps.upd ?_) | split

theorem State.searchOnTick_keeps (s : State) : Keeps [.ev, .dl, .irq] s (State.searchOnTick s) := by
  unfold State.searchOnTick
  try dsimp only
  with_reducible repeat' first
    | exact Keeps.refl _ _ | refine Keeps.ite (fun _ => ?_) (fun _ => ?_) | refine (State.searchSent_keeps ..).after ?_
    | fail_if_no_progress (refine Keeps.upd ?_) | split

theorem State.onLineTick_keeps (s : State) : Keeps [.pw, .ev, .dl, .irq] s (State.onLineTick s) := by
  unfold State.onLineTick
  try dsimp only
  with_reducible repeat' first
    | exact Keeps.refl _ _ | refine Keeps.ite (fun _ => ?_) (fun _ => ?_) | refine (State.burstTick_keeps ..).after ?_
    | refine (State.searchOnTick_keeps ..).after ?_ | fail_if_no_progress (refine Keeps.upd ?_) | split

theorem State.cutEvent_keeps (s : State) (prot : Bool) : Keeps [.ev] s (State.cutEvent s prot) := by
  unfold State.cutEvent
  try dsimp only
  with_reducible repeat' first
    | exact Keeps.refl _ _ | refine Keeps.ite (fun _ => ?_) (fun _ => ?_) | refine (State.logEv_keeps ..).after ?_
    | fail_if_no_progress (refine Keeps.upd ?_)

theorem State.unsent_keeps (s : State) (us : Nat) : Keeps [.pw] s (State.unsent s us) := by
  unfold State.unsent
  try dsimp only
  with_reducible repeat' first
    | exact Keeps.refl _ _ | refine Keeps.ite (fun _ => ?_) (fun _ => ?_) | fail_if_no_progress (refine Keeps.upd ?_)

theorem State.cutDmt_keeps (s : State) : Keeps [.pw, .ev, .dl] s (State.cutDmt s) := by
  unfold State.cutDmt
  try dsimp only
  with_reducible repeat' first
    | exact Keeps.refl _ _ | refine Keeps.ite (fun _ => ?_) (fun _ => ?_) | refine (State.unsent_keeps ..).after ?_
    | refine (State.cutEvent_keeps ..).after ?_ | fail_if_no_progress (refine Keeps.upd ?_) | split

theorem State.cutSearch_keeps (s : State) : Keeps [.ev, .dl, .irq] s (State.cutSearch s) := by
  unfold State.cutSearch
  try dsimp only
  with_reducible repeat' first
    | exact Keeps.refl _ _ | refine Keeps.ite (fun _ => ?_) (fun _ => ?_) | refine (State.cutEvent_keeps ..).after ?_
    | refine (State.trainDone_keeps ..).after ?_ | fail_if_no_progress (refine Keeps.upd ?_) | split

theorem State.cutBurst_keeps (s : State) : Keeps [.pw, .ev, .dl] s (State.cutBurst s) := by
  unfold State.cutBurst
  try dsimp only
  with_reducible repeat' first
    | exact Keeps.refl _ _ | refine Keeps.ite (fun _ => ?_) (fun _ => ?_) | refine (State.unsent_keeps ..).after ?_
    | refine (State.cutEvent_keeps ..).after ?_ | fail_if_no_progress (refine Keeps.upd ?_) | split

theorem State.cutFrame_keeps (s : State) : Keeps [.pw, .ev, .dl, .irq] s (State.cutFrame s) := by
  unfold State.cutFrame
  try dsimp only
  with_reducible repeat' first
    | exact Keeps.refl _ _ | refine Keeps.ite (fun _ => ?_) (fun _ => ?_) | refine (State.cutDmt_keeps ..).after ?_
    | refine (State.cutSearch_keeps ..).after ?_ | refine (State.cutBurst_keeps ..).after ?_ | fail_if_no_progress (refine Keeps.upd ?_)

theorem State.cutBulk_keeps (s : State) : Keeps [.pw, .ev, .dl, .irq] s (State.cutBulk s) := by
  unfold State.cutBulk
  try dsimp only
  with_reducible repeat' first
    | exact Keeps.refl _ _ | refine Keeps.ite (fun _ => ?_) (fun _ => ?_) | refine (State.cutDmt_keeps ..).after ?_
    | refine (State.cutSearch_keeps ..).after ?_ | refine (State.cutBurst_keeps ..).after ?_ | fail_if_no_progress (refine Keeps.upd ?_)

theorem State.sendSearch_keeps (s : State) (p : Port) (kind : Byte) (payload : List Byte) :
    Keeps [.dl] s (State.sendSearch s p kind payload) := by
  unfold State.sendSearch
  try dsimp only
  with_reducible repeat' first
    | exact Keeps.refl _ _ | refine Keeps.ite (fun _ => ?_) (fun _ => ?_) | fail_if_no_progress (refine Keeps.upd ?_)

theorem State.lineClear_keeps (s : State) (p : Port) : Keeps [.dl] s (State.lineClear s p) := by
  unfold State.lineClear
  try dsimp only
  with_reducible repeat' first
    | exact Keeps.refl _ _ | refine Keeps.ite (fun _ => ?_) (fun _ => ?_) | fail_if_no_progress (refine Keeps.upd ?_)

theorem State.searchTick_keeps (s : State) : Keeps [.dl] s (State.searchTick s) := by
  unfold State.searchTick
  try dsimp only
  with_reducible repeat' first
    | exact Keeps.refl _ _ | refine Keeps.ite (fun _ => ?_) (fun _ => ?_) | fail_if_no_progress (refine Keeps.upd ?_) | split

theorem State.learnIdx_keeps (s : State) (p : Port) (src : BitVec 12) (i : BitVec 6) : Keeps [.dl] s (State.learnIdx s p src i) := by
  unfold State.learnIdx
  try dsimp only
  with_reducible repeat' first
    | exact Keeps.refl _ _ | refine Keeps.ite (fun _ => ?_) (fun _ => ?_) | fail_if_no_progress (refine Keeps.upd ?_)

theorem State.commitRx_keeps (s : State) (p : Port) (peer : BitVec 6) :
    Keeps [.nv, .fram, .ev, .dl, .irq, .hb] s (State.commitRx s p peer) := by
  unfold State.commitRx
  try dsimp only
  with_reducible repeat' first
    | exact Keeps.refl _ _ | refine Keeps.ite (fun _ => ?_) (fun _ => ?_) | refine (State.storeTable_keeps ..).after ?_
    | refine (State.dslEvent_keeps ..).after ?_ | fail_if_no_progress (refine Keeps.upd ?_) | split

theorem State.setFails_keeps (s : State) (p : Port) (peer : BitVec 6) (n : Nat) : Keeps [.dl] s (State.setFails s p peer n) := by
  unfold State.setFails
  try dsimp only
  with_reducible repeat' first
    | exact Keeps.refl _ _ | refine Keeps.ite (fun _ => ?_) (fun _ => ?_) | fail_if_no_progress (refine Keeps.upd ?_)

theorem State.genCheck_keeps (s : State) (f : RxFrame) : Keeps [.nv, .fram, .ev, .dl, .irq, .hb] s (State.genCheck s f).2 := by
  unfold State.genCheck
  try dsimp only
  with_reducible repeat' first
    | exact Keeps.refl _ _ | refine Keeps.ite (fun _ => ?_) (fun _ => ?_) | refine (State.commitRx_keeps ..).after ?_
    | refine (State.setFails_keeps ..).after ?_ | fail_if_no_progress (refine Keeps.upd ?_) | split

theorem State.setLive_keeps (s : State) (p : Port) (f : PortLive → PortLive) : Keeps [.dl] s (State.setLive s p f) := by
  unfold State.setLive
  try dsimp only
  with_reducible repeat' first
    | exact Keeps.refl _ _ | refine Keeps.ite (fun _ => ?_) (fun _ => ?_) | fail_if_no_progress (refine Keeps.upd ?_)

theorem State.stampFrame_keeps (s : State) (f : RxFrame) : Keeps [.ev, .dl, .pl] s (State.stampFrame s f) := by
  unfold State.stampFrame
  try dsimp only
  with_reducible repeat' first
    | exact Keeps.refl _ _ | refine Keeps.ite (fun _ => ?_) (fun _ => ?_) | refine (State.learnIdx_keeps ..).after ?_
    | refine (State.setLive_keeps ..).after ?_ | refine (State.pinned_keeps ..).after ?_ | fail_if_no_progress (refine Keeps.upd ?_)

theorem State.sendTrain_keeps (s : State) (p : Port) (peer : BitVec 6) (sent : Nat) : Keeps [.dl] s (State.sendTrain s p peer sent) := by
  unfold State.sendTrain
  try dsimp only
  with_reducible repeat' first
    | exact Keeps.refl _ _ | refine Keeps.ite (fun _ => ?_) (fun _ => ?_) | refine (State.sendSearch_keeps ..).after ?_
    | fail_if_no_progress (refine Keeps.upd ?_)

theorem State.trainTimeout_keeps (s : State) : Keeps [.ev, .dl, .irq] s (State.trainTimeout s) := by
  unfold State.trainTimeout
  try dsimp only
  with_reducible repeat' first
    | exact Keeps.refl _ _ | refine Keeps.ite (fun _ => ?_) (fun _ => ?_) | refine (State.sendTrain_keeps ..).after ?_
    | refine (State.dslEvent_keeps ..).after ?_ | fail_if_no_progress (refine Keeps.upd ?_) | split

theorem State.rxTrainFrame_keeps (s : State) (r : RxSearch) : Keeps [.dl] s (State.rxTrainFrame s r) := by
  unfold State.rxTrainFrame
  try dsimp only
  with_reducible repeat' first
    | exact Keeps.refl _ _ | refine Keeps.ite (fun _ => ?_) (fun _ => ?_) | fail_if_no_progress (refine Keeps.upd ?_)

theorem State.trainingEnd_keeps (s : State) (p : Port) (snr : List Byte) : Keeps [.dl] s (State.trainingEnd s p snr) := by
  unfold State.trainingEnd
  try dsimp only
  with_reducible repeat' first
    | exact Keeps.refl _ _ | refine Keeps.ite (fun _ => ?_) (fun _ => ?_) | refine (State.sendSearch_keeps ..).after ?_
    | fail_if_no_progress (refine Keeps.upd ?_) | split

theorem State.rxTable_keeps (s : State) (r : RxSearch) : Keeps [.nv, .fram, .dl, .hb] s (State.rxTable s r) := by
  unfold State.rxTable
  try dsimp only
  with_reducible repeat' first
    | exact Keeps.refl _ _ | refine Keeps.ite (fun _ => ?_) (fun _ => ?_) | refine (State.storeTable_keeps ..).after ?_
    | refine (State.sendSearch_keeps ..).after ?_ | fail_if_no_progress (refine Keeps.upd ?_)

theorem State.rxTableAck_keeps (s : State) (r : RxSearch) : Keeps [.nv, .fram, .ev, .dl, .irq, .hb] s (State.rxTableAck s r) := by
  unfold State.rxTableAck
  try dsimp only
  with_reducible repeat' first
    | exact Keeps.refl _ _ | refine Keeps.ite (fun _ => ?_) (fun _ => ?_) | refine (State.commitRx_keeps ..).after ?_
    | fail_if_no_progress (refine Keeps.upd ?_)

theorem State.rxRetrain_keeps (s : State) (r : RxSearch) : Keeps [.dl] s (State.rxRetrain s r) := by
  unfold State.rxRetrain
  try dsimp only
  with_reducible repeat' first
    | exact Keeps.refl _ _ | refine Keeps.ite (fun _ => ?_) (fun _ => ?_) | refine (State.sendTrain_keeps ..).after ?_
    | fail_if_no_progress (refine Keeps.upd ?_)

theorem State.retrainTaken_keeps (s : State) (p : Port) (peer : BitVec 6) (cause : Nat) :
    Keeps [.dl] s (State.retrainTaken s p peer cause) := by
  unfold State.retrainTaken
  try dsimp only
  with_reducible repeat' first
    | exact Keeps.refl _ _ | refine Keeps.ite (fun _ => ?_) (fun _ => ?_) | refine (State.setFails_keeps ..).after ?_
    | fail_if_no_progress (refine Keeps.upd ?_)

theorem State.retrainTrigger_keeps (s : State) (p : Port) (peer : BitVec 6) (cause : Nat) :
    Keeps [.ev, .dl, .pl, .irq] s (State.retrainTrigger s p peer cause) := by
  unfold State.retrainTrigger
  try dsimp only
  with_reducible repeat' first
    | exact Keeps.refl _ _ | refine Keeps.ite (fun _ => ?_) (fun _ => ?_) | refine (State.setLive_keeps ..).after ?_
    | refine (State.pinned_keeps ..).after ?_ | refine (State.sendSearch_keeps ..).after ?_ | refine (State.dslEvent_keeps ..).after ?_
    | fail_if_no_progress (refine Keeps.upd ?_)

theorem State.retrainEvery_keeps (s : State) : Keeps [.ev, .dl, .pl, .irq] s (State.retrainEvery s) := by
  unfold State.retrainEvery
  try dsimp only
  with_reducible repeat' first
    | exact Keeps.refl _ _ | refine Keeps.ite (fun _ => ?_) (fun _ => ?_) | refine (State.retrainTrigger_keeps ..).after ?_
    | refine Keeps.foldl ?_ (fun _ _ => ?_) | fail_if_no_progress (refine Keeps.upd ?_)

theorem State.maskWrite_keeps {L : List Part} (s : State) (a : Nat) (w : Word) (write : State → State) (h0 : ∀ y0, Keeps L y0 (write y0)) (hL : List.all [.nv, .fram, .ev, .dl, .irq, .hb] (L.contains ·) = true) :
    Keeps L s (State.maskWrite s a w write) := by
  unfold State.maskWrite
  try dsimp only
  with_reducible repeat' first
    | exact Keeps.refl _ _ | refine Keeps.ite (fun _ => ?_) (fun _ => ?_) | refine (h0 _ ).next ?_
    | refine (State.nvPut_keeps ..).after ?_ (Keeps.sub (by with_unfolding_all rfl) hL)
    | refine (State.dslClamp_keeps ..).after ?_ (Keeps.sub (by with_unfolding_all rfl) hL)
    | refine (State.dropTables_keeps ..).after ?_ (Keeps.sub (by with_unfolding_all rfl) hL)
    | fail_if_no_progress (refine (Keeps.upd (L := [.nv, .fram, .ev, .dl, .irq, .hb]) (Keeps.refl _ _)).after ?_ hL)

theorem State.dlWord_keeps (s : State) (a : Nat) (w : Word) : Keeps [.ev, .irq] s (State.dlWord s a w) := by
  unfold State.dlWord
  try dsimp only
  with_reducible repeat' first
    | exact Keeps.refl _ _ | refine Keeps.ite (fun _ => ?_) (fun _ => ?_) | refine (State.dslClamp_keeps ..).after ?_
    | fail_if_no_progress (refine Keeps.upd ?_)

theorem State.pbenOff_keeps (s : State) : Keeps [.ev, .dl, .dn, .irq] s (State.pbenOff s) := by
  unfold State.pbenOff
  try dsimp only
  with_reducible repeat' first
    | exact Keeps.refl _ _ | refine Keeps.ite (fun _ => ?_) (fun _ => ?_) | refine (State.dslClamp_keeps ..).after ?_
    | fail_if_no_progress (refine Keeps.upd ?_)

theorem State.dsStatClear_keeps (s : State) (v : Word) : Keeps [.dl, .dn] s (State.dsStatClear s v) := by
  unfold State.dsStatClear
  try dsimp only
  with_reducible repeat' first
    | exact Keeps.refl _ _ | refine Keeps.ite (fun _ => ?_) (fun _ => ?_) | fail_if_no_progress (refine Keeps.upd ?_)

theorem State.dsStatHeld_keeps (s : State) : Keeps [.dl, .dn] s (State.dsStatHeld s) := by
  unfold State.dsStatHeld
  try dsimp only
  with_reducible repeat' first
    | exact Keeps.refl _ _ | refine Keeps.ite (fun _ => ?_) (fun _ => ?_) | refine (State.dsStatClear_keeps ..).after ?_
    | fail_if_no_progress (refine Keeps.upd ?_) | split

theorem State.dropFrame_keeps (s : State) (k : DropKind) : Keeps [.ev, .dl, .pl] s (State.dropFrame s k) := by
  unfold State.dropFrame
  try dsimp only
  with_reducible repeat' first
    | exact Keeps.refl _ _ | refine Keeps.ite (fun _ => ?_) (fun _ => ?_) | refine (State.setLive_keeps ..).after ?_
    | refine (State.pinned_keeps ..).after ?_ | refine (State.setFails_keeps ..).after ?_ | fail_if_no_progress (refine Keeps.upd ?_)
    | split

theorem State.lineSecond_keeps (s : State) : Keeps [.pw, .ev, .dl, .irq] s (State.lineSecond s) := by
  unfold State.lineSecond
  try dsimp only
  with_reducible repeat' first
    | exact Keeps.refl _ _ | refine Keeps.ite (fun _ => ?_) (fun _ => ?_) | refine (State.dslEvent_keeps ..).after ?_
    | fail_if_no_progress (refine Keeps.upd ?_)

theorem State.latchRssi_keeps (s : State) (r : RxSearch) : Keeps [.dl] s (State.latchRssi s r) := by
  unfold State.latchRssi
  try dsimp only
  with_reducible repeat' first
    | exact Keeps.refl _ _ | refine Keeps.ite (fun _ => ?_) (fun _ => ?_) | fail_if_no_progress (refine Keeps.upd ?_)

theorem State.takeSearch_keeps {L : List Part} (s : State) (r : RxSearch) (f : State → State) (h0 : ∀ y0, Keeps L y0 (f y0)) (hL : List.all [.dl] (L.contains ·) = true) :
    Keeps L s (State.takeSearch s r f) := by
  unfold State.takeSearch
  try dsimp only
  with_reducible repeat' first
    | exact Keeps.refl _ _ | refine Keeps.ite (fun _ => ?_) (fun _ => ?_) | refine (h0 _ ).next ?_
    | refine (State.when_keeps (L := L) (h0 := fun _ => ?_) (hL := Keeps.sub (by with_unfolding_all rfl) hL) ..).next ?_
    | refine (State.latchRssi_keeps ..).after ?_ (Keeps.sub (by with_unfolding_all rfl) hL)
    | fail_if_no_progress (refine (Keeps.upd (L := [.dl]) (Keeps.refl _ _)).after ?_ hL)

/-! ## Machine/Ledger.lean -/

theorem State.settleAudit_keeps (s : State) (count : Nat) (chain : List Byte) :
    Keeps [.lg, .ev, .irq] s (State.settleAudit s count chain) := by
  unfold State.settleAudit
  try dsimp only
  with_reducible repeat' first
    | exact Keeps.refl _ _ | refine Keeps.ite (fun _ => ?_) (fun _ => ?_) | refine (State.logEv_keeps ..).after ?_
    | refine (State.irq_keeps ..).after ?_ | fail_if_no_progress (refine Keeps.upd ?_)

theorem State.recoverFrom_keeps (s : State) (b : Bool) : Keeps [.orr, .lg, .ev, .irq] s (State.recoverFrom s b) := by
  unfold State.recoverFrom
  try dsimp only
  with_reducible repeat' first
    | exact Keeps.refl _ _ | refine Keeps.ite (fun _ => ?_) (fun _ => ?_) | refine (State.settleAudit_keeps ..).after ?_
    | refine (State.exhaust_keeps ..).after ?_ | refine (State.logEv_keeps ..).after ?_ | refine (State.irq_keeps ..).after ?_
    | fail_if_no_progress (refine Keeps.upd ?_)

theorem State.recoverNone_keeps (s : State) : Keeps [.lg, .ev, .irq] s (State.recoverNone s) := by
  unfold State.recoverNone
  try dsimp only
  with_reducible repeat' first
    | exact Keeps.refl _ _ | refine Keeps.ite (fun _ => ?_) (fun _ => ?_) | refine (State.logEv_keeps ..).after ?_
    | refine (State.irq_keeps ..).after ?_ | fail_if_no_progress (refine Keeps.upd ?_)

theorem State.recover_keeps (s : State) : Keeps [.orr, .lg, .ev, .irq] s (State.recover s) := by
  unfold State.recover
  try dsimp only
  with_reducible repeat' first
    | exact Keeps.refl _ _ | refine Keeps.ite (fun _ => ?_) (fun _ => ?_) | refine (State.recoverFrom_keeps ..).after ?_
    | refine (State.recoverNone_keeps ..).after ?_ | fail_if_no_progress (refine Keeps.upd ?_) | split

theorem State.writeSnap_keeps (s : State) (d : BankData) (sw : Word32 × Word32) : Keeps [.fram, .lg, .irq] s (State.writeSnap s d sw) := by
  unfold State.writeSnap
  try dsimp only
  with_reducible repeat' first
    | exact Keeps.refl _ _ | refine Keeps.ite (fun _ => ?_) (fun _ => ?_) | refine (State.irq_keeps ..).after ?_
    | fail_if_no_progress (refine Keeps.upd ?_)

theorem State.writeSnaps_keeps (s : State) (d : BankData) (sweeps : List (Word32 × Word32)) :
    Keeps [.fram, .lg, .irq] s (State.writeSnaps s d sweeps) := by
  unfold State.writeSnaps
  try dsimp only
  with_reducible repeat' first
    | exact Keeps.refl _ _ | refine Keeps.ite (fun _ => ?_) (fun _ => ?_) | refine (State.writeSnap_keeps ..).after ?_
    | refine Keeps.foldl ?_ (fun _ _ => ?_) | fail_if_no_progress (refine Keeps.upd ?_)

theorem State.snapUnderLbad_keeps (s : State) (sweeps : List (Word32 × Word32)) :
    Keeps [.fram, .lg, .irq] s (State.snapUnderLbad s sweeps) := by
  unfold State.snapUnderLbad
  try dsimp only
  with_reducible repeat' first
    | exact Keeps.refl _ _ | refine Keeps.ite (fun _ => ?_) (fun _ => ?_) | refine (State.writeSnaps_keeps ..).after ?_
    | fail_if_no_progress (refine Keeps.upd ?_)

theorem State.commitDone_keeps (s : State) (c : Commit) : Keeps [.fram, .lg, .irq] s (State.commitDone s c) := by
  unfold State.commitDone
  try dsimp only
  with_reducible repeat' first
    | exact Keeps.refl _ _ | refine Keeps.ite (fun _ => ?_) (fun _ => ?_) | refine (State.irq_keeps ..).after ?_
    | refine (State.writeSnaps_keeps ..).after ?_ | fail_if_no_progress (refine Keeps.upd ?_)

theorem State.nextCommit_keeps (s : State) : Keeps [.fram, .lg, .ev, .irq] s (State.nextCommit s) := by
  unfold State.nextCommit
  try dsimp only
  with_reducible repeat' first
    | exact Keeps.refl _ _ | refine Keeps.ite (fun _ => ?_) (fun _ => ?_) | refine (State.writeSnaps_keeps ..).after ?_
    | refine (State.beginCommit_keeps ..).after ?_ | refine Keeps.foldl ?_ (fun _ _ => ?_) | fail_if_no_progress (refine Keeps.upd ?_)
    | split

theorem State.commitComplete_keeps (s : State) : Keeps [.fram, .lg, .ev, .irq] s (State.commitComplete s) := by
  unfold State.commitComplete
  try dsimp only
  with_reducible repeat' first
    | exact Keeps.refl _ _ | refine Keeps.ite (fun _ => ?_) (fun _ => ?_) | refine (State.commitDone_keeps ..).after ?_
    | refine (State.nextCommit_keeps ..).after ?_ | fail_if_no_progress (refine Keeps.upd ?_) | split

theorem State.twoCommits_keeps (s : State) (reason : Byte) : Keeps [.lg, .ev] s (State.twoCommits s reason) := by
  unfold State.twoCommits
  try dsimp only
  with_reducible repeat' first
    | exact Keeps.refl _ _ | refine Keeps.ite (fun _ => ?_) (fun _ => ?_) | refine (State.trigger_keeps ..).after ?_
    | fail_if_no_progress (refine Keeps.upd ?_)

theorem State.writeEvent_keeps (s : State) : Keeps [.fram, .ev, .irq] s (State.writeEvent s) := by
  unfold State.writeEvent
  split
  · exact Keeps.refl _ _
  · rename_i e rest hb
    dsimp only
    have hl : s.ev.ok → rest.length ≤ 32 := fun h => by
      have : s.ev.buf.length ≤ 32 := h
      rw [hb, List.length_cons] at this
      omega
    split
    · refine (State.irq_keeps ..).after ?_ rfl
      exact Keeps.upd (Keeps.refl _ _) (h4 := fun h => ⟨h.1, List.length_take_le ..⟩) (i_ev := hl)
    · refine (State.logEv_keeps ..).after (Keeps.upd ((State.irq_keeps ..).after ?_ rfl)) rfl
      exact Keeps.upd (Keeps.refl _ _) (h4 := fun h => ⟨h.1, List.length_take_le ..⟩) (i_ev := hl)

theorem State.dropHeld_keeps (s : State) : Keeps [.hb] s (State.dropHeld s) := by
  unfold State.dropHeld
  try dsimp only
  with_reducible repeat' first
    | exact Keeps.refl _ _ | refine Keeps.ite (fun _ => ?_) (fun _ => ?_) | fail_if_no_progress (refine Keeps.upd ?_)

theorem State.abortLoad_keeps (s : State) (cause : Nat) : Keeps [.ev, .sc] s (State.abortLoad s cause) := by
  unfold State.abortLoad
  try dsimp only
  with_reducible repeat' first
    | exact Keeps.refl _ _ | refine Keeps.ite (fun _ => ?_) (fun _ => ?_) | refine (State.logEv_keeps ..).after ?_
    | fail_if_no_progress (refine Keeps.upd ?_)

theorem State.refuseHeld_keeps (s : State) : Keeps [.fe, .ev] s (State.refuseHeld s) := by
  unfold State.refuseHeld
  try dsimp only
  with_reducible repeat' first
    | exact Keeps.refl _ _ | refine Keeps.ite (fun _ => ?_) (fun _ => ?_) | refine (State.logEv_keeps ..).after ?_
    | fail_if_no_progress (refine Keeps.upd ?_)

theorem State.abortCeremony_keeps (s : State) (cause : Nat) : Keeps [.fram, .ev, .an, .irq] s (State.abortCeremony s cause) := by
  unfold State.abortCeremony
  try dsimp only
  with_reducible repeat' first
    | exact Keeps.refl _ _ | refine Keeps.ite (fun _ => ?_) (fun _ => ?_) | refine (State.logEv_keeps ..).after ?_
    | refine (State.irq_keeps ..).after ?_ | fail_if_no_progress (refine Keeps.upd ?_)

theorem State.setSeal_keeps (s : State) (isOpen : Bool) :
    Keeps [.fram, .aon, .orr, .fe, .ev, .sc, .an, .irq, .hb] s (State.setSeal s isOpen) := by
  unfold State.setSeal
  try dsimp only
  with_reducible repeat' first
    | exact Keeps.refl _ _ | refine Keeps.ite (fun _ => ?_) (fun _ => ?_) | refine (State.irq_keeps ..).after ?_
    | refine (State.dropHeld_keeps ..).after ?_ | refine (State.abortLoad_keeps ..).after ?_ | refine (State.refuseHeld_keeps ..).after ?_
    | refine (State.abortCeremony_keeps ..).after ?_ | refine (State.learnAbort_keeps ..).after ?_
    | fail_if_no_progress (refine Keeps.upd ?_)

theorem State.sealUnaudited_keeps (s : State) (isOpen : Bool) (n : Nat) :
    Keeps [.fram, .aon, .orr, .fe, .lg, .ev, .sc, .an, .irq, .hb] s (State.sealUnaudited s isOpen n) := by
  unfold State.sealUnaudited
  try dsimp only
  with_reducible repeat' first
    | exact Keeps.refl _ _ | refine Keeps.ite (fun _ => ?_) (fun _ => ?_) | refine (State.logEv_keeps ..).after ?_
    | refine (State.setSeal_keeps ..).after ?_ | fail_if_no_progress (refine Keeps.upd ?_)

theorem State.sealEdge_keeps (s : State) (isOpen : Bool) :
    Keeps [.fram, .aon, .orr, .fe, .lg, .ev, .sc, .an, .irq, .hb] s (State.sealEdge s isOpen) := by
  unfold State.sealEdge
  try dsimp only
  with_reducible repeat' first
    | exact Keeps.refl _ _ | refine Keeps.ite (fun _ => ?_) (fun _ => ?_) | refine (State.sealUnaudited_keeps ..).after ?_
    | refine (State.queueChange_keeps ..).after ?_ | fail_if_no_progress (refine Keeps.upd ?_)

theorem State.sealHeld_keeps (s : State) (isOpen : Bool) : Keeps [.aon] s (State.sealHeld s isOpen) := by
  unfold State.sealHeld
  try dsimp only
  with_reducible repeat' first
    | exact Keeps.refl _ _ | refine Keeps.ite (fun _ => ?_) (fun _ => ?_) | fail_if_no_progress (refine Keeps.upd ?_)

theorem State.sealAtRun_keeps (s : State) : Keeps [.fram, .aon, .orr, .fe, .lg, .ev, .sc, .an, .irq, .hb] s (State.sealAtRun s) := by
  unfold State.sealAtRun
  try dsimp only
  with_reducible repeat' first
    | exact Keeps.refl _ _ | refine Keeps.ite (fun _ => ?_) (fun _ => ?_) | refine (State.logEv_keeps ..).after ?_
    | refine (State.sealUnaudited_keeps ..).after ?_ | refine (State.queueChange_keeps ..).after ?_
    | fail_if_no_progress (refine Keeps.upd ?_)

theorem State.startLoad_keeps (s : State) : Keeps [.ev, .sc] s (State.startLoad s) := by
  unfold State.startLoad
  try dsimp only
  with_reducible repeat' first
    | exact Keeps.refl _ _ | refine Keeps.ite (fun _ => ?_) (fun _ => ?_) | refine (State.abortLoad_keeps ..).after ?_
    | refine (State.logEv_keeps ..).after ?_ | fail_if_no_progress (refine Keeps.upd ?_)

theorem State.keyWord_keeps (s : State) (w : Word) : Keeps [.lg, .ev, .sc, .irq] s (State.keyWord s w) := by
  unfold State.keyWord
  try dsimp only
  with_reducible repeat' first
    | exact Keeps.refl _ _ | refine Keeps.ite (fun _ => ?_) (fun _ => ?_) | refine (State.logEv_keeps ..).after ?_
    | refine (State.refuseFull_keeps ..).after ?_ | refine (State.queueChange_keeps ..).after ?_ | fail_if_no_progress (refine Keeps.upd ?_)

theorem State.cutLoad_keeps (s : State) : Keeps [.sc] s (State.cutLoad s) := by
  unfold State.cutLoad
  try dsimp only
  with_reducible repeat' first
    | exact Keeps.refl _ _ | refine Keeps.ite (fun _ => ?_) (fun _ => ?_) | fail_if_no_progress (refine Keeps.upd ?_)

theorem State.sealFrozen_keeps (s : State) (isOpen : Bool) : Keeps [.hb] s (State.sealFrozen s isOpen) := by
  unfold State.sealFrozen
  try dsimp only
  with_reducible repeat' first
    | exact Keeps.refl _ _ | refine Keeps.ite (fun _ => ?_) (fun _ => ?_) | fail_if_no_progress (refine Keeps.upd ?_)

/-! ## Machine/Network.lean -/

theorem State.dnEvent_keeps (s : State) (code : Word) (data : Nat) : Keeps [.ev, .irq] s (State.dnEvent s code data) := by
  unfold State.dnEvent
  try dsimp only
  with_reducible repeat' first
    | exact Keeps.refl _ _ | refine Keeps.ite (fun _ => ?_) (fun _ => ?_) | refine (State.logEv_keeps ..).after ?_
    | refine (State.irq_keeps ..).after ?_ | fail_if_no_progress (refine Keeps.upd ?_)

theorem State.dnCount_keeps (s : State) : Keeps [.ev, .dn, .pl] s (State.dnCount s) := by
  unfold State.dnCount
  try dsimp only
  with_reducible repeat' first
    | exact Keeps.refl _ _ | refine Keeps.ite (fun _ => ?_) (fun _ => ?_) | refine (State.pinned_keeps ..).after ?_
    | fail_if_no_progress (refine Keeps.upd ?_)

theorem State.dnLogOnce_keeps (s : State) (code : Word) (data : Nat) : Keeps [.ev, .irq, .hb] s (State.dnLogOnce s code data) := by
  unfold State.dnLogOnce
  try dsimp only
  with_reducible repeat' first
    | exact Keeps.refl _ _ | refine Keeps.ite (fun _ => ?_) (fun _ => ?_) | refine (State.logOnce_keeps ..).after ?_
    | refine (State.irq_keeps ..).after ?_ | fail_if_no_progress (refine Keeps.upd ?_)

theorem State.dnVio_keeps (s : State) (code : Word) (data : Nat) : Keeps [.ev, .dn, .pl, .irq, .hb] s (State.dnVio s code data) := by
  unfold State.dnVio
  try dsimp only
  with_reducible repeat' first
    | exact Keeps.refl _ _ | refine Keeps.ite (fun _ => ?_) (fun _ => ?_) | refine (State.dnCount_keeps ..).after ?_
    | refine (State.dnLogOnce_keeps ..).after ?_ | fail_if_no_progress (refine Keeps.upd ?_)

theorem State.dnConflict_keeps (s : State) (f : RxFrame) : Keeps [.ev, .dn, .pl, .irq, .hb] s (State.dnConflict s f) := by
  unfold State.dnConflict
  try dsimp only
  with_reducible repeat' first
    | exact Keeps.refl _ _ | refine Keeps.ite (fun _ => ?_) (fun _ => ?_) | refine (State.dnCount_keeps ..).after ?_
    | refine (State.dnLogOnce_keeps ..).after ?_ | fail_if_no_progress (refine Keeps.upd ?_)

theorem State.nextSeq_keeps (s : State) : Keeps [.dn] s (State.nextSeq s).2 := by
  unfold State.nextSeq
  try dsimp only
  with_reducible repeat' first
    | exact Keeps.refl _ _ | refine Keeps.ite (fun _ => ?_) (fun _ => ?_) | fail_if_no_progress (refine Keeps.upd ?_) | split

theorem State.queueOn_keeps (s : State) (p : Port) (f : DFrame) : Keeps [.dl] s (State.queueOn s p f) := by
  unfold State.queueOn
  try dsimp only
  with_reducible repeat' first
    | exact Keeps.refl _ _ | refine Keeps.ite (fun _ => ?_) (fun _ => ?_) | fail_if_no_progress (refine Keeps.upd ?_)

theorem State.sendFrame_keeps (s : State) (f : DFrame) : Keeps [.dl] s (State.sendFrame s f) := by
  unfold State.sendFrame
  try dsimp only
  with_reducible repeat' first
    | exact Keeps.refl _ _ | refine Keeps.ite (fun _ => ?_) (fun _ => ?_) | refine (State.queueOn_keeps ..).after ?_
    | refine Keeps.foldl ?_ (fun _ _ => ?_) | fail_if_no_progress (refine Keeps.upd ?_)

theorem State.originate_keeps (s : State) (dest : BitVec 12) (type : Byte) (flags : BitVec 5) (payload : List Byte) :
    Keeps [.dl, .dn] s (State.originate s dest type flags payload).2 := by
  unfold State.originate
  try dsimp only
  with_reducible repeat' first
    | exact Keeps.refl _ _ | refine Keeps.ite (fun _ => ?_) (fun _ => ?_) | refine (State.nextSeq_keeps ..).after ?_
    | refine (State.sendFrame_keeps ..).after ?_ | refine Keeps.ofPair ‹_› ?_ | fail_if_no_progress (refine Keeps.upd ?_) | split

theorem State.sendRequest_keeps (s : State) (dest : BitVec 12) (type : Byte) (payload : List Byte) (host : Bool) :
    Keeps [.dl, .dn] s (State.sendRequest s dest type payload host) := by
  unfold State.sendRequest
  try dsimp only
  with_reducible repeat' first
    | exact Keeps.refl _ _ | refine Keeps.ite (fun _ => ?_) (fun _ => ?_) | refine (State.originate_keeps ..).after ?_
    | refine Keeps.ofPair ‹_› ?_ | fail_if_no_progress (refine Keeps.upd ?_) | split

theorem State.replyTo_keeps (s : State) (f : RxFrame) (payload : List Byte) : Keeps [.dl, .dn] s (State.replyTo s f payload) := by
  unfold State.replyTo
  try dsimp only
  with_reducible repeat' first
    | exact Keeps.refl _ _ | refine Keeps.ite (fun _ => ?_) (fun _ => ?_) | refine (State.queueOn_keeps ..).after ?_
    | fail_if_no_progress (refine Keeps.upd ?_)

theorem State.nackTo_keeps (s : State) (f : RxFrame) (code : Byte) : Keeps [.dl, .dn] s (State.nackTo s f code) := by
  unfold State.nackTo
  try dsimp only
  with_reducible repeat' first
    | exact Keeps.refl _ _ | refine Keeps.ite (fun _ => ?_) (fun _ => ?_) | refine (State.nextSeq_keeps ..).after ?_
    | refine (State.queueOn_keeps ..).after ?_ | refine Keeps.ofPair ‹_› ?_ | fail_if_no_progress (refine Keeps.upd ?_) | split

theorem State.badField_keeps (s : State) (f : RxFrame) : Keeps [.ev, .dl, .dn, .pl, .irq, .hb] s (State.badField s f) := by
  unfold State.badField
  try dsimp only
  with_reducible repeat' first
    | exact Keeps.refl _ _ | refine Keeps.ite (fun _ => ?_) (fun _ => ?_) | refine (State.dnVio_keeps ..).after ?_
    | refine (State.nackTo_keeps ..).after ?_ | fail_if_no_progress (refine Keeps.upd ?_)

theorem State.notHead_keeps (s : State) (f : RxFrame) : Keeps [.ev, .dl, .dn, .pl, .irq, .hb] s (State.notHead s f) := by
  unfold State.notHead
  try dsimp only
  with_reducible repeat' first
    | exact Keeps.refl _ _ | refine Keeps.ite (fun _ => ?_) (fun _ => ?_) | refine (State.dnVio_keeps ..).after ?_
    | refine (State.nackTo_keeps ..).after ?_ | fail_if_no_progress (refine Keeps.upd ?_)

theorem fifoWords_length (bs : List Byte) : (fifoWords bs).length = bs.length := by
  induction bs with
  | nil => rfl
  | cons b bs ih => cases bs <;> simp_all [fifoWords]

theorem State.dnPush_keeps (s : State) (f : DFrame) : Keeps [.dn] s (State.dnPush s f) := by
  unfold State.dnPush
  try dsimp only
  repeat' first
    | with_reducible exact Keeps.refl _ _
    | with_reducible refine Keeps.ite (fun _ => ?_) (fun _ => ?_)
    | exact Keeps.upd (Keeps.refl _ _) (i_dn := fun h => ⟨h.1, by have := ‹State.dnFits s f = true›; simp only [State.dnFits, decide_eq_true_eq] at this; simpa [fifoWords_length] using this⟩)
    | fail_if_no_progress (with_reducible refine Keeps.upd ?_)

theorem State.putSeg_keeps (s : State) (p : Port) (i : Nat) (ws : List Word) : Keeps [.nv, .hb] s (State.putSeg s p i ws) := by
  unfold State.putSeg
  try dsimp only
  with_reducible repeat' first
    | exact Keeps.refl _ _ | refine Keeps.ite (fun _ => ?_) (fun _ => ?_) | refine (State.nvPutAll_keeps ..).after ?_
    | fail_if_no_progress (refine Keeps.upd ?_)

theorem State.dropSeg_keeps (s : State) (p : Port) (i : Nat) : Keeps [.nv, .hb] s (State.dropSeg s p i) := by
  unfold State.dropSeg
  try dsimp only
  with_reducible repeat' first
    | exact Keeps.refl _ _ | refine Keeps.ite (fun _ => ?_) (fun _ => ?_) | refine (State.putSeg_keeps ..).after ?_
    | fail_if_no_progress (refine Keeps.upd ?_)

theorem State.heardFrom_keeps (s : State) (p : Port) (a : BitVec 12) : Keeps [.nv, .dn, .hb] s (State.heardFrom s p a) := by
  unfold State.heardFrom
  try dsimp only
  with_reducible repeat' first
    | exact Keeps.refl _ _ | refine Keeps.ite (fun _ => ?_) (fun _ => ?_) | refine (State.dropSeg_keeps ..).after ?_
    | fail_if_no_progress (refine Keeps.upd ?_) | split

theorem State.takeFrame_keeps {L : List Part} (s : State) (f : RxFrame) (h : State → State) (h0 : ∀ y0, Keeps L y0 (h y0)) (hL : List.all [.nv, .fram, .ev, .dl, .dn, .pl, .irq, .hb] (L.contains ·) = true) :
    Keeps L s (State.takeFrame s f h) := by
  unfold State.takeFrame
  try dsimp only
  with_reducible repeat' first
    | exact Keeps.refl _ _ | refine Keeps.ite (fun _ => ?_) (fun _ => ?_) | refine (h0 _ ).next ?_
    | refine (State.genCheck_keeps ..).after ?_ (Keeps.sub (by with_unfolding_all rfl) hL)
    | refine (State.stampFrame_keeps ..).after ?_ (Keeps.sub (by with_unfolding_all rfl) hL)
    | refine (State.heardFrom_keeps ..).after ?_ (Keeps.sub (by with_unfolding_all rfl) hL)
    | refine (State.dnConflict_keeps ..).after ?_ (Keeps.sub (by with_unfolding_all rfl) hL)
    | refine (State.dnVio_keeps ..).after ?_ (Keeps.sub (by with_unfolding_all rfl) hL) | refine Keeps.ofPair ‹_› ?_
    | fail_if_no_progress (refine (Keeps.upd (L := [.nv, .fram, .ev, .dl, .dn, .pl, .irq, .hb]) (Keeps.refl _ _)).after ?_ hL) | split

theorem State.orRepeat_keeps {L : List Part} (s : State) (f : RxFrame) (h : State → State) (h0 : ∀ y0, Keeps L y0 (h y0)) (hL : List.all [.ev, .dl, .dn, .pl] (L.contains ·) = true) :
    Keeps L s (State.orRepeat s f h) := by
  unfold State.orRepeat
  try dsimp only
  with_reducible repeat' first
    | exact Keeps.refl _ _ | refine Keeps.ite (fun _ => ?_) (fun _ => ?_) | refine (h0 _ ).next ?_
    | refine (State.dnCount_keeps ..).after ?_ (Keeps.sub (by with_unfolding_all rfl) hL)
    | refine (State.queueOn_keeps ..).after ?_ (Keeps.sub (by with_unfolding_all rfl) hL)
    | fail_if_no_progress (refine (Keeps.upd (L := [.ev, .dl, .dn, .pl]) (Keeps.refl _ _)).after ?_ hL) | split

theorem State.closeReq_keeps (s : State) (r : Request) : Keeps [.dn] s (State.closeReq s r) := by
  unfold State.closeReq
  try dsimp only
  with_reducible repeat' first
    | exact Keeps.refl _ _ | refine Keeps.ite (fun _ => ?_) (fun _ => ?_) | fail_if_no_progress (refine Keeps.upd ?_)

theorem State.strayReply_keeps (s : State) (f : RxFrame) : Keeps [.ev, .dn, .pl, .irq, .hb] s (State.strayReply s f) := by
  unfold State.strayReply
  try dsimp only
  with_reducible repeat' first
    | exact Keeps.refl _ _ | refine Keeps.ite (fun _ => ?_) (fun _ => ?_) | refine (State.dnVio_keeps ..).after ?_
    | fail_if_no_progress (refine Keeps.upd ?_)

theorem State.takeReply_keeps {L : List Part} (s : State) (f : RxFrame) (h : Request → State → State) (h0 : ∀ y0 y1, Keeps L y1 (h y0 y1)) (hL : List.all [.ev, .dn, .pl, .irq, .hb] (L.contains ·) = true) :
    Keeps L s (State.takeReply s f h) := by
  unfold State.takeReply
  try dsimp only
  with_reducible repeat' first
    | exact Keeps.refl _ _ | refine Keeps.ite (fun _ => ?_) (fun _ => ?_) | refine (h0 _ _ ).next ?_
    | refine (State.closeReq_keeps ..).after ?_ (Keeps.sub (by with_unfolding_all rfl) hL)
    | refine (State.strayReply_keeps ..).after ?_ (Keeps.sub (by with_unfolding_all rfl) hL)
    | fail_if_no_progress (refine (Keeps.upd (L := [.ev, .dn, .pl, .irq, .hb]) (Keeps.refl _ _)).after ?_ hL) | split

theorem State.hostSend_keeps (s : State) (dest : BitVec 12) (type flags : Byte) (payload : List Byte) :
    Keeps [.dl, .dn] s (State.hostSend s dest type flags payload) := by
  unfold State.hostSend
  try dsimp only
  with_reducible repeat' first
    | exact Keeps.refl _ _ | refine Keeps.ite (fun _ => ?_) (fun _ => ?_) | refine (State.originate_keeps ..).after ?_
    | refine (State.sendRequest_keeps ..).after ?_ | fail_if_no_progress (refine Keeps.upd ?_)

theorem State.addTheta_keeps (s : State) (θ : Int) : Keeps [.ck] s (State.addTheta s θ) := by
  unfold State.addTheta
  try dsimp only
  with_reducible repeat' first
    | exact Keeps.refl _ _ | refine Keeps.ite (fun _ => ?_) (fun _ => ?_) | fail_if_no_progress (refine Keeps.upd ?_)

theorem State.sendTime_keeps (s : State) : Keeps [.dl, .dn] s (State.sendTime s) := by
  unfold State.sendTime
  try dsimp only
  with_reducible repeat' first
    | exact Keeps.refl _ _ | refine Keeps.ite (fun _ => ?_) (fun _ => ?_) | refine (State.sendRequest_keeps ..).after ?_
    | fail_if_no_progress (refine Keeps.upd ?_)

theorem State.answerTime_keeps (s : State) (f : RxFrame) : Keeps [.ev, .dl, .dn, .pl, .irq, .hb] s (State.answerTime s f) := by
  unfold State.answerTime
  try dsimp only
  with_reducible repeat' first
    | exact Keeps.refl _ _ | refine Keeps.ite (fun _ => ?_) (fun _ => ?_) | refine (State.badField_keeps ..).after ?_
    | refine (State.nackTo_keeps ..).after ?_ | refine (State.replyTo_keeps ..).after ?_ | fail_if_no_progress (refine Keeps.upd ?_)

theorem State.takeTime_keeps (s : State) (f : RxFrame) : Keeps [.ck, .ev, .dn, .pl, .irq, .hb] s (State.takeTime s f) := by
  unfold State.takeTime
  try dsimp only
  with_reducible repeat' first
    | exact Keeps.refl _ _ | refine Keeps.ite (fun _ => ?_) (fun _ => ?_) | refine (State.dnVio_keeps ..).after ?_
    | refine (State.addTheta_keeps ..).after ?_ | refine (State.dnEvent_keeps ..).after ?_ | fail_if_no_progress (refine Keeps.upd ?_)
    | split

theorem State.lineTimeStep_keeps (s : State) : Keeps [.ck, .ev, .irq] s (State.lineTimeStep s) := by
  unfold State.lineTimeStep
  try dsimp only
  with_reducible repeat' first
    | exact Keeps.refl _ _ | refine Keeps.ite (fun _ => ?_) (fun _ => ?_) | refine (State.addTheta_keeps ..).after ?_
    | refine (State.dnEvent_keeps ..).after ?_ | fail_if_no_progress (refine Keeps.upd ?_)

theorem State.dropAnnounce_keeps (s : State) (number : Word32) (cause : Nat) : Keeps [.ev, .irq] s (State.dropAnnounce s number cause) := by
  unfold State.dropAnnounce
  try dsimp only
  with_reducible repeat' first
    | exact Keeps.refl _ _ | refine Keeps.ite (fun _ => ?_) (fun _ => ?_) | refine (State.dnEvent_keeps ..).after ?_
    | fail_if_no_progress (refine Keeps.upd ?_)

theorem State.dropAnnounces_keeps (s : State) (cause : Nat) : Keeps [.ev, .dn, .irq] s (State.dropAnnounces s cause) := by
  unfold State.dropAnnounces
  try dsimp only
  with_reducible repeat' first
    | exact Keeps.refl _ _ | refine Keeps.ite (fun _ => ?_) (fun _ => ?_) | refine (State.dropAnnounce_keeps ..).after ?_
    | refine Keeps.foldl ?_ (fun _ _ => ?_) | fail_if_no_progress (refine Keeps.upd ?_)

theorem State.leaveSystem_keeps (s : State) : Keeps [.fram, .ck, .ev, .dl, .dn, .irq] s (State.leaveSystem s) := by
  unfold State.leaveSystem
  try dsimp only
  with_reducible repeat' first
    | exact Keeps.refl _ _ | refine Keeps.ite (fun _ => ?_) (fun _ => ?_) | refine (State.dropAnnounces_keeps ..).after ?_
    | refine (State.dnEvent_keeps ..).after ?_ | fail_if_no_progress (refine Keeps.upd ?_)

theorem State.relay_keeps (s : State) (f : RxFrame) : Keeps [.nv, .fram, .ev, .dl, .dn, .irq, .hb] s (State.relay s f) := by
  unfold State.relay
  try dsimp only
  with_reducible repeat' first
    | exact Keeps.refl _ _ | refine Keeps.ite (fun _ => ?_) (fun _ => ?_) | refine (State.genCheck_keeps ..).after ?_
    | refine (State.learnIdx_keeps ..).after ?_ | refine (State.heardFrom_keeps ..).after ?_ | refine (State.queueOn_keeps ..).after ?_
    | refine Keeps.ofPair ‹_› ?_ | fail_if_no_progress (refine Keeps.upd ?_) | split

/-! ## Machine/Search.lean -/

theorem State.putNode_keeps (s : State) (n lo width v : Nat) : Keeps [.nv, .hb] s (State.putNode s n lo width v) := by
  unfold State.putNode
  try dsimp only
  with_reducible repeat' first
    | exact Keeps.refl _ _ | refine Keeps.ite (fun _ => ?_) (fun _ => ?_) | refine (State.nvPut_keeps ..).after ?_
    | fail_if_no_progress (refine Keeps.upd ?_)

theorem State.nodeCommit_keeps (s : State) (n : Nat) (held : List Word) (w : Word) :
    Keeps [.ev, .irq, .hb] s (State.nodeCommit s n held w) := by
  unfold State.nodeCommit
  try dsimp only
  with_reducible repeat' first
    | exact Keeps.refl _ _ | refine Keeps.ite (fun _ => ?_) (fun _ => ?_) | refine (State.nvWrite_keeps ..).after ?_
    | refine (State.dnEvent_keeps ..).after ?_ | refine Keeps.foldl ?_ (fun _ _ => ?_) | fail_if_no_progress (refine Keeps.upd ?_)

theorem State.sendCollect_keeps (s : State) (number : Word32) (a : BitVec 12) (host : Bool) :
    Keeps [.dl, .dn] s (State.sendCollect s number a host) := by
  unfold State.sendCollect
  try dsimp only
  with_reducible repeat' first
    | exact Keeps.refl _ _ | refine Keeps.ite (fun _ => ?_) (fun _ => ?_) | refine (State.sendRequest_keeps ..).after ?_
    | fail_if_no_progress (refine Keeps.upd ?_)

theorem State.closeRecord_keeps (s : State) (c : Collect) : Keeps [.ev, .dn, .irq] s (State.closeRecord s c) := by
  unfold State.closeRecord
  try dsimp only
  with_reducible repeat' first
    | exact Keeps.refl _ _ | refine Keeps.ite (fun _ => ?_) (fun _ => ?_) | refine (State.dnEvent_keeps ..).after ?_
    | fail_if_no_progress (refine Keeps.upd ?_)

theorem State.settleEntry_keeps (s : State) (c : Collect) (a : BitVec 12) (swst : Nat) :
    Keeps [.nv, .dn, .hb] s (State.settleEntry s c a swst) := by
  unfold State.settleEntry
  try dsimp only
  with_reducible repeat' first
    | exact Keeps.refl _ _ | refine Keeps.ite (fun _ => ?_) (fun _ => ?_) | refine (State.putNode_keeps ..).after ?_
    | fail_if_no_progress (refine Keeps.upd ?_)

theorem State.collectNext_keeps (n : Nat) (s : State) : Keeps [.nv, .ev, .dl, .dn, .irq, .hb] s (State.collectNext n s) := by
  induction n generalizing s with
  | zero => exact Keeps.refl _ _
  | succ n ih =>
    unfold State.collectNext
    dsimp only
    repeat' first
      | with_reducible exact Keeps.refl _ _
      | with_reducible refine Keeps.ite (fun _ => ?_) (fun _ => ?_)
      | with_reducible refine (ih _).next ?_
      | with_reducible refine (State.closeRecord_keeps ..).after ?_ (by with_unfolding_all rfl)
      | with_reducible refine (State.settleEntry_keeps ..).after ?_ (by with_unfolding_all rfl)
      | with_reducible refine (State.sendCollect_keeps ..).after ?_ (by with_unfolding_all rfl)
      | fail_if_no_progress (with_reducible refine Keeps.upd ?_)
      | split

theorem State.collectSettle_keeps (s : State) (swst : Nat) : Keeps [.nv, .ev, .dl, .dn, .irq, .hb] s (State.collectSettle s swst) := by
  unfold State.collectSettle
  try dsimp only
  with_reducible repeat' first
    | exact Keeps.refl _ _ | refine Keeps.ite (fun _ => ?_) (fun _ => ?_) | refine (State.settleEntry_keeps ..).after ?_
    | refine (State.collectNext_keeps ..).after ?_ | fail_if_no_progress (refine Keeps.upd ?_) | split

theorem State.addCollect_keeps (s : State) (c : Collect) : Keeps [.nv, .ev, .dl, .dn, .irq, .hb] s (State.addCollect s c) := by
  unfold State.addCollect
  try dsimp only
  with_reducible repeat' first
    | exact Keeps.refl _ _ | refine Keeps.ite (fun _ => ?_) (fun _ => ?_) | refine (State.collectNext_keeps ..).after ?_
    | fail_if_no_progress (refine Keeps.upd ?_)

theorem State.collectMissed_keeps (s : State) (a : BitVec 12) : Keeps [.nv, .ev, .dl, .dn, .irq, .hb] s (State.collectMissed s a) := by
  unfold State.collectMissed
  try dsimp only
  with_reducible repeat' first
    | exact Keeps.refl _ _ | refine Keeps.ite (fun _ => ?_) (fun _ => ?_) | refine (State.addCollect_keeps ..).after ?_
    | refine Keeps.foldl ?_ (fun _ _ => ?_) | fail_if_no_progress (refine Keeps.upd ?_)

theorem State.collectStart_keeps (s : State) : Keeps [.nv, .ev, .dl, .dn, .irq, .hb] s (State.collectStart s) := by
  unfold State.collectStart
  try dsimp only
  with_reducible repeat' first
    | exact Keeps.refl _ _ | refine Keeps.ite (fun _ => ?_) (fun _ => ?_) | refine (State.addCollect_keeps ..).after ?_
    | fail_if_no_progress (refine Keeps.upd ?_)

theorem State.collectReply_keeps (s : State) (r : Request) (f : RxFrame) :
    Keeps [.nv, .ev, .dl, .dn, .irq, .hb] s (State.collectReply s r f) := by
  unfold State.collectReply
  try dsimp only
  with_reducible repeat' first
    | exact Keeps.refl _ _ | refine Keeps.ite (fun _ => ?_) (fun _ => ?_) | refine (State.dnPush_keeps ..).after ?_
    | refine (State.collectSettle_keeps ..).after ?_ | fail_if_no_progress (refine Keeps.upd ?_)

theorem State.collectAgain_keeps (s : State) : Keeps [.dl, .dn] s (State.collectAgain s) := by
  unfold State.collectAgain
  try dsimp only
  with_reducible repeat' first
    | exact Keeps.refl _ _ | refine Keeps.ite (fun _ => ?_) (fun _ => ?_) | refine (State.sendCollect_keeps ..).after ?_
    | fail_if_no_progress (refine Keeps.upd ?_) | split

theorem State.answerCollect_keeps (s : State) (f : RxFrame) : Keeps [.ev, .dl, .dn, .pl, .irq, .hb] s (State.answerCollect s f) := by
  unfold State.answerCollect
  try dsimp only
  with_reducible repeat' first
    | exact Keeps.refl _ _ | refine Keeps.ite (fun _ => ?_) (fun _ => ?_) | refine (State.notHead_keeps ..).after ?_
    | refine (State.badField_keeps ..).after ?_ | refine (State.replyTo_keeps ..).after ?_ | fail_if_no_progress (refine Keeps.upd ?_)
    | split

theorem State.announce_keeps (s : State) (sec : Word32) (cyc lead : Nat) : Keeps [.fram, .dl, .dn] s (State.announce s sec cyc lead) := by
  unfold State.announce
  try dsimp only
  with_reducible repeat' first
    | exact Keeps.refl _ _ | refine Keeps.ite (fun _ => ?_) (fun _ => ?_) | refine (State.originate_keeps ..).after ?_
    | refine Keeps.ofPair ‹_› ?_ | fail_if_no_progress (refine Keeps.upd ?_) | split

theorem State.copiesTick_keeps (s : State) : Keeps [.dl, .dn] s (State.copiesTick s) := by
  unfold State.copiesTick
  try dsimp only
  with_reducible repeat' first
    | exact Keeps.refl _ _ | refine Keeps.ite (fun _ => ?_) (fun _ => ?_) | refine (State.sendFrame_keeps ..).after ?_
    | refine Keeps.foldl ?_ (fun _ _ => ?_) | fail_if_no_progress (refine Keeps.upd ?_)

theorem State.sweepIssue_keeps (s : State) : Keeps [.fram, .dl, .dn] s (State.sweepIssue s) := by
  unfold State.sweepIssue
  try dsimp only
  with_reducible repeat' first
    | exact Keeps.refl _ _ | refine Keeps.ite (fun _ => ?_) (fun _ => ?_) | refine (State.announce_keeps ..).after ?_
    | fail_if_no_progress (refine Keeps.upd ?_)

theorem State.hostSweep_keeps (s : State) (lead : Nat) : Keeps [.fram, .ev, .dl, .dn, .irq] s (State.hostSweep s lead) := by
  unfold State.hostSweep
  try dsimp only
  with_reducible repeat' first
    | exact Keeps.refl _ _ | refine Keeps.ite (fun _ => ?_) (fun _ => ?_) | refine (State.dnEvent_keeps ..).after ?_
    | refine (State.announce_keeps ..).after ?_ | fail_if_no_progress (refine Keeps.upd ?_)

theorem State.takeSweep_keeps (s : State) (f : RxFrame) : Keeps [.ev, .dl, .dn, .pl, .irq, .hb] s (State.takeSweep s f) := by
  unfold State.takeSweep
  try dsimp only
  with_reducible repeat' first
    | exact Keeps.refl _ _ | refine Keeps.ite (fun _ => ?_) (fun _ => ?_) | refine (State.notHead_keeps ..).after ?_
    | refine (State.badField_keeps ..).after ?_ | refine (State.dnVio_keeps ..).after ?_ | refine (State.dropAnnounce_keeps ..).after ?_
    | refine (State.nackTo_keeps ..).after ?_ | fail_if_no_progress (refine Keeps.upd ?_)

theorem State.sweepLatch_keeps (s : State) (beside : Bool) : Keeps [.fram, .lg, .ev, .dn, .irq] s (State.sweepLatch s beside) := by
  unfold State.sweepLatch
  try dsimp only
  with_reducible repeat' first
    | exact Keeps.refl _ _ | refine Keeps.ite (fun _ => ?_) (fun _ => ?_) | refine (State.snapUnderLbad_keeps ..).after ?_
    | refine (State.joinTrigger_keeps ..).after ?_ | refine (State.trigger_keeps ..).after ?_ | refine (State.dnEvent_keeps ..).after ?_
    | refine Keeps.foldl ?_ (fun _ _ => ?_) | fail_if_no_progress (refine Keeps.upd ?_) | split

theorem State.sendBeacon_keeps (s : State) (g : Segment) (phase : Nat) : Keeps [.dl] s (State.sendBeacon s g phase) := by
  unfold State.sendBeacon
  try dsimp only
  with_reducible repeat' first
    | exact Keeps.refl _ _ | refine Keeps.ite (fun _ => ?_) (fun _ => ?_) | refine (State.sendSearch_keeps ..).after ?_
    | fail_if_no_progress (refine Keeps.upd ?_)

theorem State.putSegment_keeps (s : State) (g : Segment) : Keeps [.dn] s (State.putSegment s g) := by
  unfold State.putSegment
  try dsimp only
  with_reducible repeat' first
    | exact Keeps.refl _ _ | refine Keeps.ite (fun _ => ?_) (fun _ => ?_) | fail_if_no_progress (refine Keeps.upd ?_)

theorem State.endSegment_keeps (s : State) (g : Segment) : Keeps [.dl, .dn] s (State.endSegment s g) := by
  unfold State.endSegment
  try dsimp only
  with_reducible repeat' first
    | exact Keeps.refl _ _ | refine Keeps.ite (fun _ => ?_) (fun _ => ?_) | refine (State.putSegment_keeps ..).after ?_
    | refine (State.sendBeacon_keeps ..).after ?_ | refine (State.sendFrame_keeps ..).after ?_ | fail_if_no_progress (refine Keeps.upd ?_)

theorem State.sendQuery_keeps (s : State) (g : Segment) (mode : Bool) (l : Nat) (prefix_ : Word64) :
    Keeps [.dl, .dn] s (State.sendQuery s g mode l prefix_) := by
  unfold State.sendQuery
  try dsimp only
  with_reducible repeat' first
    | exact Keeps.refl _ _ | refine Keeps.ite (fun _ => ?_) (fun _ => ?_) | refine (State.putSegment_keeps ..).after ?_
    | refine (State.sendSearch_keeps ..).after ?_ | fail_if_no_progress (refine Keeps.upd ?_)

theorem State.nextQuery_keeps (s : State) (g : Segment) : Keeps [.dl, .dn] s (State.nextQuery s g) := by
  unfold State.nextQuery
  try dsimp only
  with_reducible repeat' first
    | exact Keeps.refl _ _ | refine Keeps.ite (fun _ => ?_) (fun _ => ?_) | refine (State.sendQuery_keeps ..).after ?_
    | refine (State.endSegment_keeps ..).after ?_ | fail_if_no_progress (refine Keeps.upd ?_) | split

theorem State.startSegment_keeps (s : State) (p : Port) (epoch seq : Word) : Keeps [.dl, .dn] s (State.startSegment s p epoch seq) := by
  unfold State.startSegment
  try dsimp only
  with_reducible repeat' first
    | exact Keeps.refl _ _ | refine Keeps.ite (fun _ => ?_) (fun _ => ?_) | refine (State.putSegment_keeps ..).after ?_
    | refine (State.sendBeacon_keeps ..).after ?_ | refine (State.nextQuery_keeps ..).after ?_ | fail_if_no_progress (refine Keeps.upd ?_)

theorem State.rollWindow_keeps (s : State) (g : Segment) (silent : Bool) : Keeps [.nv, .dl, .dn, .hb] s (State.rollWindow s g silent) := by
  unfold State.rollWindow
  try dsimp only
  with_reducible repeat' first
    | exact Keeps.refl _ _ | refine Keeps.ite (fun _ => ?_) (fun _ => ?_) | refine (State.nextQuery_keeps ..).after ?_
    | refine (State.dropSeg_keeps ..).after ?_ | fail_if_no_progress (refine Keeps.upd ?_) | split

theorem State.enterNode_keeps (s : State) (n : Nat) (serial : Word64) (hops : Nat) :
    Keeps [.nv, .ev, .dl, .dn, .irq, .hb] s (State.enterNode s n serial hops) := by
  unfold State.enterNode
  try dsimp only
  with_reducible repeat' first
    | exact Keeps.refl _ _ | refine Keeps.ite (fun _ => ?_) (fun _ => ?_) | refine (State.nvPutAll_keeps ..).after ?_
    | refine (State.putNode_keeps ..).after ?_ | refine (State.dnEvent_keeps ..).after ?_ | refine (State.collectMissed_keeps ..).after ?_
    | fail_if_no_progress (refine Keeps.upd ?_)

theorem State.sendAssign_keeps (s : State) (g : Segment) (serial : Word64) (addr : Nat) (idx : Nat) :
    Keeps [.dl] s (State.sendAssign s g serial addr idx) := by
  unfold State.sendAssign
  try dsimp only
  with_reducible repeat' first
    | exact Keeps.refl _ _ | refine Keeps.ite (fun _ => ?_) (fun _ => ?_) | refine (State.sendSearch_keeps ..).after ?_
    | fail_if_no_progress (refine Keeps.upd ?_)

theorem State.assigned_keeps (s : State) (g : Segment) (res : Sum Nat Byte) : Keeps [.dl, .dn] s (State.assigned s g res) := by
  unfold State.assigned
  try dsimp only
  with_reducible repeat' first
    | exact Keeps.refl _ _ | refine Keeps.ite (fun _ => ?_) (fun _ => ?_) | refine (State.sendAssign_keeps ..).after ?_
    | refine (State.nextQuery_keeps ..).after ?_ | refine (State.putSegment_keeps ..).after ?_ | fail_if_no_progress (refine Keeps.upd ?_)
    | split

theorem State.joinNode_keeps (s : State) (g : Segment) (answer : List Byte) :
    Keeps [.nv, .ev, .dl, .dn, .irq, .hb] s (State.joinNode s g answer) := by
  unfold State.joinNode
  try dsimp only
  with_reducible repeat' first
    | exact Keeps.refl _ _ | refine Keeps.ite (fun _ => ?_) (fun _ => ?_) | refine (State.putSegment_keeps ..).after ?_
    | refine (State.enterNode_keeps ..).after ?_ | refine (State.assigned_keeps ..).after ?_ | refine (State.sendRequest_keeps ..).after ?_
    | fail_if_no_progress (refine Keeps.upd ?_) | split

theorem State.windowEnd_keeps (s : State) (g : Segment) (carrier : Bool) :
    Keeps [.nv, .ev, .dl, .dn, .irq, .hb] s (State.windowEnd s g carrier) := by
  unfold State.windowEnd
  try dsimp only
  with_reducible repeat' first
    | exact Keeps.refl _ _ | refine Keeps.ite (fun _ => ?_) (fun _ => ?_) | refine (State.rollWindow_keeps ..).after ?_
    | refine (State.nextQuery_keeps ..).after ?_ | refine (State.joinNode_keeps ..).after ?_ | fail_if_no_progress (refine Keeps.upd ?_)
    | split

theorem State.assignAck_keeps (s : State) (g : Segment) (serial : Word64) (addr : BitVec 12) :
    Keeps [.nv, .dl, .dn, .hb] s (State.assignAck s g serial addr) := by
  unfold State.assignAck
  try dsimp only
  with_reducible repeat' first
    | exact Keeps.refl _ _ | refine Keeps.ite (fun _ => ?_) (fun _ => ?_) | refine (State.putSeg_keeps ..).after ?_
    | refine (State.putNode_keeps ..).after ?_ | refine (State.nextQuery_keeps ..).after ?_ | fail_if_no_progress (refine Keeps.upd ?_)
    | split

theorem State.assignTimeout_keeps (s : State) (g : Segment) : Keeps [.dl, .dn] s (State.assignTimeout s g) := by
  unfold State.assignTimeout
  try dsimp only
  with_reducible repeat' first
    | exact Keeps.refl _ _ | refine Keeps.ite (fun _ => ?_) (fun _ => ?_) | refine (State.putSegment_keeps ..).after ?_
    | refine (State.sendAssign_keeps ..).after ?_ | refine (State.nextQuery_keeps ..).after ?_ | fail_if_no_progress (refine Keeps.upd ?_)
    | split

theorem State.takeAssign_keeps (s : State) (r : RxSearch) : Keeps [.fram, .ev, .dl, .dn, .irq] s (State.takeAssign s r) := by
  unfold State.takeAssign
  try dsimp only
  with_reducible repeat' first
    | exact Keeps.refl _ _ | refine Keeps.ite (fun _ => ?_) (fun _ => ?_) | refine (State.dnEvent_keeps ..).after ?_
    | refine (State.sendSearch_keeps ..).after ?_ | fail_if_no_progress (refine Keeps.upd ?_)

theorem State.startEpoch_keeps (s : State) : Keeps [.dl, .dn] s (State.startEpoch s) := by
  unfold State.startEpoch
  try dsimp only
  with_reducible repeat' first
    | exact Keeps.refl _ _ | refine Keeps.ite (fun _ => ?_) (fun _ => ?_) | refine (State.originate_keeps ..).after ?_
    | refine (State.startSegment_keeps ..).after ?_ | refine Keeps.ofPair ‹_› ?_ | refine Keeps.foldl ?_ (fun _ _ => ?_)
    | fail_if_no_progress (refine Keeps.upd ?_) | split

theorem State.takeSearchMsg_keeps (s : State) (f : RxFrame) : Keeps [.ev, .dl, .dn, .pl, .irq, .hb] s (State.takeSearchMsg s f) := by
  unfold State.takeSearchMsg
  try dsimp only
  with_reducible repeat' first
    | exact Keeps.refl _ _ | refine Keeps.ite (fun _ => ?_) (fun _ => ?_) | refine (State.notHead_keeps ..).after ?_
    | refine (State.badField_keeps ..).after ?_ | refine (State.replyTo_keeps ..).after ?_ | refine (State.startSegment_keeps ..).after ?_
    | fail_if_no_progress (refine Keeps.upd ?_) | split

theorem State.searchReply_keeps (s : State) (f : RxFrame) : Keeps [.nv, .dn, .hb] s (State.searchReply s f) := by
  unfold State.searchReply
  try dsimp only
  with_reducible repeat' first
    | exact Keeps.refl _ _ | refine Keeps.ite (fun _ => ?_) (fun _ => ?_) | refine (State.putNode_keeps ..).after ?_
    | fail_if_no_progress (refine Keeps.upd ?_)

theorem State.bridgeTimeout_keeps (s : State) (b : BitVec 12) : Keeps [.dl, .dn] s (State.bridgeTimeout s b) := by
  unfold State.bridgeTimeout
  try dsimp only
  with_reducible repeat' first
    | exact Keeps.refl _ _ | refine Keeps.ite (fun _ => ?_) (fun _ => ?_) | refine (State.originate_keeps ..).after ?_
    | refine Keeps.ofPair ‹_› ?_ | fail_if_no_progress (refine Keeps.upd ?_) | split

theorem State.departNode_keeps (s : State) (a : BitVec 12) : Keeps [.nv, .ev, .irq, .hb] s (State.departNode s a) := by
  unfold State.departNode
  try dsimp only
  with_reducible repeat' first
    | exact Keeps.refl _ _ | refine Keeps.ite (fun _ => ?_) (fun _ => ?_) | refine (State.putNode_keeps ..).after ?_
    | refine (State.dnEvent_keeps ..).after ?_ | fail_if_no_progress (refine Keeps.upd ?_)

theorem State.arriveNode_keeps (s : State) (a : BitVec 12) : Keeps [.ev, .irq] s (State.arriveNode s a) := by
  unfold State.arriveNode
  try dsimp only
  with_reducible repeat' first
    | exact Keeps.refl _ _ | refine Keeps.ite (fun _ => ?_) (fun _ => ?_) | refine (State.dnEvent_keeps ..).after ?_
    | fail_if_no_progress (refine Keeps.upd ?_)

theorem State.endEpoch_keeps (s : State) : Keeps [.nv, .ev, .dn, .irq, .hb] s (State.endEpoch s) := by
  unfold State.endEpoch
  try dsimp only
  with_reducible repeat' first
    | exact Keeps.refl _ _ | refine Keeps.ite (fun _ => ?_) (fun _ => ?_) | refine (State.arriveNode_keeps ..).after ?_
    | refine (State.departNode_keeps ..).after ?_ | refine (State.dnEvent_keeps ..).after ?_ | refine Keeps.foldl ?_ (fun _ _ => ?_)
    | fail_if_no_progress (refine Keeps.upd ?_)

theorem State.hearBeacon_keeps (s : State) (r : RxSearch) : Keeps [.ev, .dn, .irq] s (State.hearBeacon s r) := by
  unfold State.hearBeacon
  try dsimp only
  with_reducible repeat' first
    | exact Keeps.refl _ _ | refine Keeps.ite (fun _ => ?_) (fun _ => ?_) | refine (State.dnEvent_keeps ..).after ?_
    | fail_if_no_progress (refine Keeps.upd ?_)

theorem State.yieldHead_keeps (s : State) (r : RxSearch) : Keeps [.ck, .ev, .dl, .dn, .irq] s (State.yieldHead s r) := by
  unfold State.yieldHead
  try dsimp only
  with_reducible repeat' first
    | exact Keeps.refl _ _ | refine Keeps.ite (fun _ => ?_) (fun _ => ?_) | refine (State.dropAnnounces_keeps ..).after ?_
    | refine (State.dnEvent_keeps ..).after ?_ | fail_if_no_progress (refine Keeps.upd ?_)

theorem State.takeBeacon_keeps (s : State) (r : RxSearch) : Keeps [.ck, .ev, .dl, .dn, .irq] s (State.takeBeacon s r) := by
  unfold State.takeBeacon
  try dsimp only
  with_reducible repeat' first
    | exact Keeps.refl _ _ | refine Keeps.ite (fun _ => ?_) (fun _ => ?_) | refine (State.yieldHead_keeps ..).after ?_
    | refine (State.hearBeacon_keeps ..).after ?_ | fail_if_no_progress (refine Keeps.upd ?_)

theorem State.takeQuery_keeps (s : State) (r : RxSearch) (vres : Nat) : Keeps [.dl] s (State.takeQuery s r vres) := by
  unfold State.takeQuery
  try dsimp only
  with_reducible repeat' first
    | exact Keeps.refl _ _ | refine Keeps.ite (fun _ => ?_) (fun _ => ?_) | refine (State.sendSearch_keeps ..).after ?_
    | fail_if_no_progress (refine Keeps.upd ?_)

theorem State.issueHostFrame_keeps (s : State) : Keeps [.fram, .ev, .dl, .dn, .irq] s (State.issueHostFrame s) := by
  unfold State.issueHostFrame
  try dsimp only
  repeat' first
    | with_reducible exact Keeps.refl _ _
    | with_reducible refine Keeps.ite (fun _ => ?_) (fun _ => ?_)
    | with_reducible refine (State.hostSweep_keeps ..).after ?_
    | with_reducible refine (State.hostSend_keeps ..).after ?_
    | with_reducible refine (State.dnEvent_keeps ..).after ?_
    | exact Keeps.upd (Keeps.refl _ _) (i_dn := fun h => by simp only [Dn.ok, List.length_drop] at h ⊢; omega)
    | fail_if_no_progress (with_reducible refine Keeps.upd ?_)
    | split

theorem State.requestFailed_keeps (s : State) (r : Request) : Keeps [.nv, .ev, .dl, .dn, .irq, .hb] s (State.requestFailed s r) := by
  unfold State.requestFailed
  try dsimp only
  with_reducible repeat' first
    | exact Keeps.refl _ _ | refine Keeps.ite (fun _ => ?_) (fun _ => ?_) | refine (State.collectSettle_keeps ..).after ?_
    | refine (State.nextQuery_keeps ..).after ?_ | fail_if_no_progress (refine Keeps.upd ?_) | split

theorem State.requestTimeout_keeps (s : State) (seq : Word) :
    Keeps [.nv, .ev, .dl, .dn, .pl, .irq, .hb] s (State.requestTimeout s seq) := by
  unfold State.requestTimeout
  try dsimp only
  with_reducible repeat' first
    | exact Keeps.refl _ _ | refine Keeps.ite (fun _ => ?_) (fun _ => ?_) | refine (State.queueOn_keeps ..).after ?_
    | refine (State.closeReq_keeps ..).after ?_ | refine (State.pinned_keeps ..).after ?_ | refine (State.dnPush_keeps ..).after ?_
    | refine (State.requestFailed_keeps ..).after ?_ | fail_if_no_progress (refine Keeps.upd ?_) | split

theorem State.discoveryTimeout_keeps (s : State) (p : Port) : Keeps [.dl, .dn] s (State.discoveryTimeout s p) := by
  unfold State.discoveryTimeout
  try dsimp only
  with_reducible repeat' first
    | exact Keeps.refl _ _ | refine Keeps.ite (fun _ => ?_) (fun _ => ?_) | refine (State.endSegment_keeps ..).after ?_
    | refine (State.putSegment_keeps ..).after ?_ | fail_if_no_progress (refine Keeps.upd ?_) | split

theorem State.answerJoin_keeps (s : State) (f : RxFrame) : Keeps [.nv, .ev, .dl, .dn, .pl, .irq, .hb] s (State.answerJoin s f) := by
  unfold State.answerJoin
  try dsimp only
  with_reducible repeat' first
    | exact Keeps.refl _ _ | refine Keeps.ite (fun _ => ?_) (fun _ => ?_) | refine (State.badField_keeps ..).after ?_
    | refine (State.enterNode_keeps ..).after ?_ | refine (State.replyTo_keeps ..).after ?_ | refine (State.nackTo_keeps ..).after ?_
    | fail_if_no_progress (refine Keeps.upd ?_) | split

theorem State.onSegment_keeps {L : List Part} (s : State) (p : Port) (f : Segment → State → State) (h0 : ∀ y0 y1, Keeps L y1 (f y0 y1)) (hL : List.all [] (L.contains ·) = true) :
    Keeps L s (State.onSegment s p f) := by
  unfold State.onSegment
  try dsimp only
  with_reducible repeat' first
    | exact Keeps.refl _ _ | refine Keeps.ite (fun _ => ?_) (fun _ => ?_) | refine (h0 _ _ ).next ?_
    | fail_if_no_progress (refine (Keeps.upd (L := []) (Keeps.refl _ _)).after ?_ hL) | split

theorem State.takeAnswer_keeps (s : State) (r : RxSearch) : Keeps [.ev, .dn, .pl, .irq, .hb] s (State.takeAnswer s r) := by
  unfold State.takeAnswer
  try dsimp only
  with_reducible repeat' first
    | exact Keeps.refl _ _ | refine Keeps.ite (fun _ => ?_) (fun _ => ?_) | refine (State.putSegment_keeps ..).after ?_
    | refine (State.dnVio_keeps ..).after ?_ | fail_if_no_progress (refine Keeps.upd ?_) | split

/-! ## Machine/Antiphon.lean -/

theorem State.anEvent_keeps (s : State) (code : Word) (data : Nat) : Keeps [.ev, .irq] s (State.anEvent s code data) := by
  unfold State.anEvent
  try dsimp only
  with_reducible repeat' first
    | exact Keeps.refl _ _ | refine Keeps.ite (fun _ => ?_) (fun _ => ?_) | refine (State.logEv_keeps ..).after ?_
    | refine (State.irq_keeps ..).after ?_ | fail_if_no_progress (refine Keeps.upd ?_)

theorem State.anCount_keeps (s : State) : Keeps [.ev, .an, .pl] s (State.anCount s) := by
  unfold State.anCount
  try dsimp only
  with_reducible repeat' first
    | exact Keeps.refl _ _ | refine Keeps.ite (fun _ => ?_) (fun _ => ?_) | refine (State.pinned_keeps ..).after ?_
    | fail_if_no_progress (refine Keeps.upd ?_)

theorem State.anVio_keeps (s : State) (code : Word) (data : Nat) : Keeps [.ev, .an, .pl, .hb] s (State.anVio s code data) := by
  unfold State.anVio
  try dsimp only
  with_reducible repeat' first
    | exact Keeps.refl _ _ | refine Keeps.ite (fun _ => ?_) (fun _ => ?_) | refine (State.anCount_keeps ..).after ?_
    | refine (State.logOnce_keeps ..).after ?_ | fail_if_no_progress (refine Keeps.upd ?_)

theorem State.dropAntiphon_keeps (s : State) (kinds : List Byte) : Keeps [.dl] s (State.dropAntiphon s kinds) := by
  unfold State.dropAntiphon
  try dsimp only
  with_reducible repeat' first
    | exact Keeps.refl _ _ | refine Keeps.ite (fun _ => ?_) (fun _ => ?_) | fail_if_no_progress (refine Keeps.upd ?_)

theorem State.anActivate_keeps (s : State) : Keeps [.fram, .dl] s (State.anActivate s) := by
  unfold State.anActivate
  try dsimp only
  with_reducible repeat' first
    | exact Keeps.refl _ _ | refine Keeps.ite (fun _ => ?_) (fun _ => ?_) | refine (State.dropAntiphon_keeps ..).after ?_
    | fail_if_no_progress (refine Keeps.upd ?_)

theorem State.aseqEnd_keeps (s : State) : Keeps [.fram, .ev, .dl, .irq] s (State.aseqEnd s) := by
  unfold State.aseqEnd
  try dsimp only
  with_reducible repeat' first
    | exact Keeps.refl _ _ | refine Keeps.ite (fun _ => ?_) (fun _ => ?_) | refine (State.dropAntiphon_keeps ..).after ?_
    | refine (State.anEvent_keeps ..).after ?_ | fail_if_no_progress (refine Keeps.upd ?_)

theorem State.anSend_keeps (s : State) (type : Byte) (dest : BitVec 12) (payload : List Byte) :
    Keeps [.dl, .dn] s (State.anSend s type dest payload) := by
  unfold State.anSend
  try dsimp only
  with_reducible repeat' first
    | exact Keeps.refl _ _ | refine Keeps.ite (fun _ => ?_) (fun _ => ?_) | refine (State.originate_keeps ..).after ?_
    | fail_if_no_progress (refine Keeps.upd ?_)

theorem State.anExchange_keeps (s : State) (dest : BitVec 12) (kind : Byte) (ack ackc : Word32) (ltsec : Word32) :
    Keeps [.dl, .dn] s (State.anExchange s dest kind ack ackc ltsec) := by
  unfold State.anExchange
  try dsimp only
  with_reducible repeat' first
    | exact Keeps.refl _ _ | refine Keeps.ite (fun _ => ?_) (fun _ => ?_) | refine (State.anSend_keeps ..).after ?_
    | fail_if_no_progress (refine Keeps.upd ?_)

theorem State.anStamp_keeps (s : State) (q : QFrame) : Keeps [.fram, .an, .dl] s (State.anStamp s q) := by
  unfold State.anStamp
  try dsimp only
  with_reducible repeat' first
    | exact Keeps.refl _ _ | refine Keeps.ite (fun _ => ?_) (fun _ => ?_) | fail_if_no_progress (refine Keeps.upd ?_)

theorem State.frameGo_keeps (s : State) (p : Port) : Keeps [.fram, .pw, .ev, .an, .dl, .dn, .irq] s (State.frameGo s p) := by
  unfold State.frameGo
  try dsimp only
  with_reducible repeat' first
    | exact Keeps.refl _ _ | refine Keeps.ite (fun _ => ?_) (fun _ => ?_) | refine (State.startFrame_keeps ..).after ?_
    | refine (State.anStamp_keeps ..).after ?_ | refine (State.aseqEnd_keeps ..).after ?_ | fail_if_no_progress (refine Keeps.upd ?_)
    | split

theorem State.anAnswer_keeps (s : State) (f : RxFrame) (ack ackc : Word32) : Keeps [.dl, .dn] s (State.anAnswer s f ack ackc) := by
  unfold State.anAnswer
  try dsimp only
  with_reducible repeat' first
    | exact Keeps.refl _ _ | refine Keeps.ite (fun _ => ?_) (fun _ => ?_) | refine (State.anExchange_keeps ..).after ?_
    | fail_if_no_progress (refine Keeps.upd ?_)

theorem State.putMirror_keeps (s : State) (one : Bool) (body : List Byte) : Keeps [.fram] s (State.putMirror s one body) := by
  unfold State.putMirror
  try dsimp only
  with_reducible repeat' first
    | exact Keeps.refl _ _ | refine Keeps.ite (fun _ => ?_) (fun _ => ?_) | fail_if_no_progress (refine Keeps.upd ?_)

theorem State.markMirror_keeps (s : State) (bit : Nat) : Keeps [.fram] s (State.markMirror s bit) := by
  unfold State.markMirror
  try dsimp only
  with_reducible repeat' first
    | exact Keeps.refl _ _ | refine Keeps.ite (fun _ => ?_) (fun _ => ?_) | refine (State.putMirror_keeps ..).after ?_
    | fail_if_no_progress (refine Keeps.upd ?_) | split

theorem State.mirrorMessage_keeps (s : State) (p : List Byte) : Keeps [.fram] s (State.mirrorMessage s p) := by
  unfold State.mirrorMessage
  try dsimp only
  with_reducible repeat' first
    | exact Keeps.refl _ _ | refine Keeps.ite (fun _ => ?_) (fun _ => ?_) | refine (State.putMirror_keeps ..).after ?_
    | fail_if_no_progress (refine Keeps.upd ?_) | split

theorem State.takeRef_keeps (s : State) (p : List Byte) : Keeps [.fram, .lg, .ev, .irq] s (State.takeRef s p) := by
  unfold State.takeRef
  try dsimp only
  with_reducible repeat' first
    | exact Keeps.refl _ _ | refine Keeps.ite (fun _ => ?_) (fun _ => ?_) | refine (State.refuseFull_keeps ..).after ?_
    | refine (State.queueChange_keeps ..).after ?_ | fail_if_no_progress (refine Keeps.upd ?_) | split

theorem State.setDiv_keeps (s : State) (v : Nat) : Keeps [.ev, .an, .irq] s (State.setDiv s v) := by
  unfold State.setDiv
  try dsimp only
  with_reducible repeat' first
    | exact Keeps.refl _ _ | refine Keeps.ite (fun _ => ?_) (fun _ => ?_) | refine (State.anEvent_keeps ..).after ?_
    | fail_if_no_progress (refine Keeps.upd ?_)

theorem State.diverge_keeps (s : State) (p : List Byte) : Keeps [.ev, .an, .irq] s (State.diverge s p) := by
  unfold State.diverge
  try dsimp only
  with_reducible repeat' first
    | exact Keeps.refl _ _ | refine Keeps.ite (fun _ => ?_) (fun _ => ?_) | refine (State.setDiv_keeps ..).after ?_
    | fail_if_no_progress (refine Keeps.upd ?_) | split

theorem State.anFrame_keeps {L : List Part} (s : State) (f : RxFrame) (kind : Byte) (h : List Byte → State → State) (h0 : ∀ y0 y1, Keeps L y1 (h y0 y1)) (hL : List.all [.nv, .fram, .ev, .an, .dl, .dn, .pl, .irq, .hb] (L.contains ·) = true) :
    Keeps L s (State.anFrame s f kind h) := by
  unfold State.anFrame
  try dsimp only
  with_reducible repeat' first
    | exact Keeps.refl _ _ | refine Keeps.ite (fun _ => ?_) (fun _ => ?_) | refine (h0 _ _ ).next ?_
    | refine (State.when_keeps (L := L) (h0 := fun _ => ?_) (hL := Keeps.sub (by with_unfolding_all rfl) hL) ..).next ?_
    | refine (State.takeFrame_keeps (L := L) (h0 := fun _ => ?_) (hL := Keeps.sub (by with_unfolding_all rfl) hL) ..).next ?_
    | refine (State.anVio_keeps ..).after ?_ (Keeps.sub (by with_unfolding_all rfl) hL)
    | refine (State.nackTo_keeps ..).after ?_ (Keeps.sub (by with_unfolding_all rfl) hL)
    | fail_if_no_progress (refine (Keeps.upd (L := [.nv, .fram, .ev, .an, .dl, .dn, .pl, .irq, .hb]) (Keeps.refl _ _)).after ?_ hL)

theorem State.badTag_keeps (s : State) (f : RxFrame) (aseq : Nat) :
    Keeps [.fram, .ev, .an, .dl, .pl, .irq, .hb] s (State.badTag s f aseq) := by
  unfold State.badTag
  try dsimp only
  with_reducible repeat' first
    | exact Keeps.refl _ _ | refine Keeps.ite (fun _ => ?_) (fun _ => ?_) | refine (State.anCount_keeps ..).after ?_
    | refine (State.logOnce_keeps ..).after ?_ | refine (State.dropAntiphon_keeps ..).after ?_ | refine (State.logEv_keeps ..).after ?_
    | refine (State.irq_keeps ..).after ?_ | fail_if_no_progress (refine Keeps.upd ?_)

theorem State.followAddr_keeps (s : State) (f : RxFrame) : Keeps [.nv, .ev, .irq, .hb] s (State.followAddr s f) := by
  unfold State.followAddr
  try dsimp only
  with_reducible repeat' first
    | exact Keeps.refl _ _ | refine Keeps.ite (fun _ => ?_) (fun _ => ?_) | refine (State.nvPut_keeps ..).after ?_
    | refine (State.anEvent_keeps ..).after ?_ | fail_if_no_progress (refine Keeps.upd ?_)

theorem State.fromPartner_keeps {L : List Part} (s : State) (f : RxFrame) (h : State → State) (h0 : ∀ y0, Keeps L y0 (h y0)) (hL : List.all [.nv, .fram, .ev, .an, .dl, .dn, .pl, .irq, .hb] (L.contains ·) = true) :
    Keeps L s (State.fromPartner s f h) := by
  unfold State.fromPartner
  try dsimp only
  with_reducible repeat' first
    | exact Keeps.refl _ _ | refine Keeps.ite (fun _ => ?_) (fun _ => ?_) | refine (h0 _ ).next ?_
    | refine (State.anVio_keeps ..).after ?_ (Keeps.sub (by with_unfolding_all rfl) hL)
    | refine (State.nackTo_keeps ..).after ?_ (Keeps.sub (by with_unfolding_all rfl) hL)
    | refine (State.badTag_keeps ..).after ?_ (Keeps.sub (by with_unfolding_all rfl) hL)
    | refine (State.followAddr_keeps ..).after ?_ (Keeps.sub (by with_unfolding_all rfl) hL)
    | fail_if_no_progress (refine (Keeps.upd (L := [.nv, .fram, .ev, .an, .dl, .dn, .pl, .irq, .hb]) (Keeps.refl _ _)).after ?_ hL)

theorem State.partnerBack_keeps (s : State) (exchange : Bool) : Keeps [.fram, .ev, .an, .irq] s (State.partnerBack s exchange) := by
  unfold State.partnerBack
  try dsimp only
  with_reducible repeat' first
    | exact Keeps.refl _ _ | refine Keeps.ite (fun _ => ?_) (fun _ => ?_) | refine (State.anEvent_keeps ..).after ?_
    | fail_if_no_progress (refine Keeps.upd ?_)

theorem State.seeCdig_keeps (s : State) (p : List Byte) : Keeps [.ev, .irq] s (State.seeCdig s p) := by
  unfold State.seeCdig
  try dsimp only
  with_reducible repeat' first
    | exact Keeps.refl _ _ | refine Keeps.ite (fun _ => ?_) (fun _ => ?_) | refine (State.anEvent_keeps ..).after ?_
    | fail_if_no_progress (refine Keeps.upd ?_) | split

theorem State.takeMirror_keeps (s : State) (p : List Byte) : Keeps [.fram, .ev, .an, .irq] s (State.takeMirror s p) := by
  unfold State.takeMirror
  try dsimp only
  with_reducible repeat' first
    | exact Keeps.refl _ _ | refine Keeps.ite (fun _ => ?_) (fun _ => ?_) | refine (State.seeCdig_keeps ..).after ?_
    | refine (State.mirrorMessage_keeps ..).after ?_ | refine (State.partnerBack_keeps ..).after ?_
    | fail_if_no_progress (refine Keeps.upd ?_)

theorem State.anSequence_keeps {L : List Part} (s : State) (p : List Byte) (same : State → State) (own : State → Option State) (low : State → State) (h : State → State) (h0 : ∀ y0, Keeps L y0 (same y0)) (h1 : ∀ y0, Keeps L y0 (low y0)) (h2 : ∀ y0, Keeps L y0 (h y0)) (ho : ∀ y t, own y = some t → Keeps L y t) (hL : List.all [.fram, .ev, .an, .pl, .irq, .hb] (L.contains ·) = true) :
    Keeps L s (State.anSequence s p same own low h) := by
  unfold State.anSequence
  try dsimp only
  repeat' first
    | with_reducible exact Keeps.refl _ _
    | with_reducible refine Keeps.ite (fun _ => ?_) (fun _ => ?_)
    | with_reducible refine (h0 _ ).next ?_
    | with_reducible refine (h1 _ ).next ?_
    | with_reducible refine (h2 _ ).next ?_
    | with_reducible refine (State.takeMirror_keeps ..).after ?_ (Keeps.sub (by with_unfolding_all rfl) hL)
    | with_reducible refine (State.logOnce_keeps ..).after ?_ (Keeps.sub (by with_unfolding_all rfl) hL)
    | with_reducible refine (State.anCount_keeps ..).after ?_ (Keeps.sub (by with_unfolding_all rfl) hL)
    | with_reducible refine (State.anVio_keeps ..).after ?_ (Keeps.sub (by with_unfolding_all rfl) hL)
    | exact ho _ _ ‹_›
    | fail_if_no_progress (with_reducible refine (Keeps.upd (L := [.fram, .ev, .an, .pl, .irq, .hb]) (Keeps.refl _ _)).after ?_ hL)
    | split

theorem State.seePeriod_keeps (s : State) (p : List Byte) : Keeps [.ev, .an, .pl] s (State.seePeriod s p) := by
  unfold State.seePeriod
  try dsimp only
  with_reducible repeat' first
    | exact Keeps.refl _ _ | refine Keeps.ite (fun _ => ?_) (fun _ => ?_) | refine (State.anCount_keeps ..).after ?_
    | refine (State.logEv_keeps ..).after ?_ | fail_if_no_progress (refine Keeps.upd ?_)

theorem State.takeCall_keeps (s : State) (f : RxFrame) (spacing : Nat) : Keeps [.fram, .lg, .ev, .an, .dl, .dn, .pl, .irq, .hb] s (State.takeCall s f spacing) := by
  unfold State.takeCall
  try dsimp only
  with_reducible repeat' first
    | exact Keeps.refl _ _ | refine Keeps.ite (fun _ => ?_) (fun _ => ?_)
    | refine (State.anSequence_keeps (L := [.fram, .lg, .ev, .an, .dl, .dn, .pl, .irq, .hb]) (h0 := fun _ => ?_) (h1 := fun _ => ?_) (h2 := fun _ => ?_) (ho := fun y t hy => by ((try dsimp only at hy); split at hy <;> first | (cases hy; exact (State.nackTo_keeps ..).after ((State.anVio_keeps ..).mono (by with_unfolding_all rfl)) (by with_unfolding_all rfl)) | cases hy)) (hL := by with_unfolding_all rfl) ..).next ?_
    | refine (State.seePeriod_keeps ..).after ?_ | refine (State.anAnswer_keeps ..).after ?_ | refine (State.takeRef_keeps ..).after ?_
    | refine (State.diverge_keeps ..).after ?_ | refine (State.nackTo_keeps ..).after ?_ | refine (State.anSend_keeps ..).after ?_
    | refine (State.anVio_keeps ..).after ?_ | fail_if_no_progress (refine Keeps.upd ?_) | split

theorem State.takeAnswerMsg_keeps (s : State) (f : RxFrame) : Keeps [.fram, .lg, .ev, .an, .pl, .irq, .hb] s (State.takeAnswerMsg s f) := by
  unfold State.takeAnswerMsg
  try dsimp only
  repeat' first
    | with_reducible exact Keeps.refl _ _
    | with_reducible refine Keeps.ite (fun _ => ?_) (fun _ => ?_)
    | with_reducible refine (State.anSequence_keeps (L := [.fram, .lg, .ev, .an, .pl, .irq, .hb]) (h0 := fun _ => ?_) (h1 := fun _ => ?_) (h2 := fun _ => ?_) (ho := fun y t hy => by ((try dsimp only at hy); split at hy <;> first | (cases hy; exact (State.anVio_keeps ..).mono (by with_unfolding_all rfl)) | cases hy)) (hL := by with_unfolding_all rfl) ..).next ?_
    | with_reducible refine (State.diverge_keeps ..).after ?_
    | with_reducible refine (State.takeRef_keeps ..).after ?_
    | with_reducible refine (State.anVio_keeps ..).after ?_
    | exact Keeps.refl _ _
    | fail_if_no_progress (with_reducible refine Keeps.upd ?_)
    | split

theorem State.takeNotice_keeps (s : State) (f : RxFrame) : Keeps [.fram, .ev, .an, .pl, .irq, .hb] s (State.takeNotice s f) := by
  unfold State.takeNotice
  try dsimp only
  repeat' first
    | with_reducible exact Keeps.refl _ _
    | with_reducible refine Keeps.ite (fun _ => ?_) (fun _ => ?_)
    | with_reducible refine (State.anSequence_keeps (L := [.fram, .ev, .an, .pl, .irq, .hb]) (h0 := fun _ => ?_) (h1 := fun _ => ?_) (h2 := fun _ => ?_) (ho := fun y t hy => by cases hy) (hL := by with_unfolding_all rfl) ..).next ?_
    | with_reducible refine (State.irq_keeps ..).after ?_
    | exact Keeps.refl _ _
    | fail_if_no_progress (with_reducible refine Keeps.upd ?_)
    | split

theorem State.takeRetract_keeps (s : State) (f : RxFrame) : Keeps [.ev, .an, .dl, .dn, .pl, .hb] s (State.takeRetract s f) := by
  unfold State.takeRetract
  try dsimp only
  with_reducible repeat' first
    | exact Keeps.refl _ _ | refine Keeps.ite (fun _ => ?_) (fun _ => ?_) | refine (State.anVio_keeps ..).after ?_
    | refine (State.nackTo_keeps ..).after ?_ | fail_if_no_progress (refine Keeps.upd ?_)

theorem State.armCeremony_keeps (s : State) : Keeps [.fram, .ev, .an, .dl, .irq] s (State.armCeremony s) := by
  unfold State.armCeremony
  try dsimp only
  with_reducible repeat' first
    | exact Keeps.refl _ _ | refine Keeps.ite (fun _ => ?_) (fun _ => ?_) | refine (State.logEv_keeps ..).after ?_
    | refine (State.refuseFull_keeps ..).after ?_ | refine (State.anEvent_keeps ..).after ?_ | refine (State.dropAntiphon_keeps ..).after ?_
    | fail_if_no_progress (refine Keeps.upd ?_)

theorem State.ceremonyDone_keeps (s : State) : Keeps [.fram, .lg, .ev, .an, .irq] s (State.ceremonyDone s) := by
  unfold State.ceremonyDone
  try dsimp only
  with_reducible repeat' first
    | exact Keeps.refl _ _ | refine Keeps.ite (fun _ => ?_) (fun _ => ?_) | refine (State.refuseFull_keeps ..).after ?_
    | refine (State.queueChange_keeps ..).after ?_ | fail_if_no_progress (refine Keeps.upd ?_)

theorem State.notArmed_keeps (s : State) (f : RxFrame) : Keeps [.ev, .an, .dl, .dn, .pl, .hb] s (State.notArmed s f) := by
  unfold State.notArmed
  try dsimp only
  with_reducible repeat' first
    | exact Keeps.refl _ _ | refine Keeps.ite (fun _ => ?_) (fun _ => ?_) | refine (State.anVio_keeps ..).after ?_
    | refine (State.nackTo_keeps ..).after ?_ | fail_if_no_progress (refine Keeps.upd ?_)

theorem State.takeHello_keeps (s : State) (f : RxFrame) :
    Keeps [.fram, .lg, .ev, .an, .dl, .dn, .pl, .irq, .hb] s (State.takeHello s f) := by
  unfold State.takeHello
  try dsimp only
  with_reducible repeat' first
    | exact Keeps.refl _ _ | refine Keeps.ite (fun _ => ?_) (fun _ => ?_) | refine (State.notArmed_keeps ..).after ?_
    | refine (State.abortCeremony_keeps ..).after ?_ | refine (State.anSend_keeps ..).after ?_
    | refine (State.ceremonyDone_keeps ..).after ?_ | fail_if_no_progress (refine Keeps.upd ?_)

theorem State.takeConfirm_keeps (s : State) (f : RxFrame) :
    Keeps [.fram, .lg, .ev, .an, .dl, .dn, .pl, .irq, .hb] s (State.takeConfirm s f) := by
  unfold State.takeConfirm
  try dsimp only
  with_reducible repeat' first
    | exact Keeps.refl _ _ | refine Keeps.ite (fun _ => ?_) (fun _ => ?_) | refine (State.notArmed_keeps ..).after ?_
    | refine (State.ceremonyDone_keeps ..).after ?_ | fail_if_no_progress (refine Keeps.upd ?_)

theorem State.askUnpair_keeps (s : State) : Keeps [.lg, .ev, .irq] s (State.askUnpair s) := by
  unfold State.askUnpair
  try dsimp only
  with_reducible repeat' first
    | exact Keeps.refl _ _ | refine Keeps.ite (fun _ => ?_) (fun _ => ?_) | refine (State.audited_keeps ..).after ?_
    | fail_if_no_progress (refine Keeps.upd ?_)

theorem State.askDref_keeps (s : State) : Keeps [.fram, .lg, .ev, .irq] s (State.askDref s) := by
  unfold State.askDref
  try dsimp only
  with_reducible repeat' first
    | exact Keeps.refl _ _ | refine Keeps.ite (fun _ => ?_) (fun _ => ?_) | refine (State.logEv_keeps ..).after ?_
    | refine (State.refuseFull_keeps ..).after ?_ | refine (State.takeRef_keeps ..).after ?_ | fail_if_no_progress (refine Keeps.upd ?_)
    | split

theorem State.serveRestore_keeps (s : State) : Keeps [.lg, .ev, .an, .dl, .dn, .irq] s (State.serveRestore s) := by
  unfold State.serveRestore
  try dsimp only
  with_reducible repeat' first
    | exact Keeps.refl _ _ | refine Keeps.ite (fun _ => ?_) (fun _ => ?_) | refine (State.nextSeq_keeps ..).after ?_
    | refine (State.sendFrame_keeps ..).after ?_ | refine (State.anSend_keeps ..).after ?_ | refine (State.refuseFull_keeps ..).after ?_
    | refine (State.queueChange_keeps ..).after ?_ | refine Keeps.ofPair ‹_› ?_ | fail_if_no_progress (refine Keeps.upd ?_) | split

theorem State.takeRestore_keeps (s : State) (f : RxFrame) : Keeps [.lg, .ev, .an, .dl, .dn, .pl, .irq, .hb] s (State.takeRestore s f) := by
  unfold State.takeRestore
  try dsimp only
  with_reducible repeat' first
    | exact Keeps.refl _ _ | refine Keeps.ite (fun _ => ?_) (fun _ => ?_) | refine (State.anVio_keeps ..).after ?_
    | refine (State.nackTo_keeps ..).after ?_ | refine (State.logEv_keeps ..).after ?_ | refine (State.refuseFull_keeps ..).after ?_
    | refine (State.queueChange_keeps ..).after ?_ | fail_if_no_progress (refine Keeps.upd ?_)

theorem State.sendRestoreAck_keeps (s : State) : Keeps [.an, .dl, .dn] s (State.sendRestoreAck s) := by
  unfold State.sendRestoreAck
  try dsimp only
  with_reducible repeat' first
    | exact Keeps.refl _ _ | refine Keeps.ite (fun _ => ?_) (fun _ => ?_) | refine (State.anExchange_keeps ..).after ?_
    | fail_if_no_progress (refine Keeps.upd ?_) | split

theorem State.dropRetract_keeps (s : State) : Keeps [.ev, .an, .dl, .irq] s (State.dropRetract s) := by
  unfold State.dropRetract
  try dsimp only
  with_reducible repeat' first
    | exact Keeps.refl _ _ | refine Keeps.ite (fun _ => ?_) (fun _ => ?_) | refine (State.dropAntiphon_keeps ..).after ?_
    | refine (State.anEvent_keeps ..).after ?_ | refine Keeps.foldl ?_ (fun _ _ => ?_) | fail_if_no_progress (refine Keeps.upd ?_)

theorem State.exchange_keeps (s : State) : Keeps [.ev, .an, .dl, .dn, .irq] s (State.exchange s) := by
  unfold State.exchange
  try dsimp only
  with_reducible repeat' first
    | exact Keeps.refl _ _ | refine Keeps.ite (fun _ => ?_) (fun _ => ?_) | refine (State.dropRetract_keeps ..).after ?_
    | refine (State.anExchange_keeps ..).after ?_ | fail_if_no_progress (refine Keeps.upd ?_)

theorem State.miss_keeps (s : State) : Keeps [.fram, .ev, .an, .dl, .pl, .irq] s (State.miss s) := by
  unfold State.miss
  try dsimp only
  with_reducible repeat' first
    | exact Keeps.refl _ _ | refine Keeps.ite (fun _ => ?_) (fun _ => ?_) | refine (State.dropAntiphon_keeps ..).after ?_
    | refine (State.pinned_keeps ..).after ?_ | refine (State.markMirror_keeps ..).after ?_ | refine (State.anEvent_keeps ..).after ?_
    | fail_if_no_progress (refine Keeps.upd ?_)

theorem State.sendRetract_keeps (s : State) : Keeps [.an, .dl, .dn] s (State.sendRetract s) := by
  unfold State.sendRetract
  try dsimp only
  with_reducible repeat' first
    | exact Keeps.refl _ _ | refine Keeps.ite (fun _ => ?_) (fun _ => ?_) | refine (State.anSend_keeps ..).after ?_
    | fail_if_no_progress (refine Keeps.upd ?_)

theorem State.sendNotice_keeps (s : State) : Keeps [.an, .dl, .dn] s (State.sendNotice s) := by
  unfold State.sendNotice
  try dsimp only
  with_reducible repeat' first
    | exact Keeps.refl _ _ | refine Keeps.ite (fun _ => ?_) (fun _ => ?_) | refine (State.anSend_keeps ..).after ?_
    | fail_if_no_progress (refine Keeps.upd ?_)

theorem State.takeNack_keeps (s : State) (f : RxFrame) :
    Keeps [.nv, .fram, .ck, .ev, .an, .dl, .dn, .pl, .irq, .hb] s (State.takeNack s f) := by
  unfold State.takeNack
  try dsimp only
  with_reducible repeat' first
    | exact Keeps.refl _ _ | refine Keeps.ite (fun _ => ?_) (fun _ => ?_) | refine (State.badField_keeps ..).after ?_
    | refine (State.anEvent_keeps ..).after ?_ | refine (State.closeReq_keeps ..).after ?_ | refine (State.dnPush_keeps ..).after ?_
    | refine (State.leaveSystem_keeps ..).after ?_ | refine (State.assigned_keeps ..).after ?_
    | refine (State.requestFailed_keeps ..).after ?_ | refine (State.strayReply_keeps ..).after ?_
    | fail_if_no_progress (refine Keeps.upd ?_) | split

/-! ## Machine/Tone.lean -/

theorem State.tnEvent_keeps (s : State) (code : Word) (data : Nat) : Keeps [.ev, .irq] s (State.tnEvent s code data) := by
  unfold State.tnEvent
  try dsimp only
  with_reducible repeat' first
    | exact Keeps.refl _ _ | refine Keeps.ite (fun _ => ?_) (fun _ => ?_) | refine (State.logEv_keeps ..).after ?_
    | refine (State.irq_keeps ..).after ?_ | fail_if_no_progress (refine Keeps.upd ?_)

theorem State.tnCount_keeps (s : State) : Keeps [.ev, .tn, .pl] s (State.tnCount s) := by
  unfold State.tnCount
  try dsimp only
  with_reducible repeat' first
    | exact Keeps.refl _ _ | refine Keeps.ite (fun _ => ?_) (fun _ => ?_) | refine (State.pinned_keeps ..).after ?_
    | fail_if_no_progress (refine Keeps.upd ?_)

theorem State.tnVio_keeps (s : State) (code : Word) (data : Nat) : Keeps [.ev, .tn, .pl, .irq, .hb] s (State.tnVio s code data) := by
  unfold State.tnVio
  try dsimp only
  with_reducible repeat' first
    | exact Keeps.refl _ _ | refine Keeps.ite (fun _ => ?_) (fun _ => ?_) | refine (State.tnCount_keeps ..).after ?_
    | refine (State.logOnce_keeps ..).after ?_ | refine (State.irq_keeps ..).after ?_ | fail_if_no_progress (refine Keeps.upd ?_)

theorem State.waveStop_keeps (s : State) : Keeps [.ad, .tn] s (State.waveStop s) := by
  unfold State.waveStop
  try dsimp only
  with_reducible repeat' first
    | exact Keeps.refl _ _ | refine Keeps.ite (fun _ => ?_) (fun _ => ?_) | fail_if_no_progress (refine Keeps.upd ?_) | split

theorem State.waveStart_keeps (s : State) (w : Wave) : Keeps [.ad, .tn] s (State.waveStart s w) := by
  unfold State.waveStart
  try dsimp only
  with_reducible repeat' first
    | exact Keeps.refl _ _ | refine Keeps.ite (fun _ => ?_) (fun _ => ?_) | fail_if_no_progress (refine Keeps.upd ?_)

theorem State.toneCycles_keeps (s : State) (n : Nat) : Keeps [.ad, .tn] s (State.toneCycles s n) := by
  unfold State.toneCycles
  try dsimp only
  with_reducible repeat' first
    | exact Keeps.refl _ _ | refine Keeps.ite (fun _ => ?_) (fun _ => ?_) | refine (State.waveStop_keeps ..).after ?_
    | fail_if_no_progress (refine Keeps.upd ?_) | split

theorem State.toneTick_keeps (s : State) : Keeps [.ad, .tn] s (State.toneTick s) := by
  unfold State.toneTick
  try dsimp only
  with_reducible repeat' first
    | exact Keeps.refl _ _ | refine Keeps.ite (fun _ => ?_) (fun _ => ?_) | refine (State.toneCycles_keeps ..).after ?_
    | fail_if_no_progress (refine Keeps.upd ?_)

theorem State.tnTakeNco_keeps (s : State) : Keeps [.ad] s (State.tnTakeNco s) := by
  unfold State.tnTakeNco
  try dsimp only
  with_reducible repeat' first
    | exact Keeps.refl _ _ | refine Keeps.ite (fun _ => ?_) (fun _ => ?_) | fail_if_no_progress (refine Keeps.upd ?_)

theorem State.tnEqualise_keeps (s : State) (soft : List Int) : Keeps [.tn] s (State.tnEqualise s soft) := by
  unfold State.tnEqualise
  try dsimp only
  with_reducible repeat' first
    | exact Keeps.refl _ _ | refine Keeps.ite (fun _ => ?_) (fun _ => ?_) | fail_if_no_progress (refine Keeps.upd ?_)

theorem State.tnSend_keeps (s : State) (f : CFrame) : Keeps [.ad, .tn] s (State.tnSend s f) := by
  unfold State.tnSend
  try dsimp only
  with_reducible repeat' first
    | exact Keeps.refl _ _ | refine Keeps.ite (fun _ => ?_) (fun _ => ?_) | refine (State.waveStart_keeps ..).after ?_
    | fail_if_no_progress (refine Keeps.upd ?_)

theorem State.tnPush_keeps (s : State) (f : CFrame) : Keeps [.ev, .tn, .irq] s (State.tnPush s f) := by
  unfold State.tnPush
  try dsimp only
  repeat' first
    | with_reducible exact Keeps.refl _ _
    | with_reducible refine Keeps.ite (fun _ => ?_) (fun _ => ?_)
    | with_reducible refine (State.tnEvent_keeps ..).after ?_
    | with_reducible refine (State.irq_keeps ..).after ?_
    | exact Keeps.upd (Keeps.refl _ _) (i_tn := fun h => ⟨h.1, by have := ‹State.tnFits s f = true›; simp only [State.tnFits, decide_eq_true_eq] at this; simpa [cantusWords, fifoWords_length] using this⟩)
    | fail_if_no_progress (with_reducible refine Keeps.upd ?_)

theorem State.tnTake_keeps (s : State) : Keeps [.tn] s (State.tnTake s) := by
  unfold State.tnTake
  try dsimp only
  repeat' first
    | with_reducible exact Keeps.refl _ _
    | with_reducible refine Keeps.ite (fun _ => ?_) (fun _ => ?_)
    | exact Keeps.upd (Keeps.refl _ _) (i_tn := fun h => by simp only [Tn.ok, List.length_drop] at h ⊢; omega)
    | fail_if_no_progress (with_reducible refine Keeps.upd ?_)

theorem State.tnHeard_keeps (s : State) (f : CFrame) : Keeps [.ev, .tn, .pl] s (State.tnHeard s f) := by
  unfold State.tnHeard
  try dsimp only
  with_reducible repeat' first
    | exact Keeps.refl _ _ | refine Keeps.ite (fun _ => ?_) (fun _ => ?_) | refine (State.tnEqualise_keeps ..).after ?_
    | refine (State.pinned_keeps ..).after ?_ | fail_if_no_progress (refine Keeps.upd ?_)

theorem State.tnRequest_keeps {L : List Part} (s : State) (f : CFrame) (cmd : Bool) (h : State → State) (h0 : ∀ y0, Keeps L y0 (h y0)) (hL : List.all [.ev, .tn, .pl, .irq, .hb] (L.contains ·) = true) :
    Keeps L s (State.tnRequest s f cmd h) := by
  unfold State.tnRequest
  try dsimp only
  with_reducible repeat' first
    | exact Keeps.refl _ _ | refine Keeps.ite (fun _ => ?_) (fun _ => ?_) | refine (h0 _ ).next ?_
    | refine (State.when_keeps (L := L) (h0 := fun _ => ?_) (hL := Keeps.sub (by with_unfolding_all rfl) hL) ..).next ?_
    | refine (State.tnHeard_keeps ..).after ?_ (Keeps.sub (by with_unfolding_all rfl) hL)
    | refine (State.tnVio_keeps ..).after ?_ (Keeps.sub (by with_unfolding_all rfl) hL)
    | fail_if_no_progress (refine (Keeps.upd (L := [.ev, .tn, .pl, .irq, .hb]) (Keeps.refl _ _)).after ?_ hL)

theorem State.tnReply_keeps (s : State) (f : CFrame) (data : List Byte) : Keeps [.tn] s (State.tnReply s f data) := by
  unfold State.tnReply
  try dsimp only
  with_reducible repeat' first
    | exact Keeps.refl _ _ | refine Keeps.ite (fun _ => ?_) (fun _ => ?_) | fail_if_no_progress (refine Keeps.upd ?_)

theorem State.tnNack_keeps (s : State) (f : CFrame) (code : Byte) : Keeps [.tn] s (State.tnNack s f code) := by
  unfold State.tnNack
  try dsimp only
  with_reducible repeat' first
    | exact Keeps.refl _ _ | refine Keeps.ite (fun _ => ?_) (fun _ => ?_) | fail_if_no_progress (refine Keeps.upd ?_)

theorem State.tnBad_keeps (s : State) (f : CFrame) : Keeps [.ev, .tn, .pl, .irq, .hb] s (State.tnBad s f) := by
  unfold State.tnBad
  try dsimp only
  with_reducible repeat' first
    | exact Keeps.refl _ _ | refine Keeps.ite (fun _ => ?_) (fun _ => ?_) | refine (State.tnVio_keeps ..).after ?_
    | refine (State.tnNack_keeps ..).after ?_ | fail_if_no_progress (refine Keeps.upd ?_)

theorem State.tnOnce_keeps {L : List Part} (s : State) (f : CFrame) (h : State → State) (h0 : ∀ y0, Keeps L y0 (h y0)) (hL : List.all [.ev, .tn, .pl] (L.contains ·) = true) :
    Keeps L s (State.tnOnce s f h) := by
  unfold State.tnOnce
  try dsimp only
  with_reducible repeat' first
    | exact Keeps.refl _ _ | refine Keeps.ite (fun _ => ?_) (fun _ => ?_) | refine (h0 _ ).next ?_
    | refine (State.tnCount_keeps ..).after ?_ (Keeps.sub (by with_unfolding_all rfl) hL)
    | fail_if_no_progress (refine (Keeps.upd (L := [.ev, .tn, .pl]) (Keeps.refl _ _)).after ?_ hL) | split

theorem State.tnHostCommand_keeps (s : State) (f : CFrame) : Keeps [.ev, .tn, .pl, .irq, .hb] s (State.tnHostCommand s f) := by
  unfold State.tnHostCommand
  try dsimp only
  with_reducible repeat' first
    | exact Keeps.refl _ _ | refine Keeps.ite (fun _ => ?_) (fun _ => ?_) | refine (State.tnVio_keeps ..).after ?_
    | refine (State.tnNack_keeps ..).after ?_ | refine (State.tnPush_keeps ..).after ?_ | fail_if_no_progress (refine Keeps.upd ?_)

theorem State.tnReplySend_keeps (s : State) : Keeps [.ad, .tn] s (State.tnReplySend s) := by
  unfold State.tnReplySend
  try dsimp only
  with_reducible repeat' first
    | exact Keeps.refl _ _ | refine Keeps.ite (fun _ => ?_) (fun _ => ?_) | refine (State.tnSend_keeps ..).after ?_
    | fail_if_no_progress (refine Keeps.upd ?_) | split

theorem State.tnHostReply_keeps (s : State) : Keeps [.ad, .tn] s (State.tnHostReply s) := by
  unfold State.tnHostReply
  try dsimp only
  with_reducible repeat' first
    | exact Keeps.refl _ _ | refine Keeps.ite (fun _ => ?_) (fun _ => ?_) | refine (State.tnSend_keeps ..).after ?_
    | refine (State.tnTake_keeps ..).after ?_ | fail_if_no_progress (refine Keeps.upd ?_) | split

theorem State.tnIssue_keeps (s : State) (f : CFrame) (watch : Bool) : Keeps [.ad, .tn] s (State.tnIssue s f watch) := by
  unfold State.tnIssue
  try dsimp only
  with_reducible repeat' first
    | exact Keeps.refl _ _ | refine Keeps.ite (fun _ => ?_) (fun _ => ?_) | refine (State.tnSend_keeps ..).after ?_
    | fail_if_no_progress (refine Keeps.upd ?_)

theorem State.watchNext_keeps (s : State) : Keeps [.ad, .tn] s (State.watchNext s) := by
  unfold State.watchNext
  try dsimp only
  with_reducible repeat' first
    | exact Keeps.refl _ _ | refine Keeps.ite (fun _ => ?_) (fun _ => ?_) | refine (State.tnIssue_keeps ..).after ?_
    | fail_if_no_progress (refine Keeps.upd ?_) | split

theorem State.watchSeen_keeps (s : State) (f : CFrame) : Keeps [.ev, .tn, .irq] s (State.watchSeen s f) := by
  unfold State.watchSeen
  try dsimp only
  with_reducible repeat' first
    | exact Keeps.refl _ _ | refine Keeps.ite (fun _ => ?_) (fun _ => ?_) | refine (State.tnEvent_keeps ..).after ?_
    | fail_if_no_progress (refine Keeps.upd ?_)

theorem State.tnMasterReply_keeps (s : State) (f : CFrame) : Keeps [.ad, .ev, .tn, .pl, .irq, .hb] s (State.tnMasterReply s f) := by
  unfold State.tnMasterReply
  try dsimp only
  with_reducible repeat' first
    | exact Keeps.refl _ _ | refine Keeps.ite (fun _ => ?_) (fun _ => ?_) | refine (State.tnPush_keeps ..).after ?_
    | refine (State.watchSeen_keeps ..).after ?_ | refine (State.watchNext_keeps ..).after ?_ | refine (State.tnVio_keeps ..).after ?_
    | fail_if_no_progress (refine Keeps.upd ?_) | split

theorem State.tnTimeout_keeps (s : State) : Keeps [.ad, .ev, .tn, .pl, .irq] s (State.tnTimeout s) := by
  unfold State.tnTimeout
  try dsimp only
  with_reducible repeat' first
    | exact Keeps.refl _ _ | refine Keeps.ite (fun _ => ?_) (fun _ => ?_) | refine (State.tnSend_keeps ..).after ?_
    | refine (State.pinned_keeps ..).after ?_ | refine (State.tnEvent_keeps ..).after ?_ | refine (State.watchNext_keeps ..).after ?_
    | fail_if_no_progress (refine Keeps.upd ?_) | split

theorem State.switchLoop_keeps (s : State) : Keeps [.ev, .tn, .irq] s (State.switchLoop s) := by
  unfold State.switchLoop
  try dsimp only
  repeat' first
    | with_reducible exact Keeps.refl _ _
    | with_reducible refine Keeps.ite (fun _ => ?_) (fun _ => ?_)
    | with_reducible refine (State.tnEvent_keeps ..).after ?_
    | exact Keeps.upd (Keeps.refl _ _) (i_tn := fun h => ⟨by simp, h.2⟩)
    | fail_if_no_progress (with_reducible refine Keeps.upd ?_)

theorem State.tnCut_keeps (s : State) : Keeps [.ad, .tn] s (State.tnCut s) := by
  unfold State.tnCut
  try dsimp only
  with_reducible repeat' first
    | exact Keeps.refl _ _ | refine Keeps.ite (fun _ => ?_) (fun _ => ?_) | refine (State.waveStop_keeps ..).after ?_
    | fail_if_no_progress (refine Keeps.upd ?_)

theorem State.tnDisable_keeps (s : State) (w : Writer) : Keeps [.ad, .tn] s (State.tnDisable s w) := by
  unfold State.tnDisable
  try dsimp only
  with_reducible repeat' first
    | exact Keeps.refl _ _ | refine Keeps.ite (fun _ => ?_) (fun _ => ?_) | refine (State.tnCut_keeps ..).after ?_
    | fail_if_no_progress (refine Keeps.upd ?_)

theorem State.tnStatClear_keeps (s : State) (v : Word) : Keeps [.tn] s (State.tnStatClear s v) := by
  unfold State.tnStatClear
  try dsimp only
  with_reducible repeat' first
    | exact Keeps.refl _ _ | refine Keeps.ite (fun _ => ?_) (fun _ => ?_) | fail_if_no_progress (refine Keeps.upd ?_)

theorem State.tnStatHeld_keeps (s : State) : Keeps [.tn] s (State.tnStatHeld s) := by
  unfold State.tnStatHeld
  try dsimp only
  with_reducible repeat' first
    | exact Keeps.refl _ _ | refine Keeps.ite (fun _ => ?_) (fun _ => ?_) | refine (State.tnStatClear_keeps ..).after ?_
    | fail_if_no_progress (refine Keeps.upd ?_) | split

theorem State.toneShed_keeps (s : State) (on : Bool) : Keeps [.pw, .ad, .ev, .tn, .irq] s (State.toneShed s on) := by
  unfold State.toneShed
  try dsimp only
  with_reducible repeat' first
    | exact Keeps.refl _ _ | refine Keeps.ite (fun _ => ?_) (fun _ => ?_) | refine (State.tnEvent_keeps ..).after ?_
    | refine (State.tnCut_keeps ..).after ?_ | refine (State.tnStatHeld_keeps ..).after ?_ | fail_if_no_progress (refine Keeps.upd ?_)

theorem State.tnWord_keeps (s : State) (a : Nat) (w : Word) : Keeps [.ev, .irq] s (State.tnWord s a w) := by
  unfold State.tnWord
  try dsimp only
  with_reducible repeat' first
    | exact Keeps.refl _ _ | refine Keeps.ite (fun _ => ?_) (fun _ => ?_) | refine (State.tnEvent_keeps ..).after ?_
    | fail_if_no_progress (refine Keeps.upd ?_)

theorem State.passTx_keeps (s : State) : Keeps [.pw, .ad, .tn] s (State.passTx s) := by
  unfold State.passTx
  dsimp only
  have h : Keeps [.tn] s { s with tn := { s.tn with sent := s.tn.txf, txf := [] } } :=
    Keeps.upd (Keeps.refl _ _) (i_tn := fun h => ⟨by simp, h.2⟩)
  split
  · exact Keeps.upd (h.mono rfl)
  · exact (State.waveStart_keeps ..).after (h.mono rfl)

theorem State.passRx_keeps (s : State) (c : BitVec 11) : Keeps [.ev, .tn, .irq] s (State.passRx s c) := by
  unfold State.passRx
  refine Keeps.ite (fun h => ?_) (fun _ => ?_)
  · exact Keeps.upd (Keeps.refl _ _) (i_tn := fun k => ⟨k.1, by simp only [List.length_append, List.length_singleton]; omega⟩)
  · exact (State.tnEvent_keeps ..).after (Keeps.upd (Keeps.refl _ _))

end Sys2Proof.Machine
end

