-- ==== Sys2Proof/Laws/KeepsSystem.lean ====
section
/-! SUPPORT. Sys2Proof/Laws/KeepsSystem.lean: what each operation may touch: the operations of the policy engine, the audit, the sequencer, the registers and the writers. -/

set_option Elab.async false

set_option linter.unusedTactic false
set_option linter.unreachableTactic false

namespace Sys2Proof.Machine

/-! ## Machine/Policy.lean -/

@[simp] theorem setAt_length {α : Type} (l : List α) (k : Nat) (v : α) : (setAt l k v).length = l.length := by
  induction l generalizing k with
  | nil => rfl
  | cons x xs ih => cases k <;> simp [setAt, ih]

theorem State.setRule_keeps (s : State) (n : Nat) (r : Rule) : Keeps [.pl] s (State.setRule s n r) := by
  unfold State.setRule
  try dsimp only
  repeat' first
    | with_reducible exact Keeps.refl _ _
    | with_reducible refine Keeps.ite (fun _ => ?_) (fun _ => ?_)
    | exact Keeps.upd (Keeps.refl _ _) (i_pl := fun h => by unfold Pl.ok at h ⊢; simpa [setAt_length] using h)
    | fail_if_no_progress (with_reducible refine Keeps.upd ?_)

theorem State.driveAlarm_keeps (s : State) : Keeps [.ad, .ev, .lp, .irq] s (State.driveAlarm s) := by
  unfold State.driveAlarm
  try dsimp only
  with_reducible repeat' first
    | exact Keeps.refl _ _ | refine Keeps.ite (fun _ => ?_) (fun _ => ?_) | refine (State.loopATick_keeps ..).after ?_
    | fail_if_no_progress (refine Keeps.upd ?_)

theorem State.resolveAlarm_keeps (s : State) : Keeps [.ad, .ev, .lp, .irq] s (State.resolveAlarm s) := by
  unfold State.resolveAlarm
  try dsimp only
  with_reducible repeat' first
    | exact Keeps.refl _ _ | refine Keeps.ite (fun _ => ?_) (fun _ => ?_) | refine (State.driveAlarm_keeps ..).after ?_
    | fail_if_no_progress (refine Keeps.upd ?_) | split

theorem State.resolveFreeze_keeps (s : State) : Keeps [.fe] s (State.resolveFreeze s) := by
  unfold State.resolveFreeze
  try dsimp only
  with_reducible repeat' first
    | exact Keeps.refl _ _ | refine Keeps.ite (fun _ => ?_) (fun _ => ?_) | fail_if_no_progress (refine Keeps.upd ?_)

theorem State.notify_keeps (s : State) (n : Nat) : Keeps [.an] s (State.notify s n) := by
  unfold State.notify
  try dsimp only
  with_reducible repeat' first
    | exact Keeps.refl _ _ | refine Keeps.ite (fun _ => ?_) (fun _ => ?_) | fail_if_no_progress (refine Keeps.upd ?_)

theorem State.logAssert_keeps (s : State) (n : Nat) : Keeps [.ev, .pl] s (State.logAssert s n) := by
  unfold State.logAssert
  try dsimp only
  with_reducible repeat' first
    | exact Keeps.refl _ _ | refine Keeps.ite (fun _ => ?_) (fun _ => ?_) | refine (State.setRule_keeps ..).after ?_
    | refine (State.logEv_keeps ..).after ?_ | refine (State.pinned_keeps ..).after ?_ | fail_if_no_progress (refine Keeps.upd ?_)

theorem State.ruleAssert_keeps (s : State) (n : Nat) : Keeps [.ad, .fe, .lg, .ev, .an, .lp, .pl, .irq] s (State.ruleAssert s n) := by
  unfold State.ruleAssert
  try dsimp only
  with_reducible repeat' first
    | exact Keeps.refl _ _ | refine Keeps.ite (fun _ => ?_) (fun _ => ?_) | refine (State.setRule_keeps ..).after ?_
    | refine (State.applyAdapt_keeps ..).after ?_ | refine (State.notify_keeps ..).after ?_ | refine (State.resolveFreeze_keeps ..).after ?_
    | refine (State.resolveAlarm_keeps ..).after ?_ | refine (State.logAssert_keeps ..).after ?_ | refine (State.irq_keeps ..).after ?_
    | fail_if_no_progress (refine Keeps.upd ?_)

theorem State.ruleEnd_keeps (s : State) (n : Nat) : Keeps [.fram, .ad, .fe, .ev, .an, .lp, .pl, .irq] s (State.ruleEnd s n) := by
  unfold State.ruleEnd
  try dsimp only
  with_reducible repeat' first
    | exact Keeps.refl _ _ | refine Keeps.ite (fun _ => ?_) (fun _ => ?_) | refine (State.setRule_keeps ..).after ?_
    | refine (State.notify_keeps ..).after ?_ | refine (State.resolveFreeze_keeps ..).after ?_
    | refine (State.resolveAlarm_keeps ..).after ?_ | refine (State.logEv_keeps ..).after ?_ | refine (State.irq_keeps ..).after ?_
    | fail_if_no_progress (refine Keeps.upd ?_)

theorem State.ruleRelease_keeps (s : State) (n : Nat) : Keeps [.fram, .ad, .fe, .ev, .an, .lp, .pl, .irq] s (State.ruleRelease s n) := by
  unfold State.ruleRelease
  try dsimp only
  with_reducible repeat' first
    | exact Keeps.refl _ _ | refine Keeps.ite (fun _ => ?_) (fun _ => ?_) | refine (State.setRule_keeps ..).after ?_
    | refine (State.ruleEnd_keeps ..).after ?_ | fail_if_no_progress (refine Keeps.upd ?_)

theorem State.ruleChanged_keeps (s : State) (n : Nat) : Keeps [.ev, .pl] s (State.ruleChanged s n) := by
  unfold State.ruleChanged
  try dsimp only
  with_reducible repeat' first
    | exact Keeps.refl _ _ | refine Keeps.ite (fun _ => ?_) (fun _ => ?_) | refine (State.setRule_keeps ..).after ?_
    | refine (State.logEv_keeps ..).after ?_ | fail_if_no_progress (refine Keeps.upd ?_)

theorem State.ackTick_keeps (s : State) : Keeps [.fram, .ad, .fe, .ev, .an, .lp, .pl, .irq] s (State.ackTick s) := by
  unfold State.ackTick
  try dsimp only
  with_reducible repeat' first
    | exact Keeps.refl _ _ | refine Keeps.ite (fun _ => ?_) (fun _ => ?_) | refine (State.ruleEnd_keeps ..).after ?_
    | refine Keeps.foldl ?_ (fun _ _ => ?_) | fail_if_no_progress (refine Keeps.upd ?_)

theorem State.stepRule_keeps (at_ s : State) (n : Nat) : Keeps [.pl] s (State.stepRule at_ s n) := by
  unfold State.stepRule
  dsimp only
  repeat' first
    | with_reducible exact Keeps.refl _ _
    | with_reducible refine Keeps.ite (fun _ => ?_) (fun _ => ?_)
    | with_reducible refine (State.setRule_keeps ..).after ?_ (by with_unfolding_all rfl)

theorem State.policyTick_keeps (s : State) : Keeps [.fram, .ad, .fe, .ev, .an, .lp, .pl, .irq] s (State.policyTick s) := by
  unfold State.policyTick
  try dsimp only
  with_reducible repeat' first
    | exact Keeps.refl _ _ | refine Keeps.ite (fun _ => ?_) (fun _ => ?_) | refine (State.stepRule_keeps ..).after ?_
    | refine (State.ackTick_keeps ..).after ?_ | refine Keeps.foldl ?_ (fun _ _ => ?_) | fail_if_no_progress (refine Keeps.upd ?_)

theorem State.policyRun_keeps (s : State) : Keeps [.ad, .fe, .ev, .lp, .pl, .irq] s (State.policyRun s) := by
  unfold State.policyRun
  try dsimp only
  repeat' first
    | with_reducible exact Keeps.refl _ _
    | with_reducible refine Keeps.ite (fun _ => ?_) (fun _ => ?_)
    | with_reducible refine (State.resolveFreeze_keeps ..).after ?_
    | with_reducible refine (State.resolveAlarm_keeps ..).after ?_
    | exact Keeps.upd (Keeps.refl _ _) (i_pl := fun h => by unfold Pl.ok at h ⊢; simpa using h)
    | fail_if_no_progress (with_reducible refine Keeps.upd ?_)

theorem State.policyLeave_keeps (s : State) : Keeps [.pl] s (State.policyLeave s) := by
  unfold State.policyLeave
  try dsimp only
  repeat' first
    | with_reducible exact Keeps.refl _ _
    | with_reducible refine Keeps.ite (fun _ => ?_) (fun _ => ?_)
    | exact Keeps.upd (Keeps.refl _ _) (i_pl := fun h => by unfold Pl.ok at h ⊢; simpa using h)
    | fail_if_no_progress (with_reducible refine Keeps.upd ?_)

theorem State.policyStop_keeps (s : State) : Keeps [.fram, .ad, .fe, .ev, .an, .lp, .pl, .irq] s (State.policyStop s) := by
  unfold State.policyStop
  try dsimp only
  with_reducible repeat' first
    | exact Keeps.refl _ _ | refine Keeps.ite (fun _ => ?_) (fun _ => ?_) | refine (State.ruleEnd_keeps ..).after ?_
    | refine Keeps.foldl ?_ (fun _ _ => ?_) | fail_if_no_progress (refine Keeps.upd ?_)

theorem State.policySecond_keeps (s : State) : Keeps [.pl] s (State.policySecond s) := by
  unfold State.policySecond
  try dsimp only
  repeat' first
    | with_reducible exact Keeps.refl _ _
    | with_reducible refine Keeps.ite (fun _ => ?_) (fun _ => ?_)
    | exact Keeps.upd (Keeps.refl _ _) (i_pl := fun h => by unfold Pl.ok at h ⊢; simpa using h)
    | fail_if_no_progress (with_reducible refine Keeps.upd ?_)

theorem State.ackWrite_keeps (s : State) (half : Nat) (w : Word) : Keeps [.pl] s (State.ackWrite s half w) := by
  unfold State.ackWrite
  try dsimp only
  with_reducible repeat' first
    | exact Keeps.refl _ _ | refine Keeps.ite (fun _ => ?_) (fun _ => ?_) | refine Keeps.foldl ?_ (fun _ _ => ?_)
    | fail_if_no_progress (refine Keeps.upd ?_)

/-! ## Machine/Audit.lean -/

theorem State.learnArm_keeps (s : State) : Keeps [.orr] s (State.learnArm s) := by
  unfold State.learnArm
  try dsimp only
  with_reducible repeat' first
    | exact Keeps.refl _ _ | refine Keeps.ite (fun _ => ?_) (fun _ => ?_) | fail_if_no_progress (refine Keeps.upd ?_)

theorem State.applyOrCtl_keeps (s : State) (v : Word) :
    Keeps [.nv, .orr, .ad, .fe, .lg, .ev, .an, .pl, .irq, .hb] s (State.applyOrCtl s v) := by
  unfold State.applyOrCtl
  try dsimp only
  with_reducible repeat' first
    | exact Keeps.refl _ _ | refine Keeps.ite (fun _ => ?_) (fun _ => ?_) | refine (State.orrRestart_keeps ..).after ?_
    | refine (State.nvPut_keeps ..).after ?_ | refine (State.learnArm_keeps ..).after ?_ | fail_if_no_progress (refine Keeps.upd ?_)

theorem State.orClamp_keeps (s : State) (a : Nat) (v : Word) : Keeps [.ev] s (State.orClamp s a v) := by
  unfold State.orClamp
  try dsimp only
  with_reducible repeat' first
    | exact Keeps.refl _ _ | refine Keeps.ite (fun _ => ?_) (fun _ => ?_) | refine (State.logEv_keeps ..).after ?_
    | fail_if_no_progress (refine Keeps.upd ?_)

theorem State.applyOr_keeps (s : State) (a : Nat) (v : Word) :
    Keeps [.nv, .orr, .ad, .fe, .lg, .ev, .an, .pl, .irq, .hb] s (State.applyOr s a v) := by
  unfold State.applyOr
  try dsimp only
  with_reducible repeat' first
    | exact Keeps.refl _ _ | refine Keeps.ite (fun _ => ?_) (fun _ => ?_) | refine (State.nvPut_keeps ..).after ?_
    | refine (State.orrRestart_keeps ..).after ?_ | refine (State.orClamp_keeps ..).after ?_ | refine (State.passEntries_keeps ..).after ?_
    | fail_if_no_progress (refine Keeps.upd ?_)

theorem State.applyEntry_keeps (s : State) (n : Nat) (w : List Word) : Keeps [.nv, .orr, .hb] s (State.applyEntry s n w) := by
  unfold State.applyEntry
  try dsimp only
  with_reducible repeat' first
    | exact Keeps.refl _ _ | refine Keeps.ite (fun _ => ?_) (fun _ => ?_) | refine (State.nvPutAll_keeps ..).after ?_
    | refine (State.passEntries_keeps ..).after ?_ | fail_if_no_progress (refine Keeps.upd ?_)

theorem State.applyRule_keeps (s : State) (n : Nat) (w : List Word) :
    Keeps [.nv, .fram, .ad, .fe, .ev, .an, .lp, .pl, .irq, .hb] s (State.applyRule s n w) := by
  unfold State.applyRule
  try dsimp only
  with_reducible repeat' first
    | exact Keeps.refl _ _ | refine Keeps.ite (fun _ => ?_) (fun _ => ?_) | refine (State.ruleEnd_keeps ..).after ?_
    | refine (State.nvPutAll_keeps ..).after ?_ | refine (State.ruleChanged_keeps ..).after ?_ | fail_if_no_progress (refine Keeps.upd ?_)

theorem State.applyDefaults_keeps (s : State) : Keeps [.nv, .fram, .ad, .fe, .ev, .an, .lp, .pl, .irq, .hb] s (State.applyDefaults s) := by
  unfold State.applyDefaults
  try dsimp only
  with_reducible repeat' first
    | exact Keeps.refl _ _ | refine Keeps.ite (fun _ => ?_) (fun _ => ?_) | refine (State.applyRule_keeps ..).after ?_
    | refine Keeps.foldl ?_ (fun _ _ => ?_) | fail_if_no_progress (refine Keeps.upd ?_)

theorem State.sealedClamp_keeps (s : State) (k : Nat) (v : Word) : Keeps [.ev, .irq] s (State.sealedClamp s k v) := by
  unfold State.sealedClamp
  try dsimp only
  with_reducible repeat' first
    | exact Keeps.refl _ _ | refine Keeps.ite (fun _ => ?_) (fun _ => ?_) | refine (State.logEv_keeps ..).after ?_
    | refine (State.anEvent_keeps ..).after ?_ | fail_if_no_progress (refine Keeps.upd ?_)

theorem State.applyWord_keeps (s : State) (k : Nat) (v : Word) :
    Keeps [.nv, .orr, .ad, .fe, .lg, .ev, .an, .pl, .irq, .hb] s (State.applyWord s k v) := by
  unfold State.applyWord
  try dsimp only
  with_reducible repeat' first
    | exact Keeps.refl _ _ | refine Keeps.ite (fun _ => ?_) (fun _ => ?_) | refine (State.applyOrCtl_keeps ..).after ?_
    | refine (State.nvPut_keeps ..).after ?_ | refine (State.applyOr_keeps ..).after ?_ | refine (State.sealedClamp_keeps ..).after ?_
    | fail_if_no_progress (refine Keeps.upd ?_)

theorem State.applyTraw_keeps (s : State) (on : Bool) : Keeps [.lp] s (State.applyTraw s on) := by
  unfold State.applyTraw
  try dsimp only
  with_reducible repeat' first
    | exact Keeps.refl _ _ | refine Keeps.ite (fun _ => ?_) (fun _ => ?_) | fail_if_no_progress (refine Keeps.upd ?_)

theorem State.applyPeriod_keeps (s : State) (new : BitVec 6) : Keeps [.nv, .fram, .ev, .dl, .irq, .hb] s (State.applyPeriod s new) := by
  unfold State.applyPeriod
  try dsimp only
  with_reducible repeat' first
    | exact Keeps.refl _ _ | refine Keeps.ite (fun _ => ?_) (fun _ => ?_) | refine (State.nvPut_keeps ..).after ?_
    | refine (State.anEvent_keeps ..).after ?_ | refine (State.anActivate_keeps ..).after ?_ | fail_if_no_progress (refine Keeps.upd ?_)

theorem State.applyPolicyEn_keeps (s : State) (on : Bool) :
    Keeps [.nv, .fram, .ad, .fe, .ev, .an, .lp, .pl, .irq, .hb] s (State.applyPolicyEn s on) := by
  unfold State.applyPolicyEn
  try dsimp only
  with_reducible repeat' first
    | exact Keeps.refl _ _ | refine Keeps.ite (fun _ => ?_) (fun _ => ?_) | refine (State.nvPut_keeps ..).after ?_
    | refine (State.policyStop_keeps ..).after ?_ | fail_if_no_progress (refine Keeps.upd ?_)

theorem State.applySealCount_keeps (s : State) : Keeps [.aon] s (State.applySealCount s) := by
  unfold State.applySealCount
  try dsimp only
  with_reducible repeat' first
    | exact Keeps.refl _ _ | refine Keeps.ite (fun _ => ?_) (fun _ => ?_) | fail_if_no_progress (refine Keeps.upd ?_)

theorem State.applyKey_keeps (s : State) (slot1 : Bool) (bytes : List Byte) :
    Keeps [.fram, .lg, .ev, .an, .irq] s (State.applyKey s slot1 bytes) := by
  unfold State.applyKey
  try dsimp only
  with_reducible repeat' first
    | exact Keeps.refl _ _ | refine Keeps.ite (fun _ => ?_) (fun _ => ?_) | refine (State.abortCeremony_keeps ..).after ?_
    | refine (State.twoCommits_keeps ..).after ?_ | fail_if_no_progress (refine Keeps.upd ?_)

theorem State.applyInit_keeps (s : State) : Keeps [.lg, .ev] s (State.applyInit s) := by
  unfold State.applyInit
  try dsimp only
  with_reducible repeat' first
    | exact Keeps.refl _ _ | refine Keeps.ite (fun _ => ?_) (fun _ => ?_) | refine (State.twoCommits_keeps ..).after ?_
    | fail_if_no_progress (refine Keeps.upd ?_)

theorem State.applyPaired_keeps (s : State) (serial : Word64) (restoreRx : Bool) :
    Keeps [.fram, .lg, .ev, .an, .dl, .dn, .irq] s (State.applyPaired s serial restoreRx) := by
  unfold State.applyPaired
  try dsimp only
  with_reducible repeat' first
    | exact Keeps.refl _ _ | refine Keeps.ite (fun _ => ?_) (fun _ => ?_) | refine (State.anActivate_keeps ..).after ?_
    | refine (State.irq_keeps ..).after ?_ | refine (State.serveRestore_keeps ..).after ?_ | fail_if_no_progress (refine Keeps.upd ?_)

theorem State.applyDissolve_keeps (s : State) : Keeps [.fram, .an, .dl] s (State.applyDissolve s) := by
  unfold State.applyDissolve
  try dsimp only
  with_reducible repeat' first
    | exact Keeps.refl _ _ | refine Keeps.ite (fun _ => ?_) (fun _ => ?_) | refine (State.dropAntiphon_keeps ..).after ?_
    | fail_if_no_progress (refine Keeps.upd ?_)

theorem State.applyDref_keeps (s : State) (l p : Word64) : Keeps [.fram] s (State.applyDref s l p) := by
  unfold State.applyDref
  try dsimp only
  with_reducible repeat' first
    | exact Keeps.refl _ _ | refine Keeps.ite (fun _ => ?_) (fun _ => ?_) | fail_if_no_progress (refine Keeps.upd ?_)

theorem State.applyRestored_keeps (s : State) (cseq : Word32) (totals : List Nat) (aseq : Word32) :
    Keeps [.fram, .lg, .ev, .an] s (State.applyRestored s cseq totals aseq) := by
  unfold State.applyRestored
  try dsimp only
  with_reducible repeat' first
    | exact Keeps.refl _ _ | refine Keeps.ite (fun _ => ?_) (fun _ => ?_) | refine (State.twoCommits_keeps ..).after ?_
    | fail_if_no_progress (refine Keeps.upd ?_)

theorem State.applyAdaptation_keeps (s : State) (cycle : Bool) (old new : Word) :
    Keeps [.nv, .fe, .ev, .hb] s (State.applyAdaptation s cycle old new) := by
  unfold State.applyAdaptation
  try dsimp only
  with_reducible repeat' first
    | exact Keeps.refl _ _ | refine Keeps.ite (fun _ => ?_) (fun _ => ?_) | refine (State.nvPut_keeps ..).after ?_
    | refine (State.logEv_keeps ..).after ?_ | fail_if_no_progress (refine Keeps.upd ?_)

theorem State.applyLearned_keeps (s : State) (map : List Word) : Keeps [.nv, .orr, .ev, .hb] s (State.applyLearned s map) := by
  unfold State.applyLearned
  try dsimp only
  with_reducible repeat' first
    | exact Keeps.refl _ _ | refine Keeps.ite (fun _ => ?_) (fun _ => ?_) | refine (State.nvPutAll_keeps ..).after ?_
    | refine (State.logEv_keeps ..).after ?_ | fail_if_no_progress (refine Keeps.upd ?_)

theorem State.freezeBy_keeps (s : State) (test : Bool) : Keeps [.hb] s (State.freezeBy s test) := by
  unfold State.freezeBy
  try dsimp only
  with_reducible repeat' first
    | exact Keeps.refl _ _ | refine Keeps.ite (fun _ => ?_) (fun _ => ?_) | fail_if_no_progress (refine Keeps.upd ?_)

theorem State.applyReady_keeps (s : State) : Keeps [.nv, .fe, .hb] s (State.applyReady s) := by
  unfold State.applyReady
  try dsimp only
  with_reducible repeat' first
    | exact Keeps.refl _ _ | refine Keeps.ite (fun _ => ?_) (fun _ => ?_) | refine (State.nvPutAll_keeps ..).after ?_
    | fail_if_no_progress (refine Keeps.upd ?_)

theorem State.applyHeld_keeps (s : State) (k : Nat) (lo : Word) (hi : Option Word) (last : Bool) :
    Keeps [.nv, .fe, .hb] s (State.applyHeld s k lo hi last) := by
  unfold State.applyHeld
  try dsimp only
  with_reducible repeat' first
    | exact Keeps.refl _ _ | refine Keeps.ite (fun _ => ?_) (fun _ => ?_) | refine (State.applyReady_keeps ..).after ?_
    | fail_if_no_progress (refine Keeps.upd ?_) | split

theorem State.applyChange_keeps (s : State) (x0 : Change) :
    Keeps [.nv, .fram, .aon, .ck, .orr, .ad, .fe, .lg, .ev, .sc, .an, .lp, .dl, .dn, .pl, .irq, .hb] s (State.applyChange s x0) := by
  unfold State.applyChange
  try dsimp only
  with_reducible repeat' first
    | exact Keeps.refl _ _ | refine Keeps.ite (fun _ => ?_) (fun _ => ?_) | refine (State.applyWord_keeps ..).after ?_
    | refine (State.nvPutAll_keeps ..).after ?_ | refine (State.applyHeld_keeps ..).after ?_ | refine (State.applyEntry_keeps ..).after ?_
    | refine (State.applyRule_keeps ..).after ?_ | refine (State.applyTraw_keeps ..).after ?_ | refine (State.applyPeriod_keeps ..).after ?_
    | refine (State.irq_keeps ..).after ?_ | refine (State.applyPolicyEn_keeps ..).after ?_ | refine (State.setSeal_keeps ..).after ?_
    | refine (State.applySealCount_keeps ..).after ?_ | refine (State.applyKey_keeps ..).after ?_
    | refine (State.applyInit_keeps ..).after ?_ | refine (State.setRtc_keeps ..).after ?_ | refine (State.applyPaired_keeps ..).after ?_
    | refine (State.applyDissolve_keeps ..).after ?_ | refine (State.applyDref_keeps ..).after ?_
    | refine (State.applyRestored_keeps ..).after ?_ | refine (State.markMirror_keeps ..).after ?_
    | refine (State.applyDefaults_keeps ..).after ?_ | refine (State.applyAdaptation_keeps ..).after ?_
    | refine (State.applyLearned_keeps ..).after ?_ | refine (State.freezeBy_keeps ..).after ?_ | fail_if_no_progress (refine Keeps.upd ?_)
    | split

theorem State.noRow_keeps (s : State) (x0 : Change) :
    Keeps [.nv, .fram, .aon, .orr, .fe, .lg, .ev, .sc, .an, .irq, .hb] s (State.noRow s x0) := by
  unfold State.noRow
  try dsimp only
  with_reducible repeat' first
    | exact Keeps.refl _ _ | refine Keeps.ite (fun _ => ?_) (fun _ => ?_) | refine (State.sealUnaudited_keeps ..).after ?_
    | refine (State.refuseFull_keeps ..).after ?_ | refine (State.learnAbort_keeps ..).after ?_
    | refine (State.applyReady_keeps ..).after ?_ | fail_if_no_progress (refine Keeps.upd ?_) | split

theorem State.auditRow_keeps (s : State) :
    Keeps [.nv, .fram, .aon, .ck, .orr, .ad, .fe, .lg, .ev, .sc, .an, .lp, .dl, .dn, .pl, .irq, .hb] s (State.auditRow s) := by
  unfold State.auditRow
  try dsimp only
  with_reducible repeat' first
    | exact Keeps.refl _ _ | refine Keeps.ite (fun _ => ?_) (fun _ => ?_) | refine (State.noRow_keeps ..).after ?_
    | refine (State.auditEntry_keeps ..).after ?_ | refine (State.applyChange_keeps ..).after ?_ | fail_if_no_progress (refine Keeps.upd ?_)
    | split

theorem State.cdigTake_keeps (s : State) : Keeps [.lg] s (State.cdigTake s) := by
  unfold State.cdigTake
  try dsimp only
  with_reducible repeat' first
    | exact Keeps.refl _ _ | refine Keeps.ite (fun _ => ?_) (fun _ => ?_) | fail_if_no_progress (refine Keeps.upd ?_)

/-! ## Machine/Power.lean -/

theorem State.freezeDone_keeps (s : State) (test : Bool) (ms : Nat) :
    Keeps [.xb, .ad, .fe, .ev, .irq, .hb] s (State.freezeDone s test ms) := by
  unfold State.freezeDone
  try dsimp only
  with_reducible repeat' first
    | exact Keeps.refl _ _ | refine Keeps.ite (fun _ => ?_) (fun _ => ?_) | refine (State.logEv_keeps ..).after ?_
    | refine (State.irq_keeps ..).after ?_ | refine (State.releaseTrips_keeps ..).after ?_ | fail_if_no_progress (refine Keeps.upd ?_)

theorem State.freezeAbort_keeps (s : State) : Keeps [.xb, .ad, .fe, .ev, .irq, .hb] s (State.freezeAbort s) := by
  unfold State.freezeAbort
  try dsimp only
  with_reducible repeat' first
    | exact Keeps.refl _ _ | refine Keeps.ite (fun _ => ?_) (fun _ => ?_) | refine (State.draw_keeps ..).after ?_
    | refine (State.freezeDone_keeps ..).after ?_ | refine Keeps.ofPair ‹_› ?_ | fail_if_no_progress (refine Keeps.upd ?_) | split

theorem State.freezeEnd_keeps (s : State) (test : Bool) (ms : Nat) :
    Keeps [.xb, .ad, .fe, .ev, .irq, .hb] s (State.freezeEnd s test ms) := by
  unfold State.freezeEnd
  try dsimp only
  with_reducible repeat' first
    | exact Keeps.refl _ _ | refine Keeps.ite (fun _ => ?_) (fun _ => ?_) | refine (State.freezeDone_keeps ..).after ?_
    | fail_if_no_progress (refine Keeps.upd ?_)

theorem State.testFreeze_keeps (s : State) : Keeps [.hb] s (State.testFreeze s) := by
  unfold State.testFreeze
  try dsimp only
  with_reducible repeat' first
    | exact Keeps.refl _ _ | refine Keeps.ite (fun _ => ?_) (fun _ => ?_) | refine (State.freezeBy_keeps ..).after ?_
    | fail_if_no_progress (refine Keeps.upd ?_)

theorem State.writeAdCtl_keeps (s : State) (v : Word) (beside : Bool) : Keeps [.ad, .ev, .hb] s (State.writeAdCtl s v beside) := by
  unfold State.writeAdCtl
  try dsimp only
  with_reducible repeat' first
    | exact Keeps.refl _ _ | refine Keeps.ite (fun _ => ?_) (fun _ => ?_) | refine (State.nvWrite_keeps ..).after ?_
    | refine (State.channel15_keeps ..).after ?_ | refine (State.logEv_keeps ..).after ?_ | refine (State.nextConv_keeps ..).after ?_
    | fail_if_no_progress (refine Keeps.upd ?_)

@[simp] theorem Fram.loadFields_nv (f : Fram) (r : Nat) : (f.loadFields r).nv = f.nv := by
  unfold Fram.loadFields
  split <;> first | rfl | (split <;> rfl)

@[simp] theorem Fram.loadFields_serial (f : Fram) (r : Nat) : (f.loadFields r).serial = f.serial := by
  unfold Fram.loadFields
  split <;> first | rfl | (split <;> rfl)

@[simp] theorem Fram.loadFields_events (f : Fram) (r : Nat) : (f.loadFields r).events = f.events := by
  unfold Fram.loadFields
  split <;> first | rfl | (split <;> rfl)

theorem State.loadRow_keeps (s : State) (r : Nat) : Keeps [.nv, .fram, .lg, .ev, .irq] s (State.loadRow s r) := by
  unfold State.loadRow
  refine (State.irq_keeps ..).after ((State.logEv_keeps ..).after ?_)
  refine Keeps.upd (Keeps.refl _ _) (h3 := by simp) (h4 := fun h => ?_)
  exact ⟨by simpa using WMem.wf_filter _ h.1, by simpa using h.2⟩

theorem State.loadRows_keeps (s : State) (rows : List Nat) (late : Bool) :
    Keeps [.nv, .fram, .lg, .ev, .irq] s (State.loadRows s rows late) := by
  unfold State.loadRows
  try dsimp only
  with_reducible repeat' first
    | exact Keeps.refl _ _ | refine Keeps.ite (fun _ => ?_) (fun _ => ?_) | refine (State.loadRow_keeps ..).after ?_
    | refine Keeps.foldl ?_ (fun _ _ => ?_) | fail_if_no_progress (refine Keeps.upd ?_)

theorem State.coreStart_keeps (s : State) : Keeps [.pw, .reg, .ck, .orr, .xb, .ad, .fe, .lg, .ev, .sc, .an, .lp, .tn, .dl, .dn, .pl, .irq, .hb] s (State.coreStart s) := by
  unfold State.coreStart
  try dsimp only
  repeat' first
    | with_reducible exact Keeps.refl _ _
    | with_reducible refine Keeps.ite (fun _ => ?_) (fun _ => ?_)
    | exact Keeps.upd (Keeps.refl _ _) (i_ev := fun _ => Nat.zero_le _) (i_tn := fun _ => ⟨Nat.zero_le _, Nat.zero_le _⟩) (i_dn := fun _ => ⟨Nat.zero_le _, Nat.zero_le _⟩) (i_pl := fun _ => rfl) (h7 := fun _ => ⟨Nat.zero_le _, fun _ h => nomatch h⟩)
    | fail_if_no_progress (with_reducible refine Keeps.upd ?_)

theorem State.reportTherm_keeps (s : State) (r : Option ThermRec) : Keeps [.nv, .fram, .ev, .irq, .hb] s (State.reportTherm s r) := by
  unfold State.reportTherm
  try dsimp only
  with_reducible repeat' first
    | exact Keeps.refl _ _ | refine Keeps.ite (fun _ => ?_) (fun _ => ?_) | refine (State.nvPut_keeps ..).after ?_
    | refine (State.logEv_keeps ..).after ?_ | refine (State.irq_keeps ..).after ?_ | fail_if_no_progress (refine Keeps.upd ?_) | split

theorem State.reportHold_keeps (s : State) : Keeps [.nv, .fram, .aon, .ev, .irq, .hb] s (State.reportHold s) := by
  unfold State.reportHold
  try dsimp only
  with_reducible repeat' first
    | exact Keeps.refl _ _ | refine Keeps.ite (fun _ => ?_) (fun _ => ?_) | refine (State.reportTherm_keeps ..).after ?_
    | fail_if_no_progress (refine Keeps.upd ?_)

theorem State.rtcCheck_keeps (s : State) : Keeps [.aon, .pw, .ev] s (State.rtcCheck s) := by
  unfold State.rtcCheck
  try dsimp only
  with_reducible repeat' first
    | exact Keeps.refl _ _ | refine Keeps.ite (fun _ => ?_) (fun _ => ?_) | refine (State.logEv_keeps ..).after ?_
    | fail_if_no_progress (refine Keeps.upd ?_)

theorem State.reportCut_keeps (s : State) (cut : Option (BitVec 2)) : Keeps [.ev] s (State.reportCut s cut) := by
  unfold State.reportCut
  try dsimp only
  with_reducible repeat' first
    | exact Keeps.refl _ _ | refine Keeps.ite (fun _ => ?_) (fun _ => ?_) | refine (State.logEv_keeps ..).after ?_
    | fail_if_no_progress (refine Keeps.upd ?_) | split

theorem State.enterWake_keeps (s : State) (env : WakeEnv) :
    Keeps [.nv, .fram, .aon, .pins, .pw, .reg, .ck, .orr, .xb, .ad, .fe, .lg, .ev, .sc, .an, .lp, .tn, .dl, .dn, .pl, .irq, .hb] s (State.enterWake s env) := by
  unfold State.enterWake
  try dsimp only
  with_reducible repeat' first
    | exact Keeps.refl _ _ | refine Keeps.ite (fun _ => ?_) (fun _ => ?_) | refine (State.coreStart_keeps ..).after ?_
    | refine (State.loadRows_keeps ..).after ?_ | refine (State.recover_keeps ..).after ?_ | refine (State.rtcCheck_keeps ..).after ?_
    | refine (State.reportHold_keeps ..).after ?_ | refine (State.xtalReport_keeps ..).after ?_ | refine (State.reportCut_keeps ..).after ?_
    | refine (State.cutLoad_keeps ..).after ?_ | refine (State.testFreeze_keeps ..).after ?_ | fail_if_no_progress (refine Keeps.upd ?_)

theorem State.tryWake_keeps (s : State) (env : WakeEnv) :
    Keeps [.nv, .fram, .aon, .pins, .pw, .reg, .ck, .orr, .xb, .ad, .fe, .lg, .ev, .sc, .an, .lp, .tn, .dl, .dn, .pl, .irq, .hb] s (State.tryWake s env) := by
  unfold State.tryWake
  try dsimp only
  with_reducible repeat' first
    | exact Keeps.refl _ _ | refine Keeps.ite (fun _ => ?_) (fun _ => ?_) | refine (State.enterWake_keeps ..).after ?_
    | fail_if_no_progress (refine Keeps.upd ?_)

theorem State.coreStop_keeps (s : State) : Keeps [.pw, .reg, .xb, .ad, .lp, .dl, .hb] s (State.coreStop s) := by
  unfold State.coreStop
  try dsimp only
  with_reducible repeat' first
    | exact Keeps.refl _ _ | refine Keeps.ite (fun _ => ?_) (fun _ => ?_) | refine (State.regStop_keeps ..).after ?_
    | refine (State.boostOff_keeps ..).after ?_ | fail_if_no_progress (refine Keeps.upd ?_)

theorem State.zeroAtEnd_keeps (s : State) : Keeps [.fram, .ad, .ev, .irq] s (State.zeroAtEnd s) := by
  unfold State.zeroAtEnd
  try dsimp only
  with_reducible repeat' first
    | exact Keeps.refl _ _ | refine Keeps.ite (fun _ => ?_) (fun _ => ?_) | refine (State.zeroDacs_keeps ..).after ?_
    | refine (State.writeEvent_keeps ..).after ?_ | fail_if_no_progress (refine Keeps.upd ?_)

theorem State.enterBackup_keeps (s : State) : Keeps [.pins, .pw, .reg, .xb, .ad, .lp, .dl, .hb] s (State.enterBackup s) := by
  unfold State.enterBackup
  try dsimp only
  with_reducible repeat' first
    | exact Keeps.refl _ _ | refine Keeps.ite (fun _ => ?_) (fun _ => ?_) | refine (State.coreStop_keeps ..).after ?_
    | fail_if_no_progress (refine Keeps.upd ?_)

theorem State.enterOff_keeps (s : State) : Keeps [.aon, .pins, .pw, .reg, .xb, .ad, .lp, .dl, .hb] s (State.enterOff s) := by
  unfold State.enterOff
  try dsimp only
  with_reducible repeat' first
    | exact Keeps.refl _ _ | refine Keeps.ite (fun _ => ?_) (fun _ => ?_) | refine (State.enterBackup_keeps ..).after ?_
    | fail_if_no_progress (refine Keeps.upd ?_)

theorem State.leaveRun_keeps (s : State) : Keeps [.ck, .orr, .ad, .fe, .lg, .ev, .lp, .tn, .dn, .pl, .irq] s (State.leaveRun s) := by
  unfold State.leaveRun
  try dsimp only
  with_reducible repeat' first
    | exact Keeps.refl _ _ | refine Keeps.ite (fun _ => ?_) (fun _ => ?_) | refine (State.toFallback_keeps ..).after ?_
    | refine (State.magUpTo_keeps ..).after ?_ | refine (State.discardPending_keeps ..).after ?_ | refine (State.trigger_keeps ..).after ?_
    | refine (State.policyLeave_keeps ..).after ?_ | refine (State.tnCut_keeps ..).after ?_ | refine (State.dropAnnounces_keeps ..).after ?_
    | refine Keeps.ofPair ‹_› ?_ | fail_if_no_progress (refine Keeps.upd ?_) | split

theorem State.enterDrain_keeps (s : State) (cause : BitVec 3) :
    Keeps [.fram, .pw, .ck, .orr, .xb, .ad, .fe, .lg, .ev, .sc, .an, .lp, .tn, .dn, .pl, .irq] s (State.enterDrain s cause) := by
  unfold State.enterDrain
  try dsimp only
  with_reducible repeat' first
    | exact Keeps.refl _ _ | refine Keeps.ite (fun _ => ?_) (fun _ => ?_) | refine (State.leaveRun_keeps ..).after ?_
    | refine (State.logEv_keeps ..).after ?_ | refine (State.irq_keeps ..).after ?_ | refine (State.zeroDacs_keeps ..).after ?_
    | refine (State.boostOff_keeps ..).after ?_ | refine (State.cutLoad_keeps ..).after ?_ | refine (State.abortCeremony_keeps ..).after ?_
    | refine (State.nextConv_keeps ..).after ?_ | fail_if_no_progress (refine Keeps.upd ?_)

theorem State.offRequest_keeps (s : State) (cause : BitVec 3) :
    Keeps [.fram, .pw, .ck, .orr, .xb, .ad, .fe, .lg, .ev, .sc, .an, .lp, .tn, .dn, .pl, .irq] s (State.offRequest s cause) := by
  unfold State.offRequest
  try dsimp only
  with_reducible repeat' first
    | exact Keeps.refl _ _ | refine Keeps.ite (fun _ => ?_) (fun _ => ?_) | refine (State.enterDrain_keeps ..).after ?_
    | fail_if_no_progress (refine Keeps.upd ?_) | split

theorem State.supplyLost_keeps (s : State) :
    Keeps [.fram, .aon, .pins, .pw, .reg, .ck, .orr, .xb, .ad, .fe, .lg, .ev, .sc, .an, .lp, .tn, .dl, .dn, .pl, .irq, .hb] s (State.supplyLost s) := by
  unfold State.supplyLost
  try dsimp only
  with_reducible repeat' first
    | exact Keeps.refl _ _ | refine Keeps.ite (fun _ => ?_) (fun _ => ?_) | refine (State.freezeAbort_keeps ..).after ?_
    | refine (State.hold_keeps ..).after ?_ | refine (State.enterBackup_keeps ..).after ?_ | refine (State.offRequest_keeps ..).after ?_
    | fail_if_no_progress (refine Keeps.upd ?_)

theorem State.resetLow_keeps (s : State) :
    Keeps [.fram, .aon, .pins, .pw, .ck, .orr, .xb, .ad, .fe, .lg, .ev, .sc, .an, .lp, .tn, .dn, .pl, .irq, .hb] s (State.resetLow s) := by
  unfold State.resetLow
  try dsimp only
  with_reducible repeat' first
    | exact Keeps.refl _ _ | refine Keeps.ite (fun _ => ?_) (fun _ => ?_) | refine (State.freezeAbort_keeps ..).after ?_
    | refine (State.offRequest_keeps ..).after ?_ | fail_if_no_progress (refine Keeps.upd ?_)

theorem State.softOff_keeps (s : State) :
    Keeps [.fram, .aon, .pw, .ck, .orr, .xb, .ad, .fe, .lg, .ev, .sc, .an, .lp, .tn, .dn, .pl, .irq] s (State.softOff s) := by
  unfold State.softOff
  try dsimp only
  with_reducible repeat' first
    | exact Keeps.refl _ _ | refine Keeps.ite (fun _ => ?_) (fun _ => ?_) | refine (State.offRequest_keeps ..).after ?_
    | fail_if_no_progress (refine Keeps.upd ?_)

theorem State.drainEnd_keeps (s : State) (vbak : Nat) (env : WakeEnv) :
    Keeps [.nv, .fram, .aon, .pins, .pw, .reg, .ck, .orr, .xb, .ad, .fe, .lg, .ev, .sc, .an, .lp, .tn, .dl, .dn, .pl, .irq, .hb] s (State.drainEnd s vbak env) := by
  unfold State.drainEnd
  try dsimp only
  with_reducible repeat' first
    | exact Keeps.refl _ _ | refine Keeps.ite (fun _ => ?_) (fun _ => ?_) | refine (State.coreStop_keeps ..).after ?_
    | refine (State.enterWake_keeps ..).after ?_ | refine (State.zeroAtEnd_keeps ..).after ?_ | refine (State.enterOff_keeps ..).after ?_
    | refine (State.enterBackup_keeps ..).after ?_ | fail_if_no_progress (refine Keeps.upd ?_)

theorem State.strap_keeps (s : State) (x0 : Strap) : Keeps [] s (State.strap s x0).2 := by
  unfold State.strap
  try dsimp only
  with_reducible repeat' first
    | exact Keeps.refl _ _ | refine Keeps.ite (fun _ => ?_) (fun _ => ?_) | refine (State.draw_keeps ..).after ?_
    | refine Keeps.ofPair ‹_› ?_ | split

theorem State.resetEnd_keeps (s : State) (r1 r0 : Strap) (env : WakeEnv) :
    Keeps [.nv, .fram, .aon, .pins, .pw, .reg, .ck, .orr, .xb, .ad, .fe, .lg, .ev, .sc, .an, .lp, .tn, .dl, .dn, .pl, .irq, .hb] s (State.resetEnd s r1 r0 env) := by
  unfold State.resetEnd
  try dsimp only
  with_reducible repeat' first
    | exact Keeps.refl _ _ | refine Keeps.ite (fun _ => ?_) (fun _ => ?_) | refine (State.strap_keeps ..).after ?_
    | refine (State.tryWake_keeps ..).after ?_ | refine Keeps.ofPair ‹_› ?_ | fail_if_no_progress (refine Keeps.upd ?_) | split

theorem State.enterRails_keeps (s : State) (vaux : Nat) :
    Keeps [.pw, .reg, .ck, .xb, .ad, .fe, .ev, .irq, .hb] s (State.enterRails s vaux) := by
  unfold State.enterRails
  try dsimp only
  with_reducible repeat' first
    | exact Keeps.refl _ _ | refine Keeps.ite (fun _ => ?_) (fun _ => ?_) | refine (State.boostStart_keeps ..).after ?_
    | refine (State.faultLevels_keeps ..).after ?_ | refine (State.regStart_keeps ..).after ?_ | refine (State.testFreeze_keeps ..).after ?_
    | fail_if_no_progress (refine Keeps.upd ?_)

theorem State.enterCalib_keeps (s : State) (vres : Nat) : Keeps [.pins, .pw, .ck, .ad, .ev, .irq] s (State.enterCalib s vres) := by
  unfold State.enterCalib
  try dsimp only
  with_reducible repeat' first
    | exact Keeps.refl _ _ | refine Keeps.ite (fun _ => ?_) (fun _ => ?_) | refine (State.mainsSwitch_keeps ..).after ?_
    | refine (State.mainsForce_keeps ..).after ?_ | refine (State.nextConv_keeps ..).after ?_ | fail_if_no_progress (refine Keeps.upd ?_)

theorem State.startAdc_keeps (s : State) : Keeps [.ad, .ev, .hb] s (State.startAdc s) := by
  unfold State.startAdc
  try dsimp only
  with_reducible repeat' first
    | exact Keeps.refl _ _ | refine Keeps.ite (fun _ => ?_) (fun _ => ?_) | refine (State.writeAdCtl_keeps ..).after ?_
    | refine (State.nextConv_keeps ..).after ?_ | fail_if_no_progress (refine Keeps.upd ?_) | split

theorem State.shedRise_keeps (s : State) (before : Nat) : Keeps [.ev, .irq] s (State.shedRise s before) := by
  unfold State.shedRise
  try dsimp only
  with_reducible repeat' first
    | exact Keeps.refl _ _ | refine Keeps.ite (fun _ => ?_) (fun _ => ?_) | refine (State.logEv_keeps ..).after ?_
    | refine (State.irq_keeps ..).after ?_ | fail_if_no_progress (refine Keeps.upd ?_)

theorem State.shedVres_keeps (s : State) : Keeps [.pw] s (State.shedVres s) := by
  unfold State.shedVres
  try dsimp only
  with_reducible repeat' first
    | exact Keeps.refl _ _ | refine Keeps.ite (fun _ => ?_) (fun _ => ?_) | fail_if_no_progress (refine Keeps.upd ?_)

theorem State.chargeJudge_keeps (s : State) : Keeps [.pw] s (State.chargeJudge s) := by
  unfold State.chargeJudge
  try dsimp only
  with_reducible repeat' first
    | exact Keeps.refl _ _ | refine Keeps.ite (fun _ => ?_) (fun _ => ?_) | fail_if_no_progress (refine Keeps.upd ?_)

theorem State.takeVres_keeps (s : State) (vres : Nat) : Keeps [.pins, .pw, .xb, .ev, .irq] s (State.takeVres s vres) := by
  unfold State.takeVres
  try dsimp only
  with_reducible repeat' first
    | exact Keeps.refl _ _ | refine Keeps.ite (fun _ => ?_) (fun _ => ?_) | refine (State.chargeJudge_keeps ..).after ?_
    | refine (State.boostRestart_keeps ..).after ?_ | refine (State.shedVres_keeps ..).after ?_ | refine (State.shedRise_keeps ..).after ?_
    | fail_if_no_progress (refine Keeps.upd ?_)

theorem State.rxShed_keeps (s : State) (p : Port) (on : Bool) : Keeps [.pw, .ck, .ev, .dl, .dn, .irq] s (State.rxShed s p on) := by
  unfold State.rxShed
  try dsimp only
  with_reducible repeat' first
    | exact Keeps.refl _ _ | refine Keeps.ite (fun _ => ?_) (fun _ => ?_) | refine (State.dsStatHeld_keeps ..).after ?_
    | refine (State.dslEvent_keeps ..).after ?_ | fail_if_no_progress (refine Keeps.upd ?_)

theorem State.dropSheds_keeps (s : State) : Keeps [.pw] s (State.dropSheds s) := by
  unfold State.dropSheds
  try dsimp only
  with_reducible repeat' first
    | exact Keeps.refl _ _ | refine Keeps.ite (fun _ => ?_) (fun _ => ?_) | fail_if_no_progress (refine Keeps.upd ?_)

theorem State.shedServices_keeps (s : State) : Keeps [.pw, .ck, .ad, .ev, .tn, .dl, .dn, .irq] s (State.shedServices s) := by
  unfold State.shedServices
  try dsimp only
  with_reducible repeat' first
    | exact Keeps.refl _ _ | refine Keeps.ite (fun _ => ?_) (fun _ => ?_) | refine (State.rxShed_keeps ..).after ?_
    | refine (State.toneShed_keeps ..).after ?_ | fail_if_no_progress (refine Keeps.upd ?_)

theorem State.levelTo_keeps (s : State) (target : Nat) : Keeps [.pw] s (State.levelTo s target) := by
  unfold State.levelTo
  try dsimp only
  with_reducible repeat' first
    | exact Keeps.refl _ _ | refine Keeps.ite (fun _ => ?_) (fun _ => ?_) | fail_if_no_progress (refine Keeps.upd ?_)

theorem State.governT_keeps (s : State) : Keeps [.pw, .ck, .ad, .ev, .tn, .dl, .dn, .irq] s (State.governT s) := by
  unfold State.governT
  try dsimp only
  with_reducible repeat' first
    | exact Keeps.refl _ _ | refine Keeps.ite (fun _ => ?_) (fun _ => ?_) | refine (State.dropSheds_keeps ..).after ?_
    | refine (State.shedServices_keeps ..).after ?_ | refine (State.levelTo_keeps ..).after ?_ | fail_if_no_progress (refine Keeps.upd ?_)
    | split

theorem State.lineSteps_keeps (s : State) : Keeps [.pw, .ck, .ad, .ev, .tn, .dl, .dn, .irq] s (State.lineSteps s) := by
  unfold State.lineSteps
  try dsimp only
  with_reducible repeat' first
    | exact Keeps.refl _ _ | refine Keeps.ite (fun _ => ?_) (fun _ => ?_) | refine (State.rxShed_keeps ..).after ?_
    | refine (State.toneShed_keeps ..).after ?_ | fail_if_no_progress (refine Keeps.upd ?_)

theorem State.governLine_keeps (s : State) : Keeps [.pw, .ck, .ad, .ev, .tn, .dl, .dn, .irq] s (State.governLine s) := by
  unfold State.governLine
  try dsimp only
  with_reducible repeat' first
    | exact Keeps.refl _ _ | refine Keeps.ite (fun _ => ?_) (fun _ => ?_) | refine (State.dropSheds_keeps ..).after ?_
    | refine (State.lineSteps_keeps ..).after ?_ | fail_if_no_progress (refine Keeps.upd ?_)

theorem State.govern_keeps (s : State) : Keeps [.pw, .ck, .ad, .ev, .tn, .dl, .dn, .irq] s (State.govern s) := by
  unfold State.govern
  try dsimp only
  with_reducible repeat' first
    | exact Keeps.refl _ _ | refine Keeps.ite (fun _ => ?_) (fun _ => ?_) | refine (State.governLine_keeps ..).after ?_
    | refine (State.governT_keeps ..).after ?_ | fail_if_no_progress (refine Keeps.upd ?_)

theorem State.takeEnv_keeps (s : State) (e : TickEnv) : Keeps [.pins, .pw, .xb, .dl, .hb] s (State.takeEnv s e) := by
  unfold State.takeEnv
  try dsimp only
  with_reducible repeat' first
    | exact Keeps.refl _ _ | refine Keeps.ite (fun _ => ?_) (fun _ => ?_) | refine (State.chargeJudge_keeps ..).after ?_
    | refine (State.boostRestart_keeps ..).after ?_ | fail_if_no_progress (refine Keeps.upd ?_)

theorem State.regTick_keeps (s : State) : Keeps [.reg, .ck] s (State.regTick s) := by
  unfold State.regTick
  try dsimp only
  with_reducible repeat' first
    | exact Keeps.refl _ _ | refine Keeps.ite (fun _ => ?_) (fun _ => ?_) | refine (State.regBoundary_keeps ..).after ?_
    | refine (State.regSlewed_keeps ..).after ?_ | fail_if_no_progress (refine Keeps.upd ?_)

theorem State.loopTick_keeps (s : State) : Keeps [.reg, .ad, .ev, .lp, .irq] s (State.loopTick s) := by
  unfold State.loopTick
  try dsimp only
  with_reducible repeat' first
    | exact Keeps.refl _ _ | refine Keeps.ite (fun _ => ?_) (fun _ => ?_) | refine (State.loopATick_keeps ..).after ?_
    | refine (State.adaptiveTick_keeps ..).after ?_ | refine (State.foldTick_keeps ..).after ?_ | fail_if_no_progress (refine Keeps.upd ?_)

theorem State.coreTick_keeps (s : State) (e : TickEnv) :
    Keeps [.fram, .pins, .pw, .reg, .ck, .orr, .xb, .ad, .fe, .ev, .an, .lp, .tn, .dl, .dn, .pl, .irq, .hb] s (State.coreTick s e) := by
  unfold State.coreTick
  try dsimp only
  with_reducible repeat' first
    | exact Keeps.refl _ _ | refine Keeps.ite (fun _ => ?_) (fun _ => ?_) | refine (State.takeEnv_keeps ..).after ?_
    | refine (State.lineTick_keeps ..).after ?_ | refine (State.mainsTick_keeps ..).after ?_ | refine (State.regTick_keeps ..).after ?_
    | refine (State.toneTick_keeps ..).after ?_ | refine (State.orrTick_keeps ..).after ?_
    | refine (State.when_keeps (L := [.fram, .pins, .pw, .reg, .ck, .orr, .xb, .ad, .fe, .ev, .an, .lp, .tn, .dl, .dn, .pl, .irq, .hb]) (h0 := fun _ => ?_) (hL := by with_unfolding_all rfl) ..).next ?_
    | refine (State.faultLevels_keeps ..).after ?_ | refine (State.policyTick_keeps ..).after ?_ | refine (State.loopTick_keeps ..).after ?_
    | refine (State.govern_keeps ..).after ?_ | refine (State.shedVres_keeps ..).after ?_ | refine (State.shedRise_keeps ..).after ?_
    | refine (State.copiesTick_keeps ..).after ?_ | refine (State.onLineTick_keeps ..).after ?_
    | refine (State.searchTick_keeps ..).after ?_ | fail_if_no_progress (refine Keeps.upd ?_)

theorem State.restoreOne_keeps (s : State) : Keeps [.pw, .ck, .ad, .ev, .tn, .dl, .dn, .irq] s (State.restoreOne s) := by
  unfold State.restoreOne
  try dsimp only
  with_reducible repeat' first
    | exact Keeps.refl _ _ | refine Keeps.ite (fun _ => ?_) (fun _ => ?_) | refine (State.toneShed_keeps ..).after ?_
    | refine (State.rxShed_keeps ..).after ?_ | fail_if_no_progress (refine Keeps.upd ?_)

theorem State.dsActions_keeps (s : State) (v : Word) : Keeps [.fram, .ck, .ev, .dl, .dn, .pl, .irq] s (State.dsActions s v) := by
  unfold State.dsActions
  try dsimp only
  with_reducible repeat' first
    | exact Keeps.refl _ _ | refine Keeps.ite (fun _ => ?_) (fun _ => ?_) | refine (State.retrainEvery_keeps ..).after ?_
    | refine (State.startEpoch_keeps ..).after ?_ | refine (State.leaveSystem_keeps ..).after ?_ | fail_if_no_progress (refine Keeps.upd ?_)

theorem State.dsCtlHeld_keeps (s : State) : Keeps [.fram, .ck, .ev, .dl, .dn, .pl, .irq] s (State.dsCtlHeld s) := by
  unfold State.dsCtlHeld
  try dsimp only
  with_reducible repeat' first
    | exact Keeps.refl _ _ | refine Keeps.ite (fun _ => ?_) (fun _ => ?_) | refine (State.dsActions_keeps ..).after ?_
    | fail_if_no_progress (refine Keeps.upd ?_)

theorem State.enterRun_keeps (s : State) (badRows : List Nat) :
    Keeps [.nv, .fram, .aon, .pw, .ck, .orr, .ad, .fe, .lg, .ev, .sc, .an, .lp, .tn, .dl, .dn, .pl, .irq, .hb] s (State.enterRun s badRows) := by
  unfold State.enterRun
  try dsimp only
  with_reducible repeat' first
    | exact Keeps.refl _ _ | refine Keeps.ite (fun _ => ?_) (fun _ => ?_) | refine (State.calibCheck_keeps ..).after ?_
    | refine (State.loadRows_keeps ..).after ?_ | refine (State.irq_keeps ..).after ?_ | refine (State.cdigTake_keeps ..).after ?_
    | refine (State.anActivate_keeps ..).after ?_ | refine (State.sealAtRun_keeps ..).after ?_ | refine (State.orrRun0_keeps ..).after ?_
    | refine (State.headTime_keeps ..).after ?_ | refine (State.takeSource_keeps ..).after ?_ | refine (State.policyRun_keeps ..).after ?_
    | refine (State.startAdc_keeps ..).after ?_ | refine (State.dsStatHeld_keeps ..).after ?_ | refine (State.tnStatHeld_keeps ..).after ?_
    | refine (State.dsCtlHeld_keeps ..).after ?_ | refine (State.chargeJudge_keeps ..).after ?_ | refine (State.shedVres_keeps ..).after ?_
    | refine (State.shedRise_keeps ..).after ?_ | fail_if_no_progress (refine Keeps.upd ?_)

theorem State.cutCoil_keeps (s : State) : Keeps [.xb, .ad, .fe, .ev] s (State.cutCoil s) := by
  unfold State.cutCoil
  try dsimp only
  with_reducible repeat' first
    | exact Keeps.refl _ _ | refine Keeps.ite (fun _ => ?_) (fun _ => ?_) | refine (State.cutHalf_keeps ..).after ?_
    | refine (State.logEv_keeps ..).after ?_ | fail_if_no_progress (refine Keeps.upd ?_)

theorem State.fall10_keeps (s : State) : Keeps [.pins, .pw, .xb, .ad, .fe, .ev, .dl, .irq] s (State.fall10 s) := by
  unfold State.fall10
  try dsimp only
  with_reducible repeat' first
    | exact Keeps.refl _ _ | refine Keeps.ite (fun _ => ?_) (fun _ => ?_) | refine (State.takeVres_keeps ..).after ?_
    | refine (State.cutBulk_keeps ..).after ?_ | refine (State.cutCoil_keeps ..).after ?_ | refine (State.irq_keeps ..).after ?_
    | fail_if_no_progress (refine Keeps.upd ?_)

theorem State.tornCommit_keeps (s : State) (c : Commit) (rows : Nat) : Keeps [.fram] s (State.tornCommit s c rows) := by
  unfold State.tornCommit
  try dsimp only
  with_reducible repeat' first
    | exact Keeps.refl _ _ | refine Keeps.ite (fun _ => ?_) (fun _ => ?_) | fail_if_no_progress (refine Keeps.upd ?_)

theorem State.cutCommit_keeps (s : State) : Keeps [.fram, .lg] s (State.cutCommit s) := by
  unfold State.cutCommit
  try dsimp only
  with_reducible repeat' first
    | exact Keeps.refl _ _ | refine Keeps.ite (fun _ => ?_) (fun _ => ?_) | refine (State.draw_keeps ..).after ?_
    | refine (State.tornCommit_keeps ..).after ?_ | refine Keeps.ofPair ‹_› ?_ | fail_if_no_progress (refine Keeps.upd ?_) | split

theorem State.floor8_keeps (s : State) : Keeps [.fram, .pins, .pw, .xb, .ad, .fe, .lg, .ev, .dl, .irq] s (State.floor8 s) := by
  unfold State.floor8
  try dsimp only
  with_reducible repeat' first
    | exact Keeps.refl _ _ | refine Keeps.ite (fun _ => ?_) (fun _ => ?_) | refine (State.takeVres_keeps ..).after ?_
    | refine (State.cutFrame_keeps ..).after ?_ | refine (State.cutCoil_keeps ..).after ?_ | refine (State.cutCommit_keeps ..).after ?_
    | fail_if_no_progress (refine Keeps.upd ?_)

theorem rows_tail {h : Hb} {r : RowWrite} {rest : List RowWrite} (hk : h.ok) (hr : h.rows = r :: rest) :
    rest.length ≤ 2 ∧ ∀ r ∈ rest, ∀ p ∈ r.words, p.1 / 16 = r.row := by
  have h1 := hk.1
  rw [hr, List.length_cons] at h1
  exact ⟨by omega, fun x hx => hk.2 x (by rw [hr]; exact List.mem_cons_of_mem _ hx)⟩

theorem WMem.wf_foldl (ws : List (Nat × Word)) : ∀ {m : WMem}, WMem.wf Config.shipment m = true →
    WMem.wf Config.shipment (ws.foldl (fun m p => WMem.set Config.shipment m p.1 p.2) m) = true :=
  fun h => WMem.wf_setAll Config.shipment ws h

theorem State.rowWritten_keeps (s : State) : Keeps [.nv, .hb] s (State.rowWritten s) := by
  unfold State.rowWritten
  try dsimp only
  repeat' first
    | with_reducible exact Keeps.refl _ _
    | with_reducible refine Keeps.ite (fun _ => ?_) (fun _ => ?_)
    | exact Keeps.upd (Keeps.refl _ _) (h4 := fun h => ⟨WMem.wf_foldl _ h.1, h.2⟩) (h7 := fun h => rows_tail h ‹_›)
    | with_reducible refine Keeps.foldl ?_ (fun _ _ => ?_)
    | fail_if_no_progress (with_reducible refine Keeps.upd ?_)
    | split

theorem State.lastRow_keeps (s : State) (inFlight : Bool) (rowsDone : Nat) :
    Keeps [.nv, .fram, .aon, .ck, .orr, .ad, .fe, .lg, .ev, .sc, .an, .lp, .dl, .dn, .pl, .irq, .hb] s (State.lastRow s inFlight rowsDone) := by
  unfold State.lastRow
  try dsimp only
  with_reducible repeat' first
    | exact Keeps.refl _ _ | refine Keeps.ite (fun _ => ?_) (fun _ => ?_) | refine (State.tornCommit_keeps ..).after ?_
    | refine (State.auditRow_keeps ..).after ?_ | refine (State.rowWritten_keeps ..).after ?_ | refine (State.writeEvent_keeps ..).after ?_
    | fail_if_no_progress (refine Keeps.upd ?_) | split

theorem State.enterHold_keeps (s : State) (inFlight : Bool) (rowsDone : Nat) :
    Keeps [.nv, .fram, .aon, .pw, .reg, .ck, .orr, .xb, .ad, .fe, .lg, .ev, .sc, .an, .lp, .dl, .dn, .pl, .irq, .hb] s (State.enterHold s inFlight rowsDone) := by
  unfold State.enterHold
  try dsimp only
  with_reducible repeat' first
    | exact Keeps.refl _ _ | refine Keeps.ite (fun _ => ?_) (fun _ => ?_) | refine (State.freezeAbort_keeps ..).after ?_
    | refine (State.lastRow_keeps ..).after ?_ | refine (State.zeroDacs_keeps ..).after ?_ | refine (State.coreStop_keeps ..).after ?_
    | refine (State.hold_keeps ..).after ?_ | fail_if_no_progress (refine Keeps.upd ?_)

theorem State.shutdown_keeps (s : State) (inFlight : Bool) (rowsDone : Nat) :
    Keeps [.nv, .fram, .aon, .pins, .pw, .reg, .ck, .orr, .xb, .ad, .fe, .lg, .ev, .sc, .an, .lp, .dl, .dn, .pl, .irq, .hb] s (State.shutdown s inFlight rowsDone) := by
  unfold State.shutdown
  try dsimp only
  with_reducible repeat' first
    | exact Keeps.refl _ _ | refine Keeps.ite (fun _ => ?_) (fun _ => ?_) | refine (State.enterHold_keeps ..).after ?_
    | refine (State.enterBackup_keeps ..).after ?_ | fail_if_no_progress (refine Keeps.upd ?_)

theorem State.cooled_keeps (s : State) (env : WakeEnv) :
    Keeps [.nv, .fram, .aon, .pins, .pw, .reg, .ck, .orr, .xb, .ad, .fe, .lg, .ev, .sc, .an, .lp, .tn, .dl, .dn, .pl, .irq, .hb] s (State.cooled s env) := by
  unfold State.cooled
  try dsimp only
  with_reducible repeat' first
    | exact Keeps.refl _ _ | refine Keeps.ite (fun _ => ?_) (fun _ => ?_) | refine (State.hold_keeps ..).after ?_
    | refine (State.enterWake_keeps ..).after ?_ | refine (State.enterBackup_keeps ..).after ?_ | refine (State.tryWake_keeps ..).after ?_
    | fail_if_no_progress (refine Keeps.upd ?_)

theorem State.coreSecond_keeps (s : State) : Keeps [.pw, .orr, .ad, .fe, .lg, .ev, .dl, .pl, .irq] s (State.coreSecond s) := by
  unfold State.coreSecond
  try dsimp only
  with_reducible repeat' first
    | exact Keeps.refl _ _ | refine Keeps.ite (fun _ => ?_) (fun _ => ?_) | refine (State.feSecond_keeps ..).after ?_
    | refine (State.trigger_keeps ..).after ?_ | refine (State.adSecond_keeps ..).after ?_ | refine (State.orrSecond_keeps ..).after ?_
    | refine (State.lineSecond_keeps ..).after ?_ | refine (State.policySecond_keeps ..).after ?_
    | fail_if_no_progress (refine Keeps.upd ?_)

theorem State.second_keeps (s : State) : Keeps [.aon, .pw, .orr, .ad, .fe, .lg, .ev, .dl, .pl, .irq, .hb] s (State.second s) := by
  unfold State.second
  try dsimp only
  with_reducible repeat' first
    | exact Keeps.refl _ _ | refine Keeps.ite (fun _ => ?_) (fun _ => ?_) | refine (State.coreSecond_keeps ..).after ?_
    | fail_if_no_progress (refine Keeps.upd ?_)

theorem State.takeVbak_keeps (s : State) (vbak : Nat) : Keeps [.pins] s (State.takeVbak s vbak) := by
  unfold State.takeVbak
  try dsimp only
  with_reducible repeat' first
    | exact Keeps.refl _ _ | refine Keeps.ite (fun _ => ?_) (fun _ => ?_) | fail_if_no_progress (refine Keeps.upd ?_)

/-! ## Machine/Operands.lean -/

theorem State.setArm_keeps (s : State) (w : Writer) (a : Arm) : Keeps [.sc] s (State.setArm s w a) := by
  unfold State.setArm
  try dsimp only
  with_reducible repeat' first
    | exact Keeps.refl _ _ | refine Keeps.ite (fun _ => ?_) (fun _ => ?_) | fail_if_no_progress (refine Keeps.upd ?_) | split

theorem State.keyStep_keeps (s : State) (w : Writer) (v : Word) (inTime : Bool) :
    Keeps [.ev, .sc, .irq] s (State.keyStep s w v inTime) := by
  unfold State.keyStep
  try dsimp only
  with_reducible repeat' first
    | exact Keeps.refl _ _ | refine Keeps.ite (fun _ => ?_) (fun _ => ?_) | refine (State.setArm_keeps ..).after ?_
    | refine (State.logEv_keeps ..).after ?_ | refine (State.irq_keeps ..).after ?_ | fail_if_no_progress (refine Keeps.upd ?_)

theorem State.nvThen_keeps {L : List Part} (s : State) (reg word k : Nat) (w : Word) (f : State → State) (h0 : ∀ y0, Keeps L y0 (f y0)) (hL : List.all [.ev, .hb] (L.contains ·) = true) :
    Keeps L s (State.nvThen s reg word k w f) := by
  unfold State.nvThen
  try dsimp only
  with_reducible repeat' first
    | exact Keeps.refl _ _ | refine Keeps.ite (fun _ => ?_) (fun _ => ?_) | refine (h0 _ ).next ?_
    | refine (State.nvWrite_keeps ..).after ?_ (Keeps.sub (by with_unfolding_all rfl) hL)
    | fail_if_no_progress (refine (Keeps.upd (L := [.ev, .hb]) (Keeps.refl _ _)).after ?_ hL)

theorem State.nvField_keeps (s : State) (reg : Nat) (m v : Word) : Keeps [.ev, .hb] s (State.nvField s reg m v) := by
  unfold State.nvField
  try dsimp only
  with_reducible repeat' first
    | exact Keeps.refl _ _ | refine Keeps.ite (fun _ => ?_) (fun _ => ?_) | refine (State.nvWrite_keeps ..).after ?_
    | fail_if_no_progress (refine Keeps.upd ?_)

theorem State.early_keeps (s : State) (reg word : Nat) : Keeps [.ev, .hb] s (State.early s reg word) := by
  unfold State.early
  try dsimp only
  with_reducible repeat' first
    | exact Keeps.refl _ _ | refine Keeps.ite (fun _ => ?_) (fun _ => ?_) | refine (State.busViolation_keeps ..).after ?_
    | fail_if_no_progress (refine Keeps.upd ?_)

theorem State.hold_keeps (s : State) (k : Nat) (w : Word) : Keeps [.hb] s (State.hold s k w) := by
  unfold State.hold
  try dsimp only
  with_reducible repeat' first
    | exact Keeps.refl _ _ | refine Keeps.ite (fun _ => ?_) (fun _ => ?_) | fail_if_no_progress (refine Keeps.upd ?_)

theorem State.unhold_keeps (s : State) (k n : Nat) : Keeps [.hb] s (State.unhold s k n) := by
  unfold State.unhold
  try dsimp only
  with_reducible repeat' first
    | exact Keeps.refl _ _ | refine Keeps.ite (fun _ => ?_) (fun _ => ?_) | fail_if_no_progress (refine Keeps.upd ?_)

theorem State.writeGroup_keeps (s : State) (k n what : Nat) (w : Word) (mk : List Word → Change) :
    Keeps [.lg, .ev, .irq, .hb] s (State.writeGroup s k n what w mk) := by
  unfold State.writeGroup
  try dsimp only
  with_reducible repeat' first
    | exact Keeps.refl _ _ | refine Keeps.ite (fun _ => ?_) (fun _ => ?_) | refine (State.hold_keeps ..).after ?_
    | refine (State.unhold_keeps ..).after ?_ | refine (State.propose_keeps ..).after ?_ | fail_if_no_progress (refine Keeps.upd ?_)

theorem State.writeOr_keeps (s : State) (a : Nat) (v : Word) : Keeps [.lg, .ev, .irq, .hb] s (State.writeOr s a v) := by
  unfold State.writeOr
  try dsimp only
  with_reducible repeat' first
    | exact Keeps.refl _ _ | refine Keeps.ite (fun _ => ?_) (fun _ => ?_) | refine (State.early_keeps ..).after ?_
    | refine (State.gate_keeps (L := [.lg, .ev, .irq, .hb]) (h0 := fun _ => ?_) (hL := by with_unfolding_all rfl) ..).next ?_
    | refine (State.writeGroup_keeps ..).after ?_ | refine (State.sealedWrite_keeps ..).after ?_ | fail_if_no_progress (refine Keeps.upd ?_)

theorem State.feChange_keeps (s : State) (a : Nat) (c : Change) : Keeps [.fe, .lg, .ev, .irq] s (State.feChange s a c) := by
  unfold State.feChange
  try dsimp only
  with_reducible repeat' first
    | exact Keeps.refl _ _ | refine Keeps.ite (fun _ => ?_) (fun _ => ?_) | refine (State.propose_keeps ..).after ?_
    | fail_if_no_progress (refine Keeps.upd ?_)

theorem State.writeFe_keeps (s : State) (a : Nat) (v : Word) : Keeps [.fe, .lg, .ev, .irq, .hb] s (State.writeFe s a v) := by
  unfold State.writeFe
  try dsimp only
  with_reducible repeat' first
    | exact Keeps.refl _ _ | refine Keeps.ite (fun _ => ?_) (fun _ => ?_) | refine (State.early_keeps ..).after ?_
    | refine (State.gate_keeps (L := [.fe, .lg, .ev, .irq, .hb]) (h0 := fun _ => ?_) (hL := by with_unfolding_all rfl) ..).next ?_
    | refine (State.feChange_keeps ..).after ?_ | refine (State.hold_keeps ..).after ?_ | refine (State.unhold_keeps ..).after ?_
    | fail_if_no_progress (refine Keeps.upd ?_)

theorem State.lgAfter_keeps (s : State) (a : Nat) (before w : Word) :
    Keeps [.reg, .xb, .ad, .fe, .ev, .irq] s (State.lgAfter s a before w) := by
  unfold State.lgAfter
  try dsimp only
  with_reducible repeat' first
    | exact Keeps.refl _ _ | refine Keeps.ite (fun _ => ?_) (fun _ => ?_) | refine (State.regWord_keeps ..).after ?_
    | refine (State.when_keeps (L := [.reg, .xb, .ad, .fe, .ev, .irq]) (h0 := fun _ => ?_) (hL := by with_unfolding_all rfl) ..).next ?_
    | refine (State.faultLevels_keeps ..).after ?_ | refine (State.auxMode_keeps ..).after ?_ | refine (State.logEv_keeps ..).after ?_
    | refine (State.tnWord_keeps ..).after ?_ | fail_if_no_progress (refine Keeps.upd ?_)

theorem State.writeRange_keeps (s : State) (a : Nat) (w : Word) : Keeps [.ev, .hb] s (State.writeRange s a w) := by
  unfold State.writeRange
  try dsimp only
  with_reducible repeat' first
    | exact Keeps.refl _ _ | refine Keeps.ite (fun _ => ?_) (fun _ => ?_) | refine (State.unhold_keeps ..).after ?_
    | refine (State.nvThen_keeps (L := [.ev, .hb]) (h0 := fun _ => ?_) (hL := by with_unfolding_all rfl) ..).next ?_
    | refine (State.nvWrite_keeps ..).after ?_ | refine (State.logEv_keeps ..).after ?_ | fail_if_no_progress (refine Keeps.upd ?_)

theorem State.writeTrim_keeps (s : State) (a : Nat) (w : Word) : Keeps [.lg, .ev, .irq, .hb] s (State.writeTrim s a w) := by
  unfold State.writeTrim
  try dsimp only
  with_reducible repeat' first
    | exact Keeps.refl _ _ | refine Keeps.ite (fun _ => ?_) (fun _ => ?_) | refine (State.unhold_keeps ..).after ?_
    | refine (State.logEv_keeps ..).after ?_ | refine (State.propose_keeps ..).after ?_ | fail_if_no_progress (refine Keeps.upd ?_)

theorem State.writeLg_keeps (s : State) (a : Nat) (v : Word) :
    Keeps [.reg, .xb, .ad, .fe, .lg, .ev, .irq, .hb] s (State.writeLg s a v) := by
  unfold State.writeLg
  try dsimp only
  with_reducible repeat' first
    | exact Keeps.refl _ _ | refine Keeps.ite (fun _ => ?_) (fun _ => ?_) | refine (State.early_keeps ..).after ?_
    | refine (State.sealedWrite_keeps ..).after ?_
    | refine (State.gate_keeps (L := [.reg, .xb, .ad, .fe, .lg, .ev, .irq, .hb]) (h0 := fun _ => ?_) (hL := by with_unfolding_all rfl) ..).next ?_
    | refine (State.hold_keeps ..).after ?_ | refine (State.unhold_keeps ..).after ?_ | refine (State.propose_keeps ..).after ?_
    | refine (State.writeTrim_keeps ..).after ?_ | refine (State.writeRange_keeps ..).after ?_
    | refine (State.nvThen_keeps (L := [.reg, .xb, .ad, .fe, .lg, .ev, .irq, .hb]) (h0 := fun _ => ?_) (hL := by with_unfolding_all rfl) ..).next ?_
    | refine (State.logEv_keeps ..).after ?_ | refine (State.lgAfter_keeps ..).after ?_ | fail_if_no_progress (refine Keeps.upd ?_)

theorem State.writeNode_keeps (s : State) (a : Nat) (v : Word) : Keeps [.ev, .irq, .hb] s (State.writeNode s a v) := by
  unfold State.writeNode
  try dsimp only
  with_reducible repeat' first
    | exact Keeps.refl _ _ | refine Keeps.ite (fun _ => ?_) (fun _ => ?_) | refine (State.hold_keeps ..).after ?_
    | refine (State.early_keeps ..).after ?_ | refine (State.nodeCommit_keeps ..).after ?_ | refine (State.unhold_keeps ..).after ?_
    | fail_if_no_progress (refine Keeps.upd ?_)

theorem State.writeDs_keeps (s : State) (a : Nat) (v : Word) : Keeps [.nv, .fram, .ev, .dl, .irq, .hb] s (State.writeDs s a v) := by
  unfold State.writeDs
  try dsimp only
  with_reducible repeat' first
    | exact Keeps.refl _ _ | refine Keeps.ite (fun _ => ?_) (fun _ => ?_)
    | refine (State.maskWrite_keeps (L := [.nv, .fram, .ev, .dl, .irq, .hb]) (h0 := fun _ => ?_) (hL := by with_unfolding_all rfl) ..).next ?_
    | refine (State.nvWrite_keeps ..).after ?_
    | refine (State.nvThen_keeps (L := [.nv, .fram, .ev, .dl, .irq, .hb]) (h0 := fun _ => ?_) (hL := by with_unfolding_all rfl) ..).next ?_
    | refine (State.dlWord_keeps ..).after ?_ | refine (State.dnEvent_keeps ..).after ?_ | fail_if_no_progress (refine Keeps.upd ?_)

theorem State.writePl_keeps (s : State) (a : Nat) (v : Word) : Keeps [.lg, .ev, .pl, .irq, .hb] s (State.writePl s a v) := by
  unfold State.writePl
  try dsimp only
  with_reducible repeat' first
    | exact Keeps.refl _ _ | refine Keeps.ite (fun _ => ?_) (fun _ => ?_) | refine (State.early_keeps ..).after ?_
    | refine (State.gate_keeps (L := [.lg, .ev, .pl, .irq, .hb]) (h0 := fun _ => ?_) (hL := by with_unfolding_all rfl) ..).next ?_
    | refine (State.writeGroup_keeps ..).after ?_ | refine (State.ackWrite_keeps ..).after ?_ | fail_if_no_progress (refine Keeps.upd ?_)

theorem State.orNext_keeps (s : State) : Keeps [.orr] s (State.orNext s) := by
  unfold State.orNext
  try dsimp only
  with_reducible repeat' first
    | exact Keeps.refl _ _ | refine Keeps.ite (fun _ => ?_) (fun _ => ?_) | fail_if_no_progress (refine Keeps.upd ?_)

theorem State.feNext_keeps (s : State) : Keeps [.fe] s (State.feNext s) := by
  unfold State.feNext
  try dsimp only
  with_reducible repeat' first
    | exact Keeps.refl _ _ | refine Keeps.ite (fun _ => ?_) (fun _ => ?_) | fail_if_no_progress (refine Keeps.upd ?_)

theorem State.lgNext_keeps (s : State) : Keeps [.lg] s (State.lgNext s) := by
  unfold State.lgNext
  try dsimp only
  with_reducible repeat' first
    | exact Keeps.refl _ _ | refine Keeps.ite (fun _ => ?_) (fun _ => ?_) | fail_if_no_progress (refine Keeps.upd ?_)

theorem State.evNext_keeps (s : State) : Keeps [.ev] s (State.evNext s) := by
  unfold State.evNext
  try dsimp only
  with_reducible repeat' first
    | exact Keeps.refl _ _ | refine Keeps.ite (fun _ => ?_) (fun _ => ?_) | fail_if_no_progress (refine Keeps.upd ?_)

theorem State.dsNext_keeps (s : State) : Keeps [.dn] s (State.dsNext s) := by
  unfold State.dsNext
  try dsimp only
  with_reducible repeat' first
    | exact Keeps.refl _ _ | refine Keeps.ite (fun _ => ?_) (fun _ => ?_) | fail_if_no_progress (refine Keeps.upd ?_)

theorem State.plNext_keeps (s : State) : Keeps [.pl] s (State.plNext s) := by
  unfold State.plNext
  try dsimp only
  with_reducible repeat' first
    | exact Keeps.refl _ _ | refine Keeps.ite (fun _ => ?_) (fun _ => ?_) | fail_if_no_progress (refine Keeps.upd ?_)

theorem State.writePwState_keeps (s : State) (armed : Bool) (v : Word) :
    Keeps [.fram, .aon, .pw, .ck, .orr, .xb, .ad, .fe, .lg, .ev, .sc, .an, .lp, .tn, .dn, .pl, .irq] s (State.writePwState s armed v) := by
  unfold State.writePwState
  try dsimp only
  with_reducible repeat' first
    | exact Keeps.refl _ _ | refine Keeps.ite (fun _ => ?_) (fun _ => ?_) | refine (State.softOff_keeps ..).after ?_
    | fail_if_no_progress (refine Keeps.upd ?_)

theorem State.writePwGov_keeps (s : State) (v : Word) : Keeps [.pw] s (State.writePwGov s v) := by
  unfold State.writePwGov
  try dsimp only
  with_reducible repeat' first
    | exact Keeps.refl _ _ | refine Keeps.ite (fun _ => ?_) (fun _ => ?_) | fail_if_no_progress (refine Keeps.upd ?_)

theorem State.writePwVset_keeps (s : State) (armed : Bool) (v : Word) : Keeps [.aon, .reg, .ck, .ev] s (State.writePwVset s armed v) := by
  unfold State.writePwVset
  try dsimp only
  with_reducible repeat' first
    | exact Keeps.refl _ _ | refine Keeps.ite (fun _ => ?_) (fun _ => ?_) | refine (State.regClamped_keeps ..).after ?_
    | refine (State.regClear_keeps ..).after ?_ | fail_if_no_progress (refine Keeps.upd ?_)

theorem State.writePwCfg_keeps (s : State) (v : Word) : Keeps [.pw] s (State.writePwCfg s v) := by
  unfold State.writePwCfg
  try dsimp only
  with_reducible repeat' first
    | exact Keeps.refl _ _ | refine Keeps.ite (fun _ => ?_) (fun _ => ?_) | refine (State.chargeJudge_keeps ..).after ?_
    | fail_if_no_progress (refine Keeps.upd ?_)

theorem State.writeCkCtl_keeps (s : State) (v : Word) : Keeps [.ck, .ev, .irq] s (State.writeCkCtl s v) := by
  unfold State.writeCkCtl
  try dsimp only
  with_reducible repeat' first
    | exact Keeps.refl _ _ | refine Keeps.ite (fun _ => ?_) (fun _ => ?_) | refine (State.mainsSwitch_keeps ..).after ?_
    | refine (State.mainsForce_keeps ..).after ?_ | fail_if_no_progress (refine Keeps.upd ?_)

theorem State.writeCkStat_keeps (s : State) (v : Word) : Keeps [.aon] s (State.writeCkStat s v) := by
  unfold State.writeCkStat
  try dsimp only
  with_reducible repeat' first
    | exact Keeps.refl _ _ | refine Keeps.ite (fun _ => ?_) (fun _ => ?_) | fail_if_no_progress (refine Keeps.upd ?_)

theorem State.writeOrCtl_keeps (s : State) (v : Word) : Keeps [.orr, .lg, .ev, .irq, .hb] s (State.writeOrCtl s v) := by
  unfold State.writeOrCtl
  try dsimp only
  with_reducible repeat' first
    | exact Keeps.refl _ _ | refine Keeps.ite (fun _ => ?_) (fun _ => ?_) | refine (State.nvField_keeps ..).after ?_
    | refine (State.passEntries_keeps ..).after ?_ | refine (State.sealedWrite_keeps ..).after ?_
    | fail_if_no_progress (refine Keeps.upd ?_)

theorem State.writeOrStat_keeps (s : State) (v : Word) : Keeps [.orr] s (State.writeOrStat s v) := by
  unfold State.writeOrStat
  try dsimp only
  with_reducible repeat' first
    | exact Keeps.refl _ _ | refine Keeps.ite (fun _ => ?_) (fun _ => ?_) | refine (State.orStatClear_keeps ..).after ?_
    | fail_if_no_progress (refine Keeps.upd ?_)

theorem State.writeXbCtl_keeps (s : State) (armed : Bool) (v : Word) : Keeps [.pw, .xb, .ev, .irq, .hb] s (State.writeXbCtl s armed v) := by
  unfold State.writeXbCtl
  try dsimp only
  with_reducible repeat' first
    | exact Keeps.refl _ _ | refine Keeps.ite (fun _ => ?_) (fun _ => ?_) | refine (State.nvField_keeps ..).after ?_
    | refine (State.shedVres_keeps ..).after ?_ | refine (State.shedRise_keeps ..).after ?_ | refine (State.boostClear_keeps ..).after ?_
    | fail_if_no_progress (refine Keeps.upd ?_)

theorem State.writeXbPer_keeps (s : State) (v : Word) : Keeps [.ev, .hb] s (State.writeXbPer s v) := by
  unfold State.writeXbPer
  try dsimp only
  with_reducible repeat' first
    | exact Keeps.refl _ _ | refine Keeps.ite (fun _ => ?_) (fun _ => ?_)
    | refine (State.nvThen_keeps (L := [.ev, .hb]) (h0 := fun _ => ?_) (hL := by with_unfolding_all rfl) ..).next ?_
    | refine (State.logEv_keeps ..).after ?_ | fail_if_no_progress (refine Keeps.upd ?_)

theorem State.writeXbDt_keeps (s : State) (v : Word) : Keeps [.ev, .hb] s (State.writeXbDt s v) := by
  unfold State.writeXbDt
  try dsimp only
  with_reducible repeat' first
    | exact Keeps.refl _ _ | refine Keeps.ite (fun _ => ?_) (fun _ => ?_)
    | refine (State.nvThen_keeps (L := [.ev, .hb]) (h0 := fun _ => ?_) (hL := by with_unfolding_all rfl) ..).next ?_
    | refine (State.logEv_keeps ..).after ?_ | fail_if_no_progress (refine Keeps.upd ?_)

theorem State.writeXbFlt_keeps (s : State) (v : Word) : Keeps [.xb, .ev, .hb] s (State.writeXbFlt s v) := by
  unfold State.writeXbFlt
  try dsimp only
  with_reducible repeat' first
    | exact Keeps.refl _ _ | refine Keeps.ite (fun _ => ?_) (fun _ => ?_) | refine (State.nvField_keeps ..).after ?_
    | refine (State.clearFlags_keeps ..).after ?_ | fail_if_no_progress (refine Keeps.upd ?_)

theorem State.writeAd_keeps (s : State) (v : Word) : Keeps [.ad, .ev, .hb] s (State.writeAd s v) := by
  unfold State.writeAd
  try dsimp only
  with_reducible repeat' first
    | exact Keeps.refl _ _ | refine Keeps.ite (fun _ => ?_) (fun _ => ?_) | refine (State.writeAdCtl_keeps ..).after ?_
    | fail_if_no_progress (refine Keeps.upd ?_)

theorem State.writeLpCtl_keeps (s : State) (v : Word) : Keeps [.lg, .ev, .lp, .irq, .hb] s (State.writeLpCtl s v) := by
  unfold State.writeLpCtl
  try dsimp only
  with_reducible repeat' first
    | exact Keeps.refl _ _ | refine Keeps.ite (fun _ => ?_) (fun _ => ?_)
    | refine (State.nvThen_keeps (L := [.lg, .ev, .lp, .irq, .hb]) (h0 := fun _ => ?_) (hL := by with_unfolding_all rfl) ..).next ?_
    | refine (State.logEv_keeps ..).after ?_ | refine (State.loopBIdle_keeps ..).after ?_ | refine (State.sealedWrite_keeps ..).after ?_
    | fail_if_no_progress (refine Keeps.upd ?_)

theorem State.writeTnCtl_keeps (s : State) (w : Writer) (v : Word) : Keeps [.ad, .ev, .tn, .hb] s (State.writeTnCtl s w v) := by
  unfold State.writeTnCtl
  try dsimp only
  repeat' first
    | with_reducible exact Keeps.refl _ _
    | with_reducible refine Keeps.ite (fun _ => ?_) (fun _ => ?_)
    | with_reducible refine (State.tnDisable_keeps ..).after ?_
    | with_reducible refine (State.tnStatHeld_keeps ..).after ?_
    | with_reducible refine (State.tnTakeNco_keeps ..).after ?_
    | with_reducible refine (State.nvField_keeps ..).after ?_
    | with_reducible refine Keeps.upd ?_ (i_tn := fun h => by unfold Tn.ok at h ⊢; dsimp only; constructor <;> split <;> simp_all)
    | fail_if_no_progress (with_reducible refine Keeps.upd ?_)

theorem State.writeTnStat_keeps (s : State) (v : Word) : Keeps [.tn] s (State.writeTnStat s v) := by
  unfold State.writeTnStat
  try dsimp only
  with_reducible repeat' first
    | exact Keeps.refl _ _ | refine Keeps.ite (fun _ => ?_) (fun _ => ?_) | refine (State.tnStatClear_keeps ..).after ?_
    | fail_if_no_progress (refine Keeps.upd ?_)

theorem State.writeTnFifo_keeps (s : State) (v : Word) : Keeps [.tn] s (State.writeTnFifo s v) := by
  unfold State.writeTnFifo
  try dsimp only
  repeat' first
    | with_reducible exact Keeps.refl _ _
    | with_reducible refine Keeps.ite (fun _ => ?_) (fun _ => ?_)
    | exact Keeps.upd (Keeps.refl _ _) (i_tn := fun h => ⟨by simp only [List.length_append, List.length_singleton]; omega, h.2⟩)
    | fail_if_no_progress (with_reducible refine Keeps.upd ?_)

theorem State.writeDsCtl_keeps (s : State) (v : Word) : Keeps [.fram, .ck, .ev, .dl, .dn, .pl, .irq, .hb] s (State.writeDsCtl s v) := by
  unfold State.writeDsCtl
  try dsimp only
  with_reducible repeat' first
    | exact Keeps.refl _ _ | refine Keeps.ite (fun _ => ?_) (fun _ => ?_) | refine (State.nvField_keeps ..).after ?_
    | refine (State.pbenOff_keeps ..).after ?_ | refine (State.dsActions_keeps ..).after ?_ | fail_if_no_progress (refine Keeps.upd ?_)

theorem State.writeDsStat_keeps (s : State) (v : Word) : Keeps [.dl, .dn] s (State.writeDsStat s v) := by
  unfold State.writeDsStat
  try dsimp only
  with_reducible repeat' first
    | exact Keeps.refl _ _ | refine Keeps.ite (fun _ => ?_) (fun _ => ?_) | refine (State.dsStatClear_keeps ..).after ?_
    | fail_if_no_progress (refine Keeps.upd ?_)

theorem State.writeDsFifo_keeps (s : State) (v : Word) : Keeps [.dn] s (State.writeDsFifo s v) := by
  unfold State.writeDsFifo
  try dsimp only
  repeat' first
    | with_reducible exact Keeps.refl _ _
    | with_reducible refine Keeps.ite (fun _ => ?_) (fun _ => ?_)
    | exact Keeps.upd (Keeps.refl _ _) (i_dn := fun h => ⟨by simp only [List.length_append, List.length_singleton]; omega, h.2⟩)
    | fail_if_no_progress (with_reducible refine Keeps.upd ?_)

theorem State.writeAnCtl_keeps (s : State) (armed : Bool) (v : Word) :
    Keeps [.fram, .lg, .ev, .an, .dl, .irq, .hb] s (State.writeAnCtl s armed v) := by
  unfold State.writeAnCtl
  try dsimp only
  with_reducible repeat' first
    | exact Keeps.refl _ _ | refine Keeps.ite (fun _ => ?_) (fun _ => ?_) | refine (State.nvField_keeps ..).after ?_
    | refine (State.when_keeps (L := [.fram, .lg, .ev, .an, .dl, .irq, .hb]) (h0 := fun _ => ?_) (hL := by with_unfolding_all rfl) ..).next ?_
    | refine (State.anActivate_keeps ..).after ?_
    | refine (State.gate_keeps (L := [.fram, .lg, .ev, .an, .dl, .irq, .hb]) (h0 := fun _ => ?_) (hL := by with_unfolding_all rfl) ..).next ?_
    | refine (State.propose_keeps ..).after ?_ | refine (State.askUnpair_keeps ..).after ?_ | refine (State.askDref_keeps ..).after ?_
    | refine (State.armCeremony_keeps ..).after ?_ | fail_if_no_progress (refine Keeps.upd ?_)

theorem State.writeAnStat_keeps (s : State) (v : Word) : Keeps [.fram, .ev, .an, .dl, .pl, .irq] s (State.writeAnStat s v) := by
  unfold State.writeAnStat
  try dsimp only
  with_reducible repeat' first
    | exact Keeps.refl _ _ | refine Keeps.ite (fun _ => ?_) (fun _ => ?_) | refine (State.miss_keeps ..).after ?_
    | fail_if_no_progress (refine Keeps.upd ?_)

theorem State.writeFeCtl_keeps (s : State) (v : Word) : Keeps [.fe, .lg, .ev, .irq, .hb] s (State.writeFeCtl s v) := by
  unfold State.writeFeCtl
  try dsimp only
  with_reducible repeat' first
    | exact Keeps.refl _ _ | refine Keeps.ite (fun _ => ?_) (fun _ => ?_) | refine (State.magUpTo_keeps ..).after ?_
    | refine (State.nvField_keeps ..).after ?_ | refine (State.ferr_keeps ..).after ?_
    | refine (State.gate_keeps (L := [.fe, .lg, .ev, .irq, .hb]) (h0 := fun _ => ?_) (hL := by with_unfolding_all rfl) ..).next ?_
    | refine (State.logEv_keeps ..).after ?_ | refine (State.propose_keeps ..).after ?_ | fail_if_no_progress (refine Keeps.upd ?_)

theorem State.writeLgCtl_keeps (s : State) (armed : Bool) (v : Word) : Keeps [.lg, .ev, .irq] s (State.writeLgCtl s armed v) := by
  unfold State.writeLgCtl
  try dsimp only
  with_reducible repeat' first
    | exact Keeps.refl _ _ | refine Keeps.ite (fun _ => ?_) (fun _ => ?_) | refine (State.trigger_keeps ..).after ?_
    | refine (State.gate_keeps (L := [.lg, .ev, .irq]) (h0 := fun _ => ?_) (hL := by with_unfolding_all rfl) ..).next ?_
    | refine (State.propose_keeps ..).after ?_ | fail_if_no_progress (refine Keeps.upd ?_)

theorem State.writeEvStat_keeps (s : State) (v : Word) : Keeps [.ev] s (State.writeEvStat s v) := by
  unfold State.writeEvStat
  try dsimp only
  with_reducible repeat' first
    | exact Keeps.refl _ _ | refine Keeps.ite (fun _ => ?_) (fun _ => ?_) | fail_if_no_progress (refine Keeps.upd ?_)

theorem State.writeScCtl_keeps (s : State) (armed : Bool) (v : Word) : Keeps [.ev, .sc] s (State.writeScCtl s armed v) := by
  unfold State.writeScCtl
  try dsimp only
  with_reducible repeat' first
    | exact Keeps.refl _ _ | refine Keeps.ite (fun _ => ?_) (fun _ => ?_)
    | refine (State.gate_keeps (L := [.ev, .sc]) (h0 := fun _ => ?_) (hL := by with_unfolding_all rfl) ..).next ?_
    | refine (State.startLoad_keeps ..).after ?_ | fail_if_no_progress (refine Keeps.upd ?_)

theorem State.writeThStat_keeps (s : State) (v : Word) : Keeps [.ev, .hb] s (State.writeThStat s v) := by
  unfold State.writeThStat
  try dsimp only
  with_reducible repeat' first
    | exact Keeps.refl _ _ | refine Keeps.ite (fun _ => ?_) (fun _ => ?_) | refine (State.nvWrite_keeps ..).after ?_
    | fail_if_no_progress (refine Keeps.upd ?_)

theorem State.writePlCtl_keeps (s : State) (armed : Bool) (v : Word) : Keeps [.lg, .ev, .irq, .hb] s (State.writePlCtl s armed v) := by
  unfold State.writePlCtl
  try dsimp only
  with_reducible repeat' first
    | exact Keeps.refl _ _ | refine Keeps.ite (fun _ => ?_) (fun _ => ?_) | refine (State.early_keeps ..).after ?_
    | refine (State.gate_keeps (L := [.lg, .ev, .irq, .hb]) (h0 := fun _ => ?_) (hL := by with_unfolding_all rfl) ..).next ?_
    | refine (State.propose_keeps ..).after ?_ | fail_if_no_progress (refine Keeps.upd ?_)

theorem State.writeHbCfg_keeps (s : State) (v : Word) : Keeps [.hb] s (State.writeHbCfg s v) := by
  unfold State.writeHbCfg
  try dsimp only
  with_reducible repeat' first
    | exact Keeps.refl _ _ | refine Keeps.ite (fun _ => ?_) (fun _ => ?_) | fail_if_no_progress (refine Keeps.upd ?_)

theorem State.holdTime_keeps (s : State) (w : Writer) (v : Option Word) : Keeps [.hb] s (State.holdTime s w v) := by
  unfold State.holdTime
  try dsimp only
  with_reducible repeat' first
    | exact Keeps.refl _ _ | refine Keeps.ite (fun _ => ?_) (fun _ => ?_) | fail_if_no_progress (refine Keeps.upd ?_) | split

theorem State.writeTimeH_keeps (s : State) (w : Writer) (v : Word) : Keeps [.lg, .ev, .irq, .hb] s (State.writeTimeH s w v) := by
  unfold State.writeTimeH
  try dsimp only
  with_reducible repeat' first
    | exact Keeps.refl _ _ | refine Keeps.ite (fun _ => ?_) (fun _ => ?_) | refine (State.holdTime_keeps ..).after ?_
    | refine (State.audited_keeps ..).after ?_ | fail_if_no_progress (refine Keeps.upd ?_)

theorem State.writeTsCtl_keeps (s : State) (armed : Bool) (v : Word) : Keeps [.lg, .ev, .irq, .hb] s (State.writeTsCtl s armed v) := by
  unfold State.writeTsCtl
  try dsimp only
  with_reducible repeat' first
    | exact Keeps.refl _ _ | refine Keeps.ite (fun _ => ?_) (fun _ => ?_)
    | refine (State.gate_keeps (L := [.lg, .ev, .irq, .hb]) (h0 := fun _ => ?_) (hL := by with_unfolding_all rfl) ..).next ?_
    | refine (State.propose_keeps ..).after ?_ | fail_if_no_progress (refine Keeps.upd ?_)

theorem State.writeReg_keeps (s : State) (w : Writer) (armed : Bool) (a : Nat) (v : Word) :
    Keeps [.nv, .fram, .aon, .pw, .reg, .ck, .orr, .xb, .ad, .fe, .lg, .ev, .sc, .an, .lp, .tn, .dl, .dn, .pl, .irq, .hb] s (State.writeReg s w armed a v) := by
  unfold State.writeReg
  try dsimp only
  with_reducible repeat' first
    | exact Keeps.refl _ _ | refine Keeps.ite (fun _ => ?_) (fun _ => ?_) | refine (State.irq_keeps ..).after ?_
    | refine (State.writePwState_keeps ..).after ?_ | refine (State.writePwGov_keeps ..).after ?_
    | refine (State.writePwVset_keeps ..).after ?_ | refine (State.writePwCfg_keeps ..).after ?_
    | refine (State.writeCkCtl_keeps ..).after ?_ | refine (State.writeCkStat_keeps ..).after ?_
    | refine (State.writeOrCtl_keeps ..).after ?_ | refine (State.writeOrStat_keeps ..).after ?_ | refine (State.writeOr_keeps ..).after ?_
    | refine (State.orNext_keeps ..).after ?_ | refine (State.writeXbCtl_keeps ..).after ?_ | refine (State.writeXbPer_keeps ..).after ?_
    | refine (State.nvWrite_keeps ..).after ?_ | refine (State.writeXbDt_keeps ..).after ?_ | refine (State.writeXbFlt_keeps ..).after ?_
    | refine (State.writeAd_keeps ..).after ?_ | refine (State.writeDaLoop_keeps ..).after ?_ | refine (State.writeNco_keeps ..).after ?_
    | refine (State.writeLpCtl_keeps ..).after ?_ | refine (State.early_keeps ..).after ?_ | refine (State.sealedWrite_keeps ..).after ?_
    | refine (State.writeTnCtl_keeps ..).after ?_ | refine (State.writeTnStat_keeps ..).after ?_
    | refine (State.writeTnFifo_keeps ..).after ?_ | refine (State.writeDsCtl_keeps ..).after ?_
    | refine (State.writeDsStat_keeps ..).after ?_ | refine (State.writeDsFifo_keeps ..).after ?_
    | refine (State.writeNode_keeps ..).after ?_ | refine (State.writeDs_keeps ..).after ?_ | refine (State.dsNext_keeps ..).after ?_
    | refine (State.writeAnCtl_keeps ..).after ?_ | refine (State.writeAnStat_keeps ..).after ?_
    | refine (State.writeFeCtl_keeps ..).after ?_ | refine (State.writeFe_keeps ..).after ?_ | refine (State.feNext_keeps ..).after ?_
    | refine (State.writeLgCtl_keeps ..).after ?_ | refine (State.writeLg_keeps ..).after ?_ | refine (State.lgNext_keeps ..).after ?_
    | refine (State.writeEvStat_keeps ..).after ?_ | refine (State.writeScCtl_keeps ..).after ?_ | refine (State.keyWord_keeps ..).after ?_
    | refine (State.writeThStat_keeps ..).after ?_ | refine (State.writePlCtl_keeps ..).after ?_ | refine (State.writePl_keeps ..).after ?_
    | refine (State.plNext_keeps ..).after ?_ | refine (State.writeHbCfg_keeps ..).after ?_ | refine (State.holdTime_keeps ..).after ?_
    | refine (State.writeTimeH_keeps ..).after ?_ | refine (State.writeTsCtl_keeps ..).after ?_ | fail_if_no_progress (refine Keeps.upd ?_)
    | split

theorem State.writeWord_keeps (s : State) (w : Writer) (a : Nat) (v : Word) (inTime : Bool) :
    Keeps [.nv, .fram, .aon, .pw, .reg, .ck, .orr, .xb, .ad, .fe, .lg, .ev, .sc, .an, .lp, .tn, .dl, .dn, .pl, .irq, .hb] s (State.writeWord s w a v inTime) := by
  unfold State.writeWord
  try dsimp only
  with_reducible repeat' first
    | exact Keeps.refl _ _ | refine Keeps.ite (fun _ => ?_) (fun _ => ?_) | refine (State.keyStep_keeps ..).after ?_
    | refine (State.setArm_keeps ..).after ?_ | refine (State.writeReg_keeps ..).after ?_ | fail_if_no_progress (refine Keeps.upd ?_)

theorem State.readResult_keeps (s : State) : Keeps [.ad] s (State.readResult s) := by
  unfold State.readResult
  try dsimp only
  with_reducible repeat' first
    | exact Keeps.refl _ _ | refine Keeps.ite (fun _ => ?_) (fun _ => ?_) | fail_if_no_progress (refine Keeps.upd ?_)

theorem State.readOr_keeps (s : State) : Keeps [.orr] s (State.readOr s) := by
  unfold State.readOr
  try dsimp only
  with_reducible repeat' first
    | exact Keeps.refl _ _ | refine Keeps.ite (fun _ => ?_) (fun _ => ?_) | refine (State.orNext_keeps ..).after ?_
    | fail_if_no_progress (refine Keeps.upd ?_)

theorem State.readFe_keeps (s : State) : Keeps [.fe] s (State.readFe s) := by
  unfold State.readFe
  try dsimp only
  with_reducible repeat' first
    | exact Keeps.refl _ _ | refine Keeps.ite (fun _ => ?_) (fun _ => ?_) | refine (State.feNext_keeps ..).after ?_
    | fail_if_no_progress (refine Keeps.upd ?_)

theorem State.readLg_keeps (s : State) : Keeps [.lg] s (State.readLg s) := by
  unfold State.readLg
  try dsimp only
  with_reducible repeat' first
    | exact Keeps.refl _ _ | refine Keeps.ite (fun _ => ?_) (fun _ => ?_) | refine (State.lgNext_keeps ..).after ?_
    | fail_if_no_progress (refine Keeps.upd ?_)

theorem State.readEv_keeps (s : State) : Keeps [.ev] s (State.readEv s) := by
  unfold State.readEv
  try dsimp only
  with_reducible repeat' first
    | exact Keeps.refl _ _ | refine Keeps.ite (fun _ => ?_) (fun _ => ?_) | refine (State.evNext_keeps ..).after ?_
    | fail_if_no_progress (refine Keeps.upd ?_)

theorem State.readEffect_keeps (s : State) (a : Nat) : Keeps [.orr, .ad, .fe, .lg, .ev, .tn, .dl, .dn, .pl, .hb] s (State.readEffect s a) := by
  unfold State.readEffect
  try dsimp only
  repeat' first
    | with_reducible exact Keeps.refl _ _
    | with_reducible refine Keeps.ite (fun _ => ?_) (fun _ => ?_)
    | with_reducible refine (State.collectAgain_keeps ..).after ?_
    | with_reducible refine (State.readResult_keeps ..).after ?_
    | with_reducible refine (State.dsNext_keeps ..).after ?_
    | with_reducible refine (State.readOr_keeps ..).after ?_
    | with_reducible refine (State.readLg_keeps ..).after ?_
    | with_reducible refine (State.plNext_keeps ..).after ?_
    | with_reducible refine (State.readEv_keeps ..).after ?_
    | with_reducible refine (State.readFe_keeps ..).after ?_
    | with_reducible refine Keeps.upd (t := s) ?_ (i_tn := fun h => by simp only [Tn.ok, List.length_drop] at h ⊢; omega)
    | with_reducible refine Keeps.upd (t := s) ?_ (i_dn := fun h => by simp only [Dn.ok, List.length_drop] at h ⊢; omega)
    | fail_if_no_progress (with_reducible refine Keeps.upd ?_)
    | split

theorem State.readWord_keeps (s : State) (a : Nat) :
    Keeps [.orr, .ad, .fe, .lg, .ev, .tn, .dl, .dn, .pl, .hb] s (State.readWord s a).2 := by
  unfold State.readWord
  try dsimp only
  with_reducible repeat' first
    | exact Keeps.refl _ _ | refine Keeps.ite (fun _ => ?_) (fun _ => ?_) | refine (State.readEffect_keeps ..).after ?_
    | fail_if_no_progress (refine Keeps.upd ?_) | split

/-! ## Machine/HostBus.lean -/

theorem State.hostWord_keeps {L : List Part} (s : State) (a : Nat) (hi : Byte) (f : State → Word → State) (h0 : ∀ y0 y1, Keeps L y0 (f y0 y1)) (hL : List.all [.ev, .hb] (L.contains ·) = true) :
    Keeps L s (State.hostWord s a hi f) := by
  unfold State.hostWord
  try dsimp only
  with_reducible repeat' first
    | exact Keeps.refl _ _ | refine Keeps.ite (fun _ => ?_) (fun _ => ?_) | refine (h0 _ _ ).next ?_
    | refine (State.busViolation_keeps ..).after ?_ (Keeps.sub (by with_unfolding_all rfl) hL)
    | fail_if_no_progress (refine (Keeps.upd (L := [.ev, .hb]) (Keeps.refl _ _)).after ?_ hL)

theorem State.hostCommit_keeps (s : State) (a : Nat) (hi : Byte) (inTime : Bool) :
    Keeps [.nv, .fram, .aon, .pw, .reg, .ck, .orr, .xb, .ad, .fe, .lg, .ev, .sc, .an, .lp, .tn, .dl, .dn, .pl, .irq, .hb] s (State.hostCommit s a hi inTime) := by
  unfold State.hostCommit
  try dsimp only
  with_reducible repeat' first
    | exact Keeps.refl _ _ | refine Keeps.ite (fun _ => ?_) (fun _ => ?_)
    | refine (State.hostWord_keeps (L := [.nv, .fram, .aon, .pw, .reg, .ck, .orr, .xb, .ad, .fe, .lg, .ev, .sc, .an, .lp, .tn, .dl, .dn, .pl, .irq, .hb]) (h0 := fun _ _ => ?_) (hL := by with_unfolding_all rfl) ..).next ?_
    | refine (State.writeWord_keeps ..).after ?_ | fail_if_no_progress (refine Keeps.upd ?_)

theorem State.adCommitBeside_keeps (s : State) (hi : Byte) : Keeps [.ad, .ev, .sc, .hb] s (State.adCommitBeside s hi) := by
  unfold State.adCommitBeside
  try dsimp only
  with_reducible repeat' first
    | exact Keeps.refl _ _ | refine Keeps.ite (fun _ => ?_) (fun _ => ?_)
    | refine (State.hostWord_keeps (L := [.ad, .ev, .sc, .hb]) (h0 := fun _ _ => ?_) (hL := by with_unfolding_all rfl) ..).next ?_
    | refine (State.setArm_keeps ..).after ?_ | refine (State.writeAdCtl_keeps ..).after ?_ | fail_if_no_progress (refine Keeps.upd ?_)

theorem State.hostLow_keeps (s : State) (addr lo : Byte) : Keeps [.ev, .hb] s (State.hostLow s addr lo) := by
  unfold State.hostLow
  try dsimp only
  with_reducible repeat' first
    | exact Keeps.refl _ _ | refine Keeps.ite (fun _ => ?_) (fun _ => ?_) | refine (State.busViolation_keeps ..).after ?_
    | fail_if_no_progress (refine Keeps.upd ?_) | split

theorem State.addr7_keeps (s : State) (addr : Byte) : Keeps [.ev, .hb] s (State.addr7 s addr) := by
  unfold State.addr7
  try dsimp only
  with_reducible repeat' first
    | exact Keeps.refl _ _ | refine Keeps.ite (fun _ => ?_) (fun _ => ?_) | refine (State.busViolation_keeps ..).after ?_
    | fail_if_no_progress (refine Keeps.upd ?_)

theorem State.hostWrite_keeps (s : State) (addr v : Byte) (low : Bool) :
    Keeps [.nv, .fram, .aon, .pw, .reg, .ck, .orr, .xb, .ad, .fe, .lg, .ev, .sc, .an, .lp, .tn, .dl, .dn, .pl, .irq, .hb] s (State.hostWrite s addr v low) := by
  unfold State.hostWrite
  try dsimp only
  with_reducible repeat' first
    | exact Keeps.refl _ _ | refine Keeps.ite (fun _ => ?_) (fun _ => ?_) | refine (State.addr7_keeps ..).after ?_
    | refine (State.hostLow_keeps ..).after ?_ | refine (State.hostCommit_keeps ..).after ?_ | fail_if_no_progress (refine Keeps.upd ?_)

theorem State.hostRead_keeps (s : State) (a : Nat) : Keeps [.orr, .ad, .fe, .lg, .ev, .tn, .dl, .dn, .pl, .hb] s (State.hostRead s a) := by
  unfold State.hostRead
  try dsimp only
  with_reducible repeat' first
    | exact Keeps.refl _ _ | refine Keeps.ite (fun _ => ?_) (fun _ => ?_) | refine (State.readWord_keeps ..).after ?_
    | fail_if_no_progress (refine Keeps.upd ?_)

theorem State.stoppedCycle_keeps (s : State) (read : Bool) : Keeps [.hb] s (State.stoppedCycle s read) := by
  unfold State.stoppedCycle
  try dsimp only
  with_reducible repeat' first
    | exact Keeps.refl _ _ | refine Keeps.ite (fun _ => ?_) (fun _ => ?_) | fail_if_no_progress (refine Keeps.upd ?_)

theorem State.strobe_keeps (s : State) (k : StrobeKind) (addr newAddr : Byte) : Keeps [.ev, .hb] s (State.strobe s k addr newAddr) := by
  unfold State.strobe
  try dsimp only
  with_reducible repeat' first
    | exact Keeps.refl _ _ | refine Keeps.ite (fun _ => ?_) (fun _ => ?_) | refine (State.busViolation_keeps ..).after ?_
    | refine (State.addr7_keeps ..).after ?_ | fail_if_no_progress (refine Keeps.upd ?_) | split

/-! ## Machine/Remote.lean -/

theorem State.remoteRead_keeps (s : State) (a : Nat) (rep : Bool) (n : Nat) : Keeps [.orr, .ad, .fe, .lg, .ev, .tn, .dl, .dn, .pl, .hb] s (State.remoteRead s a rep n).2 := by
  induction n generalizing s a with
  | zero => exact Keeps.refl _ _
  | succ n ih => exact (ih _ _).next (State.readWord_keeps s a)

theorem State.applyTriples_keeps (w : Writer) (ts : List (Nat × Word)) (s : State) : Keeps [.nv, .fram, .aon, .pw, .reg, .ck, .orr, .xb, .ad, .fe, .lg, .ev, .sc, .an, .lp, .tn, .dl, .dn, .pl, .irq, .hb] s (State.applyTriples w ts s).2 := by
  induction ts generalizing s with
  | nil => exact Keeps.refl _ _
  | cons t ts ih => exact (ih _).next (State.writeWord_keeps s w t.1 t.2 true)

theorem State.remoteWrite_keeps (s : State) (w : Writer) (who : Nat) (bs : List Byte) :
    Keeps [.nv, .fram, .aon, .pw, .reg, .ck, .orr, .xb, .ad, .fe, .lg, .ev, .sc, .an, .lp, .tn, .dl, .dn, .pl, .irq, .hb] s (State.remoteWrite s w who bs).2 := by
  unfold State.remoteWrite
  try dsimp only
  with_reducible repeat' first
    | exact Keeps.refl _ _ | refine Keeps.ite (fun _ => ?_) (fun _ => ?_) | refine (State.logEv_keeps ..).after ?_
    | refine (State.applyTriples_keeps ..).after ?_ | refine (State.setArm_keeps ..).after ?_ | fail_if_no_progress (refine Keeps.upd ?_)
    | split

theorem State.cantusRead_keeps (s : State) (f : CFrame) :
    Keeps [.orr, .ad, .fe, .lg, .ev, .tn, .dl, .dn, .pl, .irq, .hb] s (State.cantusRead s f) := by
  unfold State.cantusRead
  try dsimp only
  with_reducible repeat' first
    | exact Keeps.refl _ _ | refine Keeps.ite (fun _ => ?_) (fun _ => ?_) | refine (State.remoteRead_keeps ..).after ?_
    | refine (State.tnReply_keeps ..).after ?_ | refine (State.tnBad_keeps ..).after ?_ | fail_if_no_progress (refine Keeps.upd ?_)

theorem State.cantusWrite_keeps (s : State) (f : CFrame) :
    Keeps [.nv, .fram, .aon, .pw, .reg, .ck, .orr, .xb, .ad, .fe, .lg, .ev, .sc, .an, .lp, .tn, .dl, .dn, .pl, .irq, .hb] s (State.cantusWrite s f) := by
  unfold State.cantusWrite
  try dsimp only
  with_reducible repeat' first
    | exact Keeps.refl _ _ | refine Keeps.ite (fun _ => ?_) (fun _ => ?_) | refine (State.remoteWrite_keeps ..).after ?_
    | refine (State.tnReply_keeps ..).after ?_ | refine (State.tnBad_keeps ..).after ?_ | fail_if_no_progress (refine Keeps.upd ?_)

theorem State.descantRead_keeps (s : State) (f : RxFrame) :
    Keeps [.orr, .ad, .fe, .lg, .ev, .tn, .dl, .dn, .pl, .irq, .hb] s (State.descantRead s f) := by
  unfold State.descantRead
  try dsimp only
  with_reducible repeat' first
    | exact Keeps.refl _ _ | refine Keeps.ite (fun _ => ?_) (fun _ => ?_) | refine (State.remoteRead_keeps ..).after ?_
    | refine (State.replyTo_keeps ..).after ?_ | refine (State.badField_keeps ..).after ?_ | fail_if_no_progress (refine Keeps.upd ?_)

theorem State.notPermitted_keeps (s : State) (f : RxFrame) : Keeps [.ev, .dl, .dn, .pl, .irq, .hb] s (State.notPermitted s f) := by
  unfold State.notPermitted
  try dsimp only
  with_reducible repeat' first
    | exact Keeps.refl _ _ | refine Keeps.ite (fun _ => ?_) (fun _ => ?_) | refine (State.dnVio_keeps ..).after ?_
    | refine (State.nackTo_keeps ..).after ?_ | fail_if_no_progress (refine Keeps.upd ?_)

theorem State.descantWrite_keeps (s : State) (f : RxFrame) :
    Keeps [.nv, .fram, .aon, .pw, .reg, .ck, .orr, .xb, .ad, .fe, .lg, .ev, .sc, .an, .lp, .tn, .dl, .dn, .pl, .irq, .hb] s (State.descantWrite s f) := by
  unfold State.descantWrite
  try dsimp only
  with_reducible repeat' first
    | exact Keeps.refl _ _ | refine Keeps.ite (fun _ => ?_) (fun _ => ?_) | refine (State.notPermitted_keeps ..).after ?_
    | refine (State.remoteWrite_keeps ..).after ?_ | refine (State.replyTo_keeps ..).after ?_ | refine (State.badField_keeps ..).after ?_
    | fail_if_no_progress (refine Keeps.upd ?_)

theorem State.descantWriteAll_keeps (s : State) (f : RxFrame) :
    Keeps [.nv, .fram, .aon, .pw, .reg, .ck, .orr, .xb, .ad, .fe, .lg, .ev, .sc, .an, .lp, .tn, .dl, .dn, .pl, .irq, .hb] s (State.descantWriteAll s f) := by
  unfold State.descantWriteAll
  try dsimp only
  with_reducible repeat' first
    | exact Keeps.refl _ _ | refine Keeps.ite (fun _ => ?_) (fun _ => ?_) | refine (State.remoteWrite_keeps ..).after ?_
    | refine (State.dnVio_keeps ..).after ?_ | fail_if_no_progress (refine Keeps.upd ?_)

end Sys2Proof.Machine
end

