-- ==== Sys2Proof/Laws/State.lean ====
section
/-! SUPPORT. Sys2Proof/Laws/State.lean: what each shared operation of Ops.lean leaves as it was, one lemma per field and update. -/

set_option Elab.async false

namespace Sys2Proof.Machine

variable (s : State)

/-! ## logEv -/

@[simp] theorem State.logEv_pending (c : Word) (d : Nat) : (s.logEv c d).pending = s.pending := by
  unfold State.logEv; split <;> rfl

@[simp] theorem State.logEv_fram (c : Word) (d : Nat) : (s.logEv c d).fram = s.fram := by
  unfold State.logEv; split <;> rfl

@[simp] theorem State.logEv_aon (c : Word) (d : Nat) : (s.logEv c d).aon = s.aon := by
  unfold State.logEv; split <;> rfl

@[simp] theorem State.logEv_pins (c : Word) (d : Nat) : (s.logEv c d).pins = s.pins := by
  unfold State.logEv; split <;> rfl

@[simp] theorem State.logEv_pw (c : Word) (d : Nat) : (s.logEv c d).pw = s.pw := by
  unfold State.logEv; split <;> rfl

@[simp] theorem State.logEv_reg (c : Word) (d : Nat) : (s.logEv c d).reg = s.reg := by
  unfold State.logEv; split <;> rfl

@[simp] theorem State.logEv_ck (c : Word) (d : Nat) : (s.logEv c d).ck = s.ck := by
  unfold State.logEv; split <;> rfl

@[simp] theorem State.logEv_orr (c : Word) (d : Nat) : (s.logEv c d).orr = s.orr := by
  unfold State.logEv; split <;> rfl

@[simp] theorem State.logEv_xb (c : Word) (d : Nat) : (s.logEv c d).xb = s.xb := by
  unfold State.logEv; split <;> rfl

@[simp] theorem State.logEv_ad (c : Word) (d : Nat) : (s.logEv c d).ad = s.ad := by
  unfold State.logEv; split <;> rfl

@[simp] theorem State.logEv_fe (c : Word) (d : Nat) : (s.logEv c d).fe = s.fe := by
  unfold State.logEv; split <;> rfl

@[simp] theorem State.logEv_lg (c : Word) (d : Nat) : (s.logEv c d).lg = s.lg := by
  unfold State.logEv; split <;> rfl

@[simp] theorem State.logEv_sc (c : Word) (d : Nat) : (s.logEv c d).sc = s.sc := by
  unfold State.logEv; split <;> rfl

@[simp] theorem State.logEv_an (c : Word) (d : Nat) : (s.logEv c d).an = s.an := by
  unfold State.logEv; split <;> rfl

@[simp] theorem State.logEv_lp (c : Word) (d : Nat) : (s.logEv c d).lp = s.lp := by
  unfold State.logEv; split <;> rfl

@[simp] theorem State.logEv_tn (c : Word) (d : Nat) : (s.logEv c d).tn = s.tn := by
  unfold State.logEv; split <;> rfl

@[simp] theorem State.logEv_dl (c : Word) (d : Nat) : (s.logEv c d).dl = s.dl := by
  unfold State.logEv; split <;> rfl

@[simp] theorem State.logEv_dn (c : Word) (d : Nat) : (s.logEv c d).dn = s.dn := by
  unfold State.logEv; split <;> rfl

@[simp] theorem State.logEv_pl (c : Word) (d : Nat) : (s.logEv c d).pl = s.pl := by
  unfold State.logEv; split <;> rfl

@[simp] theorem State.logEv_hb (c : Word) (d : Nat) : (s.logEv c d).hb = s.hb := by
  unfold State.logEv; split <;> rfl

@[simp] theorem State.logEv_drawn (c : Word) (d : Nat) : (s.logEv c d).drawn = s.drawn := by
  unfold State.logEv; split <;> rfl

/-! ## irq -/

@[simp] theorem State.irq_pending (n : Nat) : (s.irq n).pending = s.pending := by
  rfl

@[simp] theorem State.irq_fram (n : Nat) : (s.irq n).fram = s.fram := by
  rfl

@[simp] theorem State.irq_aon (n : Nat) : (s.irq n).aon = s.aon := by
  rfl

@[simp] theorem State.irq_pins (n : Nat) : (s.irq n).pins = s.pins := by
  rfl

@[simp] theorem State.irq_pw (n : Nat) : (s.irq n).pw = s.pw := by
  rfl

@[simp] theorem State.irq_reg (n : Nat) : (s.irq n).reg = s.reg := by
  rfl

@[simp] theorem State.irq_ck (n : Nat) : (s.irq n).ck = s.ck := by
  rfl

@[simp] theorem State.irq_orr (n : Nat) : (s.irq n).orr = s.orr := by
  rfl

@[simp] theorem State.irq_xb (n : Nat) : (s.irq n).xb = s.xb := by
  rfl

@[simp] theorem State.irq_ad (n : Nat) : (s.irq n).ad = s.ad := by
  rfl

@[simp] theorem State.irq_fe (n : Nat) : (s.irq n).fe = s.fe := by
  rfl

@[simp] theorem State.irq_lg (n : Nat) : (s.irq n).lg = s.lg := by
  rfl

@[simp] theorem State.irq_ev (n : Nat) : (s.irq n).ev = s.ev := by
  rfl

@[simp] theorem State.irq_sc (n : Nat) : (s.irq n).sc = s.sc := by
  rfl

@[simp] theorem State.irq_an (n : Nat) : (s.irq n).an = s.an := by
  rfl

@[simp] theorem State.irq_lp (n : Nat) : (s.irq n).lp = s.lp := by
  rfl

@[simp] theorem State.irq_tn (n : Nat) : (s.irq n).tn = s.tn := by
  rfl

@[simp] theorem State.irq_dl (n : Nat) : (s.irq n).dl = s.dl := by
  rfl

@[simp] theorem State.irq_dn (n : Nat) : (s.irq n).dn = s.dn := by
  rfl

@[simp] theorem State.irq_pl (n : Nat) : (s.irq n).pl = s.pl := by
  rfl

@[simp] theorem State.irq_drawn (n : Nat) : (s.irq n).drawn = s.drawn := by
  rfl

@[simp] theorem State.irq_hb_gie (n : Nat) : (s.irq n).hb.gie = s.hb.gie := by
  rfl

@[simp] theorem State.irq_hb_nvr (n : Nat) : (s.irq n).hb.nvr = s.hb.nvr := by
  rfl

@[simp] theorem State.irq_hb_hbv (n : Nat) : (s.irq n).hb.hbv = s.hb.hbv := by
  rfl

@[simp] theorem State.irq_hb_ien (n : Nat) : (s.irq n).hb.ien = s.hb.ien := by
  rfl

@[simp] theorem State.irq_hb_rdyen (n : Nat) : (s.irq n).hb.rdyen = s.hb.rdyen := by
  rfl

@[simp] theorem State.irq_hb_rlock (n : Nat) : (s.irq n).hb.rlock = s.hb.rlock := by
  rfl

@[simp] theorem State.irq_hb_flags (n : Nat) : (s.irq n).hb.flags = s.hb.flags := by
  rfl

@[simp] theorem State.irq_hb_scratch (n : Nat) : (s.irq n).hb.scratch = s.hb.scratch := by
  rfl

@[simp] theorem State.irq_hb_wlatch (n : Nat) : (s.irq n).hb.wlatch = s.hb.wlatch := by
  rfl

@[simp] theorem State.irq_hb_rlatch (n : Nat) : (s.irq n).hb.rlatch = s.hb.rlatch := by
  rfl

@[simp] theorem State.irq_hb_adout (n : Nat) : (s.irq n).hb.adout = s.hb.adout := by
  rfl

@[simp] theorem State.irq_hb_timeHost (n : Nat) : (s.irq n).hb.timeHost = s.hb.timeHost := by
  rfl

@[simp] theorem State.irq_hb_timeCantus (n : Nat) : (s.irq n).hb.timeCantus = s.hb.timeCantus := by
  rfl

@[simp] theorem State.irq_hb_timeDescant (n : Nat) : (s.irq n).hb.timeDescant = s.hb.timeDescant := by
  rfl

@[simp] theorem State.irq_hb_temp (n : Nat) : (s.irq n).hb.temp = s.hb.temp := by
  rfl

@[simp] theorem State.irq_hb_timeSnap (n : Nat) : (s.irq n).hb.timeSnap = s.hb.timeSnap := by
  rfl

@[simp] theorem State.irq_hb_held (n : Nat) : (s.irq n).hb.held = s.hb.held := by
  rfl

@[simp] theorem State.irq_hb_rows (n : Nat) : (s.irq n).hb.rows = s.hb.rows := by
  rfl

@[simp] theorem State.irq_hb_secCodes (n : Nat) : (s.irq n).hb.secCodes = s.hb.secCodes := by
  rfl

@[simp] theorem State.irq_hb_frzd (n : Nat) : (s.irq n).hb.frzd = s.hb.frzd := by
  rfl

@[simp] theorem State.irq_hb_fsrc (n : Nat) : (s.irq n).hb.fsrc = s.hb.fsrc := by
  rfl

@[simp] theorem State.irq_hb_fdur (n : Nat) : (s.irq n).hb.fdur = s.hb.fdur := by
  rfl

@[simp] theorem State.irq_hb_frzTs (n : Nat) : (s.irq n).hb.frzTs = s.hb.frzTs := by
  rfl

@[simp] theorem State.irq_hb_frzTest (n : Nat) : (s.irq n).hb.frzTest = s.hb.frzTest := by
  rfl

@[simp] theorem State.irq_hb_frzClosed (n : Nat) : (s.irq n).hb.frzClosed = s.hb.frzClosed := by
  rfl

/-! ## logOnce -/

@[simp] theorem State.logOnce_pending (c : Word) (d : Nat) : (s.logOnce c d).pending = s.pending := by
  unfold State.logOnce; split <;> simp

@[simp] theorem State.logOnce_fram (c : Word) (d : Nat) : (s.logOnce c d).fram = s.fram := by
  unfold State.logOnce; split <;> simp

@[simp] theorem State.logOnce_aon (c : Word) (d : Nat) : (s.logOnce c d).aon = s.aon := by
  unfold State.logOnce; split <;> simp

@[simp] theorem State.logOnce_pins (c : Word) (d : Nat) : (s.logOnce c d).pins = s.pins := by
  unfold State.logOnce; split <;> simp

@[simp] theorem State.logOnce_pw (c : Word) (d : Nat) : (s.logOnce c d).pw = s.pw := by
  unfold State.logOnce; split <;> simp

@[simp] theorem State.logOnce_reg (c : Word) (d : Nat) : (s.logOnce c d).reg = s.reg := by
  unfold State.logOnce; split <;> simp

@[simp] theorem State.logOnce_ck (c : Word) (d : Nat) : (s.logOnce c d).ck = s.ck := by
  unfold State.logOnce; split <;> simp

@[simp] theorem State.logOnce_orr (c : Word) (d : Nat) : (s.logOnce c d).orr = s.orr := by
  unfold State.logOnce; split <;> simp

@[simp] theorem State.logOnce_xb (c : Word) (d : Nat) : (s.logOnce c d).xb = s.xb := by
  unfold State.logOnce; split <;> simp

@[simp] theorem State.logOnce_ad (c : Word) (d : Nat) : (s.logOnce c d).ad = s.ad := by
  unfold State.logOnce; split <;> simp

@[simp] theorem State.logOnce_fe (c : Word) (d : Nat) : (s.logOnce c d).fe = s.fe := by
  unfold State.logOnce; split <;> simp

@[simp] theorem State.logOnce_lg (c : Word) (d : Nat) : (s.logOnce c d).lg = s.lg := by
  unfold State.logOnce; split <;> simp

@[simp] theorem State.logOnce_sc (c : Word) (d : Nat) : (s.logOnce c d).sc = s.sc := by
  unfold State.logOnce; split <;> simp

@[simp] theorem State.logOnce_an (c : Word) (d : Nat) : (s.logOnce c d).an = s.an := by
  unfold State.logOnce; split <;> simp

@[simp] theorem State.logOnce_lp (c : Word) (d : Nat) : (s.logOnce c d).lp = s.lp := by
  unfold State.logOnce; split <;> simp

@[simp] theorem State.logOnce_tn (c : Word) (d : Nat) : (s.logOnce c d).tn = s.tn := by
  unfold State.logOnce; split <;> simp

@[simp] theorem State.logOnce_dl (c : Word) (d : Nat) : (s.logOnce c d).dl = s.dl := by
  unfold State.logOnce; split <;> simp

@[simp] theorem State.logOnce_dn (c : Word) (d : Nat) : (s.logOnce c d).dn = s.dn := by
  unfold State.logOnce; split <;> simp

@[simp] theorem State.logOnce_pl (c : Word) (d : Nat) : (s.logOnce c d).pl = s.pl := by
  unfold State.logOnce; split <;> simp

@[simp] theorem State.logOnce_drawn (c : Word) (d : Nat) : (s.logOnce c d).drawn = s.drawn := by
  unfold State.logOnce; split <;> simp

@[simp] theorem State.logOnce_hb_gie (c : Word) (d : Nat) : (s.logOnce c d).hb.gie = s.hb.gie := by
  unfold State.logOnce; split <;> simp

@[simp] theorem State.logOnce_hb_nvr (c : Word) (d : Nat) : (s.logOnce c d).hb.nvr = s.hb.nvr := by
  unfold State.logOnce; split <;> simp

@[simp] theorem State.logOnce_hb_hbv (c : Word) (d : Nat) : (s.logOnce c d).hb.hbv = s.hb.hbv := by
  unfold State.logOnce; split <;> simp

@[simp] theorem State.logOnce_hb_irq (c : Word) (d : Nat) : (s.logOnce c d).hb.irq = s.hb.irq := by
  unfold State.logOnce; split <;> simp

@[simp] theorem State.logOnce_hb_ien (c : Word) (d : Nat) : (s.logOnce c d).hb.ien = s.hb.ien := by
  unfold State.logOnce; split <;> simp

@[simp] theorem State.logOnce_hb_rdyen (c : Word) (d : Nat) : (s.logOnce c d).hb.rdyen = s.hb.rdyen := by
  unfold State.logOnce; split <;> simp

@[simp] theorem State.logOnce_hb_rlock (c : Word) (d : Nat) : (s.logOnce c d).hb.rlock = s.hb.rlock := by
  unfold State.logOnce; split <;> simp

@[simp] theorem State.logOnce_hb_flags (c : Word) (d : Nat) : (s.logOnce c d).hb.flags = s.hb.flags := by
  unfold State.logOnce; split <;> simp

@[simp] theorem State.logOnce_hb_scratch (c : Word) (d : Nat) : (s.logOnce c d).hb.scratch = s.hb.scratch := by
  unfold State.logOnce; split <;> simp

@[simp] theorem State.logOnce_hb_wlatch (c : Word) (d : Nat) : (s.logOnce c d).hb.wlatch = s.hb.wlatch := by
  unfold State.logOnce; split <;> simp

@[simp] theorem State.logOnce_hb_rlatch (c : Word) (d : Nat) : (s.logOnce c d).hb.rlatch = s.hb.rlatch := by
  unfold State.logOnce; split <;> simp

@[simp] theorem State.logOnce_hb_adout (c : Word) (d : Nat) : (s.logOnce c d).hb.adout = s.hb.adout := by
  unfold State.logOnce; split <;> simp

@[simp] theorem State.logOnce_hb_timeHost (c : Word) (d : Nat) : (s.logOnce c d).hb.timeHost = s.hb.timeHost := by
  unfold State.logOnce; split <;> simp

@[simp] theorem State.logOnce_hb_timeCantus (c : Word) (d : Nat) : (s.logOnce c d).hb.timeCantus = s.hb.timeCantus := by
  unfold State.logOnce; split <;> simp

@[simp] theorem State.logOnce_hb_timeDescant (c : Word) (d : Nat) : (s.logOnce c d).hb.timeDescant = s.hb.timeDescant := by
  unfold State.logOnce; split <;> simp

@[simp] theorem State.logOnce_hb_temp (c : Word) (d : Nat) : (s.logOnce c d).hb.temp = s.hb.temp := by
  unfold State.logOnce; split <;> simp

@[simp] theorem State.logOnce_hb_timeSnap (c : Word) (d : Nat) : (s.logOnce c d).hb.timeSnap = s.hb.timeSnap := by
  unfold State.logOnce; split <;> simp

@[simp] theorem State.logOnce_hb_held (c : Word) (d : Nat) : (s.logOnce c d).hb.held = s.hb.held := by
  unfold State.logOnce; split <;> simp

@[simp] theorem State.logOnce_hb_rows (c : Word) (d : Nat) : (s.logOnce c d).hb.rows = s.hb.rows := by
  unfold State.logOnce; split <;> simp

@[simp] theorem State.logOnce_hb_frzd (c : Word) (d : Nat) : (s.logOnce c d).hb.frzd = s.hb.frzd := by
  unfold State.logOnce; split <;> simp

@[simp] theorem State.logOnce_hb_fsrc (c : Word) (d : Nat) : (s.logOnce c d).hb.fsrc = s.hb.fsrc := by
  unfold State.logOnce; split <;> simp

@[simp] theorem State.logOnce_hb_fdur (c : Word) (d : Nat) : (s.logOnce c d).hb.fdur = s.hb.fdur := by
  unfold State.logOnce; split <;> simp

@[simp] theorem State.logOnce_hb_frzTs (c : Word) (d : Nat) : (s.logOnce c d).hb.frzTs = s.hb.frzTs := by
  unfold State.logOnce; split <;> simp

@[simp] theorem State.logOnce_hb_frzTest (c : Word) (d : Nat) : (s.logOnce c d).hb.frzTest = s.hb.frzTest := by
  unfold State.logOnce; split <;> simp

@[simp] theorem State.logOnce_hb_frzClosed (c : Word) (d : Nat) : (s.logOnce c d).hb.frzClosed = s.hb.frzClosed := by
  unfold State.logOnce; split <;> simp

/-! ## pinned -/

@[simp] theorem State.pinned_pending (b w : Nat) (v : Word) : (s.pinned b w v).pending = s.pending := by
  unfold State.pinned; split <;> simp

@[simp] theorem State.pinned_fram (b w : Nat) (v : Word) : (s.pinned b w v).fram = s.fram := by
  unfold State.pinned; split <;> simp

@[simp] theorem State.pinned_aon (b w : Nat) (v : Word) : (s.pinned b w v).aon = s.aon := by
  unfold State.pinned; split <;> simp

@[simp] theorem State.pinned_pins (b w : Nat) (v : Word) : (s.pinned b w v).pins = s.pins := by
  unfold State.pinned; split <;> simp

@[simp] theorem State.pinned_pw (b w : Nat) (v : Word) : (s.pinned b w v).pw = s.pw := by
  unfold State.pinned; split <;> simp

@[simp] theorem State.pinned_reg (b w : Nat) (v : Word) : (s.pinned b w v).reg = s.reg := by
  unfold State.pinned; split <;> simp

@[simp] theorem State.pinned_ck (b w : Nat) (v : Word) : (s.pinned b w v).ck = s.ck := by
  unfold State.pinned; split <;> simp

@[simp] theorem State.pinned_orr (b w : Nat) (v : Word) : (s.pinned b w v).orr = s.orr := by
  unfold State.pinned; split <;> simp

@[simp] theorem State.pinned_xb (b w : Nat) (v : Word) : (s.pinned b w v).xb = s.xb := by
  unfold State.pinned; split <;> simp

@[simp] theorem State.pinned_ad (b w : Nat) (v : Word) : (s.pinned b w v).ad = s.ad := by
  unfold State.pinned; split <;> simp

@[simp] theorem State.pinned_fe (b w : Nat) (v : Word) : (s.pinned b w v).fe = s.fe := by
  unfold State.pinned; split <;> simp

@[simp] theorem State.pinned_lg (b w : Nat) (v : Word) : (s.pinned b w v).lg = s.lg := by
  unfold State.pinned; split <;> simp

@[simp] theorem State.pinned_sc (b w : Nat) (v : Word) : (s.pinned b w v).sc = s.sc := by
  unfold State.pinned; split <;> simp

@[simp] theorem State.pinned_an (b w : Nat) (v : Word) : (s.pinned b w v).an = s.an := by
  unfold State.pinned; split <;> simp

@[simp] theorem State.pinned_lp (b w : Nat) (v : Word) : (s.pinned b w v).lp = s.lp := by
  unfold State.pinned; split <;> simp

@[simp] theorem State.pinned_tn (b w : Nat) (v : Word) : (s.pinned b w v).tn = s.tn := by
  unfold State.pinned; split <;> simp

@[simp] theorem State.pinned_dl (b w : Nat) (v : Word) : (s.pinned b w v).dl = s.dl := by
  unfold State.pinned; split <;> simp

@[simp] theorem State.pinned_dn (b w : Nat) (v : Word) : (s.pinned b w v).dn = s.dn := by
  unfold State.pinned; split <;> simp

@[simp] theorem State.pinned_hb (b w : Nat) (v : Word) : (s.pinned b w v).hb = s.hb := by
  unfold State.pinned; split <;> simp

@[simp] theorem State.pinned_drawn (b w : Nat) (v : Word) : (s.pinned b w v).drawn = s.drawn := by
  unfold State.pinned; split <;> simp

/-! ## busViolation -/

@[simp] theorem State.busViolation_pending (c : Word) (g d : Nat) : (s.busViolation c g d).pending = s.pending := by
  simp [State.busViolation]

@[simp] theorem State.busViolation_fram (c : Word) (g d : Nat) : (s.busViolation c g d).fram = s.fram := by
  simp [State.busViolation]

@[simp] theorem State.busViolation_aon (c : Word) (g d : Nat) : (s.busViolation c g d).aon = s.aon := by
  simp [State.busViolation]

@[simp] theorem State.busViolation_pins (c : Word) (g d : Nat) : (s.busViolation c g d).pins = s.pins := by
  simp [State.busViolation]

@[simp] theorem State.busViolation_pw (c : Word) (g d : Nat) : (s.busViolation c g d).pw = s.pw := by
  simp [State.busViolation]

@[simp] theorem State.busViolation_reg (c : Word) (g d : Nat) : (s.busViolation c g d).reg = s.reg := by
  simp [State.busViolation]

@[simp] theorem State.busViolation_ck (c : Word) (g d : Nat) : (s.busViolation c g d).ck = s.ck := by
  simp [State.busViolation]

@[simp] theorem State.busViolation_orr (c : Word) (g d : Nat) : (s.busViolation c g d).orr = s.orr := by
  simp [State.busViolation]

@[simp] theorem State.busViolation_xb (c : Word) (g d : Nat) : (s.busViolation c g d).xb = s.xb := by
  simp [State.busViolation]

@[simp] theorem State.busViolation_ad (c : Word) (g d : Nat) : (s.busViolation c g d).ad = s.ad := by
  simp [State.busViolation]

@[simp] theorem State.busViolation_fe (c : Word) (g d : Nat) : (s.busViolation c g d).fe = s.fe := by
  simp [State.busViolation]

@[simp] theorem State.busViolation_lg (c : Word) (g d : Nat) : (s.busViolation c g d).lg = s.lg := by
  simp [State.busViolation]

@[simp] theorem State.busViolation_sc (c : Word) (g d : Nat) : (s.busViolation c g d).sc = s.sc := by
  simp [State.busViolation]

@[simp] theorem State.busViolation_an (c : Word) (g d : Nat) : (s.busViolation c g d).an = s.an := by
  simp [State.busViolation]

@[simp] theorem State.busViolation_lp (c : Word) (g d : Nat) : (s.busViolation c g d).lp = s.lp := by
  simp [State.busViolation]

@[simp] theorem State.busViolation_tn (c : Word) (g d : Nat) : (s.busViolation c g d).tn = s.tn := by
  simp [State.busViolation]

@[simp] theorem State.busViolation_dl (c : Word) (g d : Nat) : (s.busViolation c g d).dl = s.dl := by
  simp [State.busViolation]

@[simp] theorem State.busViolation_dn (c : Word) (g d : Nat) : (s.busViolation c g d).dn = s.dn := by
  simp [State.busViolation]

@[simp] theorem State.busViolation_pl (c : Word) (g d : Nat) : (s.busViolation c g d).pl = s.pl := by
  simp [State.busViolation]

@[simp] theorem State.busViolation_drawn (c : Word) (g d : Nat) : (s.busViolation c g d).drawn = s.drawn := by
  simp [State.busViolation]

@[simp] theorem State.busViolation_hb_gie (c : Word) (g d : Nat) : (s.busViolation c g d).hb.gie = s.hb.gie := by
  simp [State.busViolation]

@[simp] theorem State.busViolation_hb_nvr (c : Word) (g d : Nat) : (s.busViolation c g d).hb.nvr = s.hb.nvr := by
  simp [State.busViolation]

@[simp] theorem State.busViolation_hb_irq (c : Word) (g d : Nat) : (s.busViolation c g d).hb.irq = s.hb.irq := by
  simp [State.busViolation]

@[simp] theorem State.busViolation_hb_ien (c : Word) (g d : Nat) : (s.busViolation c g d).hb.ien = s.hb.ien := by
  simp [State.busViolation]

@[simp] theorem State.busViolation_hb_rdyen (c : Word) (g d : Nat) : (s.busViolation c g d).hb.rdyen = s.hb.rdyen := by
  simp [State.busViolation]

@[simp] theorem State.busViolation_hb_rlock (c : Word) (g d : Nat) : (s.busViolation c g d).hb.rlock = s.hb.rlock := by
  simp [State.busViolation]

@[simp] theorem State.busViolation_hb_scratch (c : Word) (g d : Nat) : (s.busViolation c g d).hb.scratch = s.hb.scratch := by
  simp [State.busViolation]

@[simp] theorem State.busViolation_hb_wlatch (c : Word) (g d : Nat) : (s.busViolation c g d).hb.wlatch = s.hb.wlatch := by
  simp [State.busViolation]

@[simp] theorem State.busViolation_hb_rlatch (c : Word) (g d : Nat) : (s.busViolation c g d).hb.rlatch = s.hb.rlatch := by
  simp [State.busViolation]

@[simp] theorem State.busViolation_hb_adout (c : Word) (g d : Nat) : (s.busViolation c g d).hb.adout = s.hb.adout := by
  simp [State.busViolation]

@[simp] theorem State.busViolation_hb_timeHost (c : Word) (g d : Nat) : (s.busViolation c g d).hb.timeHost = s.hb.timeHost := by
  simp [State.busViolation]

@[simp] theorem State.busViolation_hb_timeCantus (c : Word) (g d : Nat) : (s.busViolation c g d).hb.timeCantus = s.hb.timeCantus := by
  simp [State.busViolation]

@[simp] theorem State.busViolation_hb_timeDescant (c : Word) (g d : Nat) : (s.busViolation c g d).hb.timeDescant = s.hb.timeDescant := by
  simp [State.busViolation]

@[simp] theorem State.busViolation_hb_temp (c : Word) (g d : Nat) : (s.busViolation c g d).hb.temp = s.hb.temp := by
  simp [State.busViolation]

@[simp] theorem State.busViolation_hb_timeSnap (c : Word) (g d : Nat) : (s.busViolation c g d).hb.timeSnap = s.hb.timeSnap := by
  simp [State.busViolation]

@[simp] theorem State.busViolation_hb_held (c : Word) (g d : Nat) : (s.busViolation c g d).hb.held = s.hb.held := by
  simp [State.busViolation]

@[simp] theorem State.busViolation_hb_rows (c : Word) (g d : Nat) : (s.busViolation c g d).hb.rows = s.hb.rows := by
  simp [State.busViolation]

@[simp] theorem State.busViolation_hb_frzd (c : Word) (g d : Nat) : (s.busViolation c g d).hb.frzd = s.hb.frzd := by
  simp [State.busViolation]

@[simp] theorem State.busViolation_hb_fsrc (c : Word) (g d : Nat) : (s.busViolation c g d).hb.fsrc = s.hb.fsrc := by
  simp [State.busViolation]

@[simp] theorem State.busViolation_hb_fdur (c : Word) (g d : Nat) : (s.busViolation c g d).hb.fdur = s.hb.fdur := by
  simp [State.busViolation]

@[simp] theorem State.busViolation_hb_frzTs (c : Word) (g d : Nat) : (s.busViolation c g d).hb.frzTs = s.hb.frzTs := by
  simp [State.busViolation]

@[simp] theorem State.busViolation_hb_frzTest (c : Word) (g d : Nat) : (s.busViolation c g d).hb.frzTest = s.hb.frzTest := by
  simp [State.busViolation]

@[simp] theorem State.busViolation_hb_frzClosed (c : Word) (g d : Nat) : (s.busViolation c g d).hb.frzClosed = s.hb.frzClosed := by
  simp [State.busViolation]

/-! ## nvPut -/

@[simp] theorem State.nvPut_pending (k : Nat) (w : Word) : (s.nvPut k w).pending = s.pending := by
  rfl

@[simp] theorem State.nvPut_aon (k : Nat) (w : Word) : (s.nvPut k w).aon = s.aon := by
  rfl

@[simp] theorem State.nvPut_pins (k : Nat) (w : Word) : (s.nvPut k w).pins = s.pins := by
  rfl

@[simp] theorem State.nvPut_pw (k : Nat) (w : Word) : (s.nvPut k w).pw = s.pw := by
  rfl

@[simp] theorem State.nvPut_reg (k : Nat) (w : Word) : (s.nvPut k w).reg = s.reg := by
  rfl

@[simp] theorem State.nvPut_ck (k : Nat) (w : Word) : (s.nvPut k w).ck = s.ck := by
  rfl

@[simp] theorem State.nvPut_orr (k : Nat) (w : Word) : (s.nvPut k w).orr = s.orr := by
  rfl

@[simp] theorem State.nvPut_xb (k : Nat) (w : Word) : (s.nvPut k w).xb = s.xb := by
  rfl

@[simp] theorem State.nvPut_ad (k : Nat) (w : Word) : (s.nvPut k w).ad = s.ad := by
  rfl

@[simp] theorem State.nvPut_fe (k : Nat) (w : Word) : (s.nvPut k w).fe = s.fe := by
  rfl

@[simp] theorem State.nvPut_lg (k : Nat) (w : Word) : (s.nvPut k w).lg = s.lg := by
  rfl

@[simp] theorem State.nvPut_ev (k : Nat) (w : Word) : (s.nvPut k w).ev = s.ev := by
  rfl

@[simp] theorem State.nvPut_sc (k : Nat) (w : Word) : (s.nvPut k w).sc = s.sc := by
  rfl

@[simp] theorem State.nvPut_an (k : Nat) (w : Word) : (s.nvPut k w).an = s.an := by
  rfl

@[simp] theorem State.nvPut_lp (k : Nat) (w : Word) : (s.nvPut k w).lp = s.lp := by
  rfl

@[simp] theorem State.nvPut_tn (k : Nat) (w : Word) : (s.nvPut k w).tn = s.tn := by
  rfl

@[simp] theorem State.nvPut_dl (k : Nat) (w : Word) : (s.nvPut k w).dl = s.dl := by
  rfl

@[simp] theorem State.nvPut_dn (k : Nat) (w : Word) : (s.nvPut k w).dn = s.dn := by
  rfl

@[simp] theorem State.nvPut_pl (k : Nat) (w : Word) : (s.nvPut k w).pl = s.pl := by
  rfl

@[simp] theorem State.nvPut_drawn (k : Nat) (w : Word) : (s.nvPut k w).drawn = s.drawn := by
  rfl

@[simp] theorem State.nvPut_fram_bankA (k : Nat) (w : Word) : (s.nvPut k w).fram.bankA = s.fram.bankA := by
  rfl

@[simp] theorem State.nvPut_fram_bankB (k : Nat) (w : Word) : (s.nvPut k w).fram.bankB = s.fram.bankB := by
  rfl

@[simp] theorem State.nvPut_fram_mirror0 (k : Nat) (w : Word) : (s.nvPut k w).fram.mirror0 = s.fram.mirror0 := by
  rfl

@[simp] theorem State.nvPut_fram_mirror1 (k : Nat) (w : Word) : (s.nvPut k w).fram.mirror1 = s.fram.mirror1 := by
  rfl

@[simp] theorem State.nvPut_fram_snaps (k : Nat) (w : Word) : (s.nvPut k w).fram.snaps = s.fram.snaps := by
  rfl

@[simp] theorem State.nvPut_fram_snapCount (k : Nat) (w : Word) : (s.nvPut k w).fram.snapCount = s.fram.snapCount := by
  rfl

@[simp] theorem State.nvPut_fram_events (k : Nat) (w : Word) : (s.nvPut k w).fram.events = s.fram.events := by
  rfl

@[simp] theorem State.nvPut_fram_eventSeq (k : Nat) (w : Word) : (s.nvPut k w).fram.eventSeq = s.fram.eventSeq := by
  rfl

@[simp] theorem State.nvPut_fram_eventWrap (k : Nat) (w : Word) : (s.nvPut k w).fram.eventWrap = s.fram.eventWrap := by
  rfl

@[simp] theorem State.nvPut_fram_audit (k : Nat) (w : Word) : (s.nvPut k w).fram.audit = s.fram.audit := by
  rfl

@[simp] theorem State.nvPut_fram_key0 (k : Nat) (w : Word) : (s.nvPut k w).fram.key0 = s.fram.key0 := by
  rfl

@[simp] theorem State.nvPut_fram_key1 (k : Nat) (w : Word) : (s.nvPut k w).fram.key1 = s.fram.key1 := by
  rfl

@[simp] theorem State.nvPut_fram_serial (k : Nat) (w : Word) : (s.nvPut k w).fram.serial = s.fram.serial := by
  rfl

@[simp] theorem State.nvPut_fram_last (k : Nat) (w : Word) : (s.nvPut k w).fram.last = s.fram.last := by
  rfl

@[simp] theorem State.nvPut_fram_cause (k : Nat) (w : Word) : (s.nvPut k w).fram.cause = s.fram.cause := by
  rfl

@[simp] theorem State.nvPut_fram_therm (k : Nat) (w : Word) : (s.nvPut k w).fram.therm = s.fram.therm := by
  rfl

@[simp] theorem State.nvPut_fram_aseq (k : Nat) (w : Word) : (s.nvPut k w).fram.aseq = s.fram.aseq := by
  rfl

@[simp] theorem State.nvPut_fram_rxaseq (k : Nat) (w : Word) : (s.nvPut k w).fram.rxaseq = s.fram.rxaseq := by
  rfl

@[simp] theorem State.nvPut_fram_mseq (k : Nat) (w : Word) : (s.nvPut k w).fram.mseq = s.fram.mseq := by
  rfl

@[simp] theorem State.nvPut_fram_rxcseq (k : Nat) (w : Word) : (s.nvPut k w).fram.rxcseq = s.fram.rxcseq := by
  rfl

@[simp] theorem State.nvPut_fram_rxtotals (k : Nat) (w : Word) : (s.nvPut k w).fram.rxtotals = s.fram.rxtotals := by
  rfl

@[simp] theorem State.nvPut_fram_anState (k : Nat) (w : Word) : (s.nvPut k w).fram.anState = s.fram.anState := by
  rfl

@[simp] theorem State.nvPut_fram_stale (k : Nat) (w : Word) : (s.nvPut k w).fram.stale = s.fram.stale := by
  rfl

@[simp] theorem State.nvPut_fram_pserial (k : Nat) (w : Word) : (s.nvPut k w).fram.pserial = s.fram.pserial := by
  rfl

@[simp] theorem State.nvPut_fram_drefl (k : Nat) (w : Word) : (s.nvPut k w).fram.drefl = s.fram.drefl := by
  rfl

@[simp] theorem State.nvPut_fram_drefp (k : Nat) (w : Word) : (s.nvPut k w).fram.drefp = s.fram.drefp := by
  rfl

@[simp] theorem State.nvPut_fram_drefSet (k : Nat) (w : Word) : (s.nvPut k w).fram.drefSet = s.fram.drefSet := by
  rfl

@[simp] theorem State.nvPut_fram_anBase (k : Nat) (w : Word) : (s.nvPut k w).fram.anBase = s.fram.anBase := by
  rfl

@[simp] theorem State.nvPut_fram_drefPend (k : Nat) (w : Word) : (s.nvPut k w).fram.drefPend = s.fram.drefPend := by
  rfl

@[simp] theorem State.nvPut_fram_addr (k : Nat) (w : Word) : (s.nvPut k w).fram.addr = s.fram.addr := by
  rfl

@[simp] theorem State.nvPut_fram_lidx (k : Nat) (w : Word) : (s.nvPut k w).fram.lidx = s.fram.lidx := by
  rfl

@[simp] theorem State.nvPut_fram_hops (k : Nat) (w : Word) : (s.nvPut k w).fram.hops = s.fram.hops := by
  rfl

@[simp] theorem State.nvPut_fram_upaddr (k : Nat) (w : Word) : (s.nvPut k w).fram.upaddr = s.fram.upaddr := by
  rfl

@[simp] theorem State.nvPut_fram_upPort (k : Nat) (w : Word) : (s.nvPut k w).fram.upPort = s.fram.upPort := by
  rfl

@[simp] theorem State.nvPut_fram_joined (k : Nat) (w : Word) : (s.nvPut k w).fram.joined = s.fram.joined := by
  rfl

@[simp] theorem State.nvPut_fram_gens (k : Nat) (w : Word) : (s.nvPut k w).fram.gens = s.fram.gens := by
  rfl

@[simp] theorem State.nvPut_fram_latched (k : Nat) (w : Word) : (s.nvPut k w).fram.latched = s.fram.latched := by
  rfl

@[simp] theorem State.nvPut_fram_lastSweep (k : Nat) (w : Word) : (s.nvPut k w).fram.lastSweep = s.fram.lastSweep := by
  rfl

@[simp] theorem State.nvPut_hb_gie (k : Nat) (w : Word) : (s.nvPut k w).hb.gie = s.hb.gie := by
  rfl

@[simp] theorem State.nvPut_hb_nvr (k : Nat) (w : Word) : (s.nvPut k w).hb.nvr = s.hb.nvr := by
  rfl

@[simp] theorem State.nvPut_hb_hbv (k : Nat) (w : Word) : (s.nvPut k w).hb.hbv = s.hb.hbv := by
  rfl

@[simp] theorem State.nvPut_hb_irq (k : Nat) (w : Word) : (s.nvPut k w).hb.irq = s.hb.irq := by
  rfl

@[simp] theorem State.nvPut_hb_ien (k : Nat) (w : Word) : (s.nvPut k w).hb.ien = s.hb.ien := by
  rfl

@[simp] theorem State.nvPut_hb_rdyen (k : Nat) (w : Word) : (s.nvPut k w).hb.rdyen = s.hb.rdyen := by
  rfl

@[simp] theorem State.nvPut_hb_rlock (k : Nat) (w : Word) : (s.nvPut k w).hb.rlock = s.hb.rlock := by
  rfl

@[simp] theorem State.nvPut_hb_flags (k : Nat) (w : Word) : (s.nvPut k w).hb.flags = s.hb.flags := by
  rfl

@[simp] theorem State.nvPut_hb_scratch (k : Nat) (w : Word) : (s.nvPut k w).hb.scratch = s.hb.scratch := by
  rfl

@[simp] theorem State.nvPut_hb_wlatch (k : Nat) (w : Word) : (s.nvPut k w).hb.wlatch = s.hb.wlatch := by
  rfl

@[simp] theorem State.nvPut_hb_rlatch (k : Nat) (w : Word) : (s.nvPut k w).hb.rlatch = s.hb.rlatch := by
  rfl

@[simp] theorem State.nvPut_hb_adout (k : Nat) (w : Word) : (s.nvPut k w).hb.adout = s.hb.adout := by
  rfl

@[simp] theorem State.nvPut_hb_timeHost (k : Nat) (w : Word) : (s.nvPut k w).hb.timeHost = s.hb.timeHost := by
  rfl

@[simp] theorem State.nvPut_hb_timeCantus (k : Nat) (w : Word) : (s.nvPut k w).hb.timeCantus = s.hb.timeCantus := by
  rfl

@[simp] theorem State.nvPut_hb_timeDescant (k : Nat) (w : Word) : (s.nvPut k w).hb.timeDescant = s.hb.timeDescant := by
  rfl

@[simp] theorem State.nvPut_hb_temp (k : Nat) (w : Word) : (s.nvPut k w).hb.temp = s.hb.temp := by
  rfl

@[simp] theorem State.nvPut_hb_timeSnap (k : Nat) (w : Word) : (s.nvPut k w).hb.timeSnap = s.hb.timeSnap := by
  rfl

@[simp] theorem State.nvPut_hb_held (k : Nat) (w : Word) : (s.nvPut k w).hb.held = s.hb.held := by
  rfl

@[simp] theorem State.nvPut_hb_secCodes (k : Nat) (w : Word) : (s.nvPut k w).hb.secCodes = s.hb.secCodes := by
  rfl

@[simp] theorem State.nvPut_hb_frzd (k : Nat) (w : Word) : (s.nvPut k w).hb.frzd = s.hb.frzd := by
  rfl

@[simp] theorem State.nvPut_hb_fsrc (k : Nat) (w : Word) : (s.nvPut k w).hb.fsrc = s.hb.fsrc := by
  rfl

@[simp] theorem State.nvPut_hb_fdur (k : Nat) (w : Word) : (s.nvPut k w).hb.fdur = s.hb.fdur := by
  rfl

@[simp] theorem State.nvPut_hb_frzTs (k : Nat) (w : Word) : (s.nvPut k w).hb.frzTs = s.hb.frzTs := by
  rfl

@[simp] theorem State.nvPut_hb_frzTest (k : Nat) (w : Word) : (s.nvPut k w).hb.frzTest = s.hb.frzTest := by
  rfl

@[simp] theorem State.nvPut_hb_frzClosed (k : Nat) (w : Word) : (s.nvPut k w).hb.frzClosed = s.hb.frzClosed := by
  rfl

/-! ## nvWrite -/

@[simp] theorem State.nvWrite_pending (r d k : Nat) (w : Word) : (s.nvWrite r d k w).pending = s.pending := by
  unfold State.nvWrite; split; (split <;> simp); simp

@[simp] theorem State.nvWrite_fram (r d k : Nat) (w : Word) : (s.nvWrite r d k w).fram = s.fram := by
  unfold State.nvWrite; split; (split <;> simp); simp

@[simp] theorem State.nvWrite_aon (r d k : Nat) (w : Word) : (s.nvWrite r d k w).aon = s.aon := by
  unfold State.nvWrite; split; (split <;> simp); simp

@[simp] theorem State.nvWrite_pins (r d k : Nat) (w : Word) : (s.nvWrite r d k w).pins = s.pins := by
  unfold State.nvWrite; split; (split <;> simp); simp

@[simp] theorem State.nvWrite_pw (r d k : Nat) (w : Word) : (s.nvWrite r d k w).pw = s.pw := by
  unfold State.nvWrite; split; (split <;> simp); simp

@[simp] theorem State.nvWrite_reg (r d k : Nat) (w : Word) : (s.nvWrite r d k w).reg = s.reg := by
  unfold State.nvWrite; split; (split <;> simp); simp

@[simp] theorem State.nvWrite_ck (r d k : Nat) (w : Word) : (s.nvWrite r d k w).ck = s.ck := by
  unfold State.nvWrite; split; (split <;> simp); simp

@[simp] theorem State.nvWrite_orr (r d k : Nat) (w : Word) : (s.nvWrite r d k w).orr = s.orr := by
  unfold State.nvWrite; split; (split <;> simp); simp

@[simp] theorem State.nvWrite_xb (r d k : Nat) (w : Word) : (s.nvWrite r d k w).xb = s.xb := by
  unfold State.nvWrite; split; (split <;> simp); simp

@[simp] theorem State.nvWrite_ad (r d k : Nat) (w : Word) : (s.nvWrite r d k w).ad = s.ad := by
  unfold State.nvWrite; split; (split <;> simp); simp

@[simp] theorem State.nvWrite_fe (r d k : Nat) (w : Word) : (s.nvWrite r d k w).fe = s.fe := by
  unfold State.nvWrite; split; (split <;> simp); simp

@[simp] theorem State.nvWrite_lg (r d k : Nat) (w : Word) : (s.nvWrite r d k w).lg = s.lg := by
  unfold State.nvWrite; split; (split <;> simp); simp

@[simp] theorem State.nvWrite_sc (r d k : Nat) (w : Word) : (s.nvWrite r d k w).sc = s.sc := by
  unfold State.nvWrite; split; (split <;> simp); simp

@[simp] theorem State.nvWrite_an (r d k : Nat) (w : Word) : (s.nvWrite r d k w).an = s.an := by
  unfold State.nvWrite; split; (split <;> simp); simp

@[simp] theorem State.nvWrite_lp (r d k : Nat) (w : Word) : (s.nvWrite r d k w).lp = s.lp := by
  unfold State.nvWrite; split; (split <;> simp); simp

@[simp] theorem State.nvWrite_tn (r d k : Nat) (w : Word) : (s.nvWrite r d k w).tn = s.tn := by
  unfold State.nvWrite; split; (split <;> simp); simp

@[simp] theorem State.nvWrite_dl (r d k : Nat) (w : Word) : (s.nvWrite r d k w).dl = s.dl := by
  unfold State.nvWrite; split; (split <;> simp); simp

@[simp] theorem State.nvWrite_dn (r d k : Nat) (w : Word) : (s.nvWrite r d k w).dn = s.dn := by
  unfold State.nvWrite; split; (split <;> simp); simp

@[simp] theorem State.nvWrite_pl (r d k : Nat) (w : Word) : (s.nvWrite r d k w).pl = s.pl := by
  unfold State.nvWrite; split; (split <;> simp); simp

@[simp] theorem State.nvWrite_drawn (r d k : Nat) (w : Word) : (s.nvWrite r d k w).drawn = s.drawn := by
  unfold State.nvWrite; split; (split <;> simp); simp

@[simp] theorem State.nvWrite_hb_gie (r d k : Nat) (w : Word) : (s.nvWrite r d k w).hb.gie = s.hb.gie := by
  unfold State.nvWrite; split; (split <;> simp); simp

@[simp] theorem State.nvWrite_hb_nvr (r d k : Nat) (w : Word) : (s.nvWrite r d k w).hb.nvr = s.hb.nvr := by
  unfold State.nvWrite; split; (split <;> simp); simp

@[simp] theorem State.nvWrite_hb_irq (r d k : Nat) (w : Word) : (s.nvWrite r d k w).hb.irq = s.hb.irq := by
  unfold State.nvWrite; split; (split <;> simp); simp

@[simp] theorem State.nvWrite_hb_ien (r d k : Nat) (w : Word) : (s.nvWrite r d k w).hb.ien = s.hb.ien := by
  unfold State.nvWrite; split; (split <;> simp); simp

@[simp] theorem State.nvWrite_hb_rdyen (r d k : Nat) (w : Word) : (s.nvWrite r d k w).hb.rdyen = s.hb.rdyen := by
  unfold State.nvWrite; split; (split <;> simp); simp

@[simp] theorem State.nvWrite_hb_rlock (r d k : Nat) (w : Word) : (s.nvWrite r d k w).hb.rlock = s.hb.rlock := by
  unfold State.nvWrite; split; (split <;> simp); simp

@[simp] theorem State.nvWrite_hb_scratch (r d k : Nat) (w : Word) : (s.nvWrite r d k w).hb.scratch = s.hb.scratch := by
  unfold State.nvWrite; split; (split <;> simp); simp

@[simp] theorem State.nvWrite_hb_wlatch (r d k : Nat) (w : Word) : (s.nvWrite r d k w).hb.wlatch = s.hb.wlatch := by
  unfold State.nvWrite; split; (split <;> simp); simp

@[simp] theorem State.nvWrite_hb_rlatch (r d k : Nat) (w : Word) : (s.nvWrite r d k w).hb.rlatch = s.hb.rlatch := by
  unfold State.nvWrite; split; (split <;> simp); simp

@[simp] theorem State.nvWrite_hb_adout (r d k : Nat) (w : Word) : (s.nvWrite r d k w).hb.adout = s.hb.adout := by
  unfold State.nvWrite; split; (split <;> simp); simp

@[simp] theorem State.nvWrite_hb_timeHost (r d k : Nat) (w : Word) : (s.nvWrite r d k w).hb.timeHost = s.hb.timeHost := by
  unfold State.nvWrite; split; (split <;> simp); simp

@[simp] theorem State.nvWrite_hb_timeCantus (r d k : Nat) (w : Word) : (s.nvWrite r d k w).hb.timeCantus = s.hb.timeCantus := by
  unfold State.nvWrite; split; (split <;> simp); simp

@[simp] theorem State.nvWrite_hb_timeDescant (r d k : Nat) (w : Word) : (s.nvWrite r d k w).hb.timeDescant = s.hb.timeDescant := by
  unfold State.nvWrite; split; (split <;> simp); simp

@[simp] theorem State.nvWrite_hb_temp (r d k : Nat) (w : Word) : (s.nvWrite r d k w).hb.temp = s.hb.temp := by
  unfold State.nvWrite; split; (split <;> simp); simp

@[simp] theorem State.nvWrite_hb_timeSnap (r d k : Nat) (w : Word) : (s.nvWrite r d k w).hb.timeSnap = s.hb.timeSnap := by
  unfold State.nvWrite; split; (split <;> simp); simp

@[simp] theorem State.nvWrite_hb_held (r d k : Nat) (w : Word) : (s.nvWrite r d k w).hb.held = s.hb.held := by
  unfold State.nvWrite; split; (split <;> simp); simp

@[simp] theorem State.nvWrite_hb_frzd (r d k : Nat) (w : Word) : (s.nvWrite r d k w).hb.frzd = s.hb.frzd := by
  unfold State.nvWrite; split; (split <;> simp); simp

@[simp] theorem State.nvWrite_hb_fsrc (r d k : Nat) (w : Word) : (s.nvWrite r d k w).hb.fsrc = s.hb.fsrc := by
  unfold State.nvWrite; split; (split <;> simp); simp

@[simp] theorem State.nvWrite_hb_fdur (r d k : Nat) (w : Word) : (s.nvWrite r d k w).hb.fdur = s.hb.fdur := by
  unfold State.nvWrite; split; (split <;> simp); simp

@[simp] theorem State.nvWrite_hb_frzTs (r d k : Nat) (w : Word) : (s.nvWrite r d k w).hb.frzTs = s.hb.frzTs := by
  unfold State.nvWrite; split; (split <;> simp); simp

@[simp] theorem State.nvWrite_hb_frzTest (r d k : Nat) (w : Word) : (s.nvWrite r d k w).hb.frzTest = s.hb.frzTest := by
  unfold State.nvWrite; split; (split <;> simp); simp

@[simp] theorem State.nvWrite_hb_frzClosed (r d k : Nat) (w : Word) : (s.nvWrite r d k w).hb.frzClosed = s.hb.frzClosed := by
  unfold State.nvWrite; split; (split <;> simp); simp

/-! ## queueChange -/

@[simp] theorem State.queueChange_pending (c : Change) : (s.queueChange c).pending = s.pending := by
  rfl

@[simp] theorem State.queueChange_fram (c : Change) : (s.queueChange c).fram = s.fram := by
  rfl

@[simp] theorem State.queueChange_aon (c : Change) : (s.queueChange c).aon = s.aon := by
  rfl

@[simp] theorem State.queueChange_pins (c : Change) : (s.queueChange c).pins = s.pins := by
  rfl

@[simp] theorem State.queueChange_pw (c : Change) : (s.queueChange c).pw = s.pw := by
  rfl

@[simp] theorem State.queueChange_reg (c : Change) : (s.queueChange c).reg = s.reg := by
  rfl

@[simp] theorem State.queueChange_ck (c : Change) : (s.queueChange c).ck = s.ck := by
  rfl

@[simp] theorem State.queueChange_orr (c : Change) : (s.queueChange c).orr = s.orr := by
  rfl

@[simp] theorem State.queueChange_xb (c : Change) : (s.queueChange c).xb = s.xb := by
  rfl

@[simp] theorem State.queueChange_ad (c : Change) : (s.queueChange c).ad = s.ad := by
  rfl

@[simp] theorem State.queueChange_fe (c : Change) : (s.queueChange c).fe = s.fe := by
  rfl

@[simp] theorem State.queueChange_ev (c : Change) : (s.queueChange c).ev = s.ev := by
  rfl

@[simp] theorem State.queueChange_sc (c : Change) : (s.queueChange c).sc = s.sc := by
  rfl

@[simp] theorem State.queueChange_an (c : Change) : (s.queueChange c).an = s.an := by
  rfl

@[simp] theorem State.queueChange_lp (c : Change) : (s.queueChange c).lp = s.lp := by
  rfl

@[simp] theorem State.queueChange_tn (c : Change) : (s.queueChange c).tn = s.tn := by
  rfl

@[simp] theorem State.queueChange_dl (c : Change) : (s.queueChange c).dl = s.dl := by
  rfl

@[simp] theorem State.queueChange_dn (c : Change) : (s.queueChange c).dn = s.dn := by
  rfl

@[simp] theorem State.queueChange_pl (c : Change) : (s.queueChange c).pl = s.pl := by
  rfl

@[simp] theorem State.queueChange_hb (c : Change) : (s.queueChange c).hb = s.hb := by
  rfl

@[simp] theorem State.queueChange_drawn (c : Change) : (s.queueChange c).drawn = s.drawn := by
  rfl

@[simp] theorem State.queueChange_lg_ainc (c : Change) : (s.queueChange c).lg.ainc = s.lg.ainc := by
  rfl

@[simp] theorem State.queueChange_lg_bank (c : Change) : (s.queueChange c).lg.bank = s.lg.bank := by
  rfl

@[simp] theorem State.queueChange_lg_lbad (c : Change) : (s.queueChange c).lg.lbad = s.lg.lbad := by
  rfl

@[simp] theorem State.queueChange_lg_torn (c : Change) : (s.queueChange c).lg.torn = s.lg.torn := by
  rfl

@[simp] theorem State.queueChange_lg_disc (c : Change) : (s.queueChange c).lg.disc = s.lg.disc := by
  rfl

@[simp] theorem State.queueChange_lg_snap (c : Change) : (s.queueChange c).lg.snap = s.lg.snap := by
  rfl

@[simp] theorem State.queueChange_lg_cie (c : Change) : (s.queueChange c).lg.cie = s.lg.cie := by
  rfl

@[simp] theorem State.queueChange_lg_ptr (c : Change) : (s.queueChange c).lg.ptr = s.lg.ptr := by
  rfl

@[simp] theorem State.queueChange_lg_totals (c : Change) : (s.queueChange c).lg.totals = s.lg.totals := by
  rfl

@[simp] theorem State.queueChange_lg_satLogged (c : Change) : (s.queueChange c).lg.satLogged = s.lg.satLogged := by
  rfl

@[simp] theorem State.queueChange_lg_seq (c : Change) : (s.queueChange c).lg.seq = s.lg.seq := by
  rfl

@[simp] theorem State.queueChange_lg_seqDone (c : Change) : (s.queueChange c).lg.seqDone = s.lg.seqDone := by
  rfl

@[simp] theorem State.queueChange_lg_timeDone (c : Change) : (s.queueChange c).lg.timeDone = s.lg.timeDone := by
  rfl

@[simp] theorem State.queueChange_lg_totalsDone (c : Change) : (s.queueChange c).lg.totalsDone = s.lg.totalsDone := by
  rfl

@[simp] theorem State.queueChange_lg_cur (c : Change) : (s.queueChange c).lg.cur = s.lg.cur := by
  rfl

@[simp] theorem State.queueChange_lg_waiting (c : Change) : (s.queueChange c).lg.waiting = s.lg.waiting := by
  rfl

@[simp] theorem State.queueChange_lg_acount (c : Change) : (s.queueChange c).lg.acount = s.lg.acount := by
  rfl

@[simp] theorem State.queueChange_lg_achain (c : Change) : (s.queueChange c).lg.achain = s.lg.achain := by
  rfl

@[simp] theorem State.queueChange_lg_unaud (c : Change) : (s.queueChange c).lg.unaud = s.lg.unaud := by
  rfl

@[simp] theorem State.queueChange_lg_recov (c : Change) : (s.queueChange c).lg.recov = s.lg.recov := by
  rfl

@[simp] theorem State.queueChange_lg_sweep (c : Change) : (s.queueChange c).lg.sweep = s.lg.sweep := by
  rfl

@[simp] theorem State.queueChange_lg_cdig (c : Change) : (s.queueChange c).lg.cdig = s.lg.cdig := by
  rfl

@[simp] theorem State.queueChange_lg_cdigDirty (c : Change) : (s.queueChange c).lg.cdigDirty = s.lg.cdigDirty := by
  rfl

@[simp] theorem State.queueChange_lg_past (c : Change) : (s.queueChange c).lg.past = s.lg.past := by
  rfl

@[simp] theorem State.queueChange_lg_snapTotals (c : Change) : (s.queueChange c).lg.snapTotals = s.lg.snapTotals := by
  rfl

/-! ## refuseFull -/

@[simp] theorem State.refuseFull_pending (d : Nat) : (s.refuseFull d).pending = s.pending := by
  simp [State.refuseFull]

@[simp] theorem State.refuseFull_fram (d : Nat) : (s.refuseFull d).fram = s.fram := by
  simp [State.refuseFull]

@[simp] theorem State.refuseFull_aon (d : Nat) : (s.refuseFull d).aon = s.aon := by
  simp [State.refuseFull]

@[simp] theorem State.refuseFull_pins (d : Nat) : (s.refuseFull d).pins = s.pins := by
  simp [State.refuseFull]

@[simp] theorem State.refuseFull_pw (d : Nat) : (s.refuseFull d).pw = s.pw := by
  simp [State.refuseFull]

@[simp] theorem State.refuseFull_reg (d : Nat) : (s.refuseFull d).reg = s.reg := by
  simp [State.refuseFull]

@[simp] theorem State.refuseFull_ck (d : Nat) : (s.refuseFull d).ck = s.ck := by
  simp [State.refuseFull]

@[simp] theorem State.refuseFull_orr (d : Nat) : (s.refuseFull d).orr = s.orr := by
  simp [State.refuseFull]

@[simp] theorem State.refuseFull_xb (d : Nat) : (s.refuseFull d).xb = s.xb := by
  simp [State.refuseFull]

@[simp] theorem State.refuseFull_ad (d : Nat) : (s.refuseFull d).ad = s.ad := by
  simp [State.refuseFull]

@[simp] theorem State.refuseFull_fe (d : Nat) : (s.refuseFull d).fe = s.fe := by
  simp [State.refuseFull]

@[simp] theorem State.refuseFull_lg (d : Nat) : (s.refuseFull d).lg = s.lg := by
  simp [State.refuseFull]

@[simp] theorem State.refuseFull_sc (d : Nat) : (s.refuseFull d).sc = s.sc := by
  simp [State.refuseFull]

@[simp] theorem State.refuseFull_an (d : Nat) : (s.refuseFull d).an = s.an := by
  simp [State.refuseFull]

@[simp] theorem State.refuseFull_lp (d : Nat) : (s.refuseFull d).lp = s.lp := by
  simp [State.refuseFull]

@[simp] theorem State.refuseFull_tn (d : Nat) : (s.refuseFull d).tn = s.tn := by
  simp [State.refuseFull]

@[simp] theorem State.refuseFull_dl (d : Nat) : (s.refuseFull d).dl = s.dl := by
  simp [State.refuseFull]

@[simp] theorem State.refuseFull_dn (d : Nat) : (s.refuseFull d).dn = s.dn := by
  simp [State.refuseFull]

@[simp] theorem State.refuseFull_pl (d : Nat) : (s.refuseFull d).pl = s.pl := by
  simp [State.refuseFull]

@[simp] theorem State.refuseFull_drawn (d : Nat) : (s.refuseFull d).drawn = s.drawn := by
  simp [State.refuseFull]

@[simp] theorem State.refuseFull_hb_gie (d : Nat) : (s.refuseFull d).hb.gie = s.hb.gie := by
  simp [State.refuseFull]

@[simp] theorem State.refuseFull_hb_nvr (d : Nat) : (s.refuseFull d).hb.nvr = s.hb.nvr := by
  simp [State.refuseFull]

@[simp] theorem State.refuseFull_hb_hbv (d : Nat) : (s.refuseFull d).hb.hbv = s.hb.hbv := by
  simp [State.refuseFull]

@[simp] theorem State.refuseFull_hb_ien (d : Nat) : (s.refuseFull d).hb.ien = s.hb.ien := by
  simp [State.refuseFull]

@[simp] theorem State.refuseFull_hb_rdyen (d : Nat) : (s.refuseFull d).hb.rdyen = s.hb.rdyen := by
  simp [State.refuseFull]

@[simp] theorem State.refuseFull_hb_rlock (d : Nat) : (s.refuseFull d).hb.rlock = s.hb.rlock := by
  simp [State.refuseFull]

@[simp] theorem State.refuseFull_hb_flags (d : Nat) : (s.refuseFull d).hb.flags = s.hb.flags := by
  simp [State.refuseFull]

@[simp] theorem State.refuseFull_hb_scratch (d : Nat) : (s.refuseFull d).hb.scratch = s.hb.scratch := by
  simp [State.refuseFull]

@[simp] theorem State.refuseFull_hb_wlatch (d : Nat) : (s.refuseFull d).hb.wlatch = s.hb.wlatch := by
  simp [State.refuseFull]

@[simp] theorem State.refuseFull_hb_rlatch (d : Nat) : (s.refuseFull d).hb.rlatch = s.hb.rlatch := by
  simp [State.refuseFull]

@[simp] theorem State.refuseFull_hb_adout (d : Nat) : (s.refuseFull d).hb.adout = s.hb.adout := by
  simp [State.refuseFull]

@[simp] theorem State.refuseFull_hb_timeHost (d : Nat) : (s.refuseFull d).hb.timeHost = s.hb.timeHost := by
  simp [State.refuseFull]

@[simp] theorem State.refuseFull_hb_timeCantus (d : Nat) : (s.refuseFull d).hb.timeCantus = s.hb.timeCantus := by
  simp [State.refuseFull]

@[simp] theorem State.refuseFull_hb_timeDescant (d : Nat) : (s.refuseFull d).hb.timeDescant = s.hb.timeDescant := by
  simp [State.refuseFull]

@[simp] theorem State.refuseFull_hb_temp (d : Nat) : (s.refuseFull d).hb.temp = s.hb.temp := by
  simp [State.refuseFull]

@[simp] theorem State.refuseFull_hb_timeSnap (d : Nat) : (s.refuseFull d).hb.timeSnap = s.hb.timeSnap := by
  simp [State.refuseFull]

@[simp] theorem State.refuseFull_hb_held (d : Nat) : (s.refuseFull d).hb.held = s.hb.held := by
  simp [State.refuseFull]

@[simp] theorem State.refuseFull_hb_rows (d : Nat) : (s.refuseFull d).hb.rows = s.hb.rows := by
  simp [State.refuseFull]

@[simp] theorem State.refuseFull_hb_secCodes (d : Nat) : (s.refuseFull d).hb.secCodes = s.hb.secCodes := by
  simp [State.refuseFull]

@[simp] theorem State.refuseFull_hb_frzd (d : Nat) : (s.refuseFull d).hb.frzd = s.hb.frzd := by
  simp [State.refuseFull]

@[simp] theorem State.refuseFull_hb_fsrc (d : Nat) : (s.refuseFull d).hb.fsrc = s.hb.fsrc := by
  simp [State.refuseFull]

@[simp] theorem State.refuseFull_hb_fdur (d : Nat) : (s.refuseFull d).hb.fdur = s.hb.fdur := by
  simp [State.refuseFull]

@[simp] theorem State.refuseFull_hb_frzTs (d : Nat) : (s.refuseFull d).hb.frzTs = s.hb.frzTs := by
  simp [State.refuseFull]

@[simp] theorem State.refuseFull_hb_frzTest (d : Nat) : (s.refuseFull d).hb.frzTest = s.hb.frzTest := by
  simp [State.refuseFull]

@[simp] theorem State.refuseFull_hb_frzClosed (d : Nat) : (s.refuseFull d).hb.frzClosed = s.hb.frzClosed := by
  simp [State.refuseFull]

/-! ## propose -/

@[simp] theorem State.propose_pending (d : Nat) (b : Bool) (c : Change) : (s.propose d b c).pending = s.pending := by
  unfold State.propose; split; rfl; (split <;> simp)

@[simp] theorem State.propose_fram (d : Nat) (b : Bool) (c : Change) : (s.propose d b c).fram = s.fram := by
  unfold State.propose; split; rfl; (split <;> simp)

@[simp] theorem State.propose_aon (d : Nat) (b : Bool) (c : Change) : (s.propose d b c).aon = s.aon := by
  unfold State.propose; split; rfl; (split <;> simp)

@[simp] theorem State.propose_pins (d : Nat) (b : Bool) (c : Change) : (s.propose d b c).pins = s.pins := by
  unfold State.propose; split; rfl; (split <;> simp)

@[simp] theorem State.propose_pw (d : Nat) (b : Bool) (c : Change) : (s.propose d b c).pw = s.pw := by
  unfold State.propose; split; rfl; (split <;> simp)

@[simp] theorem State.propose_reg (d : Nat) (b : Bool) (c : Change) : (s.propose d b c).reg = s.reg := by
  unfold State.propose; split; rfl; (split <;> simp)

@[simp] theorem State.propose_ck (d : Nat) (b : Bool) (c : Change) : (s.propose d b c).ck = s.ck := by
  unfold State.propose; split; rfl; (split <;> simp)

@[simp] theorem State.propose_orr (d : Nat) (b : Bool) (c : Change) : (s.propose d b c).orr = s.orr := by
  unfold State.propose; split; rfl; (split <;> simp)

@[simp] theorem State.propose_xb (d : Nat) (b : Bool) (c : Change) : (s.propose d b c).xb = s.xb := by
  unfold State.propose; split; rfl; (split <;> simp)

@[simp] theorem State.propose_ad (d : Nat) (b : Bool) (c : Change) : (s.propose d b c).ad = s.ad := by
  unfold State.propose; split; rfl; (split <;> simp)

@[simp] theorem State.propose_fe (d : Nat) (b : Bool) (c : Change) : (s.propose d b c).fe = s.fe := by
  unfold State.propose; split; rfl; (split <;> simp)

@[simp] theorem State.propose_sc (d : Nat) (b : Bool) (c : Change) : (s.propose d b c).sc = s.sc := by
  unfold State.propose; split; rfl; (split <;> simp)

@[simp] theorem State.propose_an (d : Nat) (b : Bool) (c : Change) : (s.propose d b c).an = s.an := by
  unfold State.propose; split; rfl; (split <;> simp)

@[simp] theorem State.propose_lp (d : Nat) (b : Bool) (c : Change) : (s.propose d b c).lp = s.lp := by
  unfold State.propose; split; rfl; (split <;> simp)

@[simp] theorem State.propose_tn (d : Nat) (b : Bool) (c : Change) : (s.propose d b c).tn = s.tn := by
  unfold State.propose; split; rfl; (split <;> simp)

@[simp] theorem State.propose_dl (d : Nat) (b : Bool) (c : Change) : (s.propose d b c).dl = s.dl := by
  unfold State.propose; split; rfl; (split <;> simp)

@[simp] theorem State.propose_dn (d : Nat) (b : Bool) (c : Change) : (s.propose d b c).dn = s.dn := by
  unfold State.propose; split; rfl; (split <;> simp)

@[simp] theorem State.propose_pl (d : Nat) (b : Bool) (c : Change) : (s.propose d b c).pl = s.pl := by
  unfold State.propose; split; rfl; (split <;> simp)

@[simp] theorem State.propose_drawn (d : Nat) (b : Bool) (c : Change) : (s.propose d b c).drawn = s.drawn := by
  unfold State.propose; split; rfl; (split <;> simp)

@[simp] theorem State.propose_hb_gie (d : Nat) (b : Bool) (c : Change) : (s.propose d b c).hb.gie = s.hb.gie := by
  unfold State.propose; split; rfl; (split <;> simp)

@[simp] theorem State.propose_hb_nvr (d : Nat) (b : Bool) (c : Change) : (s.propose d b c).hb.nvr = s.hb.nvr := by
  unfold State.propose; split; rfl; (split <;> simp)

@[simp] theorem State.propose_hb_hbv (d : Nat) (b : Bool) (c : Change) : (s.propose d b c).hb.hbv = s.hb.hbv := by
  unfold State.propose; split; rfl; (split <;> simp)

@[simp] theorem State.propose_hb_ien (d : Nat) (b : Bool) (c : Change) : (s.propose d b c).hb.ien = s.hb.ien := by
  unfold State.propose; split; rfl; (split <;> simp)

@[simp] theorem State.propose_hb_rdyen (d : Nat) (b : Bool) (c : Change) : (s.propose d b c).hb.rdyen = s.hb.rdyen := by
  unfold State.propose; split; rfl; (split <;> simp)

@[simp] theorem State.propose_hb_rlock (d : Nat) (b : Bool) (c : Change) : (s.propose d b c).hb.rlock = s.hb.rlock := by
  unfold State.propose; split; rfl; (split <;> simp)

@[simp] theorem State.propose_hb_flags (d : Nat) (b : Bool) (c : Change) : (s.propose d b c).hb.flags = s.hb.flags := by
  unfold State.propose; split; rfl; (split <;> simp)

@[simp] theorem State.propose_hb_scratch (d : Nat) (b : Bool) (c : Change) : (s.propose d b c).hb.scratch = s.hb.scratch := by
  unfold State.propose; split; rfl; (split <;> simp)

@[simp] theorem State.propose_hb_wlatch (d : Nat) (b : Bool) (c : Change) : (s.propose d b c).hb.wlatch = s.hb.wlatch := by
  unfold State.propose; split; rfl; (split <;> simp)

@[simp] theorem State.propose_hb_rlatch (d : Nat) (b : Bool) (c : Change) : (s.propose d b c).hb.rlatch = s.hb.rlatch := by
  unfold State.propose; split; rfl; (split <;> simp)

@[simp] theorem State.propose_hb_adout (d : Nat) (b : Bool) (c : Change) : (s.propose d b c).hb.adout = s.hb.adout := by
  unfold State.propose; split; rfl; (split <;> simp)

@[simp] theorem State.propose_hb_timeHost (d : Nat) (b : Bool) (c : Change) : (s.propose d b c).hb.timeHost = s.hb.timeHost := by
  unfold State.propose; split; rfl; (split <;> simp)

@[simp] theorem State.propose_hb_timeCantus (d : Nat) (b : Bool) (c : Change) : (s.propose d b c).hb.timeCantus = s.hb.timeCantus := by
  unfold State.propose; split; rfl; (split <;> simp)

@[simp] theorem State.propose_hb_timeDescant (d : Nat) (b : Bool) (c : Change) : (s.propose d b c).hb.timeDescant = s.hb.timeDescant := by
  unfold State.propose; split; rfl; (split <;> simp)

@[simp] theorem State.propose_hb_temp (d : Nat) (b : Bool) (c : Change) : (s.propose d b c).hb.temp = s.hb.temp := by
  unfold State.propose; split; rfl; (split <;> simp)

@[simp] theorem State.propose_hb_timeSnap (d : Nat) (b : Bool) (c : Change) : (s.propose d b c).hb.timeSnap = s.hb.timeSnap := by
  unfold State.propose; split; rfl; (split <;> simp)

@[simp] theorem State.propose_hb_held (d : Nat) (b : Bool) (c : Change) : (s.propose d b c).hb.held = s.hb.held := by
  unfold State.propose; split; rfl; (split <;> simp)

@[simp] theorem State.propose_hb_rows (d : Nat) (b : Bool) (c : Change) : (s.propose d b c).hb.rows = s.hb.rows := by
  unfold State.propose; split; rfl; (split <;> simp)

@[simp] theorem State.propose_hb_secCodes (d : Nat) (b : Bool) (c : Change) : (s.propose d b c).hb.secCodes = s.hb.secCodes := by
  unfold State.propose; split; rfl; (split <;> simp)

@[simp] theorem State.propose_hb_frzd (d : Nat) (b : Bool) (c : Change) : (s.propose d b c).hb.frzd = s.hb.frzd := by
  unfold State.propose; split; rfl; (split <;> simp)

@[simp] theorem State.propose_hb_fsrc (d : Nat) (b : Bool) (c : Change) : (s.propose d b c).hb.fsrc = s.hb.fsrc := by
  unfold State.propose; split; rfl; (split <;> simp)

@[simp] theorem State.propose_hb_fdur (d : Nat) (b : Bool) (c : Change) : (s.propose d b c).hb.fdur = s.hb.fdur := by
  unfold State.propose; split; rfl; (split <;> simp)

@[simp] theorem State.propose_hb_frzTs (d : Nat) (b : Bool) (c : Change) : (s.propose d b c).hb.frzTs = s.hb.frzTs := by
  unfold State.propose; split; rfl; (split <;> simp)

@[simp] theorem State.propose_hb_frzTest (d : Nat) (b : Bool) (c : Change) : (s.propose d b c).hb.frzTest = s.hb.frzTest := by
  unfold State.propose; split; rfl; (split <;> simp)

@[simp] theorem State.propose_hb_frzClosed (d : Nat) (b : Bool) (c : Change) : (s.propose d b c).hb.frzClosed = s.hb.frzClosed := by
  unfold State.propose; split; rfl; (split <;> simp)

@[simp] theorem State.propose_lg_ainc (d : Nat) (b : Bool) (c : Change) : (s.propose d b c).lg.ainc = s.lg.ainc := by
  unfold State.propose; split; rfl; (split <;> simp)

@[simp] theorem State.propose_lg_bank (d : Nat) (b : Bool) (c : Change) : (s.propose d b c).lg.bank = s.lg.bank := by
  unfold State.propose; split; rfl; (split <;> simp)

@[simp] theorem State.propose_lg_lbad (d : Nat) (b : Bool) (c : Change) : (s.propose d b c).lg.lbad = s.lg.lbad := by
  unfold State.propose; split; rfl; (split <;> simp)

@[simp] theorem State.propose_lg_torn (d : Nat) (b : Bool) (c : Change) : (s.propose d b c).lg.torn = s.lg.torn := by
  unfold State.propose; split; rfl; (split <;> simp)

@[simp] theorem State.propose_lg_disc (d : Nat) (b : Bool) (c : Change) : (s.propose d b c).lg.disc = s.lg.disc := by
  unfold State.propose; split; rfl; (split <;> simp)

@[simp] theorem State.propose_lg_snap (d : Nat) (b : Bool) (c : Change) : (s.propose d b c).lg.snap = s.lg.snap := by
  unfold State.propose; split; rfl; (split <;> simp)

@[simp] theorem State.propose_lg_cie (d : Nat) (b : Bool) (c : Change) : (s.propose d b c).lg.cie = s.lg.cie := by
  unfold State.propose; split; rfl; (split <;> simp)

@[simp] theorem State.propose_lg_ptr (d : Nat) (b : Bool) (c : Change) : (s.propose d b c).lg.ptr = s.lg.ptr := by
  unfold State.propose; split; rfl; (split <;> simp)

@[simp] theorem State.propose_lg_totals (d : Nat) (b : Bool) (c : Change) : (s.propose d b c).lg.totals = s.lg.totals := by
  unfold State.propose; split; rfl; (split <;> simp)

@[simp] theorem State.propose_lg_satLogged (d : Nat) (b : Bool) (c : Change) : (s.propose d b c).lg.satLogged = s.lg.satLogged := by
  unfold State.propose; split; rfl; (split <;> simp)

@[simp] theorem State.propose_lg_seq (d : Nat) (b : Bool) (c : Change) : (s.propose d b c).lg.seq = s.lg.seq := by
  unfold State.propose; split; rfl; (split <;> simp)

@[simp] theorem State.propose_lg_seqDone (d : Nat) (b : Bool) (c : Change) : (s.propose d b c).lg.seqDone = s.lg.seqDone := by
  unfold State.propose; split; rfl; (split <;> simp)

@[simp] theorem State.propose_lg_timeDone (d : Nat) (b : Bool) (c : Change) : (s.propose d b c).lg.timeDone = s.lg.timeDone := by
  unfold State.propose; split; rfl; (split <;> simp)

@[simp] theorem State.propose_lg_totalsDone (d : Nat) (b : Bool) (c : Change) : (s.propose d b c).lg.totalsDone = s.lg.totalsDone := by
  unfold State.propose; split; rfl; (split <;> simp)

@[simp] theorem State.propose_lg_cur (d : Nat) (b : Bool) (c : Change) : (s.propose d b c).lg.cur = s.lg.cur := by
  unfold State.propose; split; rfl; (split <;> simp)

@[simp] theorem State.propose_lg_waiting (d : Nat) (b : Bool) (c : Change) : (s.propose d b c).lg.waiting = s.lg.waiting := by
  unfold State.propose; split; rfl; (split <;> simp)

@[simp] theorem State.propose_lg_acount (d : Nat) (b : Bool) (c : Change) : (s.propose d b c).lg.acount = s.lg.acount := by
  unfold State.propose; split; rfl; (split <;> simp)

@[simp] theorem State.propose_lg_achain (d : Nat) (b : Bool) (c : Change) : (s.propose d b c).lg.achain = s.lg.achain := by
  unfold State.propose; split; rfl; (split <;> simp)

@[simp] theorem State.propose_lg_unaud (d : Nat) (b : Bool) (c : Change) : (s.propose d b c).lg.unaud = s.lg.unaud := by
  unfold State.propose; split; rfl; (split <;> simp)

@[simp] theorem State.propose_lg_recov (d : Nat) (b : Bool) (c : Change) : (s.propose d b c).lg.recov = s.lg.recov := by
  unfold State.propose; split; rfl; (split <;> simp)

@[simp] theorem State.propose_lg_sweep (d : Nat) (b : Bool) (c : Change) : (s.propose d b c).lg.sweep = s.lg.sweep := by
  unfold State.propose; split; rfl; (split <;> simp)

@[simp] theorem State.propose_lg_cdig (d : Nat) (b : Bool) (c : Change) : (s.propose d b c).lg.cdig = s.lg.cdig := by
  unfold State.propose; split; rfl; (split <;> simp)

@[simp] theorem State.propose_lg_cdigDirty (d : Nat) (b : Bool) (c : Change) : (s.propose d b c).lg.cdigDirty = s.lg.cdigDirty := by
  unfold State.propose; split; rfl; (split <;> simp)

@[simp] theorem State.propose_lg_past (d : Nat) (b : Bool) (c : Change) : (s.propose d b c).lg.past = s.lg.past := by
  unfold State.propose; split; rfl; (split <;> simp)

@[simp] theorem State.propose_lg_snapTotals (d : Nat) (b : Bool) (c : Change) : (s.propose d b c).lg.snapTotals = s.lg.snapTotals := by
  unfold State.propose; split; rfl; (split <;> simp)

/-! ## audited -/

@[simp] theorem State.audited_pending (d : Nat) (c : Change) : (s.audited d c).pending = s.pending := by
  unfold State.audited; split; simp; (split <;> simp)

@[simp] theorem State.audited_fram (d : Nat) (c : Change) : (s.audited d c).fram = s.fram := by
  unfold State.audited; split; simp; (split <;> simp)

@[simp] theorem State.audited_aon (d : Nat) (c : Change) : (s.audited d c).aon = s.aon := by
  unfold State.audited; split; simp; (split <;> simp)

@[simp] theorem State.audited_pins (d : Nat) (c : Change) : (s.audited d c).pins = s.pins := by
  unfold State.audited; split; simp; (split <;> simp)

@[simp] theorem State.audited_pw (d : Nat) (c : Change) : (s.audited d c).pw = s.pw := by
  unfold State.audited; split; simp; (split <;> simp)

@[simp] theorem State.audited_reg (d : Nat) (c : Change) : (s.audited d c).reg = s.reg := by
  unfold State.audited; split; simp; (split <;> simp)

@[simp] theorem State.audited_ck (d : Nat) (c : Change) : (s.audited d c).ck = s.ck := by
  unfold State.audited; split; simp; (split <;> simp)

@[simp] theorem State.audited_orr (d : Nat) (c : Change) : (s.audited d c).orr = s.orr := by
  unfold State.audited; split; simp; (split <;> simp)

@[simp] theorem State.audited_xb (d : Nat) (c : Change) : (s.audited d c).xb = s.xb := by
  unfold State.audited; split; simp; (split <;> simp)

@[simp] theorem State.audited_ad (d : Nat) (c : Change) : (s.audited d c).ad = s.ad := by
  unfold State.audited; split; simp; (split <;> simp)

@[simp] theorem State.audited_fe (d : Nat) (c : Change) : (s.audited d c).fe = s.fe := by
  unfold State.audited; split; simp; (split <;> simp)

@[simp] theorem State.audited_sc (d : Nat) (c : Change) : (s.audited d c).sc = s.sc := by
  unfold State.audited; split; simp; (split <;> simp)

@[simp] theorem State.audited_an (d : Nat) (c : Change) : (s.audited d c).an = s.an := by
  unfold State.audited; split; simp; (split <;> simp)

@[simp] theorem State.audited_lp (d : Nat) (c : Change) : (s.audited d c).lp = s.lp := by
  unfold State.audited; split; simp; (split <;> simp)

@[simp] theorem State.audited_tn (d : Nat) (c : Change) : (s.audited d c).tn = s.tn := by
  unfold State.audited; split; simp; (split <;> simp)

@[simp] theorem State.audited_dl (d : Nat) (c : Change) : (s.audited d c).dl = s.dl := by
  unfold State.audited; split; simp; (split <;> simp)

@[simp] theorem State.audited_dn (d : Nat) (c : Change) : (s.audited d c).dn = s.dn := by
  unfold State.audited; split; simp; (split <;> simp)

@[simp] theorem State.audited_pl (d : Nat) (c : Change) : (s.audited d c).pl = s.pl := by
  unfold State.audited; split; simp; (split <;> simp)

@[simp] theorem State.audited_drawn (d : Nat) (c : Change) : (s.audited d c).drawn = s.drawn := by
  unfold State.audited; split; simp; (split <;> simp)

@[simp] theorem State.audited_hb_gie (d : Nat) (c : Change) : (s.audited d c).hb.gie = s.hb.gie := by
  unfold State.audited; split; simp; (split <;> simp)

@[simp] theorem State.audited_hb_nvr (d : Nat) (c : Change) : (s.audited d c).hb.nvr = s.hb.nvr := by
  unfold State.audited; split; simp; (split <;> simp)

@[simp] theorem State.audited_hb_hbv (d : Nat) (c : Change) : (s.audited d c).hb.hbv = s.hb.hbv := by
  unfold State.audited; split; simp; (split <;> simp)

@[simp] theorem State.audited_hb_ien (d : Nat) (c : Change) : (s.audited d c).hb.ien = s.hb.ien := by
  unfold State.audited; split; simp; (split <;> simp)

@[simp] theorem State.audited_hb_rdyen (d : Nat) (c : Change) : (s.audited d c).hb.rdyen = s.hb.rdyen := by
  unfold State.audited; split; simp; (split <;> simp)

@[simp] theorem State.audited_hb_rlock (d : Nat) (c : Change) : (s.audited d c).hb.rlock = s.hb.rlock := by
  unfold State.audited; split; simp; (split <;> simp)

@[simp] theorem State.audited_hb_flags (d : Nat) (c : Change) : (s.audited d c).hb.flags = s.hb.flags := by
  unfold State.audited; split; simp; (split <;> simp)

@[simp] theorem State.audited_hb_scratch (d : Nat) (c : Change) : (s.audited d c).hb.scratch = s.hb.scratch := by
  unfold State.audited; split; simp; (split <;> simp)

@[simp] theorem State.audited_hb_wlatch (d : Nat) (c : Change) : (s.audited d c).hb.wlatch = s.hb.wlatch := by
  unfold State.audited; split; simp; (split <;> simp)

@[simp] theorem State.audited_hb_rlatch (d : Nat) (c : Change) : (s.audited d c).hb.rlatch = s.hb.rlatch := by
  unfold State.audited; split; simp; (split <;> simp)

@[simp] theorem State.audited_hb_adout (d : Nat) (c : Change) : (s.audited d c).hb.adout = s.hb.adout := by
  unfold State.audited; split; simp; (split <;> simp)

@[simp] theorem State.audited_hb_timeHost (d : Nat) (c : Change) : (s.audited d c).hb.timeHost = s.hb.timeHost := by
  unfold State.audited; split; simp; (split <;> simp)

@[simp] theorem State.audited_hb_timeCantus (d : Nat) (c : Change) : (s.audited d c).hb.timeCantus = s.hb.timeCantus := by
  unfold State.audited; split; simp; (split <;> simp)

@[simp] theorem State.audited_hb_timeDescant (d : Nat) (c : Change) : (s.audited d c).hb.timeDescant = s.hb.timeDescant := by
  unfold State.audited; split; simp; (split <;> simp)

@[simp] theorem State.audited_hb_temp (d : Nat) (c : Change) : (s.audited d c).hb.temp = s.hb.temp := by
  unfold State.audited; split; simp; (split <;> simp)

@[simp] theorem State.audited_hb_timeSnap (d : Nat) (c : Change) : (s.audited d c).hb.timeSnap = s.hb.timeSnap := by
  unfold State.audited; split; simp; (split <;> simp)

@[simp] theorem State.audited_hb_held (d : Nat) (c : Change) : (s.audited d c).hb.held = s.hb.held := by
  unfold State.audited; split; simp; (split <;> simp)

@[simp] theorem State.audited_hb_rows (d : Nat) (c : Change) : (s.audited d c).hb.rows = s.hb.rows := by
  unfold State.audited; split; simp; (split <;> simp)

@[simp] theorem State.audited_hb_secCodes (d : Nat) (c : Change) : (s.audited d c).hb.secCodes = s.hb.secCodes := by
  unfold State.audited; split; simp; (split <;> simp)

@[simp] theorem State.audited_hb_frzd (d : Nat) (c : Change) : (s.audited d c).hb.frzd = s.hb.frzd := by
  unfold State.audited; split; simp; (split <;> simp)

@[simp] theorem State.audited_hb_fsrc (d : Nat) (c : Change) : (s.audited d c).hb.fsrc = s.hb.fsrc := by
  unfold State.audited; split; simp; (split <;> simp)

@[simp] theorem State.audited_hb_fdur (d : Nat) (c : Change) : (s.audited d c).hb.fdur = s.hb.fdur := by
  unfold State.audited; split; simp; (split <;> simp)

@[simp] theorem State.audited_hb_frzTs (d : Nat) (c : Change) : (s.audited d c).hb.frzTs = s.hb.frzTs := by
  unfold State.audited; split; simp; (split <;> simp)

@[simp] theorem State.audited_hb_frzTest (d : Nat) (c : Change) : (s.audited d c).hb.frzTest = s.hb.frzTest := by
  unfold State.audited; split; simp; (split <;> simp)

@[simp] theorem State.audited_hb_frzClosed (d : Nat) (c : Change) : (s.audited d c).hb.frzClosed = s.hb.frzClosed := by
  unfold State.audited; split; simp; (split <;> simp)

@[simp] theorem State.audited_lg_ainc (d : Nat) (c : Change) : (s.audited d c).lg.ainc = s.lg.ainc := by
  unfold State.audited; split; simp; (split <;> simp)

@[simp] theorem State.audited_lg_bank (d : Nat) (c : Change) : (s.audited d c).lg.bank = s.lg.bank := by
  unfold State.audited; split; simp; (split <;> simp)

@[simp] theorem State.audited_lg_lbad (d : Nat) (c : Change) : (s.audited d c).lg.lbad = s.lg.lbad := by
  unfold State.audited; split; simp; (split <;> simp)

@[simp] theorem State.audited_lg_torn (d : Nat) (c : Change) : (s.audited d c).lg.torn = s.lg.torn := by
  unfold State.audited; split; simp; (split <;> simp)

@[simp] theorem State.audited_lg_disc (d : Nat) (c : Change) : (s.audited d c).lg.disc = s.lg.disc := by
  unfold State.audited; split; simp; (split <;> simp)

@[simp] theorem State.audited_lg_snap (d : Nat) (c : Change) : (s.audited d c).lg.snap = s.lg.snap := by
  unfold State.audited; split; simp; (split <;> simp)

@[simp] theorem State.audited_lg_cie (d : Nat) (c : Change) : (s.audited d c).lg.cie = s.lg.cie := by
  unfold State.audited; split; simp; (split <;> simp)

@[simp] theorem State.audited_lg_ptr (d : Nat) (c : Change) : (s.audited d c).lg.ptr = s.lg.ptr := by
  unfold State.audited; split; simp; (split <;> simp)

@[simp] theorem State.audited_lg_totals (d : Nat) (c : Change) : (s.audited d c).lg.totals = s.lg.totals := by
  unfold State.audited; split; simp; (split <;> simp)

@[simp] theorem State.audited_lg_satLogged (d : Nat) (c : Change) : (s.audited d c).lg.satLogged = s.lg.satLogged := by
  unfold State.audited; split; simp; (split <;> simp)

@[simp] theorem State.audited_lg_seq (d : Nat) (c : Change) : (s.audited d c).lg.seq = s.lg.seq := by
  unfold State.audited; split; simp; (split <;> simp)

@[simp] theorem State.audited_lg_seqDone (d : Nat) (c : Change) : (s.audited d c).lg.seqDone = s.lg.seqDone := by
  unfold State.audited; split; simp; (split <;> simp)

@[simp] theorem State.audited_lg_timeDone (d : Nat) (c : Change) : (s.audited d c).lg.timeDone = s.lg.timeDone := by
  unfold State.audited; split; simp; (split <;> simp)

@[simp] theorem State.audited_lg_totalsDone (d : Nat) (c : Change) : (s.audited d c).lg.totalsDone = s.lg.totalsDone := by
  unfold State.audited; split; simp; (split <;> simp)

@[simp] theorem State.audited_lg_cur (d : Nat) (c : Change) : (s.audited d c).lg.cur = s.lg.cur := by
  unfold State.audited; split; simp; (split <;> simp)

@[simp] theorem State.audited_lg_waiting (d : Nat) (c : Change) : (s.audited d c).lg.waiting = s.lg.waiting := by
  unfold State.audited; split; simp; (split <;> simp)

@[simp] theorem State.audited_lg_acount (d : Nat) (c : Change) : (s.audited d c).lg.acount = s.lg.acount := by
  unfold State.audited; split; simp; (split <;> simp)

@[simp] theorem State.audited_lg_achain (d : Nat) (c : Change) : (s.audited d c).lg.achain = s.lg.achain := by
  unfold State.audited; split; simp; (split <;> simp)

@[simp] theorem State.audited_lg_unaud (d : Nat) (c : Change) : (s.audited d c).lg.unaud = s.lg.unaud := by
  unfold State.audited; split; simp; (split <;> simp)

@[simp] theorem State.audited_lg_recov (d : Nat) (c : Change) : (s.audited d c).lg.recov = s.lg.recov := by
  unfold State.audited; split; simp; (split <;> simp)

@[simp] theorem State.audited_lg_sweep (d : Nat) (c : Change) : (s.audited d c).lg.sweep = s.lg.sweep := by
  unfold State.audited; split; simp; (split <;> simp)

@[simp] theorem State.audited_lg_cdig (d : Nat) (c : Change) : (s.audited d c).lg.cdig = s.lg.cdig := by
  unfold State.audited; split; simp; (split <;> simp)

@[simp] theorem State.audited_lg_cdigDirty (d : Nat) (c : Change) : (s.audited d c).lg.cdigDirty = s.lg.cdigDirty := by
  unfold State.audited; split; simp; (split <;> simp)

@[simp] theorem State.audited_lg_past (d : Nat) (c : Change) : (s.audited d c).lg.past = s.lg.past := by
  unfold State.audited; split; simp; (split <;> simp)

@[simp] theorem State.audited_lg_snapTotals (d : Nat) (c : Change) : (s.audited d c).lg.snapTotals = s.lg.snapTotals := by
  unfold State.audited; split; simp; (split <;> simp)

/-! ## sealedWrite -/

@[simp] theorem State.sealedWrite_pending (d : Nat) (b : Bool) (c : Change) : (s.sealedWrite d b c).pending = s.pending := by
  unfold State.sealedWrite State.gate; split; simp; (split <;> simp)

@[simp] theorem State.sealedWrite_fram (d : Nat) (b : Bool) (c : Change) : (s.sealedWrite d b c).fram = s.fram := by
  unfold State.sealedWrite State.gate; split; simp; (split <;> simp)

@[simp] theorem State.sealedWrite_aon (d : Nat) (b : Bool) (c : Change) : (s.sealedWrite d b c).aon = s.aon := by
  unfold State.sealedWrite State.gate; split; simp; (split <;> simp)

@[simp] theorem State.sealedWrite_pins (d : Nat) (b : Bool) (c : Change) : (s.sealedWrite d b c).pins = s.pins := by
  unfold State.sealedWrite State.gate; split; simp; (split <;> simp)

@[simp] theorem State.sealedWrite_pw (d : Nat) (b : Bool) (c : Change) : (s.sealedWrite d b c).pw = s.pw := by
  unfold State.sealedWrite State.gate; split; simp; (split <;> simp)

@[simp] theorem State.sealedWrite_reg (d : Nat) (b : Bool) (c : Change) : (s.sealedWrite d b c).reg = s.reg := by
  unfold State.sealedWrite State.gate; split; simp; (split <;> simp)

@[simp] theorem State.sealedWrite_ck (d : Nat) (b : Bool) (c : Change) : (s.sealedWrite d b c).ck = s.ck := by
  unfold State.sealedWrite State.gate; split; simp; (split <;> simp)

@[simp] theorem State.sealedWrite_orr (d : Nat) (b : Bool) (c : Change) : (s.sealedWrite d b c).orr = s.orr := by
  unfold State.sealedWrite State.gate; split; simp; (split <;> simp)

@[simp] theorem State.sealedWrite_xb (d : Nat) (b : Bool) (c : Change) : (s.sealedWrite d b c).xb = s.xb := by
  unfold State.sealedWrite State.gate; split; simp; (split <;> simp)

@[simp] theorem State.sealedWrite_ad (d : Nat) (b : Bool) (c : Change) : (s.sealedWrite d b c).ad = s.ad := by
  unfold State.sealedWrite State.gate; split; simp; (split <;> simp)

@[simp] theorem State.sealedWrite_fe (d : Nat) (b : Bool) (c : Change) : (s.sealedWrite d b c).fe = s.fe := by
  unfold State.sealedWrite State.gate; split; simp; (split <;> simp)

@[simp] theorem State.sealedWrite_sc (d : Nat) (b : Bool) (c : Change) : (s.sealedWrite d b c).sc = s.sc := by
  unfold State.sealedWrite State.gate; split; simp; (split <;> simp)

@[simp] theorem State.sealedWrite_an (d : Nat) (b : Bool) (c : Change) : (s.sealedWrite d b c).an = s.an := by
  unfold State.sealedWrite State.gate; split; simp; (split <;> simp)

@[simp] theorem State.sealedWrite_lp (d : Nat) (b : Bool) (c : Change) : (s.sealedWrite d b c).lp = s.lp := by
  unfold State.sealedWrite State.gate; split; simp; (split <;> simp)

@[simp] theorem State.sealedWrite_tn (d : Nat) (b : Bool) (c : Change) : (s.sealedWrite d b c).tn = s.tn := by
  unfold State.sealedWrite State.gate; split; simp; (split <;> simp)

@[simp] theorem State.sealedWrite_dl (d : Nat) (b : Bool) (c : Change) : (s.sealedWrite d b c).dl = s.dl := by
  unfold State.sealedWrite State.gate; split; simp; (split <;> simp)

@[simp] theorem State.sealedWrite_dn (d : Nat) (b : Bool) (c : Change) : (s.sealedWrite d b c).dn = s.dn := by
  unfold State.sealedWrite State.gate; split; simp; (split <;> simp)

@[simp] theorem State.sealedWrite_pl (d : Nat) (b : Bool) (c : Change) : (s.sealedWrite d b c).pl = s.pl := by
  unfold State.sealedWrite State.gate; split; simp; (split <;> simp)

@[simp] theorem State.sealedWrite_drawn (d : Nat) (b : Bool) (c : Change) : (s.sealedWrite d b c).drawn = s.drawn := by
  unfold State.sealedWrite State.gate; split; simp; (split <;> simp)

@[simp] theorem State.sealedWrite_hb_gie (d : Nat) (b : Bool) (c : Change) : (s.sealedWrite d b c).hb.gie = s.hb.gie := by
  unfold State.sealedWrite State.gate; split; simp; (split <;> simp)

@[simp] theorem State.sealedWrite_hb_nvr (d : Nat) (b : Bool) (c : Change) : (s.sealedWrite d b c).hb.nvr = s.hb.nvr := by
  unfold State.sealedWrite State.gate; split; simp; (split <;> simp)

@[simp] theorem State.sealedWrite_hb_hbv (d : Nat) (b : Bool) (c : Change) : (s.sealedWrite d b c).hb.hbv = s.hb.hbv := by
  unfold State.sealedWrite State.gate; split; simp; (split <;> simp)

@[simp] theorem State.sealedWrite_hb_ien (d : Nat) (b : Bool) (c : Change) : (s.sealedWrite d b c).hb.ien = s.hb.ien := by
  unfold State.sealedWrite State.gate; split; simp; (split <;> simp)

@[simp] theorem State.sealedWrite_hb_rdyen (d : Nat) (b : Bool) (c : Change) : (s.sealedWrite d b c).hb.rdyen = s.hb.rdyen := by
  unfold State.sealedWrite State.gate; split; simp; (split <;> simp)

@[simp] theorem State.sealedWrite_hb_rlock (d : Nat) (b : Bool) (c : Change) : (s.sealedWrite d b c).hb.rlock = s.hb.rlock := by
  unfold State.sealedWrite State.gate; split; simp; (split <;> simp)

@[simp] theorem State.sealedWrite_hb_flags (d : Nat) (b : Bool) (c : Change) : (s.sealedWrite d b c).hb.flags = s.hb.flags := by
  unfold State.sealedWrite State.gate; split; simp; (split <;> simp)

@[simp] theorem State.sealedWrite_hb_scratch (d : Nat) (b : Bool) (c : Change) : (s.sealedWrite d b c).hb.scratch = s.hb.scratch := by
  unfold State.sealedWrite State.gate; split; simp; (split <;> simp)

@[simp] theorem State.sealedWrite_hb_wlatch (d : Nat) (b : Bool) (c : Change) : (s.sealedWrite d b c).hb.wlatch = s.hb.wlatch := by
  unfold State.sealedWrite State.gate; split; simp; (split <;> simp)

@[simp] theorem State.sealedWrite_hb_rlatch (d : Nat) (b : Bool) (c : Change) : (s.sealedWrite d b c).hb.rlatch = s.hb.rlatch := by
  unfold State.sealedWrite State.gate; split; simp; (split <;> simp)

@[simp] theorem State.sealedWrite_hb_adout (d : Nat) (b : Bool) (c : Change) : (s.sealedWrite d b c).hb.adout = s.hb.adout := by
  unfold State.sealedWrite State.gate; split; simp; (split <;> simp)

@[simp] theorem State.sealedWrite_hb_timeHost (d : Nat) (b : Bool) (c : Change) : (s.sealedWrite d b c).hb.timeHost = s.hb.timeHost := by
  unfold State.sealedWrite State.gate; split; simp; (split <;> simp)

@[simp] theorem State.sealedWrite_hb_timeCantus (d : Nat) (b : Bool) (c : Change) : (s.sealedWrite d b c).hb.timeCantus = s.hb.timeCantus := by
  unfold State.sealedWrite State.gate; split; simp; (split <;> simp)

@[simp] theorem State.sealedWrite_hb_timeDescant (d : Nat) (b : Bool) (c : Change) : (s.sealedWrite d b c).hb.timeDescant = s.hb.timeDescant := by
  unfold State.sealedWrite State.gate; split; simp; (split <;> simp)

@[simp] theorem State.sealedWrite_hb_temp (d : Nat) (b : Bool) (c : Change) : (s.sealedWrite d b c).hb.temp = s.hb.temp := by
  unfold State.sealedWrite State.gate; split; simp; (split <;> simp)

@[simp] theorem State.sealedWrite_hb_timeSnap (d : Nat) (b : Bool) (c : Change) : (s.sealedWrite d b c).hb.timeSnap = s.hb.timeSnap := by
  unfold State.sealedWrite State.gate; split; simp; (split <;> simp)

@[simp] theorem State.sealedWrite_hb_held (d : Nat) (b : Bool) (c : Change) : (s.sealedWrite d b c).hb.held = s.hb.held := by
  unfold State.sealedWrite State.gate; split; simp; (split <;> simp)

@[simp] theorem State.sealedWrite_hb_rows (d : Nat) (b : Bool) (c : Change) : (s.sealedWrite d b c).hb.rows = s.hb.rows := by
  unfold State.sealedWrite State.gate; split; simp; (split <;> simp)

@[simp] theorem State.sealedWrite_hb_secCodes (d : Nat) (b : Bool) (c : Change) : (s.sealedWrite d b c).hb.secCodes = s.hb.secCodes := by
  unfold State.sealedWrite State.gate; split; simp; (split <;> simp)

@[simp] theorem State.sealedWrite_hb_frzd (d : Nat) (b : Bool) (c : Change) : (s.sealedWrite d b c).hb.frzd = s.hb.frzd := by
  unfold State.sealedWrite State.gate; split; simp; (split <;> simp)

@[simp] theorem State.sealedWrite_hb_fsrc (d : Nat) (b : Bool) (c : Change) : (s.sealedWrite d b c).hb.fsrc = s.hb.fsrc := by
  unfold State.sealedWrite State.gate; split; simp; (split <;> simp)

@[simp] theorem State.sealedWrite_hb_fdur (d : Nat) (b : Bool) (c : Change) : (s.sealedWrite d b c).hb.fdur = s.hb.fdur := by
  unfold State.sealedWrite State.gate; split; simp; (split <;> simp)

@[simp] theorem State.sealedWrite_hb_frzTs (d : Nat) (b : Bool) (c : Change) : (s.sealedWrite d b c).hb.frzTs = s.hb.frzTs := by
  unfold State.sealedWrite State.gate; split; simp; (split <;> simp)

@[simp] theorem State.sealedWrite_hb_frzTest (d : Nat) (b : Bool) (c : Change) : (s.sealedWrite d b c).hb.frzTest = s.hb.frzTest := by
  unfold State.sealedWrite State.gate; split; simp; (split <;> simp)

@[simp] theorem State.sealedWrite_hb_frzClosed (d : Nat) (b : Bool) (c : Change) : (s.sealedWrite d b c).hb.frzClosed = s.hb.frzClosed := by
  unfold State.sealedWrite State.gate; split; simp; (split <;> simp)

@[simp] theorem State.sealedWrite_lg_ainc (d : Nat) (b : Bool) (c : Change) : (s.sealedWrite d b c).lg.ainc = s.lg.ainc := by
  unfold State.sealedWrite State.gate; split; simp; (split <;> simp)

@[simp] theorem State.sealedWrite_lg_bank (d : Nat) (b : Bool) (c : Change) : (s.sealedWrite d b c).lg.bank = s.lg.bank := by
  unfold State.sealedWrite State.gate; split; simp; (split <;> simp)

@[simp] theorem State.sealedWrite_lg_lbad (d : Nat) (b : Bool) (c : Change) : (s.sealedWrite d b c).lg.lbad = s.lg.lbad := by
  unfold State.sealedWrite State.gate; split; simp; (split <;> simp)

@[simp] theorem State.sealedWrite_lg_torn (d : Nat) (b : Bool) (c : Change) : (s.sealedWrite d b c).lg.torn = s.lg.torn := by
  unfold State.sealedWrite State.gate; split; simp; (split <;> simp)

@[simp] theorem State.sealedWrite_lg_disc (d : Nat) (b : Bool) (c : Change) : (s.sealedWrite d b c).lg.disc = s.lg.disc := by
  unfold State.sealedWrite State.gate; split; simp; (split <;> simp)

@[simp] theorem State.sealedWrite_lg_snap (d : Nat) (b : Bool) (c : Change) : (s.sealedWrite d b c).lg.snap = s.lg.snap := by
  unfold State.sealedWrite State.gate; split; simp; (split <;> simp)

@[simp] theorem State.sealedWrite_lg_cie (d : Nat) (b : Bool) (c : Change) : (s.sealedWrite d b c).lg.cie = s.lg.cie := by
  unfold State.sealedWrite State.gate; split; simp; (split <;> simp)

@[simp] theorem State.sealedWrite_lg_ptr (d : Nat) (b : Bool) (c : Change) : (s.sealedWrite d b c).lg.ptr = s.lg.ptr := by
  unfold State.sealedWrite State.gate; split; simp; (split <;> simp)

@[simp] theorem State.sealedWrite_lg_totals (d : Nat) (b : Bool) (c : Change) : (s.sealedWrite d b c).lg.totals = s.lg.totals := by
  unfold State.sealedWrite State.gate; split; simp; (split <;> simp)

@[simp] theorem State.sealedWrite_lg_satLogged (d : Nat) (b : Bool) (c : Change) : (s.sealedWrite d b c).lg.satLogged = s.lg.satLogged := by
  unfold State.sealedWrite State.gate; split; simp; (split <;> simp)

@[simp] theorem State.sealedWrite_lg_seq (d : Nat) (b : Bool) (c : Change) : (s.sealedWrite d b c).lg.seq = s.lg.seq := by
  unfold State.sealedWrite State.gate; split; simp; (split <;> simp)

@[simp] theorem State.sealedWrite_lg_seqDone (d : Nat) (b : Bool) (c : Change) : (s.sealedWrite d b c).lg.seqDone = s.lg.seqDone := by
  unfold State.sealedWrite State.gate; split; simp; (split <;> simp)

@[simp] theorem State.sealedWrite_lg_timeDone (d : Nat) (b : Bool) (c : Change) : (s.sealedWrite d b c).lg.timeDone = s.lg.timeDone := by
  unfold State.sealedWrite State.gate; split; simp; (split <;> simp)

@[simp] theorem State.sealedWrite_lg_totalsDone (d : Nat) (b : Bool) (c : Change) : (s.sealedWrite d b c).lg.totalsDone = s.lg.totalsDone := by
  unfold State.sealedWrite State.gate; split; simp; (split <;> simp)

@[simp] theorem State.sealedWrite_lg_cur (d : Nat) (b : Bool) (c : Change) : (s.sealedWrite d b c).lg.cur = s.lg.cur := by
  unfold State.sealedWrite State.gate; split; simp; (split <;> simp)

@[simp] theorem State.sealedWrite_lg_waiting (d : Nat) (b : Bool) (c : Change) : (s.sealedWrite d b c).lg.waiting = s.lg.waiting := by
  unfold State.sealedWrite State.gate; split; simp; (split <;> simp)

@[simp] theorem State.sealedWrite_lg_acount (d : Nat) (b : Bool) (c : Change) : (s.sealedWrite d b c).lg.acount = s.lg.acount := by
  unfold State.sealedWrite State.gate; split; simp; (split <;> simp)

@[simp] theorem State.sealedWrite_lg_achain (d : Nat) (b : Bool) (c : Change) : (s.sealedWrite d b c).lg.achain = s.lg.achain := by
  unfold State.sealedWrite State.gate; split; simp; (split <;> simp)

@[simp] theorem State.sealedWrite_lg_unaud (d : Nat) (b : Bool) (c : Change) : (s.sealedWrite d b c).lg.unaud = s.lg.unaud := by
  unfold State.sealedWrite State.gate; split; simp; (split <;> simp)

@[simp] theorem State.sealedWrite_lg_recov (d : Nat) (b : Bool) (c : Change) : (s.sealedWrite d b c).lg.recov = s.lg.recov := by
  unfold State.sealedWrite State.gate; split; simp; (split <;> simp)

@[simp] theorem State.sealedWrite_lg_sweep (d : Nat) (b : Bool) (c : Change) : (s.sealedWrite d b c).lg.sweep = s.lg.sweep := by
  unfold State.sealedWrite State.gate; split; simp; (split <;> simp)

@[simp] theorem State.sealedWrite_lg_cdig (d : Nat) (b : Bool) (c : Change) : (s.sealedWrite d b c).lg.cdig = s.lg.cdig := by
  unfold State.sealedWrite State.gate; split; simp; (split <;> simp)

@[simp] theorem State.sealedWrite_lg_cdigDirty (d : Nat) (b : Bool) (c : Change) : (s.sealedWrite d b c).lg.cdigDirty = s.lg.cdigDirty := by
  unfold State.sealedWrite State.gate; split; simp; (split <;> simp)

@[simp] theorem State.sealedWrite_lg_past (d : Nat) (b : Bool) (c : Change) : (s.sealedWrite d b c).lg.past = s.lg.past := by
  unfold State.sealedWrite State.gate; split; simp; (split <;> simp)

@[simp] theorem State.sealedWrite_lg_snapTotals (d : Nat) (b : Bool) (c : Change) : (s.sealedWrite d b c).lg.snapTotals = s.lg.snapTotals := by
  unfold State.sealedWrite State.gate; split; simp; (split <;> simp)

/-! ## exhaust -/

@[simp] theorem State.exhaust_pending : (s.exhaust).pending = s.pending := by
  simp [State.exhaust]

@[simp] theorem State.exhaust_fram : (s.exhaust).fram = s.fram := by
  simp [State.exhaust]

@[simp] theorem State.exhaust_aon : (s.exhaust).aon = s.aon := by
  simp [State.exhaust]

@[simp] theorem State.exhaust_pins : (s.exhaust).pins = s.pins := by
  simp [State.exhaust]

@[simp] theorem State.exhaust_pw : (s.exhaust).pw = s.pw := by
  simp [State.exhaust]

@[simp] theorem State.exhaust_reg : (s.exhaust).reg = s.reg := by
  simp [State.exhaust]

@[simp] theorem State.exhaust_ck : (s.exhaust).ck = s.ck := by
  simp [State.exhaust]

@[simp] theorem State.exhaust_orr : (s.exhaust).orr = s.orr := by
  simp [State.exhaust]

@[simp] theorem State.exhaust_xb : (s.exhaust).xb = s.xb := by
  simp [State.exhaust]

@[simp] theorem State.exhaust_ad : (s.exhaust).ad = s.ad := by
  simp [State.exhaust]

@[simp] theorem State.exhaust_fe : (s.exhaust).fe = s.fe := by
  simp [State.exhaust]

@[simp] theorem State.exhaust_sc : (s.exhaust).sc = s.sc := by
  simp [State.exhaust]

@[simp] theorem State.exhaust_an : (s.exhaust).an = s.an := by
  simp [State.exhaust]

@[simp] theorem State.exhaust_lp : (s.exhaust).lp = s.lp := by
  simp [State.exhaust]

@[simp] theorem State.exhaust_tn : (s.exhaust).tn = s.tn := by
  simp [State.exhaust]

@[simp] theorem State.exhaust_dl : (s.exhaust).dl = s.dl := by
  simp [State.exhaust]

@[simp] theorem State.exhaust_dn : (s.exhaust).dn = s.dn := by
  simp [State.exhaust]

@[simp] theorem State.exhaust_pl : (s.exhaust).pl = s.pl := by
  simp [State.exhaust]

@[simp] theorem State.exhaust_hb : (s.exhaust).hb = s.hb := by
  simp [State.exhaust]

@[simp] theorem State.exhaust_drawn : (s.exhaust).drawn = s.drawn := by
  simp [State.exhaust]

@[simp] theorem State.exhaust_lg_ainc : (s.exhaust).lg.ainc = s.lg.ainc := by
  simp [State.exhaust]

@[simp] theorem State.exhaust_lg_bank : (s.exhaust).lg.bank = s.lg.bank := by
  simp [State.exhaust]

@[simp] theorem State.exhaust_lg_torn : (s.exhaust).lg.torn = s.lg.torn := by
  simp [State.exhaust]

@[simp] theorem State.exhaust_lg_disc : (s.exhaust).lg.disc = s.lg.disc := by
  simp [State.exhaust]

@[simp] theorem State.exhaust_lg_snap : (s.exhaust).lg.snap = s.lg.snap := by
  simp [State.exhaust]

@[simp] theorem State.exhaust_lg_cie : (s.exhaust).lg.cie = s.lg.cie := by
  simp [State.exhaust]

@[simp] theorem State.exhaust_lg_ptr : (s.exhaust).lg.ptr = s.lg.ptr := by
  simp [State.exhaust]

@[simp] theorem State.exhaust_lg_totals : (s.exhaust).lg.totals = s.lg.totals := by
  simp [State.exhaust]

@[simp] theorem State.exhaust_lg_satLogged : (s.exhaust).lg.satLogged = s.lg.satLogged := by
  simp [State.exhaust]

@[simp] theorem State.exhaust_lg_seq : (s.exhaust).lg.seq = s.lg.seq := by
  simp [State.exhaust]

@[simp] theorem State.exhaust_lg_seqDone : (s.exhaust).lg.seqDone = s.lg.seqDone := by
  simp [State.exhaust]

@[simp] theorem State.exhaust_lg_timeDone : (s.exhaust).lg.timeDone = s.lg.timeDone := by
  simp [State.exhaust]

@[simp] theorem State.exhaust_lg_totalsDone : (s.exhaust).lg.totalsDone = s.lg.totalsDone := by
  simp [State.exhaust]

@[simp] theorem State.exhaust_lg_cur : (s.exhaust).lg.cur = s.lg.cur := by
  simp [State.exhaust]

@[simp] theorem State.exhaust_lg_waiting : (s.exhaust).lg.waiting = s.lg.waiting := by
  simp [State.exhaust]

@[simp] theorem State.exhaust_lg_acount : (s.exhaust).lg.acount = s.lg.acount := by
  simp [State.exhaust]

@[simp] theorem State.exhaust_lg_achain : (s.exhaust).lg.achain = s.lg.achain := by
  simp [State.exhaust]

@[simp] theorem State.exhaust_lg_unaud : (s.exhaust).lg.unaud = s.lg.unaud := by
  simp [State.exhaust]

@[simp] theorem State.exhaust_lg_recov : (s.exhaust).lg.recov = s.lg.recov := by
  simp [State.exhaust]

@[simp] theorem State.exhaust_lg_sweep : (s.exhaust).lg.sweep = s.lg.sweep := by
  simp [State.exhaust]

@[simp] theorem State.exhaust_lg_cdig : (s.exhaust).lg.cdig = s.lg.cdig := by
  simp [State.exhaust]

@[simp] theorem State.exhaust_lg_cdigDirty : (s.exhaust).lg.cdigDirty = s.lg.cdigDirty := by
  simp [State.exhaust]

@[simp] theorem State.exhaust_lg_past : (s.exhaust).lg.past = s.lg.past := by
  simp [State.exhaust]

@[simp] theorem State.exhaust_lg_snapTotals : (s.exhaust).lg.snapTotals = s.lg.snapTotals := by
  simp [State.exhaust]

@[simp] theorem State.exhaust_lg_queue : (s.exhaust).lg.queue = s.lg.queue := by
  simp [State.exhaust]

/-! ## beginCommit -/

@[simp] theorem State.beginCommit_pending (w : Waiting) : (s.beginCommit w).pending = s.pending := by
  unfold State.beginCommit; dsimp only; (repeat' split) <;> simp

@[simp] theorem State.beginCommit_fram (w : Waiting) : (s.beginCommit w).fram = s.fram := by
  unfold State.beginCommit; dsimp only; (repeat' split) <;> simp

@[simp] theorem State.beginCommit_aon (w : Waiting) : (s.beginCommit w).aon = s.aon := by
  unfold State.beginCommit; dsimp only; (repeat' split) <;> simp

@[simp] theorem State.beginCommit_pins (w : Waiting) : (s.beginCommit w).pins = s.pins := by
  unfold State.beginCommit; dsimp only; (repeat' split) <;> simp

@[simp] theorem State.beginCommit_pw (w : Waiting) : (s.beginCommit w).pw = s.pw := by
  unfold State.beginCommit; dsimp only; (repeat' split) <;> simp

@[simp] theorem State.beginCommit_reg (w : Waiting) : (s.beginCommit w).reg = s.reg := by
  unfold State.beginCommit; dsimp only; (repeat' split) <;> simp

@[simp] theorem State.beginCommit_ck (w : Waiting) : (s.beginCommit w).ck = s.ck := by
  unfold State.beginCommit; dsimp only; (repeat' split) <;> simp

@[simp] theorem State.beginCommit_orr (w : Waiting) : (s.beginCommit w).orr = s.orr := by
  unfold State.beginCommit; dsimp only; (repeat' split) <;> simp

@[simp] theorem State.beginCommit_xb (w : Waiting) : (s.beginCommit w).xb = s.xb := by
  unfold State.beginCommit; dsimp only; (repeat' split) <;> simp

@[simp] theorem State.beginCommit_ad (w : Waiting) : (s.beginCommit w).ad = s.ad := by
  unfold State.beginCommit; dsimp only; (repeat' split) <;> simp

@[simp] theorem State.beginCommit_fe (w : Waiting) : (s.beginCommit w).fe = s.fe := by
  unfold State.beginCommit; dsimp only; (repeat' split) <;> simp

@[simp] theorem State.beginCommit_sc (w : Waiting) : (s.beginCommit w).sc = s.sc := by
  unfold State.beginCommit; dsimp only; (repeat' split) <;> simp

@[simp] theorem State.beginCommit_an (w : Waiting) : (s.beginCommit w).an = s.an := by
  unfold State.beginCommit; dsimp only; (repeat' split) <;> simp

@[simp] theorem State.beginCommit_lp (w : Waiting) : (s.beginCommit w).lp = s.lp := by
  unfold State.beginCommit; dsimp only; (repeat' split) <;> simp

@[simp] theorem State.beginCommit_tn (w : Waiting) : (s.beginCommit w).tn = s.tn := by
  unfold State.beginCommit; dsimp only; (repeat' split) <;> simp

@[simp] theorem State.beginCommit_dl (w : Waiting) : (s.beginCommit w).dl = s.dl := by
  unfold State.beginCommit; dsimp only; (repeat' split) <;> simp

@[simp] theorem State.beginCommit_dn (w : Waiting) : (s.beginCommit w).dn = s.dn := by
  unfold State.beginCommit; dsimp only; (repeat' split) <;> simp

@[simp] theorem State.beginCommit_pl (w : Waiting) : (s.beginCommit w).pl = s.pl := by
  unfold State.beginCommit; dsimp only; (repeat' split) <;> simp

@[simp] theorem State.beginCommit_hb (w : Waiting) : (s.beginCommit w).hb = s.hb := by
  unfold State.beginCommit; dsimp only; (repeat' split) <;> simp

@[simp] theorem State.beginCommit_drawn (w : Waiting) : (s.beginCommit w).drawn = s.drawn := by
  unfold State.beginCommit; dsimp only; (repeat' split) <;> simp

@[simp] theorem State.beginCommit_lg_ainc (w : Waiting) : (s.beginCommit w).lg.ainc = s.lg.ainc := by
  unfold State.beginCommit; dsimp only; (repeat' split) <;> simp

@[simp] theorem State.beginCommit_lg_bank (w : Waiting) : (s.beginCommit w).lg.bank = s.lg.bank := by
  unfold State.beginCommit; dsimp only; (repeat' split) <;> simp

@[simp] theorem State.beginCommit_lg_torn (w : Waiting) : (s.beginCommit w).lg.torn = s.lg.torn := by
  unfold State.beginCommit; dsimp only; (repeat' split) <;> simp

@[simp] theorem State.beginCommit_lg_disc (w : Waiting) : (s.beginCommit w).lg.disc = s.lg.disc := by
  unfold State.beginCommit; dsimp only; (repeat' split) <;> simp

@[simp] theorem State.beginCommit_lg_snap (w : Waiting) : (s.beginCommit w).lg.snap = s.lg.snap := by
  unfold State.beginCommit; dsimp only; (repeat' split) <;> simp

@[simp] theorem State.beginCommit_lg_cie (w : Waiting) : (s.beginCommit w).lg.cie = s.lg.cie := by
  unfold State.beginCommit; dsimp only; (repeat' split) <;> simp

@[simp] theorem State.beginCommit_lg_ptr (w : Waiting) : (s.beginCommit w).lg.ptr = s.lg.ptr := by
  unfold State.beginCommit; dsimp only; (repeat' split) <;> simp

@[simp] theorem State.beginCommit_lg_totals (w : Waiting) : (s.beginCommit w).lg.totals = s.lg.totals := by
  unfold State.beginCommit; dsimp only; (repeat' split) <;> simp

@[simp] theorem State.beginCommit_lg_satLogged (w : Waiting) : (s.beginCommit w).lg.satLogged = s.lg.satLogged := by
  unfold State.beginCommit; dsimp only; (repeat' split) <;> simp

@[simp] theorem State.beginCommit_lg_seqDone (w : Waiting) : (s.beginCommit w).lg.seqDone = s.lg.seqDone := by
  unfold State.beginCommit; dsimp only; (repeat' split) <;> simp

@[simp] theorem State.beginCommit_lg_timeDone (w : Waiting) : (s.beginCommit w).lg.timeDone = s.lg.timeDone := by
  unfold State.beginCommit; dsimp only; (repeat' split) <;> simp

@[simp] theorem State.beginCommit_lg_totalsDone (w : Waiting) : (s.beginCommit w).lg.totalsDone = s.lg.totalsDone := by
  unfold State.beginCommit; dsimp only; (repeat' split) <;> simp

@[simp] theorem State.beginCommit_lg_waiting (w : Waiting) : (s.beginCommit w).lg.waiting = s.lg.waiting := by
  unfold State.beginCommit; dsimp only; (repeat' split) <;> simp

@[simp] theorem State.beginCommit_lg_acount (w : Waiting) : (s.beginCommit w).lg.acount = s.lg.acount := by
  unfold State.beginCommit; dsimp only; (repeat' split) <;> simp

@[simp] theorem State.beginCommit_lg_achain (w : Waiting) : (s.beginCommit w).lg.achain = s.lg.achain := by
  unfold State.beginCommit; dsimp only; (repeat' split) <;> simp

@[simp] theorem State.beginCommit_lg_unaud (w : Waiting) : (s.beginCommit w).lg.unaud = s.lg.unaud := by
  unfold State.beginCommit; dsimp only; (repeat' split) <;> simp

@[simp] theorem State.beginCommit_lg_recov (w : Waiting) : (s.beginCommit w).lg.recov = s.lg.recov := by
  unfold State.beginCommit; dsimp only; (repeat' split) <;> simp

@[simp] theorem State.beginCommit_lg_sweep (w : Waiting) : (s.beginCommit w).lg.sweep = s.lg.sweep := by
  unfold State.beginCommit; dsimp only; (repeat' split) <;> simp

@[simp] theorem State.beginCommit_lg_cdig (w : Waiting) : (s.beginCommit w).lg.cdig = s.lg.cdig := by
  unfold State.beginCommit; dsimp only; (repeat' split) <;> simp

@[simp] theorem State.beginCommit_lg_cdigDirty (w : Waiting) : (s.beginCommit w).lg.cdigDirty = s.lg.cdigDirty := by
  unfold State.beginCommit; dsimp only; (repeat' split) <;> simp

@[simp] theorem State.beginCommit_lg_past (w : Waiting) : (s.beginCommit w).lg.past = s.lg.past := by
  unfold State.beginCommit; dsimp only; (repeat' split) <;> simp

@[simp] theorem State.beginCommit_lg_snapTotals (w : Waiting) : (s.beginCommit w).lg.snapTotals = s.lg.snapTotals := by
  unfold State.beginCommit; dsimp only; (repeat' split) <;> simp

@[simp] theorem State.beginCommit_lg_queue (w : Waiting) : (s.beginCommit w).lg.queue = s.lg.queue := by
  unfold State.beginCommit; dsimp only; (repeat' split) <;> simp

/-! ## trigger -/

@[simp] theorem State.trigger_pending (r : Byte) (b : Bool) (l : List (Word32 × Word32)) : (s.trigger r b l).pending = s.pending := by
  unfold State.trigger; dsimp only; (repeat' split) <;> simp

@[simp] theorem State.trigger_fram (r : Byte) (b : Bool) (l : List (Word32 × Word32)) : (s.trigger r b l).fram = s.fram := by
  unfold State.trigger; dsimp only; (repeat' split) <;> simp

@[simp] theorem State.trigger_aon (r : Byte) (b : Bool) (l : List (Word32 × Word32)) : (s.trigger r b l).aon = s.aon := by
  unfold State.trigger; dsimp only; (repeat' split) <;> simp

@[simp] theorem State.trigger_pins (r : Byte) (b : Bool) (l : List (Word32 × Word32)) : (s.trigger r b l).pins = s.pins := by
  unfold State.trigger; dsimp only; (repeat' split) <;> simp

@[simp] theorem State.trigger_pw (r : Byte) (b : Bool) (l : List (Word32 × Word32)) : (s.trigger r b l).pw = s.pw := by
  unfold State.trigger; dsimp only; (repeat' split) <;> simp

@[simp] theorem State.trigger_reg (r : Byte) (b : Bool) (l : List (Word32 × Word32)) : (s.trigger r b l).reg = s.reg := by
  unfold State.trigger; dsimp only; (repeat' split) <;> simp

@[simp] theorem State.trigger_ck (r : Byte) (b : Bool) (l : List (Word32 × Word32)) : (s.trigger r b l).ck = s.ck := by
  unfold State.trigger; dsimp only; (repeat' split) <;> simp

@[simp] theorem State.trigger_orr (r : Byte) (b : Bool) (l : List (Word32 × Word32)) : (s.trigger r b l).orr = s.orr := by
  unfold State.trigger; dsimp only; (repeat' split) <;> simp

@[simp] theorem State.trigger_xb (r : Byte) (b : Bool) (l : List (Word32 × Word32)) : (s.trigger r b l).xb = s.xb := by
  unfold State.trigger; dsimp only; (repeat' split) <;> simp

@[simp] theorem State.trigger_ad (r : Byte) (b : Bool) (l : List (Word32 × Word32)) : (s.trigger r b l).ad = s.ad := by
  unfold State.trigger; dsimp only; (repeat' split) <;> simp

@[simp] theorem State.trigger_fe (r : Byte) (b : Bool) (l : List (Word32 × Word32)) : (s.trigger r b l).fe = s.fe := by
  unfold State.trigger; dsimp only; (repeat' split) <;> simp

@[simp] theorem State.trigger_sc (r : Byte) (b : Bool) (l : List (Word32 × Word32)) : (s.trigger r b l).sc = s.sc := by
  unfold State.trigger; dsimp only; (repeat' split) <;> simp

@[simp] theorem State.trigger_an (r : Byte) (b : Bool) (l : List (Word32 × Word32)) : (s.trigger r b l).an = s.an := by
  unfold State.trigger; dsimp only; (repeat' split) <;> simp

@[simp] theorem State.trigger_lp (r : Byte) (b : Bool) (l : List (Word32 × Word32)) : (s.trigger r b l).lp = s.lp := by
  unfold State.trigger; dsimp only; (repeat' split) <;> simp

@[simp] theorem State.trigger_tn (r : Byte) (b : Bool) (l : List (Word32 × Word32)) : (s.trigger r b l).tn = s.tn := by
  unfold State.trigger; dsimp only; (repeat' split) <;> simp

@[simp] theorem State.trigger_dl (r : Byte) (b : Bool) (l : List (Word32 × Word32)) : (s.trigger r b l).dl = s.dl := by
  unfold State.trigger; dsimp only; (repeat' split) <;> simp

@[simp] theorem State.trigger_dn (r : Byte) (b : Bool) (l : List (Word32 × Word32)) : (s.trigger r b l).dn = s.dn := by
  unfold State.trigger; dsimp only; (repeat' split) <;> simp

@[simp] theorem State.trigger_pl (r : Byte) (b : Bool) (l : List (Word32 × Word32)) : (s.trigger r b l).pl = s.pl := by
  unfold State.trigger; dsimp only; (repeat' split) <;> simp

@[simp] theorem State.trigger_hb (r : Byte) (b : Bool) (l : List (Word32 × Word32)) : (s.trigger r b l).hb = s.hb := by
  unfold State.trigger; dsimp only; (repeat' split) <;> simp

@[simp] theorem State.trigger_drawn (r : Byte) (b : Bool) (l : List (Word32 × Word32)) : (s.trigger r b l).drawn = s.drawn := by
  unfold State.trigger; dsimp only; (repeat' split) <;> simp

@[simp] theorem State.trigger_lg_ainc (r : Byte) (b : Bool) (l : List (Word32 × Word32)) : (s.trigger r b l).lg.ainc = s.lg.ainc := by
  unfold State.trigger; dsimp only; (repeat' split) <;> simp

@[simp] theorem State.trigger_lg_bank (r : Byte) (b : Bool) (l : List (Word32 × Word32)) : (s.trigger r b l).lg.bank = s.lg.bank := by
  unfold State.trigger; dsimp only; (repeat' split) <;> simp

@[simp] theorem State.trigger_lg_torn (r : Byte) (b : Bool) (l : List (Word32 × Word32)) : (s.trigger r b l).lg.torn = s.lg.torn := by
  unfold State.trigger; dsimp only; (repeat' split) <;> simp

@[simp] theorem State.trigger_lg_disc (r : Byte) (b : Bool) (l : List (Word32 × Word32)) : (s.trigger r b l).lg.disc = s.lg.disc := by
  unfold State.trigger; dsimp only; (repeat' split) <;> simp

@[simp] theorem State.trigger_lg_snap (r : Byte) (b : Bool) (l : List (Word32 × Word32)) : (s.trigger r b l).lg.snap = s.lg.snap := by
  unfold State.trigger; dsimp only; (repeat' split) <;> simp

@[simp] theorem State.trigger_lg_cie (r : Byte) (b : Bool) (l : List (Word32 × Word32)) : (s.trigger r b l).lg.cie = s.lg.cie := by
  unfold State.trigger; dsimp only; (repeat' split) <;> simp

@[simp] theorem State.trigger_lg_ptr (r : Byte) (b : Bool) (l : List (Word32 × Word32)) : (s.trigger r b l).lg.ptr = s.lg.ptr := by
  unfold State.trigger; dsimp only; (repeat' split) <;> simp

@[simp] theorem State.trigger_lg_totals (r : Byte) (b : Bool) (l : List (Word32 × Word32)) : (s.trigger r b l).lg.totals = s.lg.totals := by
  unfold State.trigger; dsimp only; (repeat' split) <;> simp

@[simp] theorem State.trigger_lg_satLogged (r : Byte) (b : Bool) (l : List (Word32 × Word32)) : (s.trigger r b l).lg.satLogged = s.lg.satLogged := by
  unfold State.trigger; dsimp only; (repeat' split) <;> simp

@[simp] theorem State.trigger_lg_seqDone (r : Byte) (b : Bool) (l : List (Word32 × Word32)) : (s.trigger r b l).lg.seqDone = s.lg.seqDone := by
  unfold State.trigger; dsimp only; (repeat' split) <;> simp

@[simp] theorem State.trigger_lg_timeDone (r : Byte) (b : Bool) (l : List (Word32 × Word32)) : (s.trigger r b l).lg.timeDone = s.lg.timeDone := by
  unfold State.trigger; dsimp only; (repeat' split) <;> simp

@[simp] theorem State.trigger_lg_totalsDone (r : Byte) (b : Bool) (l : List (Word32 × Word32)) : (s.trigger r b l).lg.totalsDone = s.lg.totalsDone := by
  unfold State.trigger; dsimp only; (repeat' split) <;> simp

@[simp] theorem State.trigger_lg_acount (r : Byte) (b : Bool) (l : List (Word32 × Word32)) : (s.trigger r b l).lg.acount = s.lg.acount := by
  unfold State.trigger; dsimp only; (repeat' split) <;> simp

@[simp] theorem State.trigger_lg_achain (r : Byte) (b : Bool) (l : List (Word32 × Word32)) : (s.trigger r b l).lg.achain = s.lg.achain := by
  unfold State.trigger; dsimp only; (repeat' split) <;> simp

@[simp] theorem State.trigger_lg_unaud (r : Byte) (b : Bool) (l : List (Word32 × Word32)) : (s.trigger r b l).lg.unaud = s.lg.unaud := by
  unfold State.trigger; dsimp only; (repeat' split) <;> simp

@[simp] theorem State.trigger_lg_recov (r : Byte) (b : Bool) (l : List (Word32 × Word32)) : (s.trigger r b l).lg.recov = s.lg.recov := by
  unfold State.trigger; dsimp only; (repeat' split) <;> simp

@[simp] theorem State.trigger_lg_sweep (r : Byte) (b : Bool) (l : List (Word32 × Word32)) : (s.trigger r b l).lg.sweep = s.lg.sweep := by
  unfold State.trigger; dsimp only; (repeat' split) <;> simp

@[simp] theorem State.trigger_lg_cdig (r : Byte) (b : Bool) (l : List (Word32 × Word32)) : (s.trigger r b l).lg.cdig = s.lg.cdig := by
  unfold State.trigger; dsimp only; (repeat' split) <;> simp

@[simp] theorem State.trigger_lg_cdigDirty (r : Byte) (b : Bool) (l : List (Word32 × Word32)) : (s.trigger r b l).lg.cdigDirty = s.lg.cdigDirty := by
  unfold State.trigger; dsimp only; (repeat' split) <;> simp

@[simp] theorem State.trigger_lg_past (r : Byte) (b : Bool) (l : List (Word32 × Word32)) : (s.trigger r b l).lg.past = s.lg.past := by
  unfold State.trigger; dsimp only; (repeat' split) <;> simp

@[simp] theorem State.trigger_lg_snapTotals (r : Byte) (b : Bool) (l : List (Word32 × Word32)) : (s.trigger r b l).lg.snapTotals = s.lg.snapTotals := by
  unfold State.trigger; dsimp only; (repeat' split) <;> simp

@[simp] theorem State.trigger_lg_queue (r : Byte) (b : Bool) (l : List (Word32 × Word32)) : (s.trigger r b l).lg.queue = s.lg.queue := by
  unfold State.trigger; dsimp only; (repeat' split) <;> simp

/-! ## SY_IRQ, the queue of changes -/

/-- The bit a block sets is set (R439). -/
@[simp] theorem State.irq_hb_irq (n : Nat) : (s.irq n).hb.irq = s.hb.irq ||| BitVec.ofNat 16 (2 ^ n) := rfl

/-- A change put in line stands last (R234). -/
@[simp] theorem State.queueChange_lg_queue (c : Change) : (s.queueChange c).lg.queue = s.lg.queue ++ [c] := rfl

/-- nvPutAll leaves all but FRAM's words and the write buffer. -/
theorem State.nvPutAll_nil : s.nvPutAll [] = s := rfl

theorem State.nvPutAll_cons (p : Nat × Word) (ws : List (Nat × Word)) : s.nvPutAll (p :: ws) = (s.nvPut p.1 p.2).nvPutAll ws := rfl

end Sys2Proof.Machine
end

