-- ==== Sys2Proof/Laws/Words.lean ====
section
/-! SUPPORT. Sys2Proof/Laws/Words.lean: a read of an FRAM-held word after a write (R217, R433), and what the host's commit of a register
comes to (R429). -/

set_option Elab.async false

namespace Sys2Proof.Machine

/-! ## Pending rows -/

theorem lookup_map_put (k : Nat) (w : Word) (j : Nat) : ∀ l : List (Nat × Word),
    (l.map (fun p => if p.1 = k then (k, w) else p)).lookup j =
      if j = k then (l.lookup j).map (fun _ => w) else l.lookup j
  | [] => by simp
  | (a, v) :: l => by
    have ih := lookup_map_put k w j l
    by_cases ha : a = k
    · subst ha
      by_cases hj : j = a
      · subst hj; simp [List.lookup]
      · have hb : (j == a) = false := by simp [hj]
        simp only [List.map_cons, if_true, List.lookup_cons, hb, hj, if_false] at ih ⊢
        exact ih
    · by_cases hj : j = a
      · subst hj; simp [List.lookup, ha]
      · have hb : (j == a) = false := by simp [hj]
        simp only [List.map_cons, ha, if_false, List.lookup_cons, hb] at ih ⊢
        exact ih

theorem pendWord_put (k : Nat) (w : Word) (j : Nat) : ∀ rows : List RowWrite,
    pendWord (rows.map (RowWrite.put k w)) j = if j = k then (pendWord rows j).map (fun _ => w) else pendWord rows j
  | [] => by simp [pendWord]
  | r :: rows => by
    have hl : ((RowWrite.put k w r).words.reverse).lookup j =
        if j = k then (r.words.reverse.lookup j).map (fun _ => w) else r.words.reverse.lookup j := by
      rw [RowWrite.put, ← List.map_reverse]
      exact lookup_map_put k w j _
    simp only [List.map_cons, pendWord]
    rw [pendWord_put k w j rows, hl]
    by_cases hj : j = k
    · subst hj
      cases h : pendWord rows j <;> simp
    · simp [hj]

/-- A word written to FRAM at once reads back, and every other word as before. -/
theorem State.nv_nvPut (s : State) (h : s.fram.ok) (k : Nat) (w : Word) (j : Nat) :
    (s.nvPut k w).nv j = if j = k then w else s.nv j := by
  unfold State.nv State.nvPut
  dsimp only
  rw [pendWord_put, WMem.get_set _ h.1]
  by_cases hj : j = k
  · subst hj
    cases pendWord s.hb.rows j <;> simp
  · simp [hj]

theorem State.fram_ok_nvPut (s : State) (h : s.fram.ok) (k : Nat) (w : Word) : (s.nvPut k w).fram.ok :=
  ⟨WMem.wf_set _ h.1 _ _, h.2⟩

theorem State.fram_ok_nvPutAll (ws : List (Nat × Word)) : ∀ s : State, s.fram.ok → (s.nvPutAll ws).fram.ok := by
  unfold State.nvPutAll
  induction ws with
  | nil => exact fun s h => h
  | cons p ws ih => exact fun s h => ih _ (s.fram_ok_nvPut h p.1 p.2)

/-- Several words written: the last word of a key counts. -/
theorem State.nv_nvPutAll (ws : List (Nat × Word)) : ∀ (s : State), s.fram.ok → ∀ j,
    (s.nvPutAll ws).nv j = (ws.reverse.lookup j).getD (s.nv j) := by
  induction ws with
  | nil => intro s _ j; rfl
  | cons p ws ih =>
    intro s h j
    have h' : (s.nvPutAll (p :: ws)).nv j = ((s.nvPut p.1 p.2).nvPutAll ws).nv j := rfl
    rw [h', ih _ (s.fram_ok_nvPut h _ _), s.nv_nvPut h, List.reverse_cons, List.lookup_append]
    cases ws.reverse.lookup j with
    | some v => simp
    | none =>
      by_cases hj : j = p.1
      · subst hj; simp [List.lookup]
      · have hb : (j == p.1) = false := by simp [hj]
        simp [hb, List.lookup, hj]

/-- A block of consecutive words written: each word of it reads as written, every other word as before. -/
theorem State.nv_nvPutAll_block (s : State) (h : s.fram.ok) (sp a : Nat) (f : Nat → Word) (k : Nat) : ∀ n : Nat,
    (s.nvPutAll ((List.range n).map (fun j => (Config.key sp (a + j), f j)))).nv k =
      if Config.key sp a ≤ k ∧ k < Config.key sp a + n then f (k - Config.key sp a) else s.nv k
  | 0 => by
    rw [if_neg (by omega)]
    rfl
  | n + 1 => by
    have hp : s.nvPutAll ((List.range (n + 1)).map (fun j => (Config.key sp (a + j), f j))) =
        (s.nvPutAll ((List.range n).map (fun j => (Config.key sp (a + j), f j)))).nvPut (Config.key sp (a + n)) (f n) := by
      unfold State.nvPutAll
      rw [List.range_succ, List.map_append, List.foldl_append]
      rfl
    have hk : Config.key sp (a + n) = Config.key sp a + n := by unfold Config.key; omega
    rw [hp, State.nv_nvPut _ (State.fram_ok_nvPutAll _ s h), State.nv_nvPutAll_block s h sp a f k n, hk]
    by_cases hkn : k = Config.key sp a + n
    · rw [if_pos hkn, if_pos (by omega), hkn, Nat.add_sub_cancel_left]
    · rw [if_neg hkn]
      by_cases hin : Config.key sp a ≤ k ∧ k < Config.key sp a + n
      · rw [if_pos hin, if_pos (by omega)]
      · rw [if_neg hin, if_neg (by omega)]

/-- A row with a word put in at its end. -/
abbrev RowWrite.add (k : Nat) (w : Word) (r : RowWrite) : RowWrite := if r.row = k / 16 then { r with words := r.words ++ [(k, w)] } else r

theorem RowWrite.add_lookup_ne {k j : Nat} (w : Word) (hj : j ≠ k) (r : RowWrite) :
    (RowWrite.add k w r).words.reverse.lookup j = r.words.reverse.lookup j := by
  have hb : (j == k) = false := by simp [hj]
  unfold RowWrite.add
  split
  · simp [List.reverse_append, List.lookup_cons, hb]
  · rfl

theorem pendWord_add_ne {k j : Nat} (w : Word) (hj : j ≠ k) : ∀ rows : List RowWrite,
    pendWord (rows.map (RowWrite.add k w)) j = pendWord rows j
  | [] => rfl
  | r :: rows => by simp only [List.map_cons, pendWord, pendWord_add_ne w hj rows, RowWrite.add_lookup_ne w hj r]

/-- With no row of the key's row, no pending word has the key. -/
theorem pendWord_none {k : Nat} : ∀ {rows : List RowWrite}, (∀ r ∈ rows, ∀ p ∈ r.words, p.1 / 16 = r.row) →
    rows.any (fun r => r.row == k / 16) = false → pendWord rows k = none
  | [], _, _ => rfl
  | r :: rows, h, hn => by
    simp only [List.any_cons, Bool.or_eq_false_iff, beq_eq_false_iff_ne] at hn
    have hr : r.words.reverse.lookup k = none := by
      rw [List.lookup_eq_none_iff]
      intro p hp
      have := h r (List.mem_cons_self ..) p (by simpa using hp)
      simp only [bne_iff_ne]
      intro he
      exact hn.1 (by rw [← this, ← he])
    rw [pendWord, pendWord_none (fun x hx => h x (List.mem_cons_of_mem _ hx)) hn.2]
    exact hr

theorem pendWord_add_eq {k : Nat} (w : Word) : ∀ {rows : List RowWrite}, (∀ r ∈ rows, ∀ p ∈ r.words, p.1 / 16 = r.row) →
    rows.any (fun r => r.row == k / 16) = true → pendWord (rows.map (RowWrite.add k w)) k = some w
  | [], _, h => by simp at h
  | r :: rows, h, ha => by
    have h' : ∀ x ∈ rows, ∀ p ∈ x.words, p.1 / 16 = x.row := fun x hx => h x (List.mem_cons_of_mem _ hx)
    rw [List.map_cons, pendWord]
    by_cases hr : rows.any (fun r => r.row == k / 16) = true
    · rw [pendWord_add_eq w h' hr]
    · have hr' : rows.any (fun r => r.row == k / 16) = false := by simpa using hr
      have hm : rows.map (RowWrite.add k w) = rows := by
        conv_rhs => rw [← List.map_id rows]
        refine List.map_congr_left fun x hx => ?_
        have : ¬ x.row = k / 16 := fun he => by
          have ht : rows.any (fun r => r.row == k / 16) = true := List.any_eq_true.2 ⟨x, hx, beq_iff_eq.2 he⟩
          rw [hr'] at ht
          exact Bool.false_ne_true ht
        simp [RowWrite.add, this]
      have hk : r.row = k / 16 := by
        simp only [List.any_cons, hr', Bool.or_false, beq_iff_eq] at ha
        exact ha
      rw [hm, pendWord_none h' hr']
      simp [RowWrite.add, hk, List.reverse_append]

/-- A row buffered: the key reads as the word, every other key as before (R433). -/
theorem pendWord_bufferRow {rows out : List RowWrite} {k : Nat} {w : Word} (h : ∀ r ∈ rows, ∀ p ∈ r.words, p.1 / 16 = r.row)
    (hb : bufferRow rows k w = some out) (j : Nat) : pendWord out j = if j = k then some w else pendWord rows j := by
  unfold bufferRow at hb
  split at hb
  · rename_i ha
    cases hb
    by_cases hj : j = k
    · subst hj
      rw [if_pos rfl]
      exact pendWord_add_eq w h ha
    · rw [if_neg hj]
      exact pendWord_add_ne w hj rows
  · split at hb
    · rename_i ha _
      cases hb
      have ha' : rows.any (fun r => r.row == k / 16) = false := by simpa using ha
      have hp : ∀ l : List RowWrite, pendWord (l ++ [{ row := k / 16, words := [(k, w)] }]) j =
          if j = k then some w else pendWord l j := by
        intro l
        induction l with
        | nil => by_cases hj : j = k
                 · simp [pendWord, hj]
                 · have hb : (j == k) = false := by simp [hj]
                   simp [pendWord, hj, List.lookup, hb]
        | cons r l ih =>
          rw [List.cons_append, pendWord, ih]
          by_cases hj : j = k
          · simp [hj]
          · simp [hj, pendWord]
      exact hp rows
    · cases hb

/-- The buffer takes a word: a row of its own is there, or fewer than two are (R433). -/
theorem bufferRow_some {rows : List RowWrite} (h : rows.length < 2) (k : Nat) (w : Word) : ∃ out, bufferRow rows k w = some out := by
  unfold bufferRow
  split <;> exact ⟨_, rfl⟩

/-- A word taken by the write buffer reads back, and every other word as before (R433). -/
theorem State.nv_nvWrite (s : State) (hi : s.hb.ok) (hn : s.hb.nvr = true) (reg word k : Nat) (w : Word) {out : List RowWrite}
    (hb : bufferRow s.hb.rows k w = some out) (j : Nat) : (s.nvWrite reg word k w).nv j = if j = k then w else s.nv j := by
  unfold State.nvWrite
  rw [if_pos hn, hb]
  unfold State.nv
  dsimp only
  rw [pendWord_bufferRow hi.2 hb]
  by_cases hj : j = k <;> simp [hj]

/-- A buffered row written to FRAM changes no word as it stands. -/
theorem State.nv_rowWritten (s : State) (h : s.fram.ok) (j : Nat) : s.rowWritten.nv j = s.nv j := by
  unfold State.rowWritten
  cases hr : s.hb.rows with
  | nil => rfl
  | cons r rest =>
    have hset : ∀ (ws : List (Nat × Word)) (m : WMem), WMem.wf Config.shipment m = true →
        WMem.get Config.shipment (ws.foldl (fun m p => WMem.set Config.shipment m p.1 p.2) m) j =
          (ws.reverse.lookup j).getD (WMem.get Config.shipment m j) := by
      intro ws
      induction ws with
      | nil => intro m _; rfl
      | cons p ws ih =>
        intro m hm
        rw [List.foldl_cons, ih _ (WMem.wf_set _ hm _ _), WMem.get_set m hm, List.reverse_cons, List.lookup_append]
        cases ws.reverse.lookup j with
        | some v => simp
        | none =>
          by_cases hj : j = p.1
          · subst hj; simp [List.lookup]
          · have hb : (j == p.1) = false := by simp [hj]
            simp [List.lookup, hb, hj]
    unfold State.nv
    rw [hr]
    dsimp only [pendWord]
    cases pendWord rest j with
    | some v => rfl
    | none =>
      dsimp only
      rw [hset r.words _ h.1]
      cases r.words.reverse.lookup j <;> rfl

/-- What reads an FRAM word: the rows pending and the list. -/
theorem State.nv_congr {s t : State} (h1 : t.hb.rows = s.hb.rows) (h2 : t.fram.nv = s.fram.nv) (j : Nat) : t.nv j = s.nv j := by
  unfold State.nv; rw [h1, h2]

theorem State.nv_logEv (s : State) (c : Word) (d j : Nat) : (s.logEv c d).nv j = s.nv j := by
  unfold State.logEv; split <;> rfl

theorem State.nv_irq (s : State) (n j : Nat) : (s.irq n).nv j = s.nv j := rfl

/-! ## Frames -/

/-- A further operation inside the parts already named. -/
theorem State.sameBut_after {L M : List Part} {s t u : State} (h : State.sameBut L s t) (k : Keeps M t u)
    (hM : M.all (L.contains ·) = true) : State.sameBut L s u := by
  refine ⟨k.left.1.trans h.1, fun p hp => ?_⟩
  refine Part.same_trans (h.2 p hp) (k.left.2 p fun hm => hp ?_)
  simpa using List.all_eq_true.1 hM p hm

/-! ## The host bus -/

theorem State.hostKept_refl (s : State) : s.hostKept s := rfl

theorem State.hostKept_trans {s t u : State} (h : s.hostKept t) (k : t.hostKept u) : s.hostKept u := Eq.trans k h

/-- An operation that does not list the host bus. -/
theorem Keeps.hostKept {L : List Part} {s t : State} (h : Keeps L s t) (hp : L.contains .hb = false := by with_unfolding_all rfl) : s.hostKept t :=
  show _ = _ from congrArg (fun x : Hb => { x with rows := [] }) (h.eqHb hp)

theorem State.hostKept_nvPutAll (s : State) (ws : List (Nat × Word)) : s.hostKept (s.nvPutAll ws) := by
  unfold State.nvPutAll
  induction ws generalizing s with
  | nil => exact s.hostKept_refl
  | cons p ws ih => exact State.hostKept_trans (rfl : s.hostKept (s.nvPut p.1 p.2)) (ih _)

/-- A commit whose word the row buffer takes. -/
theorem State.wordStored_of {s t : State} {k : Nat} {w : Word} {out : List RowWrite} (hi : s.hb.ok) (hb : bufferRow s.hb.rows k w = some out)
    (h1 : t.fram.nv = s.fram.nv) (h2 : { t.hb with irq := 0 } = { s.hb with irq := 0, rows := out, wlatch := none }) : s.wordStored t k w := by
  refine ⟨show _ = _ from congrArg (fun x : Hb => { x with rows := [] }) h2, fun j => ?_⟩
  have hr : t.hb.rows = out := congrArg Hb.rows h2
  unfold State.nv
  rw [h1, hr, pendWord_bufferRow hi.2 hb]
  by_cases hj : j = k <;> simp [hj]

/-! ## The host's commit -/

/-- The write latch emptied by a commit. -/
def State.unlatched (s : State) : State := { s with hb := { s.hb with wlatch := none } }

/-- With the low byte held for the register, the commit is that register's word. -/
theorem State.hostCommit_held (s : State) (r lo hi : Byte) (a : Nat) (b : Bool) (hb : s.busOn = true)
    (hl : s.hb.wlatch = some (r, lo)) (hr : r.toNat = a) :
    s.hostCommit a hi b = s.unlatched.writeWord .host a (wordOf hi lo) b := by
  have h1 : s.lowHeld a = true := by unfold State.lowHeld; rw [hl]; simpa using hr
  have h2 : s.lowOf a = lo := by unfold State.lowOf; rw [hl]; exact if_pos hr
  unfold State.hostCommit State.hostWord
  rw [hb, h1, h2]
  rfl

/-- The same without the unlock armed. -/
theorem State.hostCommit_plain (s : State) (r lo hi : Byte) (a : Nat) (b : Bool) (hb : s.busOn = true)
    (hl : s.hb.wlatch = some (r, lo)) (hr : r.toNat = a) (ha : a ≠ 0x7A) (h : s.sc.armHost ≠ .armed) :
    s.hostCommit a hi b = s.unlatched.writeReg .host false a (wordOf hi lo) := by
  rw [s.hostCommit_held r lo hi a b hb hl hr]
  unfold State.writeWord
  rw [if_neg ha, if_neg (by exact h)]

/-- The same with it armed: the commit consumes it. -/
theorem State.hostCommit_armed (s : State) (r lo hi : Byte) (a : Nat) (b : Bool) (hb : s.busOn = true)
    (hl : s.hb.wlatch = some (r, lo)) (hr : r.toNat = a) (ha : a ≠ 0x7A) (h : s.sc.armHost = .armed) :
    s.hostCommit a hi b = (s.unlatched.setArm .host .idle).writeReg .host true a (wordOf hi lo) := by
  rw [s.hostCommit_held r lo hi a b hb hl hr]
  unfold State.writeWord
  rw [if_neg ha, if_pos (by exact h)]

/-- A command that is the commit of a register. -/
theorem exec_commit_plain (s : State) (c : Instr) (a : Nat) (r hi lo : Byte) (he : exec c s = .next (s.hostCommit a hi true)) (h1 : s.busOn = true)
    (h2 : s.hb.wlatch = some (r, lo)) (hr : r.toNat = a) (ha : a ≠ 0x7A) (h3 : s.sc.armHost ≠ .armed) :
    exec c s = .next (s.unlatched.writeReg .host false a (wordOf hi lo)) :=
  he.trans (congrArg _ (State.hostCommit_plain s r lo hi a true h1 h2 hr ha h3))

/-- The same with the unlock armed. -/
theorem exec_commit_armed (s : State) (c : Instr) (a : Nat) (r hi lo : Byte) (he : exec c s = .next (s.hostCommit a hi true)) (h1 : s.busOn = true)
    (h2 : s.hb.wlatch = some (r, lo)) (hr : r.toNat = a) (ha : a ≠ 0x7A) (h3 : s.sc.armHost = .armed) :
    exec c s = .next ((s.unlatched.setArm .host .idle).writeReg .host true a (wordOf hi lo)) :=
  he.trans (congrArg _ (State.hostCommit_armed s r lo hi a true h1 h2 hr ha h3))

/-- With NVR set a write of a sealed item is not early (R435). -/
theorem State.early_nvr (s : State) (reg word : Nat) (h : s.hb.nvr = true) : s.early reg word = s := by
  unfold State.early
  rw [if_pos h]

/-- The gate with the seal open, after start-up (R12, R240). -/
theorem State.gate_open (s : State) (what : Nat) (f : State → State) (h1 : s.startUp = false) (h2 : s.aon.sealOpen = true) :
    s.gate what f = f s := by
  unfold State.gate
  rw [h1, h2]
  rfl

/-- The gate with the seal closed: the refusal is logged (R12). -/
theorem State.gate_closed (s : State) (what : Nat) (f : State → State) (h1 : s.startUp = false) (h2 : s.aon.sealOpen = false) :
    s.gate what f = s.logEv 0x0F01 what := by
  unfold State.gate
  rw [h1, h2]
  rfl

/-- A change of content with room in the log is put in line (R234). -/
theorem State.propose_room (s : State) (what : Nat) (changed : Bool) (c : Change) (h1 : changed = true) (h2 : s.lg.acount < 2048) :
    s.propose what changed c = { s with lg := { s.lg with queue := s.lg.queue ++ [c] } } := by
  unfold State.propose State.auditFull State.queueChange
  rw [h1, if_neg (by decide), if_neg (by simpa using h2)]

/-- An FRAM-held word that the buffer takes (R433). -/
theorem State.nvWrite_room (s : State) (reg word k : Nat) (w : Word) (h1 : s.hb.nvr = true) (h2 : s.hb.rows.length < 2) :
    ∃ out, bufferRow s.hb.rows k w = some out ∧ s.nvWrite reg word k w = { s with hb := { s.hb with rows := out } } := by
  obtain ⟨out, ho⟩ := bufferRow_some h2 k w
  refine ⟨out, ho, ?_⟩
  unfold State.nvWrite
  rw [if_pos h1, ho]

/-- A commit's word put through the row buffer, the latch taken before. -/
theorem State.nvWrite_stored {s x : State} (hi : s.hb.ok) (h1 : s.hb.nvr = true) (h2 : s.hb.rows.length < 2) (hx : x.fram.nv = s.fram.nv)
    (hb : { x.hb with irq := 0 } = { s.hb with irq := 0, wlatch := none }) (reg word k : Nat) (w : Word) :
    s.wordStored (x.nvWrite reg word k w) k w := by
  have hr : x.hb.rows = s.hb.rows := by have := congrArg Hb.rows hb; exact this
  have hn : x.hb.nvr = true := by have := congrArg Hb.nvr hb; exact Eq.trans this h1
  obtain ⟨out, ho, he⟩ := State.nvWrite_room x reg word k w hn (by rw [hr]; exact h2)
  rw [he]
  exact State.wordStored_of hi (hr ▸ ho) hx (by have := congrArg (fun y : Hb => { y with rows := out }) hb; exact this)

/-- What comes after leaves the host bus and the FRAM words. -/
theorem State.wordStored_after {L : List Part} {s t u : State} {k : Nat} {w : Word} (h : s.wordStored t k w) (hk : Keeps L t u)
    (hp : L.contains .hb = false := by with_unfolding_all rfl) (hn : L.contains .nv = false := by with_unfolding_all rfl) :
    s.wordStored u k w :=
  ⟨(hk.hostKept hp).trans h.1, fun j => (State.nv_congr (by have := congrArg Hb.rows (hk.eqHb hp); exact this) (hk.eqNv hn) j).trans (h.2 j)⟩

/-! ## Events -/

/-- Event data of two parts. -/
theorem evData_two (a b n : Nat) : evData [(a, 0), (b, n)] = a + b * 2 ^ n := by
  unfold evData
  simp

/-- Event data of three parts. -/
theorem evData_three (a b c m n : Nat) : evData [(a, 0), (b, m), (c, n)] = a + b * 2 ^ m + c * 2 ^ n := by
  unfold evData
  simp

/-- A count that is not near its end rises by one (R419). -/
theorem satInc_lt {w : Word} (h : w.toNat < 0xFFFE) : satInc w = w + 1#16 ∧ satInc w ≠ 0xFFFF#16 := by
  have he : satInc w = w + 1#16 := by
    unfold satInc
    rw [if_neg]
    intro h'
    rw [h'] at h
    simp at h
  refine ⟨he, ?_⟩
  rw [he]
  intro h'
  have := congrArg BitVec.toNat h'
  simp [BitVec.toNat_add] at this
  omega

/-- A count that has not pinned is not reported (R419). -/
theorem State.pinned_not (s : State) (b w : Nat) (v : Word) (h : v ≠ 0xFFFF#16) : s.pinned b w v = s := by
  unfold State.pinned
  rw [if_neg (fun h' => h h'.1)]

/-- A buffer with room takes the entry at its end. -/
theorem State.logEv_room (s : State) (c : Word) (d : Nat) (h : s.ev.buf.length < 32) :
    s.logEv c d = { s with ev := { s.ev with buf := s.ev.buf ++ [s.eventOf c d] } } := by
  unfold State.logEv State.eventOf
  rw [if_pos h]

end Sys2Proof.Machine
end

