-- ==== Sys2Proof/Laws/Frames.lean ====
section
/-! SUPPORT. Sys2Proof/Laws/Frames.lean: what the reception and the sending of a Descant frame do. -/

set_option Elab.async false

namespace Sys2Proof.Machine

/-! ## The FRAM fields reception leaves -/

theorem State.nvPutAll_eq (ws : List (Nat × Word)) : ∀ s : State,
    s.nvPutAll ws = { s with fram := { s.fram with nv := (s.nvPutAll ws).fram.nv }, hb := { s.hb with rows := (s.nvPutAll ws).hb.rows } } := by
  unfold State.nvPutAll
  induction ws with
  | nil => intro s; rfl
  | cons p ws ih => intro s; rw [List.foldl_cons, ih]; rfl

theorem State.dslEvent_fram (s : State) (c : Word) (d : Nat) : (s.dslEvent c d).fram = s.fram := by
  unfold State.dslEvent State.logEv; split <;> rfl

theorem State.commitRx_addr (s : State) (p : Port) (peer : BitVec 6) :
    (s.commitRx p peer).fram.joined = s.fram.joined ∧ (s.commitRx p peer).fram.addr = s.fram.addr := by
  unfold State.commitRx
  split
  · exact ⟨rfl, rfl⟩
  · dsimp only
    rw [State.dslEvent_fram]
    unfold State.storeTable State.setGen
    dsimp only
    rw [State.nvPutAll_eq]
    exact ⟨rfl, rfl⟩

theorem State.genCheck_addr (s : State) (f : RxFrame) :
    (s.genCheck f).2.fram.joined = s.fram.joined ∧ (s.genCheck f).2.fram.addr = s.fram.addr := by
  unfold State.genCheck
  split
  · exact ⟨rfl, rfl⟩
  · split
    · exact s.commitRx_addr _ _
    · split <;> exact ⟨rfl, rfl⟩

theorem State.dropSeg_eq (s : State) (p : Port) (i : Nat) :
    ∃ nv rows, s.dropSeg p i = { s with fram := { s.fram with nv := nv }, hb := { s.hb with rows := rows } } :=
  ⟨_, _, State.nvPutAll_eq _ s⟩

/-- What a bridge notes of a source: its downstream set, and words of its segment table. -/
theorem State.heardFrom_eq (s : State) (p : Port) (a : BitVec 12) :
    ∃ nv rows down, s.heardFrom p a =
      { s with fram := { s.fram with nv := nv }, hb := { s.hb with rows := rows }, dn := { s.dn with down := down } } := by
  unfold State.heardFrom
  split
  · exact ⟨s.fram.nv, s.hb.rows, s.dn.down, rfl⟩
  · split
    · dsimp only
      split
      · obtain ⟨nv, rows, h⟩ := State.dropSeg_eq { s with dn := { s.dn with down := s.dn.down.erase a } } (otherPort p) ‹_›
        exact ⟨nv, rows, s.dn.down.erase a, h⟩
      · exact ⟨s.fram.nv, s.hb.rows, s.dn.down.erase a, rfl⟩
    · split
      · exact ⟨s.fram.nv, s.hb.rows, s.dn.down, rfl⟩
      · exact ⟨s.fram.nv, s.hb.rows, a :: s.dn.down, rfl⟩

/-- A node that is no bridge notes nothing of a source. -/
theorem State.heardFrom_leaf (s : State) (p : Port) (a : BitVec 12) (h : s.isBridge = false) : s.heardFrom p a = s := by
  unfold State.heardFrom
  rw [h]
  rfl

/-! ## Reception -/

theorem State.heard_keeps (s : State) (f : RxFrame) : Keeps [.nv, .fram, .ev, .dl, .dn, .pl, .irq, .hb] s (s.heard f) :=
  (State.heardFrom_keeps ..).after ((State.stampFrame_keeps ..).after ((State.genCheck_keeps ..).mono) (by rfl)) (by rfl)

theorem State.heard_who (s : State) (f : RxFrame) :
    (s.heard f).isHead = s.isHead ∧ (s.heard f).ownAddr = s.ownAddr ∧ (s.heard f).inSystem = s.inSystem ∧
    (s.heard f).fram.joined = s.fram.joined ∧ (s.heard f).fram.addr = s.fram.addr := by
  obtain ⟨nv, rows, down, h⟩ := State.heardFrom_eq ((s.genCheck f).2.stampFrame f) f.port f.frame.src
  have hg := s.genCheck_addr f
  have hs := State.stampFrame_keeps (s.genCheck f).2 f
  have hk := State.genCheck_keeps s f
  have hd : ((s.genCheck f).2.stampFrame f).dn = s.dn := by rw [hs.eqDn, hk.eqDn]
  have hp : ((s.genCheck f).2.stampFrame f).pins = s.pins := by rw [hs.eqPins, hk.eqPins]
  have hf : ((s.genCheck f).2.stampFrame f).fram = (s.genCheck f).2.fram := hs.eqFramAll
  have h1 : (s.heard f).isHead = s.isHead := by
    show (State.heardFrom _ _ _).isHead = _
    rw [h]
    unfold State.isHead
    dsimp only
    rw [hd, hp, hf, hg.1]
  have h2 : (s.heard f).fram.joined = s.fram.joined := by
    show (State.heardFrom _ _ _).fram.joined = _
    rw [h]
    dsimp only
    rw [hf]; exact hg.1
  have h3 : (s.heard f).fram.addr = s.fram.addr := by
    show (State.heardFrom _ _ _).fram.addr = _
    rw [h]
    dsimp only
    rw [hf]; exact hg.2
  refine ⟨h1, ?_, ?_, h2, h3⟩
  · unfold State.ownAddr; rw [h1, h3]
  · unfold State.inSystem; rw [h1, h2]

/-- A frame that reaches its effect: that effect on the state reception leaves. -/
theorem State.takeFrame_hears (s : State) (f : RxFrame) (h : s.hears f) (g : State → State) : s.takeFrame f g = g (s.heard f) := by
  obtain ⟨h1, h2, h3, h4, h5, h6, h7, h8⟩ := h
  have hw := s.heard_who f
  unfold State.takeFrame
  rw [h1, h2]
  have he : s.genCheck f = (true, (s.genCheck f).2) := by rw [← h3]
  rw [he]
  dsimp only
  have hu : ((s.genCheck f).2.stampFrame f).heardFrom f.port f.frame.src = s.heard f := rfl
  rw [hu]
  have ha : (f.frame.src == (s.heard f).ownAddr) = false := by rw [hw.2.1]; simpa using h5
  have hl : ¬ 1024 < f.frame.payload.length := by omega
  have hm : (s.heard f).forMe f.frame = true := by
    unfold State.forMe
    rw [hw.2.2.1, h4, hw.2.1]
    by_cases hf : f.frame.flags.getLsbD 3 = true
    · rw [hf]; simp
    · rw [if_neg hf] at h8; rw [h8]; simp
  have h9 : (f.frame.flags.getLsbD 0 || (f.frame.flags.getLsbD 3 && f.frame.src != 0)) = false := by
    rw [h7]
    by_cases hf : f.frame.flags.getLsbD 3 = true
    · rw [if_pos hf] at h8; rw [h8]; simp
    · have : f.frame.flags.getLsbD 3 = false := by simpa using hf
      rw [this]; rfl
  rw [ha, h9, hm]
  simp only [Option.any_none, Bool.not_true, Bool.or_self, Bool.false_eq_true, if_false, Bool.and_false, if_true, if_neg hl]

/-! ## Sending -/

/-- The ports a new frame leaves on. -/
abbrev State.portsOf (s : State) (f : DFrame) : List Port :=
  if f.flags.getLsbD 3 then [Port.A, Port.B].filter s.portOn else s.portsFor f.dest

theorem State.sendFrame_eq (s : State) (f : DFrame) :
    s.sendFrame f = { s with dl := { s.dl with queue := s.dl.queue ++ (s.portsOf f).map (s.queued f) } } := by
  unfold State.sendFrame
  have h : ∀ (ps : List Port) (qs : List QFrame),
      ps.foldl (fun t p => t.queueOn p f) ({ s with dl := { s.dl with queue := qs } } : State) =
        { s with dl := { s.dl with queue := qs ++ ps.map (s.queued f) } } := by
    intro ps
    induction ps with
    | nil => intro qs; simp
    | cons p ps ih =>
      intro qs
      rw [List.foldl_cons]
      have : State.queueOn ({ s with dl := { s.dl with queue := qs } } : State) p f =
          { s with dl := { s.dl with queue := qs ++ [s.queued f p] } } := rfl
      rw [this, ih]
      simp
  exact h _ s.dl.queue

/-- A frame of this node's own: the next SEQ, and its place in the queues of its ports. -/
theorem State.originate_eq (s : State) (d : BitVec 12) (ty : Byte) (fl : BitVec 5) (p : List Byte) :
    s.originate d ty fl p = (s.ownFrame d ty fl p,
      { s with dn := { s.dn with seq := s.dn.seq + 1#16 },
               dl := { s.dl with queue := s.dl.queue ++ (s.portsOf (s.ownFrame d ty fl p)).map (s.queued (s.ownFrame d ty fl p)) } }) := by
  show (s.ownFrame d ty fl p, State.sendFrame { s with dn := { s.dn with seq := s.dn.seq + 1#16 } } (s.ownFrame d ty fl p)) = _
  rw [State.sendFrame_eq]
  rfl

/-- The same to one address. -/
theorem State.originate_to (s : State) (d : BitVec 12) (ty : Byte) (p : List Byte) :
    (s.originate d ty 0 p).2 =
      { s with dn := { s.dn with seq := s.dn.seq + 1#16 },
               dl := { s.dl with queue := s.dl.queue ++ (s.portsFor d).map (s.queued (s.ownFrame d ty 0 p)) } } := by
  have h : s.portsOf (s.ownFrame d ty 0 p) = s.portsFor d := if_neg (by show ¬ ((0 : BitVec 5).getLsbD 3 = true); decide)
  rw [State.originate_eq, h]

end Sys2Proof.Machine
end

