-- ==== Sys2Proof/Laws/Sequencer.lean ====
section
/-! SUPPORT. Sys2Proof/Laws/Sequencer.lean: what entering a sequencer state leaves behind (R47 to R54). -/

set_option Elab.async false

namespace Sys2Proof.Machine

variable (s : State)

@[simp] theorem State.when_true (f : State → State) : State.when s true f = f s := rfl

@[simp] theorem State.when_false (f : State → State) : State.when s false f = s := rfl

/-- A command in a state fit for its effect completes with it. -/
theorem State.when_next {b : Bool} {f : State → State} {t : State} (hb : b = true) (ht : f s = t) :
    (Host.Outcome.next (State.when s b f) : Host.Outcome State Fault Refusal) = .next t := by rw [hb, State.when_true, ht]

/-! ## WAKE -/

theorem State.enterWake_pw (env : WakeEnv) : (s.enterWake env).pw = { st := .wake, stepBusy := true, rtclost := s.aon.fromOff } := by
  unfold State.enterWake
  dsimp only
  rw [(State.testFreeze_keeps _).eqPw, (State.reportCut_keeps _ _).eqPw, (State.xtalReport_keeps _).eqPw, (State.reportHold_keeps _).eqPw]
  unfold State.rtcCheck
  rw [(State.recover_keeps _).eqAon, (State.loadRows_keeps _ _ _).eqAon]
  dsimp only
  split
  · rw [(State.logEv_keeps ..).eqPw]
    dsimp only
    rw [(State.recover_keeps _).eqPw, (State.loadRows_keeps _ _ _).eqPw]
    rfl
  · dsimp only
    rw [(State.recover_keeps _).eqPw, (State.loadRows_keeps _ _ _).eqPw]
    rfl

theorem State.enterWake_pins (env : WakeEnv) : (s.enterWake env).pins = { s.pins with vioExternal := env.vioExternal } := by
  unfold State.enterWake
  dsimp only
  rw [(State.testFreeze_keeps _).eqPins, (State.reportCut_keeps _ _).eqPins, (State.xtalReport_keeps _).eqPins,
    (State.reportHold_keeps _).eqPins, (State.rtcCheck_keeps _).eqPins, (State.recover_keeps _).eqPins, (State.loadRows_keeps _ _ _).eqPins]
  rfl

/-- The flow engine starts from its reset values. -/
theorem State.enterWake_fe (env : WakeEnv) : (s.enterWake env).fe = {} := by
  unfold State.enterWake
  dsimp only
  rw [(State.testFreeze_keeps _).eqFe, (State.reportCut_keeps _ _).eqFe, (State.xtalReport_keeps _).eqFe,
    (State.reportHold_keeps _).eqFe, (State.rtcCheck_keeps _).eqFe, (State.recover_keeps _).eqFe, (State.loadRows_keeps _ _ _).eqFe]
  rfl

/-- The clock of the always-on domain runs on; the crossing of OFF has been reported. -/
theorem State.enterWake_aon (env : WakeEnv) :
    (s.enterWake env).aon.rtc = s.aon.rtc ∧ (s.enterWake env).aon.fromOff = false ∧ (s.enterWake env).aon.thermLatch = s.aon.thermLatch := by
  unfold State.enterWake
  dsimp only
  rw [(State.testFreeze_keeps _).eqAon, (State.reportCut_keeps _ _).eqAon]
  have hx : ∀ u : State, u.xtalReport.aon.rtc = u.aon.rtc ∧ u.xtalReport.aon.fromOff = u.aon.fromOff ∧
      u.xtalReport.aon.thermLatch = u.aon.thermLatch := by
    intro u
    unfold State.xtalReport
    split <;> simp [State.irq]
  have hh : ∀ u : State, u.reportHold.aon.rtc = u.aon.rtc ∧ u.reportHold.aon.fromOff = u.aon.fromOff ∧
      u.reportHold.aon.thermLatch = u.aon.thermLatch := by
    intro u
    unfold State.reportHold
    dsimp only
    rw [(State.reportTherm_keeps _ _).eqAon, (State.reportTherm_keeps _ _).eqAon]
    exact ⟨rfl, rfl, rfl⟩
  have hr : ∀ u : State, u.rtcCheck.aon = { u.aon with fromOff := false } := by
    intro u
    unfold State.rtcCheck
    dsimp only
    split <;> simp
  rw [(hx _).1, (hx _).2.1, (hx _).2.2, (hh _).1, (hh _).2.1, (hh _).2.2, hr, (State.recover_keeps _).eqAon, (State.loadRows_keeps _ _ _).eqAon]
  exact ⟨rfl, rfl, rfl⟩

/-! ## BACKUP and OFF -/

theorem State.enterBackup_keeps' : Keeps [.pins, .pw, .reg, .xb, .ad, .lp, .dl, .hb] s s.enterBackup :=
  (State.enterBackup_keeps s).mono

theorem State.enterBackup_st : s.enterBackup.pw.st = .backup := rfl

theorem State.enterOff_st : s.enterOff.pw.st = .off := rfl

/-! ## DRAIN -/

theorem State.leaveRun_pw : s.leaveRun.pw = s.pw := (State.leaveRun_keeps s).eqPw

theorem State.zeroDac_ad (aux : Bool) (c : Nat) :
    (s.zeroDac aux c).ad = if aux then { s.ad with daAux := 0 } else { s.ad with daLoop := 0 } := by
  unfold State.zeroDac
  cases aux <;> simp

theorem State.zeroDacs_ad (c : Nat) : (s.zeroDacs c).ad = { s.ad with daLoop := 0, daAux := 0 } := by
  unfold State.zeroDacs
  rw [State.zeroDac_ad, if_pos rfl, State.zeroDac_ad, if_neg (by decide)]

theorem State.abortCeremony_cause (c : Nat) :
    (s.abortCeremony c).fram.cause = s.fram.cause ∧ (s.abortCeremony c).fram.last = s.fram.last := by
  unfold State.abortCeremony
  split <;> simp [State.irq]

theorem State.nextConv_dacs : s.nextConv.ad.daLoop = s.ad.daLoop ∧ s.nextConv.ad.daAux = s.ad.daAux := by
  unfold State.nextConv State.startConv
  split
  · split
    · exact ⟨rfl, rfl⟩
    · split <;> exact ⟨rfl, rfl⟩
  · split <;> exact ⟨rfl, rfl⟩

/-- What the next conversion leaves stands whether or not it starts. -/
theorem State.ite_nextConv {α : Type} (g : State → α) (hg : ∀ u : State, g u.nextConv = g u) {c : Prop} [Decidable c] (t : State) :
    g (if c then t else t.nextConv) = g t := by
  split
  · rfl
  · exact hg t

/-- DRAIN and the cause it records; the level stays, at L2 or higher, and nothing counts toward a rise (02, Edges). -/
theorem State.enterDrain_pw (c : BitVec 3) :
    (s.enterDrain c).pw = { s.pw with st := .drain, offPend := false, stepBusy := false, drainRun := s.pw.st == .run,
                                      level := if s.pw.level < 2 then 2 else s.pw.level,
                                      upCount := 0, fitCount := 0, charging := false } := by
  unfold State.enterDrain
  dsimp only
  rw [State.ite_nextConv (fun u => u.pw) (fun u => (State.nextConv_keeps u).eqPw)]
  rw [(State.abortCeremony_keeps _ _).eqPw, (State.cutLoad_keeps _).eqPw, (State.boostOff_keeps _).eqPw, (State.zeroDacs_keeps _ _).eqPw,
    (State.irq_keeps _ _).eqPw, (State.logEv_keeps _ _ _).eqPw]
  dsimp only
  split <;> simp [State.leaveRun_pw]

theorem State.enterDrain_cause (c : BitVec 3) :
    (s.enterDrain c).fram.cause = c ∧ (s.enterDrain c).fram.last = BitVec.ofNat 3 s.pw.st.code := by
  unfold State.enterDrain
  dsimp only
  rw [State.ite_nextConv (fun u => u.fram) (fun u => (State.nextConv_keeps u).eqFramAll)]
  rw [(State.abortCeremony_cause _ _).1, (State.abortCeremony_cause _ _).2, (State.cutLoad_keeps _).eqFramAll,
    (State.boostOff_keeps _).eqFramAll, (State.zeroDacs_keeps _ _).eqFramAll, (State.irq_keeps _ _).eqFramAll,
    (State.logEv_keeps _ _ _).eqFramAll]
  exact ⟨rfl, rfl⟩

theorem State.enterDrain_dacs (c : BitVec 3) :
    (s.enterDrain c).ad.daLoop = 0 ∧ (s.enterDrain c).ad.daAux = 0 ∧ (s.enterDrain c).xb.brun = false := by
  unfold State.enterDrain
  dsimp only
  rw [State.ite_nextConv (fun u => u.ad.daLoop) (fun u => u.nextConv_dacs.1),
    State.ite_nextConv (fun u => u.ad.daAux) (fun u => u.nextConv_dacs.2),
    State.ite_nextConv (fun u => u.xb) (fun u => (State.nextConv_keeps u).eqXb)]
  rw [(State.abortCeremony_keeps _ _).eqAd, (State.cutLoad_keeps _).eqAd, (State.boostOff_keeps _).eqAd, State.zeroDacs_ad,
    (State.abortCeremony_keeps _ _).eqXb, (State.cutLoad_keeps _).eqXb]
  exact ⟨rfl, rfl, rfl⟩

end Sys2Proof.Machine
end

