-- ==== Sys2Proof/Laws/HostCycles.lean ====
section
/-! SUPPORT. Sys2Proof/Laws/HostCycles.lean: what the host's byte cycles come to: commits, violations, reads. -/

set_option Elab.async false

set_option linter.all false

open Sys2Proof

namespace Sys2Proof.Machine

theorem hostCommit_row (s : State) (c : Instr) (a : Nat) (r hi lo : Byte) (he : exec c s = .next (s.hostCommit a hi true)) (h1 : s.busOn = true) (h2 : s.hb.wlatch = some (r, lo)) (hr : r.toNat = a) (ha : a ≠ 0x7A) (h3 : s.sc.armHost ≠ .armed) :
    exec c s = .next (s.unlatched.writeReg .host false a (wordOf hi lo)) := he.trans (congrArg _ (State.hostCommit_plain s r lo hi a true h1 h2 hr ha h3))

theorem hostCommit_row_armed (s : State) (c : Instr) (a : Nat) (r hi lo : Byte) (he : exec c s = .next (s.hostCommit a hi true)) (h1 : s.busOn = true) (h2 : s.hb.wlatch = some (r, lo)) (hr : r.toNat = a) (ha : a ≠ 0x7A) (h3 : s.sc.armHost = .armed) :
    exec c s = .next ((s.unlatched.setArm .host .idle).writeReg .host true a (wordOf hi lo)) := he.trans (congrArg _ (State.hostCommit_armed s r lo hi a true h1 h2 hr ha h3))

theorem registerWrite_eq (s : State) (addr hi : Byte) (h1 : s.busOn = true) (h7 : addr.getLsbD 7 = false) (h0 : addr.getLsbD 0 = true) :
    exec (.registerWrite addr hi) s = .next (s.hostCommit (addr.toNat - 1) hi true) := by
  show Host.Outcome.next (s.hostWrite addr hi false) = _
  unfold State.hostWrite
  rw [h1, h7, h0]; rfl

theorem lowByteWrite_eq (s : State) (addr lo : Byte) (h1 : s.busOn = true) (h7 : addr.getLsbD 7 = false) (h0 : addr.getLsbD 0 = false) :
    exec (.lowByteWrite addr lo) s = .next (s.hostLow addr lo) := by
  show Host.Outcome.next (s.hostWrite addr lo true) = _
  unfold State.hostWrite
  rw [h1, h7, h0]; rfl

theorem State.busViolation_room (s : State) (c : Word) (f d : Nat) (h : c ∉ s.hb.secCodes) (h2 : s.ev.buf.length < 32) :
    s.busViolation c f d = { s with hb := { s.hb with hbv := true, flags := s.hb.flags ||| BitVec.ofNat 6 (2 ^ f), secCodes := c :: s.hb.secCodes }, ev := { s.ev with buf := s.ev.buf ++ [s.eventOf c d] } } := by
  unfold State.busViolation State.logOnce
  rw [if_neg (by exact h), State.logEv_room _ _ _ (by exact h2)]; rfl

theorem hostRead_eq (s : State) (h1 : s.busOn = true) (a : Nat) : s.hostRead a = { (s.readEffect a) with hb := { (s.readEffect a).hb with adout := loByte (s.readReg a), rlatch := some (BitVec.ofNat 8 a, hiByte (s.readReg a)) } } := by
  unfold State.hostRead; rw [if_pos h1]; rfl

theorem plw_congr {s t : State} (h1 : t.hb.rows = s.hb.rows) (h2 : t.fram.nv = s.fram.nv) (k : Nat) : t.plw k = s.plw k := State.nv_congr h1 h2 _

theorem Keeps.rows {l : List Part} {t u : State} (k : Keeps l t u) (h : l.contains .hb = false := by with_unfolding_all rfl) : u.hb.rows = t.hb.rows := by
  have e := congrArg Hb.rows (k.eqHb h)
  exact e

theorem propose_same (s : State) (w : Nat) (c : Change) (b : Bool) (h : b = false) : s.propose w b c = s := by
  subst h; unfold State.propose; rfl

theorem startUp_run (s : State) (h : s.running = true) : s.startUp = false := by
  simp [State.running] at h; simp [State.startUp, h]

theorem auditFull_room (s : State) (h : s.lg.acount < 2048) : s.auditFull = false := by simp [State.auditFull]; omega

end Sys2Proof.Machine
end

