-- ==== Sys2Proof/Laws/Antiphon.lean ====
section
/-! SUPPORT. Sys2Proof/Laws/Antiphon.lean: what an exchange's messages change and keep. -/

set_option Elab.async false

set_option linter.all false

open Sys2Proof

namespace Sys2Proof.Machine

theorem merge_period (a b : Word) : (merge 1 a b).extractLsb' 1 6 = a.extractLsb' 1 6 := by
  exact extract_merge_old (by decide) a b

theorem anActivate_spec (s : State) : ∃ st q, s.anActivate = { s with fram := { s.fram with anState := st }, dl := { s.dl with queue := q } } ∧
   (q = s.dl.queue ∨ q = (s.dropAntiphon pairKinds).dl.queue) ∧
   ((s.fram.anState = 2 ∨ s.fram.anState = 3 ∨ s.fram.anState = 4) → (st = 2 ∨ st = 3 ∨ st = 4)) ∧
   (s.fram.anState = 0 → st = 0) := by
  unfold State.anActivate
  dsimp only
  split
  · rename_i h
    have hs : ∀ b : Bool, (if b = true then (2 : BitVec 3) else if s.fram.anState = 2 then 3 else s.fram.anState) = 2 ∨
        (if b = true then (2 : BitVec 3) else if s.fram.anState = 2 then 3 else s.fram.anState) = 3 ∨
        (if b = true then (2 : BitVec 3) else if s.fram.anState = 2 then 3 else s.fram.anState) = 4 := by
      intro b
      split
      · exact .inl rfl
      · split
        · exact .inr (.inl rfl)
        · exact h
    split
    · exact ⟨_, s.dl.queue, rfl, .inl rfl, fun _ => hs _, fun h0 => by rw [h0] at h; exact absurd h (by decide)⟩
    · exact ⟨_, _, rfl, .inr rfl, fun _ => hs _, fun h0 => by rw [h0] at h; exact absurd h (by decide)⟩
  · exact ⟨s.fram.anState, s.dl.queue, rfl, .inl rfl, fun h => h, fun h => h⟩

/-- The same while FRAM rows are not to be written: then nothing changes yet (R218). -/
theorem anActivate_when (s : State) (b : Bool) : ∃ st q, s.when b State.anActivate = { s with fram := { s.fram with anState := st }, dl := { s.dl with queue := q } } ∧
   (q = s.dl.queue ∨ q = (s.dropAntiphon pairKinds).dl.queue) ∧
   ((s.fram.anState = 2 ∨ s.fram.anState = 3 ∨ s.fram.anState = 4) → (st = 2 ∨ st = 3 ∨ st = 4)) ∧
   (s.fram.anState = 0 → st = 0) := by
  cases b
  · exact ⟨s.fram.anState, s.dl.queue, rfl, .inl rfl, fun h => h, fun h => h⟩
  · exact anActivate_spec s

theorem anCtl_eq (x : State) (armed : Bool) (v : Word) (hi : x.hb.ok) (h1 : x.hb.nvr = true) (h2 : x.hb.rows.length < 2) (h3 : x.startUp = false) (h4 : x.aon.sealOpen = true) :
   ∃ out st q u, u = { x with hb := { x.hb with rows := out }, fram := { x.fram with anState := st }, dl := { x.dl with queue := q },
                              an := { x.an with rst := bitAt v 8 } } ∧
   (q = x.dl.queue ∨ q = (x.dropAntiphon pairKinds).dl.queue) ∧ bufferRow x.hb.rows (Config.key 0 0x52) (merge 1 (x.nvReg 0x52) v) = some out ∧
   ((x.fram.anState = 2 ∨ x.fram.anState = 3 ∨ x.fram.anState = 4) → (st = 2 ∨ st = 3 ∨ st = 4)) ∧
   (x.fram.anState = 0 → st = 0) ∧ (u.nvReg 0x52).extractLsb' 1 6 = (x.nvReg 0x52).extractLsb' 1 6 ∧
   x.writeAnCtl armed v = (let old : BitVec 6 := (u.nvReg 0x52).extractLsb' 1 6
    let new : BitVec 6 := v.extractLsb' 1 6
    let y := u.propose 0x52 (old != new) (.period old new)
    if !armed then y
    else
      let z := if bitAt v 10 then y.askUnpair else y
      let z := if bitAt v 9 then z.askDref else z
      if bitAt v 7 then z.armCeremony else z) := by
  obtain ⟨out, ho, he⟩ := State.nvWrite_room x 0x52 0 (Config.key 0 0x52) (merge 1 (x.nvReg 0x52) v) h1 h2
  obtain ⟨st, q, hs1, hq, hs2, hs3⟩ := anActivate_when ({ x with hb := { x.hb with rows := out } } : State) ({ x with hb := { x.hb with rows := out } } : State).runOrDrain
  refine ⟨out, st, q, _, rfl, hq, ho, hs2, hs3, ?_, ?_⟩
  · have : State.nv ({ x with hb := { x.hb with rows := out }, fram := { x.fram with anState := st }, dl := { x.dl with queue := q }, an := { x.an with rst := bitAt v 8 } } : State) (Config.key 0 0x52) = merge 1 (x.nvReg 0x52) v := by
      have := State.nv_nvWrite x hi h1 0x52 0 (Config.key 0 0x52) (merge 1 (x.nvReg 0x52) v) ho (Config.key 0 0x52)
      rw [he, if_pos rfl] at this
      exact (State.nv_congr (s := { x with hb := { x.hb with rows := out } }) rfl rfl _).trans this
    show (State.nv _ (Config.key 0 0x52)).extractLsb' 1 6 = _
    rw [this, merge_period]
  · unfold State.writeAnCtl State.nvField
    dsimp only
    rw [he, hs1]
    exact State.gate_open _ _ _ (by exact h3) (by exact h4)

theorem anFrame_hears (s : State) (f : RxFrame) (ty k : Byte) (hty : ty = 8 ∨ ty = 9) (h : s.hearsAntiphon f ty k) (g) : s.anFrame f k g = g f.frame.payload (s.heard f) := by
  obtain ⟨h1, h2, h3, h4, h5⟩ := h
  unfold State.anFrame State.when
  rw [h2]
  have : ((ty == 0x08#8) || (ty == 0x09#8)) = true := by rcases hty with h | h <;> subst h <;> rfl
  rw [this, if_pos rfl]
  show s.takeFrame f _ = _
  rw [State.takeFrame_hears _ _ h1]
  dsimp only
  rw [h3, h5, h4]
  simp

theorem ceremonyDone_done (v : State) (a b : Bool) (h1 : v.an.hasPeer = true) (h2 : v.an.sentConfirm = true) (h3 : v.an.gotConfirm = some v.an.peer) (h4 : v.lg.acount < 2048) (h5 : v.pairQueued = false) :
   v.ceremonyDone = v.queueChange (.paired v.an.peer (v.an.peerIntent == 1)) := by
  unfold State.ceremonyDone
  rw [h1, h2, h3, h5, auditFull_room v h4]
  simp

theorem aseqEnd_id (s : State) (h : s.fram.aseq ≠ 0xFFFFFFFF#32) : s.aseqEnd = s := by
  unfold State.aseqEnd; rw [if_neg h]

/-- What an exchange's check and book-keeping leave alone stands. -/
def SameExchange (s t : State) : Prop := t.an.restoreWait = s.an.restoreWait ∧ t.fram = s.fram ∧ t.an.ppend = s.an.ppend ∧ t.an.misses = s.an.misses ∧ t.an.awaiting = s.an.awaiting ∧ t.dn = s.dn ∧ t.an.pnot = s.an.pnot

theorem SameExchange.refl (s : State) : SameExchange s s := ⟨rfl, rfl, rfl, rfl, rfl, rfl, rfl⟩

theorem SameExchange.trans {s t u : State} (h : SameExchange s t) (k : SameExchange t u) : SameExchange s u := ⟨k.1.trans h.1, k.2.1.trans h.2.1, k.2.2.1.trans h.2.2.1, k.2.2.2.1.trans h.2.2.2.1, k.2.2.2.2.1.trans h.2.2.2.2.1, k.2.2.2.2.2.1.trans h.2.2.2.2.2.1, k.2.2.2.2.2.2.trans h.2.2.2.2.2.2⟩

theorem SameExchange.logEv (s : State) c d : SameExchange s (s.logEv c d) := by unfold State.logEv; split <;> exact ⟨rfl, rfl, rfl, rfl, rfl, rfl, rfl⟩

theorem SameExchange.pinned (s : State) a b v : SameExchange s (s.pinned a b v) := by
  unfold State.pinned; split
  · exact (SameExchange.trans (t := { s with pl := _ }) ⟨rfl, rfl, rfl, rfl, rfl, rfl, rfl⟩ (SameExchange.logEv ..))
  · exact SameExchange.refl _

theorem SameExchange.anEvent (s : State) c d : SameExchange s (s.anEvent c d) := SameExchange.trans (SameExchange.logEv ..) ⟨rfl, rfl, rfl, rfl, rfl, rfl, rfl⟩

theorem SameExchange.anCount (s : State) : SameExchange s s.anCount := by
  unfold State.anCount
  exact SameExchange.trans (t := { s with an := _ }) ⟨rfl, rfl, rfl, rfl, rfl, rfl, rfl⟩ (SameExchange.pinned ..)

theorem SameExchange.seePeriod (s : State) p : SameExchange s (s.seePeriod p) := by
  unfold State.seePeriod
  dsimp only
  split
  · exact ⟨rfl, rfl, rfl, rfl, rfl, rfl, rfl⟩
  · have : SameExchange s (State.anCount { s with an := { s.an with callPeriod := (payAt p 2).extractLsb' 0 6, perSeen := some ((payAt p 2).extractLsb' 0 6, s.anCode) } }) :=
      SameExchange.trans (t := { s with an := { s.an with callPeriod := (payAt p 2).extractLsb' 0 6, perSeen := some ((payAt p 2).extractLsb' 0 6, s.anCode) } }) ⟨rfl, rfl, rfl, rfl, rfl, rfl, rfl⟩ (SameExchange.anCount _)
    split
    · exact this
    · exact SameExchange.trans this (SameExchange.logEv _ _ _)

theorem SameExchange.setDiv (s : State) v : SameExchange s (s.setDiv v) := by
  unfold State.setDiv
  dsimp only
  split
  · split
    · exact ⟨rfl, rfl, rfl, rfl, rfl, rfl, rfl⟩
    · exact SameExchange.trans (t := { s with an := _ }) ⟨rfl, rfl, rfl, rfl, rfl, rfl, rfl⟩ (SameExchange.anEvent ..)
  · split
    · exact SameExchange.trans (t := { s with an := _ }) ⟨rfl, rfl, rfl, rfl, rfl, rfl, rfl⟩ (SameExchange.anEvent ..)
    · exact ⟨rfl, rfl, rfl, rfl, rfl, rfl, rfl⟩

theorem SameExchange.diverge (s : State) p : SameExchange s (s.diverge p) := by
  unfold State.diverge
  split
  · exact SameExchange.refl _
  · split
    · exact ⟨rfl, rfl, rfl, rfl, rfl, rfl, rfl⟩
    · split
      · exact SameExchange.refl _
      · split
        · exact ⟨rfl, rfl, rfl, rfl, rfl, rfl, rfl⟩
        · dsimp only
          split
          · exact SameExchange.refl _
          · exact SameExchange.setDiv ..

/-- The mirror's counters and the exchange's book-keeping stand. -/
def SameHeld (s t : State) : Prop := t.fram.rxaseq = s.fram.rxaseq ∧ t.fram.rxcseq = s.fram.rxcseq ∧ t.fram.rxtotals = s.fram.rxtotals ∧ t.fram.stale = s.fram.stale ∧ t.fram.aseq = s.fram.aseq ∧ t.an.ppend = s.an.ppend ∧ t.an.misses = s.an.misses ∧ t.an.awaiting = s.an.awaiting ∧ t.dn = s.dn ∧ t.an.pnot = s.an.pnot

theorem SameExchange.held {s t : State} (h : SameExchange s t) : SameHeld s t := by
  obtain ⟨_, a, b, c, d, e, f⟩ := h
  exact ⟨by rw [a], by rw [a], by rw [a], by rw [a], by rw [a], b, c, d, e, f⟩

theorem SameHeld.trans {s t u : State} (h : SameHeld s t) (k : SameHeld t u) : SameHeld s u := by
  obtain ⟨a1, a2, a3, a4, a5, a6, a7, a8, a9, a10⟩ := h
  obtain ⟨b1, b2, b3, b4, b5, b6, b7, b8, b9, b10⟩ := k
  exact ⟨b1.trans a1, b2.trans a2, b3.trans a3, b4.trans a4, b5.trans a5, b6.trans a6, b7.trans a7, b8.trans a8, b9.trans a9, b10.trans a10⟩

theorem SameHeld.refuseFull (s : State) w : SameHeld s (s.refuseFull w) := (SameExchange.trans (SameExchange.logEv ..) ⟨rfl, rfl, rfl, rfl, rfl, rfl, rfl⟩ : SameExchange s (s.refuseFull w)).held

theorem SameHeld.takeRef (s : State) p : SameHeld s (s.takeRef p) := by
  unfold State.takeRef
  split
  · exact (SameExchange.refl _).held
  · split
    · exact (SameExchange.refl _).held
    · split
      · exact (SameExchange.refl _).held
      · split
        · exact SameHeld.trans (t := { s with fram := _ }) ⟨rfl, rfl, rfl, rfl, rfl, rfl, rfl, rfl, rfl, rfl⟩ (SameHeld.refuseFull ..)
        · exact (SameExchange.refl _).held

theorem exchOk_run (s : State) (h : s.exchOk = true) : s.running = true ∧ s.ck.ltv = true ∧ s.an.restoreWait = none := by
  simp [State.exchOk] at h; exact ⟨h.1.1.1.1.1.1, h.1.1.1.1.1.2, h.2⟩

theorem partners_from (u : State) (f : RxFrame) (h : u.partners f) (g) : u.fromPartner f g = g { u with an := { u.an with tagFails := 0 } } := by
  obtain ⟨h1, h2, h3, h4⟩ := h
  have h0 : ¬ u.fram.anState = 0 := by rcases h1 with h | h <;> rw [h] <;> decide
  unfold State.fromPartner
  dsimp only
  rw [if_neg h0, h3, h4]
  simp only [Bool.not_true, Bool.false_eq_true, if_false, beq_self_eq_true]
  rw [if_pos h2]
  have : (({ u with an := { u.an with tagFails := 0 } } : State).fram.anState = 3 ∨ ({ u with an := { u.an with tagFails := 0 } } : State).fram.anState = 4) := h1
  rw [if_pos this]
  unfold State.followAddr
  rw [if_pos (by exact h2)]

theorem seeCdig_spec (s : State) p : SameExchange s (s.seeCdig p) := by
  unfold State.seeCdig
  split
  · split
    · exact SameExchange.anEvent ..
    · exact SameExchange.refl _
  · exact SameExchange.refl _

theorem mirrorMessage_fram (s : State) p : (s.mirrorMessage p).fram.aseq = s.fram.aseq ∧ (s.mirrorMessage p).an = s.an ∧ (s.mirrorMessage p).dn = s.dn ∧ (s.mirrorMessage p).fram.anState = s.fram.anState ∧ (s.mirrorMessage p).fram.nv = s.fram.nv := by
  unfold State.mirrorMessage State.putMirror
  dsimp only
  cases s.newestMirror with
  | none => exact ⟨rfl, rfl, rfl, rfl, rfl⟩
  | some b => cases b <;> exact ⟨rfl, rfl, rfl, rfl, rfl⟩

theorem partnerBack_spec (m : State) (e : Bool) :
    (m.partnerBack e).fram.rxaseq = m.fram.rxaseq ∧ (m.partnerBack e).fram.rxcseq = m.fram.rxcseq ∧ (m.partnerBack e).fram.rxtotals = m.fram.rxtotals ∧
    (m.partnerBack e).fram.stale = false ∧ (m.partnerBack e).fram.aseq = m.fram.aseq ∧ (m.partnerBack e).fram.nv = m.fram.nv ∧
    (m.partnerBack e).an.ppend = m.an.ppend ∧ (m.partnerBack e).an.misses = (if e then 0 else m.an.misses) ∧
    (m.partnerBack e).an.awaiting = m.an.awaiting ∧ (m.partnerBack e).an.pnot = m.an.pnot ∧ (m.partnerBack e).an.restoreWait = m.an.restoreWait ∧
    (m.partnerBack e).dn = m.dn ∧ ((m.fram.anState = 3 ∨ m.fram.anState = 4) → (m.partnerBack e).fram.anState = 3) := by
  unfold State.partnerBack
  dsimp only
  split
  · have h1 : ∀ u : State, (u.anEvent 0x0804 m.an.misses).fram = u.fram := fun u => (State.anEvent_keeps ..).eqFramAll
    have h2 : ∀ u : State, (u.anEvent 0x0804 m.an.misses).an = u.an := fun u => (State.anEvent_keeps ..).eqAn
    have h3 : ∀ u : State, (u.anEvent 0x0804 m.an.misses).dn = u.dn := fun u => (State.anEvent_keeps ..).eqDn
    rw [h1, h2, h3]
    exact ⟨rfl, rfl, rfl, rfl, rfl, rfl, rfl, rfl, rfl, rfl, rfl, rfl, fun _ => rfl⟩
  · rename_i hn
    exact ⟨rfl, rfl, rfl, rfl, rfl, rfl, rfl, rfl, rfl, rfl, rfl, rfl, fun h => h.resolve_right hn⟩

theorem takeMirror_spec (s : State) (p) : (s.takeMirror p).holdsMessage p ∧ (s.takeMirror p).fram.aseq = s.fram.aseq ∧ (s.takeMirror p).an.awaiting = s.an.awaiting ∧ (s.takeMirror p).dn = s.dn ∧ (s.takeMirror p).an.pnot = s.an.pnot ∧ ((s.fram.anState = 3 ∨ s.fram.anState = 4) → (s.takeMirror p).fram.anState = 3) ∧ (s.takeMirror p).an.restoreWait = s.an.restoreWait ∧ (s.takeMirror p).fram.nv = s.fram.nv ∧
    ((s.takeMirror p).an.misses = if payAt p 1 == 0x01#8 || payAt p 1 == 0x02#8 then 0 else s.an.misses) := by
  unfold State.takeMirror
  dsimp only
  have h1 := seeCdig_spec s p
  have h2 := mirrorMessage_fram (s.seeCdig p) p
  generalize hm : (s.seeCdig p).mirrorMessage p = m at h2 ⊢
  obtain ⟨a1, a2, a3, a4, a5⟩ := h2
  obtain ⟨b0, b1, b2, b3, b4, b5, b6⟩ := h1
  rw [b1] at a1 a4 a5
  rw [b5] at a3
  obtain ⟨c1, c2, c3, c4, c5, c6, c7, c8, c9, c10, c11, c12, c13⟩ := partnerBack_spec ({ m with
    fram := { m.fram with rxaseq := BitVec.ofNat 32 (beAt p 0x0C 4), rxcseq := BitVec.ofNat 32 (beAt p 0x18 4), rxtotals := messageInts p },
    an := { m.an with ppend := (List.range 4).map (fun i => (BitVec.ofNat 32 (beAt p (0xCC + 4 * i) 4) : F32)) } } : State)
    (payAt p 1 == 0x01#8 || payAt p 1 == 0x02#8)
  refine ⟨⟨c1, c2, c3, c7, fun h => c8.trans (if_pos ?_), c4⟩, c5.trans a1, c9.trans ((congrArg An.awaiting a2).trans b4), c12.trans a3,
    c10.trans ((congrArg An.pnot a2).trans b6), fun h => c13 ?_, c11.trans ((congrArg An.restoreWait a2).trans b0), c6.trans a5, c8.trans ?_⟩
  · rcases h with h | h <;> rw [h] <;> decide
  · show m.fram.anState = 3 ∨ m.fram.anState = 4
    rw [a4]; exact h
  · show (if _ then 0 else m.an.misses) = _
    rw [congrArg An.misses a2, b3]

theorem holds_fq {s t : State} {p} (h : s.holdsMessage p) (k : SameHeld s t) : t.holdsMessage p :=
  ⟨k.1.trans h.1, k.2.1.trans h.2.1, k.2.2.1.trans h.2.2.1, k.2.2.2.2.2.1.trans h.2.2.2.1, fun hp => k.2.2.2.2.2.2.1.trans (h.2.2.2.2.1 hp), k.2.2.2.1.trans h.2.2.2.2.2⟩

theorem anSequence_fresh (s : State) (p) (h : s.fresh p) (a b c d) (hb : b s = none) : s.anSequence p a b c d = d (s.takeMirror p) := by
  unfold State.anSequence
  dsimp only
  have h1 := h.1
  rw [if_neg (by omega), if_neg (by omega), hb]
  dsimp only
  rw [if_pos h.2]

/-- A CALL or ANSWER is queued as it stands; its ASEQ and TAG follow when it is sent (R265). -/
theorem anExchange_spec (s : State) (d k a c l) (h : s.fram.aseq ≠ 0xFFFFFFFF#32) : s.anExchange d k a c l = { s with
    dn := { s.dn with seq := s.dn.seq + 1#16 },
    dl := { s.dl with queue := s.dl.queue ++ (s.portsFor d).map (s.queued (s.ownFrame d 0x08 0 (s.anMessage k a c l))) } } := by
  unfold State.anExchange State.anSend
  rw [if_neg h, State.originate_to]

theorem exchOk_congr (s t : State) (h1 : t.pw = s.pw) (h2 : t.hb.frzTs = s.hb.frzTs) (h2' : t.hb.frzTest = s.hb.frzTest) (h3 : t.hb.rows = s.hb.rows) (h4 : t.fram.nv = s.fram.nv) (h5 : t.ck = s.ck) (h6 : t.fram.aseq = s.fram.aseq) (h7 : t.fram.anState = 3 ∨ t.fram.anState = 4) (h8 : t.an.restoreWait = s.an.restoreWait) (h : s.exchOk = true) : t.exchOk = true := by
  have hn : t.nvReg 0x52 = s.nvReg 0x52 := State.nv_congr h3 h4 _
  unfold State.exchOk State.running State.anEn State.anPeriod at *
  rw [h1, h2, h2', h5, h6, h8, hn]
  have : (t.fram.anState == 3 || t.fram.anState == 4) = true := by rcases h7 with h | h <;> rw [h] <;> rfl
  rw [this]
  simp only [Bool.and_eq_true] at h ⊢
  obtain ⟨⟨⟨⟨⟨⟨a, b⟩, c⟩, d⟩, e⟩, f⟩, g⟩ := h
  exact ⟨⟨⟨⟨⟨⟨a, b⟩, trivial⟩, d⟩, e⟩, f⟩, g⟩

theorem markMirror_spec (t : State) b : ∃ m0 m1, t.markMirror b = { t with fram := { t.fram with mirror0 := m0, mirror1 := m1 } } := by
  unfold State.markMirror
  split
  · exact ⟨t.fram.mirror0, t.fram.mirror1, rfl⟩
  · unfold State.putMirror
    rename_i one _
    cases one
    · exact ⟨_, t.fram.mirror1, rfl⟩
    · exact ⟨t.fram.mirror0, _, rfl⟩

/-- The LOSSNth missed exchange in a row (R260, R274). -/
theorem anMiss_lost (s : State) (h3 : s.an.missCnt.toNat < 0xFFFE) (h4 : s.fram.anState = 3) (h5 : s.lossn ≤ s.an.misses + 1) (h6 : s.ev.buf.length < 32) :
   ∃ m0 m1, s.miss = { s with
      an := { s.an with awaiting := false, missCnt := s.an.missCnt + 1, miss := true, misses := s.an.misses + 1 },
      dl := (s.dropAntiphon [0x01]).dl,
      fram := { s.fram with anState := 4, stale := true, mirror0 := m0, mirror1 := m1 },
      ev := { s.ev with buf := s.ev.buf ++ [s.eventOf 0x0803 s.fram.rxaseq.toNat] }, hb := { s.hb with irq := s.hb.irq ||| 0x0100#16 } } := by
  obtain ⟨m0, m1, hm⟩ := markMirror_spec ({ s with an := { s.an with awaiting := false, missCnt := s.an.missCnt + 1, miss := true, misses := s.an.misses + 1 }, dl := (s.dropAntiphon [0x01]).dl, fram := { s.fram with anState := 4, stale := true } } : State) 0
  refine ⟨m0, m1, ?_⟩
  have hu : s.miss = (State.anEvent (State.markMirror ({ s with an := { s.an with awaiting := false, missCnt := s.an.missCnt + 1, miss := true, misses := s.an.misses + 1 }, dl := (s.dropAntiphon [0x01]).dl, fram := { s.fram with anState := 4, stale := true } } : State) 0) 0x0803 s.fram.rxaseq.toNat) := by
    unfold State.miss
    dsimp only
    have he : (State.dropAntiphon ({ s with an := { s.an with awaiting := false, missCnt := satInc s.an.missCnt, miss := true, misses := s.an.misses + 1 } } : State) [0x01]) =
        ({ s with an := { s.an with awaiting := false, missCnt := satInc s.an.missCnt, miss := true, misses := s.an.misses + 1 }, dl := (s.dropAntiphon [0x01]).dl } : State) := rfl
    rw [he, (satInc_lt h3).1, State.pinned_not _ _ _ _ (by rw [← (satInc_lt h3).1]; exact (satInc_lt h3).2)]
    rw [if_pos ⟨by exact h4, by exact h5⟩]
    rfl
  rw [hu, hm]
  unfold State.anEvent
  rw [State.logEv_room _ _ _ (by exact h6)]
  rfl

end Sys2Proof.Machine
end

