-- ==== Sys2Proof/Laws/Cantus.lean ====
section
/-! SUPPORT. Sys2Proof/Laws/Cantus.lean: what a tone device does with a request. -/

set_option Elab.async false

set_option linter.all false

open Sys2Proof

namespace Sys2Proof.Machine

/-- The equaliser touches its taps and the error figure alone (R317, R318). -/
theorem tnEqualise_eq (s : State) (soft : List Int) :
    ∃ e a b, s.tnEqualise soft = { s with tn := { s.tn with eqmse := e, tapsA := a, tapsB := b } } := by
  unfold State.tnEqualise
  split
  · exact ⟨_, _, _, rfl⟩
  · exact ⟨s.tn.eqmse, s.tn.tapsA, s.tn.tapsB, rfl⟩

/-- A frame taken: level, count, taps and error figure alone. -/
theorem tnTaken_eq (s : State) (f : CFrame) :
    ∃ e a b, s.tnTaken f = { s with tn := { s.tn with rssi := f.rssi, rxCnt := s.tn.rxCnt + 1, eqmse := e, tapsA := a, tapsB := b } } := by
  obtain ⟨e, a, b, h⟩ := tnEqualise_eq { s with tn := { s.tn with rssi := f.rssi, rxCnt := s.tn.rxCnt + 1 } } f.soft
  exact ⟨e, a, b, h⟩

theorem tnHeard_eq (s : State) (f : CFrame) (h : s.tn.rxCnt.toNat < 0xFFFE) : s.tnHeard f = s.tnTaken f := by
  unfold State.tnHeard
  dsimp only
  rw [(satInc_lt h).1]
  change State.pinned (s.tnTaken f) 10 0xF90A (s.tnTaken f).tn.rxCnt = s.tnTaken f
  refine State.pinned_not _ _ _ _ ?_
  obtain ⟨e, a, b, he⟩ := tnTaken_eq s f
  rw [he]
  show s.tn.rxCnt + 1#16 ≠ _
  rw [← (satInc_lt h).1]
  exact (satInc_lt h).2

theorem tnRequest_hears (s : State) (f : CFrame) (c : Bool) (hc : c = true) (h : s.tnHears f) (g) : s.tnRequest f c g = g (s.tnTaken f) := by
  obtain ⟨h1, h2, h3, h4, h5, h6⟩ := h
  unfold State.tnRequest State.when
  rw [h1, h2, h3, hc]
  simp only [Bool.not_false, Bool.and_self, if_true]
  rw [tnHeard_eq s f h6]
  obtain ⟨e, a, b, he⟩ := tnTaken_eq s f
  have e1 : (s.tnTaken f).tnDevice = true := by rw [he]; exact h4
  have e2 : (f.addr.extractLsb' 0 4).toNat = (s.tnTaken f).pollAdr := by rw [he]; exact h5
  rw [e1, if_pos e2]
  rfl

theorem tnOnce_new (s u : State) (f : CFrame) (hu : u = s.tnTaken f) (h : s.tnNew f) (g) : u.tnOnce f g = g u := by
  obtain ⟨x, a, b, he⟩ := tnTaken_eq s f
  have e : u.tn.stored = s.tn.stored := by rw [hu, he]
  have ew : ∀ n k, u.within n k = s.within n k := by rw [hu, he]; intro n k; rfl
  unfold State.tnOnce
  rw [e]
  cases hs : s.tn.stored with
  | none => rfl
  | some x =>
    obtain ⟨q, c, r, a⟩ := x
    have := h _ hs
    dsimp only
    rw [if_neg]
    simp only [Bool.and_eq_true, decide_eq_true_eq]
    rintro ⟨⟨h1, h2⟩, h3⟩
    exact this ⟨h1, h2, by rw [← ew]; exact h3⟩

theorem watchNext_nil (s : State) (h : s.tn.watch = []) : s.watchNext = s := by
  unfold State.watchNext; rw [h]

end Sys2Proof.Machine
end

