-- ==== Sys2Proof/Laws/Converter.lean ====
section
/-! SUPPORT. Sys2Proof/Laws/Converter.lean: what a conversion's end and AD_CTL do. -/

set_option Elab.async false

set_option linter.all false

open Sys2Proof

namespace Sys2Proof.Machine

/-- The converter's result stands. -/
def SameResult (s t : State) : Prop := t.ad.seq = s.ad.seq ∧ t.ad.data = s.ad.data ∧ t.ad.ovr = s.ad.ovr ∧ t.ad.dataCh = s.ad.dataCh ∧ t.ad.isNew = s.ad.isNew ∧ t.ad.tagged = s.ad.tagged ∧ t.ad.mark = s.ad.mark

theorem SameResult.refl (s : State) : SameResult s s := ⟨rfl, rfl, rfl, rfl, rfl, rfl, rfl⟩

theorem SameResult.trans {s t u : State} (a : SameResult s t) (b : SameResult t u) : SameResult s u :=
  ⟨b.1.trans a.1, b.2.1.trans a.2.1, b.2.2.1.trans a.2.2.1, b.2.2.2.1.trans a.2.2.2.1, b.2.2.2.2.1.trans a.2.2.2.2.1, b.2.2.2.2.2.1.trans a.2.2.2.2.2.1, b.2.2.2.2.2.2.trans a.2.2.2.2.2.2⟩

theorem SameResult.ofEq {s t : State} (h : t.ad = s.ad) : SameResult s t := by unfold SameResult; rw [h]; exact ⟨rfl, rfl, rfl, rfl, rfl, rfl, rfl⟩

theorem dite_sameResult {c : Prop} [Decidable c] {s t u : State} (h : c → SameResult s t) (k : ¬c → SameResult s u) :
    SameResult s (if c then t else u) := by
  split
  · exact h ‹_›
  · exact k ‹_›

theorem overrange_sameResult (s : State) : SameResult s s.overrange := by
  unfold State.overrange
  dsimp only
  have : SameResult s (({ s with ad := { s.ad with ovrs := true, ovrCnt := satInc s.ad.ovrCnt, secOvr := s.ad.secOvr + 1, secMask := s.ad.secMask ||| BitVec.ofNat 16 (2 ^ s.ad.curCh.toNat) } } : State).pinned 5 0xF84A (satInc s.ad.ovrCnt)) :=
    SameResult.trans (t := { s with ad := { s.ad with ovrs := true, ovrCnt := satInc s.ad.ovrCnt, secOvr := s.ad.secOvr + 1, secMask := s.ad.secMask ||| BitVec.ofNat 16 (2 ^ s.ad.curCh.toNat) } }) ⟨rfl, rfl, rfl, rfl, rfl, rfl, rfl⟩ (.ofEq (State.pinned_keeps ..).eqAd)
  split
  · exact this.trans (.ofEq (State.irq_keeps ..).eqAd)
  · exact this

theorem nextConv_sameResult (s : State) : SameResult s s.nextConv := by
  unfold State.nextConv State.startConv
  split
  · split
    · exact ⟨rfl, rfl, rfl, rfl, rfl, rfl, rfl⟩
    · split <;> exact ⟨rfl, rfl, rfl, rfl, rfl, rfl, rfl⟩
  · split <;> exact ⟨rfl, rfl, rfl, rfl, rfl, rfl, rfl⟩

theorem calibResult_sameResult (s : State) c : SameResult s (s.calibResult c) := by
  unfold State.calibResult
  split <;> exact ⟨rfl, rfl, rfl, rfl, rfl, rfl, rfl⟩

theorem takeResult_sameResult (s : State) e c o : SameResult s (s.takeResult e c o) := by
  unfold State.takeResult
  lift_lets
  intro ch
  repeat' with_reducible refine dite_sameResult (fun _ => ?_) (fun _ => ?_)
  all_goals first
    | exact SameResult.refl _
    | exact .ofEq rfl
    | exact .ofEq (Eq.trans (State.emptyByCommon_keeps ..).eqAd rfl)
    | exact ⟨rfl, rfl, rfl, rfl, rfl, rfl, rfl⟩
    | exact .ofEq (Eq.trans (State.loopBTotalise_keeps ..).eqAd rfl)

theorem convEnd_spec (s : State) (env : ConvEnv) : let t := s.convEnd env
      t.ad.seq = s.ad.seq + 1#16 ∧ t.ad.data = (s.codeOf env).1 ∧ t.ad.ovr = (s.codeOf env).2 ∧ t.ad.dataCh = s.ad.curCh ∧
      t.ad.isNew = true ∧ t.ad.tagged = s.ad.tag.isSome ∧ t.ad.mark = s.ad.tag.getD 0 := by
  dsimp only
  unfold State.convEnd
  have h1 : ∀ u : State, ∀ b : Bool, SameResult u (if b then u.overrange else u) := by intro u b; cases b; exact SameResult.refl _; exact overrange_sameResult _
  have h2 : ∀ u : State, ∀ b : Bool, SameResult u (if b then u.irq 4 else u) := by intro u b; cases b; exact SameResult.refl _; exact .ofEq rfl
  rcases hc : s.codeOf env with ⟨code, ovr⟩
  dsimp only
  have h3 : ∀ u : State, ∀ b : Bool, SameResult u (if b then u.calibResult code else (u.keepResult env code ovr).takeResult env code ovr) := by
    intro u b; cases b
    · exact SameResult.trans (t := u.keepResult env code ovr) ⟨rfl, rfl, rfl, rfl, rfl, rfl, rfl⟩ (takeResult_sameResult _ _ _ _)
    · exact calibResult_sameResult _ _
  have hT : ∀ T : State, SameResult (s.showResult code ovr) T → (T.ad.seq = s.ad.seq + 1#16 ∧ T.ad.data = code ∧ T.ad.ovr = ovr ∧ T.ad.dataCh = s.ad.curCh ∧
      T.ad.isNew = true ∧ T.ad.tagged = s.ad.tag.isSome ∧ T.ad.mark = s.ad.tag.getD 0) := fun T H => ⟨H.1, H.2.1, H.2.2.1, H.2.2.2.1, H.2.2.2.2.1, H.2.2.2.2.2.1, H.2.2.2.2.2.2⟩
  refine hT _ ?_
  refine SameResult.trans ?_ (nextConv_sameResult _)
  refine SameResult.trans ?_ (h3 _ _)
  exact SameResult.trans (h1 _ _) (h2 _ _)

theorem overrange_ch (s : State) : s.overrange.ad.ch = s.ad.ch := by
  unfold State.overrange
  dsimp only
  split
  · rw [(State.irq_keeps ..).eqAd, (State.pinned_keeps ..).eqAd]
  · rw [(State.pinned_keeps ..).eqAd]

theorem running_core {s : State} (h : s.running = true) : s.coreOn = true := by simp [State.running] at h; simp [State.coreOn, h]

theorem State.writeAdCtl_starts (x : State) (v : Word) (hk : x.hb.ok) (h4 : x.hb.nvr = true) (h5 : x.hb.rows.length < 2) (h6 : x.runOrDrain = true) (h7 : x.ad.runs = false)
    (h8 : bitAt v 8 = true) (h9 : fld v 4 4 < 12) (h10 : v.extractLsb' 0 4 ≠ 15#4) (hnc : ¬ ((x.pw.st == Seq.calib) = true)) :
    State.sameBut [.ad, .hb] x (x.writeAdCtl v false) ∧ (x.writeAdCtl v false).ad.runs = true ∧
      (x.writeAdCtl v false).ad.curCh = v.extractLsb' 0 4 ∧ (x.writeAdCtl v false).ad.curRate = BitVec.ofNat 4 (fld v 4 4) ∧
      (x.writeAdCtl v false).ad.drie = bitAt v 9 ∧ (x.writeAdCtl v false).ad.ovie = bitAt v 10 := by
  obtain ⟨out, ho, he⟩ := State.nvWrite_room x 0x2C 0 (Config.key 0 0x2C) (Sys2Proof.Machine.merge 0x01FF (x.nvReg 0x2C) v) h4 h5
  have hnv := State.nv_nvWrite x hk h4 0x2C 0 (Config.key 0 0x2C) (Sys2Proof.Machine.merge 0x01FF (x.nvReg 0x2C) v) ho
  rw [he] at hnv
  generalize hy : ({ x with hb := { x.hb with rows := out } } : State) = y at *
  have hyn : y.nvReg 0x2C = Sys2Proof.Machine.merge 0x01FF (x.nvReg 0x2C) v := by unfold State.nvReg; rw [hnv, if_pos rfl]; rfl
  unfold State.writeAdCtl
  simp only [Bool.false_eq_true, if_false, he]
  generalize hw : Sys2Proof.Machine.merge 0x01FF (x.nvReg 0x2C) v = w at *
  have hun : ∀ a, ({ y with ad := a } : State).nvReg 0x2C = w := fun a => hyn
  have hq : ¬ ((({ y with ad := { y.ad with drie := bitAt v 9, ovie := bitAt v 10 } } : State).nvReg 0x2C != w) = true) := by
    have : ({ y with ad := { y.ad with drie := bitAt v 9, ovie := bitAt v 10 } } : State).nvReg 0x2C = w := hyn
    rw [this]; simp
  rw [if_neg hq]
  unfold State.channel15
  have h9' : ¬ (12 ≤ fld v 4 4) := by omega
  simp only [h9', if_false]
  have h10' : ¬ (BitVec.extractLsb' 0 4 v = 15) := h10
  rw [if_neg h10']
  generalize hv : ({ y with ad := { y.ad with drie := bitAt v 9, ovie := bitAt v 10, ch := v.extractLsb' 0 4 } } : State) = z
  have hvn : z.nvReg 0x2C = w := by rw [← hv]; exact hyn
  have hvr : z.runOrDrain = true := by rw [← hv, ← hy]; exact h6
  have hvs : ¬ ((z.pw.st == Seq.calib) = true) := by rw [← hv, ← hy]; exact hnc
  have hva : z.ad.runs = false := by rw [← hv, ← hy]; exact h7
  have hvf : State.sameBut [.ad, .hb] x z := by
    rw [← hv, ← hy]; exact ⟨rfl, fun p hp => by cases p <;> first | exact absurd (by decide) hp | rfl⟩
  have hb8 : bitAt w 8 = true := by
    rw [← hw, bitAt_merge_new (by decide)]; exact h8
  have hf4 : fld w 4 4 = fld v 4 4 := by
    rw [← hw]; exact fld_merge_new (by decide) _ _
  have hadEn : z.adEn = true := by unfold State.adEn; rw [hvn]; exact hb8
  have hz : z.nextConv = z.startConv z.ad.ch (BitVec.ofNat 4 (fld v 4 4)) := by
    unfold State.nextConv
    rw [if_neg hvs, if_pos (by rw [hvr, hadEn]; rfl), hvn, hf4]
  rw [if_pos (by rw [hvr, hva]; rfl), hz]
  unfold State.startConv
  refine ⟨⟨hvf.1, fun p hp => ?_⟩, rfl, ?_, rfl, ?_, ?_⟩
  · have := hvf.2 p hp
    cases p <;> first | exact absurd (by decide) hp | exact this
  · rw [← hv]
  · rw [← hv]
  · rw [← hv]

end Sys2Proof.Machine
end

