-- ==== Sys2Proof/Laws/Line.lean ====
section
/-! SUPPORT. Sys2Proof/Laws/Line.lean: what port words, tables and the retrain counters do. -/

set_option Elab.async false

set_option linter.all false

open Sys2Proof

namespace Sys2Proof.Machine

theorem setLive_live (s : State) (p : Port) (f) : (s.setLive p f).live p = f (s.live p) ∧ (s.setLive p f).live (otherPort p) = s.live (otherPort p) := by
  cases p <;> exact ⟨rfl, rfl⟩

theorem setLive_same (s : State) (p : Port) (f) : State.sameBut [.dl] s (s.setLive p f) ∧ (s.setLive p f).dl.queue = s.dl.queue ∧ (s.setLive p f).dl.squeue = s.dl.squeue ∧ (s.setLive p f).dl.idxA = s.dl.idxA ∧ (s.setLive p f).dl.idxB = s.dl.idxB ∧ (s.setLive p f).dl.rtrq = s.dl.rtrq ∧ (s.setLive p f).dl.training = s.dl.training ∧ (s.setLive p f).ev = s.ev ∧ (s.setLive p f).hb = s.hb := by
  cases p <;> exact ⟨⟨rfl, fun p hp => by cases p <;> first | exact absurd (by decide) hp | rfl⟩, rfl, rfl, rfl, rfl, rfl, rfl, rfl, rfl⟩

theorem latchRssi_cases (s : State) (r : RxSearch) : ∃ a b, s.latchRssi r = { s with dl := { s.dl with rssiA := a, rssiB := b } } := by
  unfold State.latchRssi; split
  · exact ⟨_, s.dl.rssiB, rfl⟩
  · exact ⟨s.dl.rssiA, _, rfl⟩

theorem takeSearch_on (s : State) (r : RxSearch) (h : s.listens r.port) (g) : s.takeSearch r g = g (s.latchRssi r) := by
  unfold State.takeSearch State.when; rw [h.1, h.2]; rfl

theorem setGen_genOf (s : State) (rx : Bool) (p : Port) (i g : Nat) : (s.setGen rx p i (some g)).genOf rx p i = some g := by
  unfold State.setGen State.genOf
  simp

theorem genOf_congr (s t : State) (h : t.fram.gens = s.fram.gens) (rx p i) : t.genOf rx p i = s.genOf rx p i := by
  unfold State.genOf; rw [h]

theorem dsMask_mask (a : Nat) (h : isMaskWord a = true) : dsMask a = 0x1F1F#16 := by
  unfold isMaskWord at h
  simp only [Bool.or_eq_true, Bool.and_eq_true, decide_eq_true_eq] at h
  rcases h with ⟨h1, h2⟩ | ⟨h1, h2⟩ <;> interval_cases a <;> rfl

theorem mask_commit (s : State) (a : Nat) (v : Word) (h4 : s.hb.nvr = true) (h5 : s.hb.rows.length < 2) (h6 : s.dn.ptr = BitVec.ofNat 16 a) (h7 : isMaskWord a = true) :
   s.writeReg .host false 0x50 v = s.maskWrite a (v &&& 0x1F1F#16) (fun t => t.nvWrite 0x50 a (Config.key 4 a) (v &&& 0x1F1F#16)) := by
  have hm := dsMask_mask a h7
  have ha : a < 0x1070 := by
    unfold isMaskWord at h7
    simp only [Bool.or_eq_true, Bool.and_eq_true, decide_eq_true_eq] at h7
    omega
  have hbit : ∀ n, 14 ≤ n → n < 16 → bitAt (BitVec.ofNat 16 a) n = false := by
    intro n hn hn'
    unfold bitAt
    rw [BitVec.getLsbD_ofNat, Nat.testBit_lt_two_pow (lt_of_lt_of_le (show a < 2 ^ 14 by omega) (Nat.pow_le_pow_right (by omega) hn)), Bool.and_false]
  have hpt : fld s.dn.ptr 0 14 = a ∧ bitAt s.dn.ptr 14 = false ∧ bitAt s.dn.ptr 15 = false := by
    rw [h6]; refine ⟨?_, ?_, ?_⟩
    · simp [fld]; omega
    · exact hbit 14 (by omega) (by omega)
    · exact hbit 15 (by omega) (by omega)
  obtain ⟨out, ho, he⟩ := State.nvWrite_room s 0x50 a (Config.key 4 a) (v &&& 0x1F1F#16) h4 h5
  show State.dsNext (if bitAt s.dn.ptr 14 = true then _ else s.writeDs (fld s.dn.ptr 0 14) v) = _
  rw [hpt.2.1, hpt.1]
  simp only [Bool.false_eq_true, if_false]
  have hw : s.writeDs a v = s.maskWrite a (v &&& 0x1F1F#16) (fun t => t.nvWrite 0x50 a (Config.key 4 a) (v &&& 0x1F1F#16)) := by
    unfold State.writeDs
    dsimp only
    rw [hm, if_neg (by decide), if_pos h7, h4, ho]
    rfl
  rw [hw]
  have hd : (s.maskWrite a (v &&& 0x1F1F#16) (fun t => t.nvWrite 0x50 a (Config.key 4 a) (v &&& 0x1F1F#16))).dn = s.dn := by
    unfold State.maskWrite
    dsimp only
    rw [he]
    split
    · unfold State.dslClamp State.dslEvent
      rw [(State.irq_keeps ..).eqDn, (State.logEv_keeps ..).eqDn]
    · split <;> rfl
  unfold State.dsNext
  rw [hd, hpt.2.2]
  rfl

theorem storeTable_eq (s : State) (rx p i g bits) : ∃ nv rows, s.storeTable rx p i g bits = State.setGen { s with fram := { s.fram with nv := nv }, hb := { s.hb with rows := rows } } rx p i (some g) := by
  unfold Sys2Proof.Machine.State.storeTable
  exact ⟨_, _, congrArg (fun x => Sys2Proof.Machine.State.setGen x rx p i (some g)) (Sys2Proof.Machine.State.nvPutAll_eq _ s)⟩

theorem setGen_nv (s : State) (rx p i g) (k : Nat) : (s.setGen rx p i g).nv k = s.nv k := rfl

/-- The words of the slot alone change. -/
theorem storeTable_nv (s : State) (h : s.fram.ok) (rx p i g bits) (k : Nat)
    (hk : k < Config.key 4 (slotBase p i) ∨ Config.key 4 (slotBase p i + 31) < k) : (s.storeTable rx p i g bits).nv k = s.nv k := by
  unfold State.storeTable
  rw [setGen_nv, State.nv_nvPutAll_block s h, if_neg (by unfold Config.key at *; omega)]

/-- A carrier's byte after the table is stored. -/
theorem storeTable_carrier (s : State) (h : s.fram.ok) (rx p i g bits) (k : Nat) (h1 : 16 ≤ k) (h2 : k < 80) :
    (s.storeTable rx p i g bits).carrierByte (slotBase p i) k = putNibble rx (s.carrierByte (slotBase p i) k) (bits.getD (k - 16) 0) := by
  have hw : (s.storeTable rx p i g bits).dsw (slotBase p i + (k - 16) / 2) =
      wordOf (putNibble rx (s.carrierByte (slotBase p i) (17 + 2 * ((k - 16) / 2))) (bits.getD (17 + 2 * ((k - 16) / 2) - 16) 0))
        (putNibble rx (s.carrierByte (slotBase p i) (16 + 2 * ((k - 16) / 2))) (bits.getD (16 + 2 * ((k - 16) / 2) - 16) 0)) := by
    unfold State.storeTable State.dsw
    have hs : ∀ j, Config.key 4 (slotBase p i + j) - Config.key 4 (slotBase p i) = j := by intro j; unfold Config.key; omega
    rw [setGen_nv, State.nv_nvPutAll_block s h, if_pos (by unfold Config.key; omega), hs]
  conv_lhs => unfold State.carrierByte
  dsimp only
  rw [hw, hiByte_wordOf, loByte_wordOf]
  split
  · have : 16 + 2 * ((k - 16) / 2) = k := by omega
    rw [this]
  · have : 17 + 2 * ((k - 16) / 2) = k := by omega
    rw [this]

/-- A nibble replaced reads as the value, the other one as before. -/
theorem putNibble_bits (rx : Bool) (b : Byte) (v : Nat) :
    (if rx = true then ((putNibble rx b v).extractLsb' 4 4).toNat else ((putNibble rx b v).extractLsb' 0 4).toNat) = v % 16 ∧
    (if (!rx) = true then ((putNibble rx b v).extractLsb' 4 4).toNat else ((putNibble rx b v).extractLsb' 0 4).toNat) =
      (if (!rx) = true then (b.extractLsb' 4 4).toNat else (b.extractLsb' 0 4).toNat) := by
  have hx : v % 16 = (BitVec.ofNat 4 v).toNat := by simp
  unfold putNibble
  rw [hx]
  generalize BitVec.ofNat 4 v = x
  have e1 : BitVec.ofNat 8 x.toNat = x.setWidth 8 := by simp
  have e2 : BitVec.ofNat 8 (x.toNat * 16) = x.setWidth 8 <<< 4 := by
    apply BitVec.eq_of_toNat_eq; have := x.isLt; simp [Nat.shiftLeft_eq]
  rw [e1, e2]
  cases rx
  all_goals
    simp only [Bool.not_false, Bool.not_true, if_true, if_false, Bool.false_eq_true]
    refine ⟨congrArg BitVec.toNat ?_, congrArg BitVec.toNat ?_⟩
    all_goals
      ext j hj
      interval_cases j <;> simp

/-- A stored table's bits; the other table of the slot stands. -/
theorem storeTable_bits (s : State) (h : s.fram.ok) (rx p i g bits) (k : Nat) (h1 : 16 ≤ k) (h2 : k < 80) :
    (s.storeTable rx p i g bits).tableBits rx p i k = bits.getD (k - 16) 0 % 16 ∧
    (s.storeTable rx p i g bits).tableBits (!rx) p i k = s.tableBits (!rx) p i k := by
  unfold State.tableBits
  rw [storeTable_carrier s h rx p i g bits k h1 h2]
  generalize s.carrierByte (slotBase p i) k = b
  generalize bits.getD (k - 16) 0 = v
  exact putNibble_bits rx b v

theorem setGen_eq (s : State) (rx p i g) : ∃ gens, s.setGen rx p i g = { s with fram := { s.fram with gens := gens } } := ⟨_, rfl⟩

theorem dslEvent_irq (s : State) (c d) : (s.dslEvent c d).hb.irq = s.hb.irq ||| 0x0800#16 := by
  unfold Sys2Proof.Machine.State.dslEvent
  show (Sys2Proof.Machine.State.logEv _ _ _).hb.irq ||| _ = _
  rw [(Sys2Proof.Machine.State.logEv_keeps ..).eqIrq]; rfl

theorem dslEvent_nv (s : State) (c d) (k : Nat) : (s.dslEvent c d).nv k = s.nv k := by
  unfold State.dslEvent
  rw [State.nv_irq, State.nv_logEv]

theorem tableBits_congr {s t : State} (h : ∀ k, t.nv k = s.nv k) (rx p i k) : t.tableBits rx p i k = s.tableBits rx p i k := by
  unfold State.tableBits State.carrierByte State.dsw
  simp only [h]

theorem storeTable_hostKept (s : State) (rx p i g bits) : s.hostKept (s.storeTable rx p i g bits) := by
  obtain ⟨_, _, h⟩ := storeTable_eq s rx p i g bits
  rw [h]; rfl

theorem commitRx_hostKept (s : State) (p peer gen bits) {rest} (h : s.dl.rxPend = (p, peer, gen, bits) :: rest) : s.hostKept (s.commitRx p peer) := by
  unfold Sys2Proof.Machine.State.commitRx
  have hf : s.dl.rxPend.find? (fun r => r.1 == p && r.2.1 == peer) = some (p, peer, gen, bits) := by rw [h]; simp
  rw [hf]
  have := storeTable_hostKept s true p peer.toNat gen bits
  dsimp only
  generalize evData _ = w
  generalize s.storeTable true p peer.toNat gen bits = x at *
  generalize hy : ({ x with dl := { x.dl with rxPend := x.dl.rxPend.filter (fun r => !(r.1 == p && r.2.1 == peer)) } } : State) = y
  have h2 : s.hostKept y := by rw [← hy]; exact this
  exact State.hostKept_trans h2 (Keeps.hostKept (State.dslEvent_keeps ..))

theorem commitRx_spec (s : State) (hok : s.fram.ok) (p peer gen bits rest) (h : s.dl.rxPend = (p, peer, gen, bits) :: rest) :
   State.sameBut [.nv, .fram, .dl, .ev, .irq, .hb] s (s.commitRx p peer) ∧ (s.commitRx p peer).genOf true p peer.toNat = some gen ∧
   (s.commitRx p peer).dl.rxPend = rest.filter (fun x => !(x.1 == p && x.2.1 == peer)) ∧ (s.commitRx p peer).hb.irq = s.hb.irq ||| 0x0800#16 ∧
   (∀ k, 16 ≤ k → k < 80 → (s.commitRx p peer).tableBits true p peer.toNat k = bits.getD (k - 16) 0 % 16 ∧
      (s.commitRx p peer).tableBits false p peer.toNat k = s.tableBits false p peer.toNat k) ∧
   (∀ k, (k < Config.key 4 (slotBase p peer.toNat) ∨ Config.key 4 (slotBase p peer.toNat + 31) < k) → (s.commitRx p peer).nv k = s.nv k) := by
  unfold Sys2Proof.Machine.State.commitRx
  have hf : s.dl.rxPend.find? (fun r => r.1 == p && r.2.1 == peer) = some (p, peer, gen, bits) := by rw [h]; simp
  rw [hf]
  dsimp only
  obtain ⟨nv, rows, he⟩ := storeTable_eq s true p peer.toNat gen bits
  have hbits := storeTable_bits s hok true p peer.toNat gen bits
  have hrest := storeTable_nv s hok true p peer.toNat gen bits
  rw [he] at hbits hrest ⊢
  generalize hw : evData _ = w
  generalize hx : State.setGen { s with fram := { s.fram with nv := nv }, hb := { s.hb with rows := rows } } true p peer.toNat (some gen) = x at *
  have hxg : x.genOf true p peer.toNat = some gen := by rw [← hx]; exact setGen_genOf _ _ _ _ _
  have hxs : State.sameBut [.nv, .fram, .dl, .ev, .irq, .hb] s x := by
    rw [← hx]; exact ⟨rfl, fun p hp => by cases p <;> first | exact absurd (by decide) hp | rfl⟩
  have hxd : x.dl = s.dl := by rw [← hx]; rfl
  have hxi : x.hb.irq = s.hb.irq := by rw [← hx]; rfl
  have hkn : ∀ k, (State.dslEvent ({ x with dl := { x.dl with rxPend := x.dl.rxPend.filter (fun r => !(r.1 == p && r.2.1 == peer)) } } : State) 0x0B03 w).nv k = x.nv k :=
    fun k => dslEvent_nv ..
  refine ⟨?_, ?_, ?_, ?_, fun k h1 h2 => ?_, fun k hk => (hkn k).trans (hrest k hk)⟩
  · refine State.sameBut_after (M := [.ev, .irq]) (t := { x with dl := { x.dl with rxPend := x.dl.rxPend.filter (fun r => !(r.1 == p && r.2.1 == peer)) } }) ?_ ?_ rfl
    · exact ⟨hxs.1, fun p hp => by have := hxs.2 p hp; cases p <;> first | exact absurd (by decide) hp | exact this⟩
    · exact (State.dslEvent_keeps ..)
  · rw [genOf_congr x]
    · exact hxg
    · rw [Sys2Proof.Machine.State.dslEvent_fram]
  · show (State.dslEvent _ _ _).dl.rxPend = _
    rw [(State.dslEvent_keeps ..).eqDl]
    show x.dl.rxPend.filter _ = _
    rw [hxd, h]
    simp
  · rw [dslEvent_irq]; show x.hb.irq ||| _ = _; rw [hxi]
  · exact ⟨(tableBits_congr hkn ..).trans (hbits k h1 h2).1, (tableBits_congr hkn ..).trans (hbits k h1 h2).2⟩

theorem State.retrainTrigger_fresh (s : State) (p : Port) (peer : BitVec 6) (cause : Nat) (h5 : s.dl.retrainAt.any (fun r => r.1 == p && r.2.1 == peer && s.within r.2.2 10000) = false) (h6 : (s.live p).rtCnt.toNat < 0xFFFE) (h7 : s.ev.buf.length < 32) :
   State.sameBut [.dl, .ev, .irq] s (s.retrainTrigger p peer cause) ∧ (s.retrainTrigger p peer cause).dl.rtrq = true ∧ (s.retrainTrigger p peer cause).live p = { s.live p with rtCnt := (s.live p).rtCnt + 1 } ∧
   (s.retrainTrigger p peer cause).dl.squeue = s.dl.squeue ++ [{ port := p, kind := 0x43, payload := [byteOfIdx peer, byteOfIdx (s.ownIdx p), BitVec.ofNat 8 cause] }] ∧
   (s.retrainTrigger p peer cause).ev = { s.ev with buf := s.ev.buf ++ [s.eventOf 0x0B02 (Port.code p + peer.toNat * 256 + cause * 65536)] } ∧ (s.retrainTrigger p peer cause).hb.irq = s.hb.irq ||| 0x0800#16 ∧ (s.retrainTrigger p peer cause).fram = s.fram := by
  unfold Sys2Proof.Machine.State.retrainTrigger
  rw [if_neg (by rw [h5]; decide)]
  dsimp only
  generalize hx : ({ s with dl := { s.dl with rtrq := true, retrainAt := (p, peer, s.pw.ticks) :: s.dl.retrainAt.filter (fun r => !(r.1 == p && r.2.1 == peer)) } } : State) = x
  have hl := setLive_live x p (fun (l : PortLive) => { l with rtCnt := satInc l.rtCnt })
  have hq := setLive_same x p (fun (l : PortLive) => { l with rtCnt := satInc l.rtCnt })
  generalize hy : x.setLive p (fun (l : PortLive) => { l with rtCnt := satInc l.rtCnt }) = y at *
  have hxl : x.live p = s.live p := by rw [← hx]; rfl
  have h6' := satInc_lt h6
  rw [State.pinned_not _ _ _ _ (by rw [hl.1, hxl]; exact h6'.2)]
  have hxe : x.ev = s.ev := by rw [← hx]
  have hxh : x.hb = s.hb := by rw [← hx]
  have hxa : x.aon = s.aon := by rw [← hx]
  have hxf : x.fram = s.fram := by rw [← hx]
  have hye : y.ev = s.ev := hq.2.2.2.2.2.2.2.1.trans hxe
  have hyh : y.hb = s.hb := hq.2.2.2.2.2.2.2.2.trans hxh
  have hya : y.aon = s.aon := (show y.aon = x.aon from hq.1.2 .aon (by decide)).trans hxa
  have hyf : y.fram = s.fram := by
    rw [← hy, ← hx]; cases p <;> rfl
  unfold State.dslEvent
  rw [State.logEv_room _ _ _ (by show y.ev.buf.length < 32; rw [hye]; exact h7), evData_three]
  refine ⟨?_, ?_, ?_, ?_, ?_, ?_, ?_⟩
  · refine ⟨hq.1.1.trans (by rw [← hx]), fun r hr => ?_⟩
    have h1 := hq.1.2 r
    rw [← hx] at h1
    cases r <;> first | exact absurd (by decide) hr | exact h1 (by decide)
  · show y.dl.rtrq = true
    rw [hq.2.2.2.2.2.1, ← hx]
  · show y.live p = _
    rw [hl.1, hxl, h6'.1]; rfl
  · show y.dl.squeue ++ _ = _
    rw [hq.2.2.1, ← hx]
  · show ({ y.ev with buf := y.ev.buf ++ [y.eventOf 0x0B02 _] } : Ev) = _
    unfold State.eventOf State.stamp
    rw [hye, hya]; rfl
  · show y.hb.irq ||| _ = _
    rw [hyh]; rfl
  · exact hyf

end Sys2Proof.Machine
end

