-- ==== Sys2Proof/Laws/Descant.lean ====
section
/-! SUPPORT. Sys2Proof/Laws/Descant.lean: what a request, its repeat and its reply do; line time and membership. -/

set_option Elab.async false

set_option linter.all false

open Sys2Proof

namespace Sys2Proof.Machine

theorem heard_dn (s : State) (f : RxFrame) : ∃ down, (s.heard f).dn = { s.dn with down := down } := by
  obtain ⟨nv, rows, down, h⟩ := State.heardFrom_eq ((s.genCheck f).2.stampFrame f) f.port f.frame.src
  refine ⟨down, ?_⟩
  show (State.heardFrom _ _ _).dn = _
  rw [h]
  dsimp only
  rw [(State.stampFrame_keeps ..).eqDn, (State.genCheck_keeps ..).eqDn]

theorem orRepeat_none (s u : State) (f : RxFrame) (h5 : s.noRepeat f) (hu : u = s.heard f) (g) : u.orRepeat f g = g u := by
  obtain ⟨down, hd⟩ := heard_dn s f
  have hp : u.pw = s.pw := by rw [hu]; exact (s.heard_keeps f).eqPw
  unfold State.orRepeat
  have : u.dn.stored.find? (fun x => x.src == f.frame.src && x.seq == f.frame.seq && x.crc == crc32 f.frame.payload &&
      x.reply.type == f.frame.type && u.within x.at_ 2000) = none := by
    rw [List.find?_eq_none]
    intro x hx
    have hx' : x ∈ s.dn.stored := by rw [hu, hd] at hx; exact hx
    have := h5 x hx'
    have hw : u.within x.at_ 2000 = s.within x.at_ 2000 := by unfold State.within; rw [hp]
    rw [hw]
    simp only [Bool.and_eq_true, beq_iff_eq]
    rintro ⟨⟨⟨⟨a, b⟩, c⟩, d⟩, e⟩
    exact this ⟨a, b, c, d, e⟩
  rw [this]

theorem orRepeat_new (s u : State) (f : RxFrame) (ty : Byte) (h : s.asksAnew f ty) (hu : u = s.heard f) (g) : u.orRepeat f g = g u :=
  orRepeat_none s u f h.2.2.2.2 hu g

theorem hiLo_bytesBE (w : Word) : [hiByte w, loByte w] = bytesBE 2 w.toNat := by
  have h1 : hiByte w = BitVec.ofNat 8 (w.toNat / 256) := by
    apply BitVec.eq_of_toNat_eq
    simp [hiByte, Nat.shiftRight_eq_div_pow]
  have h2 : loByte w = BitVec.ofNat 8 w.toNat := by
    apply BitVec.eq_of_toNat_eq
    simp [loByte]
  rw [h1, h2]; rfl

theorem remoteRead_steps (rep : Bool) (st : Nat) (hst : st = if rep then 0 else 2) : ∀ (n : Nat) (u : State) (a : Nat), ∃ v : Nat → State, v 0 = u ∧ (∀ i, i < n → v (i + 1) = (v i).readEffect (a + st * i)) ∧
   u.remoteRead a rep n = (((List.range n).map (fun i => bytesBE 2 ((v i).readReg (a + st * i)).toNat)).flatten, v n)
  | 0, u, a => ⟨fun _ => u, rfl, fun i hi => absurd hi (by omega), rfl⟩
  | n + 1, u, a => by
    obtain ⟨v, h1, h2, h3⟩ := remoteRead_steps rep st hst n (u.readEffect a) (a + st)
    refine ⟨fun i => match i with | 0 => u | i + 1 => v i, rfl, ?_, ?_⟩
    · intro i hi
      cases i with
      | zero => exact h1
      | succ i =>
        show v (i + 1) = _
        rw [h2 i (by omega), show a + st + st * i = a + st * (i + 1) by rw [Nat.mul_add]; omega]
    · unfold State.remoteRead
      have hr : u.readWord a = (u.readReg a, u.readEffect a) := rfl
      rw [hr]
      dsimp only
      have ha : (if rep = true then a else a + 2) = a + st := by rw [hst]; split <;> rfl
      rw [ha, h3, hiLo_bytesBE]
      rw [List.range_succ_eq_map]
      simp only [List.map_cons, List.flatten_cons, List.map_map]
      refine Prod.ext ?_ rfl
      dsimp only
      congr 2
      refine List.map_congr_left fun i _ => ?_
      show bytesBE 2 ((v i).readReg (a + st + st * i)).toNat = bytesBE 2 ((v i).readReg (a + st * (i + 1))).toNat
      rw [show a + st + st * i = a + st * (i + 1) by rw [Nat.mul_add]; omega]

theorem applyTriples_steps (w : Writer) : ∀ (ts : List (Nat × Word)) (u : State), ∃ v : Nat → State, v 0 = u ∧
   (∀ i, i < ts.length → v (i + 1) = (v i).writeWord w (ts.getD i (0, 0)).1 (ts.getD i (0, 0)).2 true) ∧
   State.applyTriples w ts u = (((List.range ts.length).filter (fun i => (v i).refusedBy w (ts.getD i (0, 0)))).length, v ts.length)
  | [], u => ⟨fun _ => u, rfl, fun i hi => absurd hi (by simp), rfl⟩
  | t :: ts, u => by
    obtain ⟨v, h1, h2, h3⟩ := applyTriples_steps w ts (u.writeWord w t.1 t.2 true)
    refine ⟨fun i => match i with | 0 => u | i + 1 => v i, rfl, ?_, ?_⟩
    · intro i hi
      cases i with
      | zero => exact h1
      | succ i => exact h2 i (by simpa using hi)
    · unfold State.applyTriples
      dsimp only
      rw [h3]
      refine Prod.ext ?_ rfl
      generalize hF : (fun i => State.refusedBy (match i with | 0 => u | i + 1 => v i) w ((t :: ts).getD i (0, 0))) = F
      have hF0 : F 0 = u.refusedBy w t := by rw [← hF]; rfl
      have hFs : ∀ i, F (i + 1) = (v i).refusedBy w (ts.getD i (0, 0)) := by intro i; rw [← hF]; rfl
      show b2n (u.refusedBy w t) + _ = (List.filter F (List.range (ts.length + 1))).length
      rw [List.range_succ_eq_map, List.filter_cons]
      have hf : ((List.map Nat.succ (List.range ts.length)).filter F).length =
          ((List.range ts.length).filter (fun i => (v i).refusedBy w (ts.getD i (0, 0)))).length := by
        rw [List.filter_map, List.length_map]
        congr 2
        funext i
        exact hFs i
      rw [hF0]
      cases hc : u.refusedBy w t
      · simp only [Bool.false_eq_true, if_false]
        rw [hf]; show 0 + _ = _; omega
      · simp only [if_true, List.length_cons]
        rw [hf]; show 1 + _ = _; omega

theorem replyTo_eq (s : State) (f : RxFrame) (p) : s.replyTo f p = s.answered f p := rfl

theorem nackTo_eq (s : State) (f : RxFrame) (c) : s.nackTo f c = s.nacked f c := rfl

theorem entry_len (f : DFrame) : (entryBytes f).length = 8 + f.payload.length := by
  unfold entryBytes
  simp [bytesBE, bytesLE]
  omega

theorem dnPush_room (s : State) (f : DFrame) (h : s.dn.rxf.length + 8 + f.payload.length ≤ 4120) : s.dnPush f = { s with dn := { s.dn with rxf := s.dn.rxf ++ fifoWords (entryBytes f) } } := by
  unfold State.dnPush State.dnFits
  rw [if_pos (by rw [entry_len]; simp; omega)]

theorem dnCount_lt (s : State) (h : s.dn.vioCnt.toNat < 0xFFFE) : s.dnCount = { s with dn := { s.dn with vioCnt := s.dn.vioCnt + 1 } } := by
  unfold State.dnCount
  dsimp only
  rw [(satInc_lt h).1, State.pinned_not _ _ _ _ (by rw [← (satInc_lt h).1]; exact (satInc_lt h).2)]
  rfl

/-- A violation whose class this second has not logged. -/
theorem dnVio_eq (s : State) (c : Word) (d : Nat) (h : s.mayLog c) : s.dnVio c d = s.networkViolated c d := by
  obtain ⟨h1, h2, h3⟩ := h
  unfold State.dnVio
  dsimp only
  rw [dnCount_lt _ (by exact h1)]
  unfold State.dnLogOnce
  rw [if_neg (by show ¬ (s.hb.secCodes.contains c = true); rw [h3]; decide)]
  unfold State.logOnce
  rw [if_neg (by show ¬ (_ ∈ s.hb.secCodes); simpa using h3), State.logEv_room _ _ _ (by exact h2)]
  rfl

theorem takeReply_found (s : State) (f : RxFrame) (r rest) (h : s.awaits f r rest) (g) : s.takeReply f g = g r { s with dn := { s.dn with reqs := rest } } := by
  obtain ⟨h1, h2, h3, h4⟩ := h
  unfold State.takeReply State.openReq
  rw [h1]
  have : (r :: rest).find? (fun r => r.frame.type == f.frame.type && r.frame.seq == f.frame.seq && r.frame.dest == f.frame.src) = some r := by
    simp [h2, h3, h4]
  rw [this]
  dsimp only
  unfold State.closeReq
  rw [h1]
  simp

theorem triples_flatten : ∀ ts : List (Nat × Word), (∀ t ∈ ts, t.1 % 2 = 0 ∧ t.1 ≤ 0x7E) → triples (ts.map (fun t => [BitVec.ofNat 8 t.1, hiByte t.2, loByte t.2])).flatten = ts
  | [], _ => rfl
  | t :: ts, h => by
    have ht := h t (List.mem_cons_self ..)
    have hw : wordOf (hiByte t.2) (loByte t.2) = t.2 := by
      apply BitVec.eq_of_toNat_eq
      rw [wordOf_toNat]
      have := t.2.isLt
      simp [hiByte, loByte, Nat.shiftRight_eq_div_pow]
      omega
    show ((BitVec.ofNat 8 t.1).toNat, wordOf (hiByte t.2) (loByte t.2)) :: triples (ts.map _).flatten = _
    rw [triples_flatten ts (fun x hx => h x (List.mem_cons_of_mem _ hx)), hw]
    congr 1
    refine Prod.ext ?_ rfl
    simp; omega

theorem triplesFit_of (ts : List (Nat × Word)) (h : ∀ t ∈ ts, t.1 % 2 = 0 ∧ t.1 ≤ 0x7E) : triplesFit (ts.map (fun t => [BitVec.ofNat 8 t.1, hiByte t.2, loByte t.2])).flatten = true := by
  unfold triplesFit
  rw [triples_flatten ts h]
  simp only [Bool.and_eq_true, beq_iff_eq, List.all_eq_true, decide_eq_true_eq]
  refine ⟨?_, fun t ht => h t ht⟩
  have : ∀ ts : List (Nat × Word), (ts.map (fun t => [BitVec.ofNat 8 t.1, hiByte t.2, loByte t.2])).flatten.length % 3 = 0 := by
    intro ts
    induction ts with
    | nil => rfl
    | cons t ts ih => simp only [List.map_cons, List.flatten_cons, List.length_append]; simp at ih ⊢; exact ih
  exact this ts

theorem hostFrame_length (d : BitVec 12) (ty fl : Byte) (p : List Byte) : (hostFrame d ty fl p).length = 6 + p.length := by
  unfold hostFrame; simp [bytesBE, bytesLE]; omega

theorem State.txf_read (s : State) (d : BitVec 12) (ty fl : Byte) (p rest : List Byte) (h : s.dn.txf = hostFrame d ty fl p ++ rest) (hp : p.length ≤ 1024) :
   s.txLen = p.length ∧ BitVec.ofNat 12 (beAt s.dn.txf 0 2) = d ∧ payAt s.dn.txf 2 = ty ∧ payAt s.dn.txf 3 = fl ∧ slice s.dn.txf 6 s.txLen = p ∧ s.dn.txf.drop (s.txLen + 6) = rest ∧ s.hostFrameReady = true := by
  have hx : s.dn.txf = BitVec.ofNat 8 (d.toNat / 256) :: BitVec.ofNat 8 d.toNat :: ty :: fl :: BitVec.ofNat 8 (p.length / 256) :: BitVec.ofNat 8 p.length :: (p ++ rest) := by
    rw [h]; unfold hostFrame; simp [bytesBE, bytesLE]
  have hl : s.txLen = p.length := by
    unfold State.txLen
    rw [hx]
    simp [beAt, slice, natOfBE, natOfLE]
    omega
  refine ⟨hl, ?_, ?_, ?_, ?_, ?_, ?_⟩
  · rw [hx]
    have := d.isLt
    have : beAt (BitVec.ofNat 8 (d.toNat / 256) :: BitVec.ofNat 8 d.toNat :: ty :: fl :: BitVec.ofNat 8 (p.length / 256) :: BitVec.ofNat 8 p.length :: (p ++ rest)) 0 2 = d.toNat := by
      simp [beAt, slice, natOfBE, natOfLE]; omega
    rw [this]; simp
  · rw [hx]; rfl
  · rw [hx]; rfl
  · rw [hl, hx]; simp [slice]
  · rw [hl, hx]; simp
  · unfold State.hostFrameReady
    rw [hl, h]; simp [hostFrame_length]; omega

theorem asked_eq (s : State) (d ty p b) : s.sendRequest d ty p b = s.asked d ty p b := by
  unfold State.sendRequest
  have e := State.originate_to s d ty p
  have e1 : (s.originate d ty 0 p).1 = s.ownFrame d ty 0 p := rfl
  generalize s.originate d ty 0 p = q at *
  obtain ⟨q1, q2⟩ := q
  dsimp only at e e1 ⊢
  rw [e1, e]
  rfl

theorem evData_four (a b c d m n k : Nat) : evData [(a, 0), (b, m), (c, n), (d, k)] = a + b * 2 ^ m + c * 2 ^ n + d * 2 ^ k := by
  unfold evData
  simp

theorem logEv_some (s : State) (c : Word) (d : Nat) : ∃ e, s.logEv c d = { s with ev := e } := by
  unfold State.logEv; split <;> exact ⟨_, rfl⟩

theorem dropAnnounce_room (s : State) (n : Word32) (c : Nat) (h : s.ev.buf.length < 32) : s.dropAnnounce n c = { s with
    hb := { s.hb with irq := s.hb.irq ||| 0x1000#16 }, ev := { s.ev with buf := s.ev.buf ++ [s.eventOf 0x0C0A (n.toNat + c * 2 ^ 32)] } } := by
  unfold State.dropAnnounce State.dnEvent
  rw [evData_two, State.logEv_room _ _ _ h]
  generalize n.toNat + c * 2 ^ 32 = x
  rfl

theorem logged_twice (s : State) (q q' : Word) (b b' : List LogEntry) :
    ({ ({ s with hb := { s.hb with irq := q }, ev := { s.ev with buf := b } } : State) with
      hb := { ({ s with hb := { s.hb with irq := q }, ev := { s.ev with buf := b } } : State).hb with irq := q' },
      ev := { ({ s with hb := { s.hb with irq := q }, ev := { s.ev with buf := b } } : State).ev with buf := b' } } : State) =
    { s with hb := { s.hb with irq := q' }, ev := { s.ev with buf := b' } } := rfl

theorem logged_eventOf (s : State) (q : Word) (b : List LogEntry) :
    ({ s with hb := { s.hb with irq := q }, ev := { s.ev with buf := b } } : State).eventOf = s.eventOf := rfl

theorem dropAnnounces_fold (c : Nat) (l : List Announce) : ∀ (s : State), s.ev.buf.length + l.length ≤ 32 →
    ∃ q, (l.foldl (fun t a => t.dropAnnounce a.number c) s) = { s with
      hb := { s.hb with irq := q }, ev := { s.ev with buf := s.ev.buf ++ l.map (fun a => s.eventOf 0x0C0A (a.number.toNat + c * 2 ^ 32)) } } ∧
      q ||| 0x1000#16 = s.hb.irq ||| 0x1000#16 := by
  induction l with
  | nil => exact fun s _ => ⟨s.hb.irq, by rw [List.map_nil, List.append_nil]; rfl, rfl⟩
  | cons a l ih =>
    intro s h
    rw [List.length_cons] at h
    rw [List.foldl_cons, dropAnnounce_room _ _ _ (by omega)]
    obtain ⟨q, h1, h2⟩ := ih ({ s with
        hb := { s.hb with irq := s.hb.irq ||| 0x1000#16 }, ev := { s.ev with buf := s.ev.buf ++ [s.eventOf 0x0C0A (a.number.toNat + c * 2 ^ 32)] } } : State)
      (by show (s.ev.buf ++ [_]).length + _ ≤ 32; rw [List.length_append, List.length_singleton]; omega)
    rw [logged_twice, logged_eventOf] at h1
    refine ⟨q, h1.trans ?_, ?_⟩
    · rw [List.map_cons]
      exact congrArg (fun b => ({ s with hb := { s.hb with irq := q }, ev := { s.ev with buf := b } } : State)) (List.append_assoc ..)
    · rw [h2]; show s.hb.irq ||| 0x1000#16 ||| 0x1000#16 = _; rw [BitVec.or_assoc, BitVec.or_self]

/-- Leaving: the announcements held go with cause 3, then 0x0C01 (R383, R396). -/
theorem leave_eq (s : State) (h1 : s.isHead = false) (h2 : s.fram.joined = true) (h3 : s.ev.buf.length + s.dn.pend.length < 32) : s.leaveSystem = s.left := by
  unfold State.leaveSystem State.dropAnnounces
  rw [h1, h2]
  obtain ⟨q, he, hq⟩ := dropAnnounces_fold 3 s.dn.pend ({ s with dn := { s.dn with pend := [] } } : State) (by show s.ev.buf.length + _ ≤ 32; omega)
  rw [he]
  unfold State.dnEvent State.joinData
  rw [State.logEv_room _ _ _ (by show (s.ev.buf ++ _).length < 32; simp; omega), evData_four, Nat.zero_add, if_neg (by decide)]
  unfold State.left
  rw [← hq, ← List.append_assoc]
  rfl

theorem dropAnnounce_dn (s : State) (n : Word32) (c : Nat) : (s.dropAnnounce n c).dn = s.dn := by
  unfold State.dropAnnounce State.dnEvent
  obtain ⟨e, he⟩ := logEv_some s 0x0C0A (evData [(n.toNat, 0), (c, 32)])
  rw [he]
  rfl

theorem leave_any (s : State) (h1 : s.isHead = false) (h2 : s.fram.joined = true) : State.sameBut [.fram, .ck, .dl, .dn, .ev, .irq] s s.leaveSystem ∧
    s.leaveSystem.fram.joined = false ∧ s.leaveSystem.fram.addr = 0 ∧ s.leaveSystem.ck.ltv = false ∧ s.leaveSystem.dl.queue = [] ∧ s.leaveSystem.dn.reqs = [] ∧
    s.leaveSystem.dn.pend = [] := by
  refine ⟨((State.leaveSystem_keeps s).mono).left, ?_⟩
  have hp : ∀ (l : List Announce) (u : State), u.dn.pend = [] → (l.foldl (fun t a => t.dropAnnounce a.number 3) u).dn.pend = [] := by
    intro l
    induction l with
    | nil => intro u h; exact h
    | cons a l ih => intro u h; exact ih _ (by rw [dropAnnounce_dn]; exact h)
  unfold State.leaveSystem
  rw [h1, h2]
  dsimp only [Bool.not_true, Bool.or_self, Bool.false_eq_true, if_false]
  refine ⟨rfl, rfl, rfl, rfl, rfl, ?_⟩
  unfold State.dnEvent
  obtain ⟨e, he⟩ := logEv_some (s.dropAnnounces 3) 0x0C01 (s.joinData 0)
  rw [he]
  exact hp s.dn.pend _ rfl

theorem segIdxs_entry (s : State) (p : Port) (i : Nat) (h : i ∈ s.segIdxs p) : (s.segEntry p i).isSome = true := by
  unfold State.segIdxs at h
  rw [List.mem_filterMap] at h
  obtain ⟨j, _, hj⟩ := h
  split at hj
  · cases hj; assumption
  · cases hj

theorem otherPort_ne (p : Port) : (otherPort p == p) = false := by cases p <;> rfl

theorem portOn_congr {s t : State} (h1 : t.pins = s.pins) (h2 : t.fram = s.fram) (h3 : t.hb = s.hb) (h4 : t.dn.otherHead = s.dn.otherHead) (p) : t.portOn p = s.portOn p := by
  unfold State.portOn
  simp only [State.isHead, State.lineRole, State.isBridge, State.pben, State.nvReg, State.nv, h1, h2, h3, h4]

theorem startSegment_spec (s : State) (p : Port) (e q : Word) : ∃ g sq, s.startSegment p e q = { s with dn := { s.dn with segs := g :: s.dn.segs.filter (fun x => x.port != p) }, dl := { s.dl with squeue := sq } } ∧
    g.port = p ∧ g.seq = q ∧ g.epoch = e ∧ g.roll = s.segIdxs p ∧ g.done = false ∧ g.query = (match s.segIdxs p with
          | i :: _ => (s.segEntry p i).map (fun e => (true, 64, e.1.setWidth 64))
          | [] => some (false, 0, 0)) := by
  have put : ∀ (g g' : Segment) (m l x), g.port = p → g'.port = p →
      State.sendQuery ((s.putSegment g).sendBeacon g 0) g' m l x = { s with dn := { s.dn with segs := { g' with query := some (m, l, x), answers := [] } :: s.dn.segs.filter (fun x => x.port != p) }, dl := { s.dl with squeue := (State.sendQuery ((s.putSegment g).sendBeacon g 0) g' m l x).dl.squeue } } := by
    intro g g' m l x hg hg'
    have : ((s.putSegment g).dn.segs.filter (fun x => x.port != p)) = s.dn.segs.filter (fun x => x.port != p) := by
      show (g :: s.dn.segs.filter (fun x => x.port != g.port)).filter (fun x => x.port != p) = _
      rw [List.filter_cons_of_neg (by simp [hg]), List.filter_filter, hg]
      simp only [Bool.and_self]
    rw [← this, ← hg']
    rfl
  unfold State.startSegment State.nextQuery
  dsimp only
  cases hr : s.segIdxs p with
  | nil =>
    exact ⟨_, _, put { port := p, roll := [], tries := 0, stack := [(0, 0)], query := none, answers := [], joining := none,
                       assign := none, departed := [], joined := 0, cut := false, done := false, epoch := e, seq := q } _ _ _ _ rfl rfl, rfl, rfl, rfl, rfl, rfl, rfl⟩
  | cons i rest =>
    have he : (s.segEntry p i).isSome = true := segIdxs_entry s p i (by rw [hr]; exact List.mem_cons_self ..)
    obtain ⟨en, hen⟩ := Option.isSome_iff_exists.1 he
    have hq : ∀ g, State.segEntry (State.sendBeacon (s.putSegment g) g 0) p i = some en := fun g => hen
    dsimp only
    rw [hq]
    dsimp only
    refine ⟨_, _, put _ _ _ _ _ rfl rfl, rfl, rfl, rfl, rfl, rfl, ?_⟩
    rw [hen]
    rfl

theorem epoch_fold (u : State) (e S : Word) : ∀ (ps : List Port), ps.Nodup → ∃ segs sq, (ps.foldl (fun acc p => State.startSegment acc p e S) u) = { u with dn := { u.dn with segs := segs }, dl := { u.dl with squeue := sq } } ∧
     ∀ p ∈ ps, ∃ g, segs.find? (fun g => g.port == p) = some g ∧ g.epoch = e ∧ g.roll = u.segIdxs p ∧ g.done = false ∧
        g.query = (match u.segIdxs p with
          | i :: _ => (u.segEntry p i).map (fun e => (true, 64, e.1.setWidth 64))
          | [] => some (false, 0, 0)) := by
  intro ps
  induction ps using List.reverseRecOn with
  | nil => intro _; exact ⟨u.dn.segs, u.dl.squeue, rfl, fun p hp => absurd hp (by simp)⟩
  | append_singleton ps p ih =>
    intro hn
    rw [List.nodup_append] at hn
    obtain ⟨segs, sq, h1, h2⟩ := ih hn.1
    rw [List.foldl_append, h1]
    obtain ⟨g, sq', h3, h4, -, h5, h6, h7, h8⟩ := startSegment_spec ({ u with dn := { u.dn with segs := segs }, dl := { u.dl with squeue := sq } } : State) p e S
    refine ⟨g :: segs.filter (fun x => x.port != p), sq', ?_, ?_⟩
    · rw [List.foldl_cons, List.foldl_nil, h3]
    intro p' hp'
    by_cases he : p' = p
    · subst he
      exact ⟨g, by rw [List.find?_cons_of_pos]; simpa using h4, h5, h6, h7, h8⟩
    · have hm : p' ∈ ps := by
        rcases List.mem_append.1 hp' with h | h
        · exact h
        · exact absurd (by simpa using h) he
      obtain ⟨g', k1, k2⟩ := h2 p' hm
      refine ⟨g', ?_, k2⟩
      rw [List.find?_cons_of_neg (by rw [h4]; simpa using fun h => he h.symm), List.find?_filter, ← k1]
      congr 1
      funext x
      by_cases hx : x.port = p'
      · simp [hx, he]
      · simp [hx]

theorem startEpoch_spec (s : State) : State.sameBut [.dl, .dn] s s.startEpoch ∧ s.startEpoch.dn.epochNo = s.dn.epochNo + 1 ∧ s.startEpoch.dn.epr = true ∧
      s.startEpoch.dn.await = (s.nodesIn (fun st => st == 2)).map (fun a => (a, 0)) ∧
      s.startEpoch.dl.queue = s.dl.queue ++ ([Port.A, Port.B].filter s.portOn).map
        (s.queued (s.ownFrame 0 0x04 0x08 (bytesBE 2 (s.dn.epochNo + 1).toNat))) ∧
      ∀ p, s.portOn p = true → ∃ g, s.startEpoch.segOn p = some g ∧ g.epoch = s.dn.epochNo + 1 ∧ g.roll = s.segIdxs p ∧ g.done = false ∧
        g.query = (match s.segIdxs p with
          | i :: _ => (s.segEntry p i).map (fun e => (true, 64, e.1.setWidth 64))
          | [] => some (false, 0, 0)) := by
  unfold State.startEpoch
  dsimp only
  rw [State.originate_eq]
  dsimp only
  generalize hw : (List.map (fun a => (a, 0)) (s.nodesIn (fun st => st == 2)) : List (BitVec 12 × Nat)) = w
  have hpo : State.portsOf ({ s with dn := { s.dn with epochNo := s.dn.epochNo + 1#16, epr := true, arrived := [], departed := [], cut := false, segs := [], await := w } } : State)
     (s.ownFrame 0 0x04 0x08 (bytesBE 2 (s.dn.epochNo + 1).toNat)) = [Port.A, Port.B].filter s.portOn := if_pos (by show (0x08 : BitVec 5).getLsbD 3 = true; decide)
  have hof : State.ownFrame ({ s with dn := { s.dn with epochNo := s.dn.epochNo + 1#16, epr := true, arrived := [], departed := [], cut := false, segs := [], await := w } } : State)
     0 0x04 0x08 (bytesBE 2 (s.dn.epochNo + 1#16).toNat) = s.ownFrame 0 0x04 0x08 (bytesBE 2 (s.dn.epochNo + 1).toNat) := rfl
  rw [hof, hpo]
  generalize hQ : s.dl.queue ++ List.map _ ([Port.A, Port.B].filter s.portOn) = Q
  have hQ' : Q = s.dl.queue ++ ([Port.A, Port.B].filter s.portOn).map (s.queued (s.ownFrame 0 0x04 0x08 (bytesBE 2 (s.dn.epochNo + 1).toNat))) := hQ.symm
  generalize hU : ({ s with dn := { s.dn with epochNo := s.dn.epochNo + 1#16, epr := true, arrived := [], departed := [], cut := false, segs := [], await := w, seq := s.dn.seq + 1#16 }, dl := { s.dl with queue := Q } } : State) = u
  have hU' : ∀ x, x = u → x = ({ s with dn := { s.dn with epochNo := s.dn.epochNo + 1#16, epr := true, arrived := [], departed := [], cut := false, segs := [], await := w, seq := s.dn.seq + 1#16 }, dl := { s.dl with queue := Q } } : State) := fun x h => h.trans hU.symm
  show State.sameBut [.dl, .dn] s (List.foldl _ u ([Port.A, Port.B].filter u.portOn)) ∧ _
  have hup : u.portOn = s.portOn := by rw [← hU]; rfl
  rw [hup]
  have key := epoch_fold u (s.dn.epochNo + 1#16) (s.ownFrame 0 0x04 0x08 (bytesBE 2 (s.dn.epochNo + 1).toNat)).seq
  obtain ⟨segs, sq, h1, h2⟩ := key ([Port.A, Port.B].filter s.portOn) (List.Nodup.filter _ (by decide))
  rw [h1]
  rw [← hU] at h2 ⊢
  refine ⟨⟨rfl, fun p hp => by cases p <;> first | exact absurd (by decide) hp | rfl⟩, rfl, rfl, rfl, hQ', ?_⟩
  intro p hp
  exact h2 p (by rw [List.mem_filter]; refine ⟨by cases p <;> simp, hp⟩)

theorem State.writeDsCtl_spec (s : State) (hI : s.Inv) (h4 : s.hb.nvr = true) (h5 : s.hb.rows.length < 2) (h6 : s.runOrDrain = true) (v : Word) (h7 : bitAt v 0 = true)
    (h8 : bitAt v 1 = false) :
   ∃ out u, u = ({ s.unlatched with hb := { s.unlatched.hb with rows := out }, dl := { s.unlatched.dl with txoff := bitAt v 2 } } : State) ∧ s.unlatched.writeDsCtl v = (
     let y := if bitAt v 8 && u.running && u.isHead && !u.dn.epr then u.startEpoch else u
     if bitAt v 10 then y.leaveSystem else y) := by
  obtain ⟨out, ho, he⟩ := State.nvWrite_room s.unlatched 0x46 0 (Config.key 0 0x46) (Sys2Proof.Machine.merge 0x0201 (s.unlatched.nvReg 0x46) v) h4 h5
  refine ⟨out, _, rfl, ?_⟩
  generalize hu : ({ s.unlatched with hb := { s.unlatched.hb with rows := out }, dl := { s.unlatched.dl with txoff := bitAt v 2 } } : State) = u
  have hpb : u.pben = true := by
    have := State.nv_nvWrite s.unlatched hI.2.2.1 h4 0x46 0 (Config.key 0 0x46) (Sys2Proof.Machine.merge 0x0201 (s.unlatched.nvReg 0x46) v) ho (Config.key 0 0x46)
    rw [he, if_pos rfl] at this
    show bitAt (u.nv (Config.key 0 0x46)) 0 = true
    have h2 : u.nv (Config.key 0 0x46) = Sys2Proof.Machine.merge 0x0201 (s.unlatched.nvReg 0x46) v := by
      rw [← hu]; exact this
    rw [h2, bitAt_merge_new (by decide), h7]
  have hr : u.runOrDrain = true := by rw [← hu]; exact h6
  unfold State.writeDsCtl State.nvField
  dsimp only
  rw [he]
  have : State.pbenOff ({ s.unlatched with hb := { s.unlatched.hb with rows := out }, dl := { s.unlatched.dl with txoff := bitAt v 2 } } : State) = u := by
    rw [hu]
    unfold State.pbenOff
    rw [hpb]; rfl
  rw [this, hr, if_pos rfl]
  unfold State.dsActions
  rw [h8]
  rfl

end Sys2Proof.Machine
end

