-- ==== Sys2Proof/Laws/Node.lean ====
section
/-! SUPPORT. Sys2Proof/Laws/Node.lean: byte fields, the node table, joining and the sweep's collection. -/

set_option Elab.async false

set_option linter.all false

open Sys2Proof

namespace Sys2Proof.Machine

theorem segOn_port {s : State} {p : Port} {g : Segment} (h : s.segOn p = some g) : g.port = p := by
  unfold State.segOn at h
  have := List.find?_some h
  simpa using this

theorem onSegment_on {s : State} {p : Port} {g : Segment} (h : s.searching p g) (f) : s.onSegment p f = f g s := by
  unfold State.onSegment
  rw [h.1]
  dsimp only
  rw [if_neg (by rw [h.2]; decide)]

theorem withSegment_on (s : State) (g : Segment) : (s.withSegment g).segOn g.port = some g := by
  unfold State.segOn State.withSegment
  simp

theorem sendQuery_eq (s : State) (g m l x) : s.sendQuery g m l x = s.asksQuery g m l x := rfl

theorem natOfLE_append (a b : List Byte) : natOfLE (a ++ b) = natOfLE a + 256 ^ a.length * natOfLE b := by
  induction a with
  | nil => simp [natOfLE]
  | cons x a ih => simp only [List.cons_append, natOfLE, ih, List.length_cons, pow_succ]; ring

theorem natOfLE_bytesLE : ∀ (n v : Nat), natOfLE (bytesLE n v) = v % 256 ^ n
  | 0, v => by simp [bytesLE, natOfLE, Nat.mod_one]
  | n + 1, v => by
    have ih := natOfLE_bytesLE n (v / 256)
    simp only [bytesLE, natOfLE]
    rw [ih, pow_succ, Nat.mul_comm (256 ^ n) 256, Nat.mod_mul]
    simp

theorem natOfBE_bytesBE (n v : Nat) : natOfBE (bytesBE n v) = v % 256 ^ n := by
  unfold natOfBE bytesBE
  rw [List.reverse_reverse, natOfLE_bytesLE]

theorem bytesLE_length : ∀ (n v : Nat), (bytesLE n v).length = n
  | 0, _ => rfl
  | n + 1, v => by simp [bytesLE, bytesLE_length n]

theorem bytesBE_length (n v : Nat) : (bytesBE n v).length = n := by
  unfold bytesBE; rw [List.length_reverse, bytesLE_length]

theorem beAt_field (a c : List Byte) (n v : Nat) (h : v < 256 ^ n) : beAt (a ++ (bytesBE n v ++ c)) a.length n = v := by
  unfold beAt slice
  rw [List.drop_left, List.take_append_of_le_length (by rw [bytesBE_length]), List.take_of_length_le (by rw [bytesBE_length]), natOfBE_bytesBE, Nat.mod_eq_of_lt h]

theorem beAt_field_last {p a c : List Byte} {k n v : Nat} (hp : p = a ++ (bytesBE n v ++ c)) (hk : a.length = k) (h : v < 256 ^ n) : beAt p k n = v := by
  rw [hp, ← hk]; exact beAt_field a c n v h

theorem payAt_field {p a c : List Byte} {k : Nat} {x : Byte} (hp : p = a ++ (x :: c)) (hk : a.length = k) : payAt p k = x := by
  unfold payAt; rw [hp, ← hk]; simp

theorem beAt_first {p c : List Byte} {n v : Nat} (hp : p = bytesBE n v ++ c) (h : v < 256 ^ n) : beAt p 0 n = v :=
  beAt_field_last (a := []) hp rfl h

theorem seg_key (b j : Nat) (h : b < 0x10000) : Config.key 4 (b + j) = Config.key 4 b + j := by unfold Config.key; omega

theorem putSeg_word (s : State) (h : s.fram.ok) (p : Port) (i j : Nat) (ws : List Word) (hj : j < 8) :
    (s.putSeg p i ws).dsw (segBase p + 8 * (i - 1) + j) = ws.getD j 0 := by
  unfold State.dsw State.putSeg
  rw [State.nv_nvPutAll _ s h]
  generalize segBase p + 8 * (i - 1) = b
  have : ∀ j, j < 8 → (((List.range 8).map (fun j => (Config.key 4 (b + j), ws.getD j 0))).reverse.lookup (Config.key 4 (b + j))) = some (ws.getD j 0) := by
    intro j hj
    have hk : ∀ x y, (Config.key 4 (b + x) == Config.key 4 (b + y)) = (x == y) := by
      intro x y; unfold Config.key
      by_cases hxy : x = y
      · simp [hxy]
      · simp [hxy]
    simp only [List.range, List.range.loop, List.map_cons, List.map_nil, List.reverse_cons, List.reverse_nil, List.nil_append, List.cons_append, List.lookup_cons, hk]
    interval_cases j <;> rfl
  rw [this j hj]
  rfl

/-- The words of the entry alone change. -/
theorem putSeg_nv (s : State) (h : s.fram.ok) (p : Port) (i : Nat) (ws : List Word) (k : Nat)
    (hk : k < Config.key 4 (segBase p + 8 * (i - 1)) ∨ Config.key 4 (segBase p + 8 * (i - 1) + 7) < k) : (s.putSeg p i ws).nv k = s.nv k := by
  unfold State.putSeg
  rw [State.nv_nvPutAll_block s h, if_neg (by unfold Config.key at *; omega)]

theorem dropSeg_none (s : State) (h : s.fram.ok) (p : Port) (i : Nat) : (s.dropSeg p i).segEntry p i = none := by
  unfold State.segEntry State.dropSeg
  dsimp only
  rw [putSeg_word s h p i 3 [] (by omega)]
  rfl

theorem find_seg (g : Segment) (rest : List Segment) (p : Port) (h : g.port = p) : (g :: rest).find? (fun g => g.port == p) = some g := by
  rw [List.find?_cons_of_pos]; simpa using h

theorem fld_pack (lo v n : Nat) (hv : v < 2 ^ n) (hn : lo + n ≤ 16) : fld (pack [(v, lo)]) lo n = v := by
  unfold fld pack
  simp only [List.foldl_cons, List.foldl_nil, Nat.zero_add, BitVec.toNat_ofNat]
  have : v * 2 ^ lo < 2 ^ 16 := by
    calc v * 2 ^ lo < 2 ^ n * 2 ^ lo := Nat.mul_lt_mul_of_pos_right hv (Nat.two_pow_pos lo)
      _ = 2 ^ (lo + n) := by rw [← pow_add, Nat.add_comm]
      _ ≤ 2 ^ 16 := Nat.pow_le_pow_right (by omega) hn
  rw [Nat.mod_eq_of_lt this, Nat.shiftRight_eq_div_pow, Nat.mul_div_cancel _ (Nat.two_pow_pos lo), Nat.mod_eq_of_lt hv]

theorem putNode_word (s : State) (h : s.fram.ok) (n lo w v : Nat) : (s.putNode n lo w v).nodeWord n = Sys2Proof.Machine.merge (mask lo w) (s.nodeWord n) (pack [(v, lo)]) := by
  show (s.nvPut _ _).nv _ = _
  rw [s.nv_nvPut h, if_pos rfl]

theorem putNode_nv (s : State) (h : s.fram.ok) (n lo w v k : Nat) (hk : k ≠ Config.key 6 (4 * n + 3)) : (s.putNode n lo w v).nv k = s.nv k := by
  show (s.nvPut _ _).nv _ = _
  rw [s.nv_nvPut h, if_neg hk]

theorem putNode_serial (s : State) (h : s.fram.ok) (n lo w v : Nat) : (s.putNode n lo w v).nodeSerial n = s.nodeSerial n := by
  unfold State.nodeSerial State.ntw
  rw [putNode_nv s h _ _ _ _ _ (by unfold Config.key; omega), putNode_nv s h _ _ _ _ _ (by unfold Config.key; omega), putNode_nv s h _ _ _ _ _ (by unfold Config.key; omega)]

theorem putNode_state (s : State) (h : s.fram.ok) (n v : Nat) (hv : v < 8) : (s.putNode n 5 3 v).nodeState n = v ∧ (s.putNode n 5 3 v).nodeSerial n = s.nodeSerial n := by
  refine ⟨?_, putNode_serial s h _ _ _ _⟩
  unfold State.nodeState
  rw [putNode_word s h, fld_merge_new (by decide), fld_pack 5 v 3 (by simpa using hv) (by omega)]

theorem putNode_eq (s : State) (n lo w v : Nat) : ∃ nv rows, s.putNode n lo w v = { s with fram := { s.fram with nv := nv }, hb := { s.hb with rows := rows } } := ⟨_, _, rfl⟩

theorem putNode_ok (s : State) (h : s.fram.ok) (n lo w v : Nat) : (s.putNode n lo w v).fram.ok := s.fram_ok_nvPut h _ _

theorem serial_words (x : Word64) : x.extractLsb' 32 16 ++ x.extractLsb' 16 16 ++ x.extractLsb' 0 16 = x.setWidth 48 := by
  apply BitVec.eq_of_getLsbD_eq
  intro i hi
  simp only [BitVec.getLsbD_append, BitVec.getLsbD_extractLsb', BitVec.getLsbD_setWidth]
  by_cases h1 : i < 16
  · simp [h1, hi]
  · by_cases h2 : i - 16 < 16
    · simp [h1, h2, hi]; rw [show 16 + (i - 16) = i by omega]
    · have h3 : i - 16 - 16 < 16 := by omega
      simp [h1, h2, h3, hi]; rw [show 32 + (i - 16 - 16) = i by omega]

theorem nodes_free (s : State) (serial : Word48) (n : Nat) (h1 : 1 ≤ n) (h2 : n ≤ 4095) (h3 : s.nodeState n = 0)
    (h4 : ∀ m, 1 ≤ m → m < n → s.nodeState m ≠ 0) (h5 : ∀ m, 1 ≤ m → m ≤ 4095 → s.nodeSerial m ≠ serial) : s.allocate serial = some n := by
  unfold State.allocate
  have a1 : (List.range 4095).find? (fun i => s.nodeSerial (i + 1) == serial) = none := by
    rw [List.find?_eq_none]
    intro i hi
    have := h5 (i + 1) (by omega) (by have := List.mem_range.1 hi; omega)
    simp [this]
  rw [a1]
  have a2 : (List.range 4095).find? (fun i => s.nodeState (i + 1) == 0) = some (n - 1) := by
    rw [List.find?_range_eq_some]
    refine ⟨?_, ?_, ?_⟩
    · rw [show n - 1 + 1 = n by omega, h3]; rfl
    · rw [List.mem_range]; omega
    · intro j hj
      have := h4 (j + 1) (by omega) (by omega)
      simpa using this
  rw [a2]
  simp; omega

theorem nodes_full (s : State) (serial : Word48) (h5 : ∀ m, 1 ≤ m → m ≤ 4095 → s.nodeState m ≠ 0 ∧ s.nodeSerial m ≠ serial) : s.allocate serial = none := by
  unfold State.allocate
  have a1 : (List.range 4095).find? (fun i => s.nodeSerial (i + 1) == serial) = none := by
    rw [List.find?_eq_none]
    intro i hi
    have := h5 (i + 1) (by omega) (by have := List.mem_range.1 hi; omega)
    simp [this.2]
  have a2 : (List.range 4095).find? (fun i => s.nodeState (i + 1) == 0) = none := by
    rw [List.find?_eq_none]
    intro i hi
    have := h5 (i + 1) (by omega) (by have := List.mem_range.1 hi; omega)
    simp [this.1]
  rw [a1, a2]; rfl

theorem enterNode_new (s : State) (h : s.fram.ok) (n : Nat) (serial : Word64) (hops : Nat) (hn : n < 4096) (hh : hops < 32) (h3 : s.nodeState n = 0) (h4 : fld (s.nodeWord n) 11 5 = 0) :
   ∃ nv rows, s.enterNode n serial hops = { s with fram := { s.fram with nv := nv }, hb := { s.hb with rows := rows }, dn := { s.dn with arrived := s.dn.arrived ++ [BitVec.ofNat 12 n] } } ∧
    (s.enterNode n serial hops).nodeSerial n = serial.setWidth 48 ∧ (s.enterNode n serial hops).nodeState n = 1 ∧ fld ((s.enterNode n serial hops).nodeWord n) 0 5 = hops ∧
    (∀ k, (k < Config.key 6 (4 * n) ∨ Config.key 6 (4 * n + 3) < k) → (s.enterNode n serial hops).nv k = s.nv k) := by
  have hp : s.present n = false := by unfold State.present; rw [h3]; rfl
  generalize hx : s.nvPutAll [(Config.key 6 (4 * n), serial.extractLsb' 0 16), (Config.key 6 (4 * n + 1), serial.extractLsb' 16 16),
                        (Config.key 6 (4 * n + 2), serial.extractLsb' 32 16)] = x
  have hxok : x.fram.ok := by rw [← hx]; exact State.fram_ok_nvPutAll _ s h
  have hxe : ∃ nv rows, x = { s with fram := { s.fram with nv := nv }, hb := { s.hb with rows := rows } } := by rw [← hx]; exact ⟨_, _, State.nvPutAll_eq _ s⟩
  have hxn : ∀ k, x.nv k = ([(Config.key 6 (4 * n + 2), serial.extractLsb' 32 16), (Config.key 6 (4 * n + 1), serial.extractLsb' 16 16), (Config.key 6 (4 * n), serial.extractLsb' 0 16)].lookup k).getD (s.nv k) := by
    intro k; rw [← hx, State.nv_nvPutAll _ s h]; rfl
  have hs : x.nodeSerial n = serial.setWidth 48 := by
    unfold State.nodeSerial State.ntw
    rw [hxn, hxn, hxn]
    have e1 : (Config.key 6 (4 * n) == Config.key 6 (4 * n + 2)) = false := by simp [Config.key]
    have e2 : (Config.key 6 (4 * n) == Config.key 6 (4 * n + 1)) = false := by simp [Config.key]
    have e3 : (Config.key 6 (4 * n + 1) == Config.key 6 (4 * n + 2)) = false := by simp [Config.key]
    simp only [List.lookup_cons, e1, e2, e3, beq_self_eq_true, Option.getD_some]
    exact serial_words serial
  have hw : x.nodeWord n = s.nodeWord n := by
    show x.nv _ = _
    rw [hxn]
    have e1 : (Config.key 6 (4 * n + 3) == Config.key 6 (4 * n + 2)) = false := by simp [Config.key]
    have e2 : (Config.key 6 (4 * n + 3) == Config.key 6 (4 * n + 1)) = false := by simp [Config.key]
    have e3 : (Config.key 6 (4 * n + 3) == Config.key 6 (4 * n)) = false := by simp [Config.key]
    simp only [List.lookup_cons, e1, e2, e3, List.lookup_nil, Option.getD_none]
    rfl
  have hxk : ∀ k, (k < Config.key 6 (4 * n) ∨ Config.key 6 (4 * n + 3) < k) → x.nv k = s.nv k := by
    intro k hk
    have e0 : (k == Config.key 6 (4 * n)) = false := by unfold Config.key at *; rw [beq_eq_false_iff_ne]; omega
    have e1 : (k == Config.key 6 (4 * n + 1)) = false := by unfold Config.key at *; rw [beq_eq_false_iff_ne]; omega
    have e2 : (k == Config.key 6 (4 * n + 2)) = false := by unfold Config.key at *; rw [beq_eq_false_iff_ne]; omega
    rw [hxn]
    simp only [List.lookup_cons, e0, e1, e2, List.lookup_nil, Option.getD_none]
  have hyok := putNode_ok x hxok n 0 5 hops
  have hyk := fun k => putNode_nv x hxok n 0 5 hops k
  have hyw := putNode_word x hxok n 0 5 hops
  have hys := putNode_serial x hxok n 0 5 hops
  generalize hy : x.putNode n 0 5 hops = y at *
  have hzw := putNode_word y hyok n 5 3 1
  have hzs := putNode_serial y hyok n 5 3 1
  have hz1 := (putNode_state y hyok n 1 (by omega)).1
  have hzk := fun k => putNode_nv y hyok n 5 3 1 k
  obtain ⟨nv, rows, hze⟩ : ∃ nv rows, y.putNode n 5 3 1 = { s with fram := { s.fram with nv := nv }, hb := { s.hb with rows := rows } } := by
    obtain ⟨nv, rows, he⟩ := hxe
    rw [← hy, he]
    exact ⟨_, _, rfl⟩
  generalize hz : y.putNode n 5 3 1 = z at *
  have key : s.enterNode n serial hops = { z with dn := { z.dn with arrived := z.dn.arrived ++ [BitVec.ofNat 12 n] } } := by
    unfold State.enterNode
    rw [hp]
    dsimp only
    rw [if_neg (by decide), hx, hy, hz]
    unfold State.collectMissed
    have hm : (BitVec.ofNat 12 n).toNat = n := by simp; omega
    rw [hm]
    have : fld (State.nodeWord { z with dn := { z.dn with arrived := z.dn.arrived ++ [BitVec.ofNat 12 n] } } n) 11 5 = 0 := by
      show fld (z.nodeWord n) 11 5 = 0
      rw [hzw, fld_merge_old (by decide), hyw, fld_merge_old (by decide), hw, h4]
    rw [this]
    rfl
  rw [key]
  refine ⟨nv, rows, ?_, ?_, hz1, ?_, ?_⟩
  · rw [hze]
  · show z.nodeSerial n = _
    rw [hzs, hys, hs]
  · show fld (z.nodeWord n) 0 5 = hops
    rw [hzw, fld_merge_old (by decide), hyw, fld_merge_new (by decide), fld_pack 0 hops 5 (by simpa using hh) (by omega)]
  · intro k hk
    show z.nv k = _
    have hne : k ≠ Config.key 6 (4 * n + 3) := by unfold Config.key at *; omega
    rw [hzk k hne, hyk k hne, hxk k hk]

theorem collectNext_ask (fuel : Nat) (s : State) (c : Collect) (rest : List Collect) (a : BitVec 12) (todo : List (BitVec 12)) (h1 : s.dn.collects = c :: rest) (h2 : c.todo = a :: todo) (h3 : s.present a.toNat = true) :
   State.collectNext (fuel + 1) s = State.sendCollect { s with dn := { s.dn with collects := { c with todo := todo, asked := some a } :: rest } } c.number a false := by
  unfold State.collectNext
  rw [h1]
  dsimp only
  rw [h2]
  dsimp only
  rw [if_pos h3]

theorem closeRecord_collects (s : State) (c : Collect) : (s.closeRecord c).dn.collects = s.dn.collects := by
  unfold State.closeRecord
  split
  · rfl
  · unfold State.dnEvent
    obtain ⟨e, he⟩ := logEv_some ({ s with dn := { s.dn with swl := true } } : State) 0x0C0B
      (evData [(c.number.toNat % 4096, 0), (s.dn.counts.getD 0 0, 12), (s.dn.counts.getD 1 0, 24), (s.dn.counts.getD 2 0, 36)])
    rw [he]; rfl

theorem collectNext_nil (fuel : Nat) (s : State) (h1 : s.dn.collects = []) : State.collectNext fuel s = s := by
  cases fuel with
  | zero => rfl
  | succ n => unfold State.collectNext; rw [h1]

theorem collectNext_close (fuel : Nat) (s : State) (c : Collect) (h1 : s.dn.collects = [c]) (h2 : c.todo = []) (h3 : c.late = false) :
   State.collectNext (fuel + 2) s = State.closeRecord { s with dn := { s.dn with collects := [] } } c := by
  show State.collectNext ((fuel + 1) + 1) s = _
  unfold State.collectNext
  rw [h1]
  dsimp only
  rw [h2]
  dsimp only
  exact collectNext_nil _ _ (closeRecord_collects _ c)

theorem collects_todo (s : State) (h : ∀ a ∈ s.dn.sweepSet, a ≠ 0 ∧ s.present a.toNat = true) (all : List (BitVec 12)) (hall : all = s.nodesIn (fun st => st == 1 || st == 2)) :
   (List.range 4096).filterMap (fun i => if all.contains (BitVec.ofNat 12 i) || (s.dn.sweepSet.filter (fun a => !all.contains a)).contains (BitVec.ofNat 12 i) then some (BitVec.ofNat 12 i) else none) =
   ((List.range 4096).map (BitVec.ofNat 12)).filter (fun x => x != 0 && s.present x.toNat) := by
  have hmem : ∀ x : BitVec 12, all.contains x = (x != 0 && s.present x.toNat) := by
    intro x
    rw [hall, Bool.eq_iff_iff]
    simp only [List.contains_iff_mem, Bool.and_eq_true, bne_iff_ne, ne_eq]
    unfold State.nodesIn
    rw [List.mem_filterMap]
    constructor
    · rintro ⟨i, hi, hx⟩
      have hi' := List.mem_range.1 hi
      split at hx
      · rename_i hc
        cases hx
        have hv : (BitVec.ofNat 12 (i + 1)).toNat = i + 1 := by simp; omega
        refine ⟨fun h0 => ?_, ?_⟩
        · have := congrArg BitVec.toNat h0; rw [hv] at this; simp at this
        · rw [hv]; exact hc
      · cases hx
    · rintro ⟨h1, h2⟩
      have hx := x.isLt
      have h0 : x.toNat ≠ 0 := fun h0 => h1 (BitVec.eq_of_toNat_eq (by simpa using h0))
      refine ⟨x.toNat - 1, List.mem_range.2 (by omega), ?_⟩
      rw [show x.toNat - 1 + 1 = x.toNat by omega]
      exact (if_pos h2).trans (by simp)
  have hgone : s.dn.sweepSet.filter (fun a => !all.contains a) = [] := by
    rw [List.filter_eq_nil_iff]
    intro a ha
    have := h a ha
    rw [hmem]
    simp [this.2]
    simpa using this.1
  rw [hgone]
  generalize List.range 4096 = l
  induction l with
  | nil => rfl
  | cons i l ih =>
    rw [List.filterMap_cons, List.map_cons, List.filter_cons, ih, hmem]
    simp only [List.contains_nil, Bool.or_false]
    generalize BitVec.ofNat 12 i = x
    cases (x != 0 && s.present x.toNat) <;> rfl

theorem replicate_send (f : DFrame) : ∀ (n : Nat) (t : State), (List.range n).foldl (fun acc _ => State.sendFrame acc f) t =
    { t with dl := { t.dl with queue := t.dl.queue ++ (List.replicate n ((t.portsOf f).map (t.queued f))).flatten } }
  | 0, t => by simp
  | n + 1, t => by
    rw [List.range_succ, List.foldl_append, replicate_send f n t, List.foldl_cons, List.foldl_nil, State.sendFrame_eq]
    show ({ t with dl := { t.dl with queue := (t.dl.queue ++ (List.replicate n ((t.portsOf f).map (t.queued f))).flatten) ++ (t.portsOf f).map (t.queued f) } } : State) = _
    rw [List.replicate_succ', List.flatten_append, List.append_assoc]
    simp

theorem rowWrite_ok (R : List RowWrite) (k : Nat) (w : Word) (h1 : R.length ≤ 1) (h2 : ∀ r ∈ R, r.row = k / 16) (h3 : ∀ r ∈ R, ∀ p ∈ r.words, p.1 / 16 = r.row) :
   ∃ out, bufferRow R k w = some out ∧ out.length ≤ 1 ∧ (∀ r ∈ out, r.row = k / 16) ∧ ∀ r ∈ out, ∀ p ∈ r.words, p.1 / 16 = r.row := by
  match R with
  | [] =>
    refine ⟨_, rfl, by simp, ?_, ?_⟩
    · intro r hr; simp at hr; rw [hr]
    · intro r hr p hp; simp at hr; rw [hr] at hp ⊢; simp at hp; rw [hp]
  | [r0] =>
    have hr0 := h2 r0 (by simp)
    have : bufferRow [r0] k w = some [{ r0 with words := r0.words ++ [(k, w)] }] := by
      unfold bufferRow
      simp [hr0]
    refine ⟨_, this, by simp, ?_, ?_⟩
    · intro r hr; simp at hr; rw [hr]; exact hr0
    · intro r hr p hp
      simp at hr
      rw [hr] at hp ⊢
      rcases List.mem_append.1 hp with h | h
      · exact h3 r0 (by simp) p h
      · simp at h; rw [h]; exact hr0.symm
  | _ :: _ :: _ => simp at h1

theorem nvWrite_row (s : State) (hn : s.hb.nvr = true) (reg word k : Nat) (w : Word) (h1 : s.hb.rows.length ≤ 1) (h2 : ∀ r ∈ s.hb.rows, r.row = k / 16) (h3 : ∀ r ∈ s.hb.rows, ∀ p ∈ r.words, p.1 / 16 = r.row) :
   ∃ out, s.nvWrite reg word k w = { s with hb := { s.hb with rows := out } } ∧ out.length ≤ 1 ∧ (∀ r ∈ out, r.row = k / 16) ∧ (∀ r ∈ out, ∀ p ∈ r.words, p.1 / 16 = r.row) ∧
    ∀ j, (s.nvWrite reg word k w).nv j = if j = k then w else s.nv j := by
  obtain ⟨out, ho, q1, q2, q3⟩ := rowWrite_ok s.hb.rows k w h1 h2 h3
  refine ⟨out, ?_, q1, q2, q3, State.nv_nvWrite s ⟨by omega, h3⟩ hn reg word k w ho⟩
  unfold State.nvWrite
  rw [if_pos hn, ho]

theorem pack_three (x y z m n : Nat) : pack [(x, 0), (y, m), (z, n)] = BitVec.ofNat 16 (x + y * 2 ^ m + z * 2 ^ n) := by
  unfold pack
  simp

theorem memberWord_toNat (a : BitVec 12) (ag : Bool) : (pack [(a.toNat, 0), (b2n ag, 12), (1, 15)]).toNat = a.toNat + b2n ag * 4096 + 32768 := by
  have := a.isLt
  have hb : b2n ag ≤ 1 := by cases ag <;> decide
  rw [pack_three, BitVec.toNat_ofNat, Nat.mod_eq_of_lt] <;> omega

theorem memberWord_used (a : BitVec 12) (ag : Bool) : bitAt (pack [(a.toNat, 0), (b2n ag, 12), (1, 15)]) 15 = true := by
  have := a.isLt
  have hb : b2n ag ≤ 1 := by cases ag <;> decide
  unfold bitAt
  rw [BitVec.getLsbD, Nat.testBit_eq_decide_div_mod_eq, memberWord_toNat]
  rw [decide_eq_true_eq]
  omega

theorem memberWord_agent (a : BitVec 12) (ag : Bool) : bitAt (pack [(a.toNat, 0), (b2n ag, 12), (1, 15)]) 12 = ag := by
  have := a.isLt
  unfold bitAt
  rw [BitVec.getLsbD, Nat.testBit_eq_decide_div_mod_eq, memberWord_toNat]
  cases ag
  · rw [show b2n false = 0 from rfl, decide_eq_false_iff_not]; omega
  · rw [show b2n true = 1 from rfl, decide_eq_true_eq]; omega

theorem memberWord_addr (a : BitVec 12) (ag : Bool) : (pack [(a.toNat, 0), (b2n ag, 12), (1, 15)]).extractLsb' 0 12 = a := by
  have := a.isLt
  have hb : b2n ag ≤ 1 := by cases ag <;> decide
  apply BitVec.eq_of_toNat_eq
  rw [BitVec.extractLsb'_toNat, memberWord_toNat, Nat.shiftRight_zero]
  omega

theorem memberWord_fields (a : BitVec 12) (ag : Bool) : bitAt (pack [(a.toNat, 0), (b2n ag, 12), (1, 15)]) 15 = true ∧ bitAt (pack [(a.toNat, 0), (b2n ag, 12), (1, 15)]) 12 = ag ∧ (pack [(a.toNat, 0), (b2n ag, 12), (1, 15)]).extractLsb' 0 12 = a := ⟨memberWord_used a ag, memberWord_agent a ag, memberWord_addr a ag⟩

theorem putSeg_entry (u : State) (h : u.fram.ok) (p : Port) (i : Nat) (serial : Word64) (a : BitVec 12) (ag : Bool) (x : Word) :
   (u.putSeg p i [serial.extractLsb' 0 16, serial.extractLsb' 16 16, serial.extractLsb' 32 16, pack [(a.toNat, 0), (b2n ag, 12), (1, 15)], x]).segEntry p i = some (serial.setWidth 48, a, ag) := by
  have e := memberWord_fields a ag
  generalize pack [(a.toNat, 0), (b2n ag, 12), (1, 15)] = w at *
  unfold State.segEntry
  dsimp only
  rw [putSeg_word u h _ _ 3 _ (by omega), putSeg_word u h _ _ 2 _ (by omega), putSeg_word u h _ _ 1 _ (by omega)]
  have := fun ws => putSeg_word u h p i 0 ws (by omega)
  simp only [Nat.add_zero] at this
  rw [this]
  simp only [List.getD_cons_succ, List.getD_cons_zero]
  rw [e.1, if_pos rfl, e.2.1, e.2.2, serial_words]

end Sys2Proof.Machine
end

