-- ==== Sys2Proof/Laws/Orrery.lean ====
section
/-! SUPPORT. Sys2Proof/Laws/Orrery.lean: what the engine keeps when teeth are placed, confirmed or lost, and what a flow update keeps. -/

set_option Elab.async false

set_option linter.all false

open Sys2Proof

namespace Sys2Proof.Machine

/-- The engine's last tooth, its counts and its pending teeth stand. -/
def SameTeeth (s t : State) : Prop := t.orr.tLast = s.orr.tLast ∧ t.orr.hasLast = s.orr.hasLast ∧ t.orr.pend.length = s.orr.pend.length ∧ t.orr.tcnt = s.orr.tcnt ∧ t.orr.still = s.orr.still ∧ t.orr.synrun = s.orr.synrun ∧ t.orr.synt = s.orr.synt ∧ t.orr.synCnt = s.orr.synCnt

theorem SameTeeth.refl (s : State) : SameTeeth s s := ⟨rfl, rfl, rfl, rfl, rfl, rfl, rfl, rfl⟩

theorem SameTeeth.trans {s t u : State} (a : SameTeeth s t) (b : SameTeeth t u) : SameTeeth s u :=
  ⟨b.1.trans a.1, b.2.1.trans a.2.1, b.2.2.1.trans a.2.2.1, b.2.2.2.1.trans a.2.2.2.1, b.2.2.2.2.1.trans a.2.2.2.2.1, b.2.2.2.2.2.1.trans a.2.2.2.2.2.1, b.2.2.2.2.2.2.1.trans a.2.2.2.2.2.2.1, b.2.2.2.2.2.2.2.trans a.2.2.2.2.2.2.2⟩

theorem SameTeeth.ofEq {s t : State} (h : t.orr = s.orr) : SameTeeth s t := by unfold SameTeeth; rw [h]; exact ⟨rfl, rfl, rfl, rfl, rfl, rfl, rfl, rfl⟩

theorem SameTeeth.upd {s t : State} {o : Orr} (h : SameTeeth s t) (h1 : o.tLast = t.orr.tLast) (h2 : o.hasLast = t.orr.hasLast) (h3 : o.pend.length = t.orr.pend.length) (h4 : o.tcnt = t.orr.tcnt) (h5 : o.still = t.orr.still) (h6 : o.synrun = t.orr.synrun) (h7 : o.synt = t.orr.synt) (h8 : o.synCnt = t.orr.synCnt) : SameTeeth s { t with orr := o } :=
  h.trans ⟨h1, h2, h3, h4, h5, h6, h7, h8⟩

theorem act_sameTeeth (s : State) n e : SameTeeth s (s.act n e) := by
  unfold State.act
  split
  · exact SameTeeth.refl _
  · exact .ofEq (State.setChannel_keeps ..).eqOrr
  · exact .ofEq (State.commute_keeps ..).eqOrr
  · exact .ofEq (State.sampleTag_keeps ..).eqOrr
  · exact .ofEq (State.setFw_keeps ..).eqOrr
  · exact .ofEq (Eq.trans (State.feUpdateNow_keeps ..).eqOrr rfl)
  · exact ⟨rfl, rfl, rfl, rfl, rfl, rfl, rfl, rfl⟩
  · unfold State.reservedAction
    split
    · exact SameTeeth.refl _
    · exact SameTeeth.trans (t := { s with orr := { s.orr with resLogged := n :: s.orr.resLogged } }) ⟨rfl, rfl, rfl, rfl, rfl, rfl, rfl, rfl⟩ (.ofEq (State.logEv_keeps ..).eqOrr)

theorem mark_sameTeeth (s : State) n r : SameTeeth s (s.markFired n r) := by
  refine ⟨rfl, rfl, ?_, rfl, rfl, rfl, rfl, rfl⟩
  unfold State.markFired
  cases s.orr.pend <;> rfl

theorem fireLate_sameTeeth (s : State) n r : SameTeeth s (s.fireLate n r) := by
  unfold State.fireLate State.fire
  have hm := (mark_sameTeeth s n r).trans (act_sameTeeth (s.markFired n r) n (s.entry n))
  refine hm.trans ?_
  refine SameTeeth.trans ?_ (.ofEq (State.pinned_keeps ..).eqOrr)
  exact ⟨rfl, rfl, rfl, rfl, rfl, rfl, rfl, rfl⟩

theorem lateFires_sameTeeth (s : State) a b r : SameTeeth s (s.lateFires a b r) := by
  unfold State.lateFires
  suffices h : ∀ (l : List Nat) (t : State), SameTeeth s t → SameTeeth s (l.foldl (fun acc n =>
    let e := acc.entry n
    let hit := if r then (if e.both then crossedRev a b e.angle else none) else crossedFwd a b e.angle
    match hit with
    | some r => if acc.mayFire n r then acc.fireLate n r else acc
    | none => acc) t) from h _ s (SameTeeth.refl s)
  intro l
  induction l with
  | nil => exact fun t h => h
  | cons n l ih =>
    intro t h
    refine ih _ ?_
    dsimp only
    split
    · split
      · exact h.trans (fireLate_sameTeeth ..)
      · exact h
    · exact h

theorem tail_sameTeeth (s : State) a b r c : SameTeeth s (((s.lateFires a b r).takeCycle c).pruneFired) := by
  refine (lateFires_sameTeeth s a b r).trans ?_
  generalize s.lateFires a b r = u
  unfold State.takeCycle State.pruneFired
  dsimp only
  split <;> exact ⟨rfl, rfl, rfl, rfl, rfl, rfl, rfl, rfl⟩

theorem respeedIn_sameTeeth (s : State) rev : SameTeeth s (s.respeedIn rev) := ⟨rfl, rfl, rfl, rfl, rfl, rfl, rfl, rfl⟩

theorem passAt_sameTeeth (s : State) ns rev pos : SameTeeth s (s.passAt ns rev pos) := ⟨rfl, rfl, rfl, rfl, rfl, rfl, rfl, rfl⟩

theorem moveTooth_sameTeeth (s : State) rev r : SameTeeth s (s.moveTooth rev r) := ⟨rfl, rfl, rfl, rfl, rfl, rfl, rfl, rfl⟩

theorem learnAbort_sameTeeth (s : State) c : SameTeeth s (s.learnAbort c) := by
  unfold State.learnAbort
  split
  · exact SameTeeth.trans (t := { s with orr := { s.orr with learn := false, lrn := false, lrnArm := false, lrnRev := [], lrnAll := [] } }) ⟨rfl, rfl, rfl, rfl, rfl, rfl, rfl, rfl⟩ (.ofEq (State.logEv_keeps ..).eqOrr)
  · exact SameTeeth.refl _

theorem mapCheck_sameTeeth (s : State) : SameTeeth s s.mapCheck := by
  unfold State.mapCheck
  split
  · exact SameTeeth.refl _
  · split
    · exact ⟨rfl, rfl, rfl, rfl, rfl, rfl, rfl, rfl⟩
    · refine SameTeeth.trans (t := { s with orr := { s.orr with mapDirty := false, mapv := false } }) ⟨rfl, rfl, rfl, rfl, rfl, rfl, rfl, rfl⟩ (.ofEq (State.logEv_keeps ..).eqOrr)

theorem learnIndex_sameTeeth (s : State) : SameTeeth s s.learnIndex := by
  unfold State.learnIndex
  split
  · exact ⟨rfl, rfl, rfl, rfl, rfl, rfl, rfl, rfl⟩
  · split
    · dsimp only
      split
      · exact learnAbort_sameTeeth s 1
      · exact ⟨rfl, rfl, rfl, rfl, rfl, rfl, rfl, rfl⟩
    · exact SameTeeth.refl _

theorem indexTooth_sameTeeth (s : State) e r : SameTeeth s (s.indexTooth e r) := by
  unfold State.indexTooth
  refine SameTeeth.trans ?_ (((mapCheck_sameTeeth _)).trans (learnIndex_sameTeeth _))
  dsimp only
  split
  · exact ⟨rfl, rfl, rfl, rfl, rfl, rfl, rfl, rfl⟩
  · refine SameTeeth.trans ?_ (learnAbort_sameTeeth _ 5)
    refine SameTeeth.trans ?_ (.ofEq (State.irq_keeps ..).eqOrr)
    refine SameTeeth.trans ?_ (.ofEq (State.logEv_keeps ..).eqOrr)
    refine SameTeeth.trans ?_ (.ofEq (State.pinned_keeps ..).eqOrr)
    exact ⟨rfl, rfl, rfl, rfl, rfl, rfl, rfl, rfl⟩

/-- After standstill the engine's counts stand; the w1c bits of a held write of OR_STAT clear (R98). -/
theorem resume_spec (s : State) rev :
    (s.resume rev).orr.pend.length = s.orr.pend.length ∧ (s.resume rev).orr.tcnt = s.orr.tcnt ∧ (s.resume rev).orr.still = false ∧
    (s.resume rev).orr.synrun = s.orr.synrun ∧ (s.resume rev).orr.synCnt = s.orr.synCnt ∧
    (s.orr.still = false → (s.resume rev).orr.synt = s.orr.synt) := by
  unfold State.resume
  split
  · rename_i h
    rw [(State.irq_keeps ..).eqOrr, (State.logEv_keeps ..).eqOrr]
    unfold State.orStatHeld
    split <;> exact ⟨rfl, rfl, rfl, rfl, rfl, fun h' => absurd h (by simp [h'])⟩
  · rename_i h; simp at h; simp [h]

/-- The engine's counts as a tooth takes its place, before its increments: what standstill leaves, and nothing else. -/
theorem placeMove_spec (s : State) (syn rev rvs : Bool) (t d : Nat) :
    (s.placeMove syn rev rvs t d).orr.pend.length = s.orr.pend.length ∧ (s.placeMove syn rev rvs t d).orr.tcnt = s.orr.tcnt ∧
    (s.placeMove syn rev rvs t d).orr.still = false ∧ (s.placeMove syn rev rvs t d).orr.synrun = s.orr.synrun ∧
    (s.placeMove syn rev rvs t d).orr.synCnt = s.orr.synCnt ∧
    (s.orr.still = false → (s.placeMove syn rev rvs t d).orr.synt = s.orr.synt) := by
  unfold State.placeMove
  lift_lets
  intro reached s0 s1 s2 o s3 s4
  have h0 : SameTeeth s s0 := by
    show SameTeeth s (if _ then _ else _)
    split
    · exact passAt_sameTeeth ..
    · exact SameTeeth.refl _
  have h1 := resume_spec s0 rev
  have h2 : SameTeeth s1 s2 := by
    show SameTeeth s1 (if _ then _ else _)
    split
    · exact ⟨rfl, rfl, rfl, rfl, rfl, rfl, rfl, rfl⟩
    · exact SameTeeth.refl _
  have h3 : SameTeeth s2 s3 := by
    show SameTeeth s2 (if _ then _ else _)
    split
    · exact ⟨rfl, rfl, rfl, rfl, rfl, rfl, rfl, rfl⟩
    · exact SameTeeth.refl _
  have h5 : SameTeeth s4 (if (s.toIndex rev && !syn) = true then s4.indexTooth (s.nextIdx rev) reached else s4) := by
    split
    · exact indexTooth_sameTeeth ..
    · exact SameTeeth.refl _
  have H := (((h2.trans h3).trans (moveTooth_sameTeeth s3 rev reached)).trans h5).trans (respeedIn_sameTeeth _ rev)
  obtain ⟨_, _, H3, H4, H5, H6, H7, H8⟩ := H
  obtain ⟨_, _, K3, K4, K5, K6, K7, K8⟩ := h0
  obtain ⟨a, b, c, e, f, g⟩ := h1
  exact ⟨(H3.trans a).trans K3, (H4.trans b).trans K4, H5.trans c, (H6.trans e).trans K6, (H8.trans f).trans K8,
    fun hs => (H7.trans (g (K5.trans hs))).trans K7⟩

theorem place_spec (s : State) (syn rev rvs : Bool) (t d : Nat) pred :
    (s.place syn rev rvs t d pred).orr.tLast = t ∧ (s.place syn rev rvs t d pred).orr.hasLast = true ∧
    (s.place syn rev rvs t d pred).orr.pend.length = s.orr.pend.length + 1 ∧ (s.place syn rev rvs t d pred).orr.tcnt = s.orr.tcnt ∧
    (s.place syn rev rvs t d pred).orr.still = false ∧ (s.place syn rev rvs t d pred).orr.synrun = s.orr.synrun ∧
    (s.orr.still = false → (s.place syn rev rvs t d pred).orr.synt = s.orr.synt) ∧ (s.place syn rev rvs t d pred).orr.synCnt = s.orr.synCnt := by
  obtain ⟨m1, m2, m3, m4, m5, m6⟩ := placeMove_spec s syn rev rvs t d
  unfold State.place
  dsimp only
  generalize s.placeMove syn rev rvs t d = s5 at *
  have h6 : (s5.toothIncrement (s.pitchOf rev) (1, s5.teeth) rev).2.orr = s5.orr := (State.toothIncrement_keeps ..).eqOrr
  generalize s5.toothIncrement (s.pitchOf rev) (1, s5.teeth) rev = q at *
  obtain ⟨inc, s6⟩ := q
  dsimp only at h6 ⊢
  obtain ⟨T1, T2, T3, T4, T5, T6, T7, T8⟩ := tail_sameTeeth _ _ _ rev s.orr.angle
  refine ⟨T1, T2, T3.trans ?_, T4.trans ?_, T5.trans ?_, T6.trans ?_, fun hs => T7.trans ?_, T8.trans ?_⟩
  · simp [h6, m1]
  · simp [h6, m2]
  · simp [h6, m3]
  · simp [h6, m4]
  · simp [h6, m6 hs]
  · simp [h6, m5]

theorem acceptReal_spec (s : State) (rev rvs : Bool) (t d : Nat) pred :
    (s.acceptReal rev rvs t d pred).orr.tLast = t ∧ (s.acceptReal rev rvs t d pred).orr.hasLast = true ∧
    (s.acceptReal rev rvs t d pred).orr.pend.length = s.orr.pend.length + 1 ∧ (s.acceptReal rev rvs t d pred).orr.tcnt = s.orr.tcnt ∧
    (s.acceptReal rev rvs t d pred).orr.still = false := by
  unfold State.acceptReal
  have h := place_spec { s with orr := { s.orr with synrun := 0, sfltRun := false } } false rev rvs t d pred
  exact ⟨h.1, h.2.1, h.2.2.1, h.2.2.2.1, h.2.2.2.2.1⟩

theorem synthPlace_spec (s1 : State) (n c m : Nat) (w : Word) (rev : Bool) (t d : Nat) (pred) (u : State)
    (hst : s1.orr.still = false)
    (hu : u = ((({ s1 with orr := { s1.orr with synrun := n, synt := true, synCnt := w, secSyn := m } } : State).pinned 3 0x319 w).learnAbort 3).place true rev false t d pred) :
    let v := if c = 3 then u.sensorFault else u
    v.orr.synt = true ∧ v.orr.synrun = n ∧ v.orr.synCnt = w ∧ v.orr.tLast = t ∧ (c = 3 → v.orr.sflt = true) := by
  have hL : SameTeeth ({ s1 with orr := { s1.orr with synrun := n, synt := true, synCnt := w, secSyn := m } } : State) (({ s1 with orr := { s1.orr with synrun := n, synt := true, synCnt := w, secSyn := m } } : State).pinned 3 0x319 w |>.learnAbort 3) :=
    SameTeeth.trans (.ofEq (State.pinned_keeps ..).eqOrr) (learnAbort_sameTeeth _ _)
  have hp := place_spec ((({ s1 with orr := { s1.orr with synrun := n, synt := true, synCnt := w, secSyn := m } } : State).pinned 3 0x319 w).learnAbort 3) true rev false t d pred
  rw [← hu] at hp
  obtain ⟨_, _, _, _, L5, L6, L7, L8⟩ := hL
  obtain ⟨P1, _, _, _, _, P6, P7, P8⟩ := hp
  have P6' := P6.trans L6
  have P7' := (P7 (L5.trans hst)).trans L7
  have P8' := P8.trans L8
  have hs : u.sensorFault.orr = { u.orr with sflt := true, sfltRun := true } := by
    unfold State.sensorFault
    dsimp only
    split
    · rw [(State.logEv_keeps ..).eqOrr]
    · rw [(State.irq_keeps ..).eqOrr, (State.logEv_keeps ..).eqOrr]
  dsimp only
  split
  · rw [hs]; exact ⟨P7', P6', P8', P1, fun _ => rfl⟩
  · rename_i hn; exact ⟨P7', P6', P8', P1, fun h => absurd h hn⟩

theorem confirmAll_nil (s : State) (h : s.orr.pend = []) : s.confirmAll = s := by
  have : ({ s.orr with pend := [] } : Orr) = s.orr := by rw [← h]
  unfold State.confirmAll; simp [h, this]

theorem confirmAll_one (s : State) (h : s.orr.pend.length = 1) : s.confirmAll.orr.pend = [] ∧ s.confirmAll.orr.tcnt = s.orr.tcnt + 1#48 ∧ s.confirmAll.orr.tLast = s.orr.tLast := by
  obtain ⟨p, hp⟩ := List.length_eq_one_iff.1 h
  unfold State.confirmAll
  simp only [hp, List.reverse_cons, List.reverse_nil, List.nil_append, List.foldl_cons, List.foldl_nil]
  unfold State.confirmTooth
  simp [(State.confirmInc_keeps ..).eqOrr]

theorem confirmTooth_orr (s : State) (p : Pending) : (s.confirmTooth p).orr.pend = s.orr.pend ∧ (s.confirmTooth p).orr.still = s.orr.still := by
  unfold State.confirmTooth
  dsimp only
  rw [(State.confirmInc_keeps ..).eqOrr]
  exact ⟨rfl, rfl⟩

theorem confirmAll_pend (s : State) : s.confirmAll.orr.pend = [] := by
  unfold State.confirmAll
  dsimp only
  suffices h : ∀ (l : List Pending) (t : State), t.orr.pend = [] → (l.foldl State.confirmTooth t).orr.pend = [] from h _ _ rfl
  intro l
  induction l with
  | nil => exact fun t h => h
  | cons p l ih => exact fun t h => ih _ ((confirmTooth_orr t p).1.trans h)

theorem settle_pend (s : State) : s.settle.orr.pend = [] := by
  unfold State.settle
  dsimp only
  split <;> exact confirmAll_pend _

theorem learnAbort_pend (s : State) c : (s.learnAbort c).orr.pend = s.orr.pend := by
  unfold State.learnAbort
  split
  · rw [(State.logEv_keeps ..).eqOrr]
  · rfl

theorem logEv_irq_orr (s : State) c d n : ((s.logEv c d).irq n).orr = s.orr := by
  rw [(State.irq_keeps ..).eqOrr, (State.logEv_keeps ..).eqOrr]

theorem standstill_orr (s : State) : s.standstill.orr = { (s.settle.learnAbort 6).orr with window := [], speed := 0, spest := false, spsat := false, still := true, angrun := false, hasLast := false, synrun := 0 } := by
  unfold State.standstill
  exact logEv_irq_orr _ _ _ _

/-- The place of the flow update stands. -/
def SameUpdate (s t : State) : Prop := t.fe.updPos = s.fe.updPos ∧ t.fe.updT = s.fe.updT

theorem SameUpdate.refl (s : State) : SameUpdate s s := ⟨rfl, rfl⟩

theorem SameUpdate.trans {s t u : State} (a : SameUpdate s t) (b : SameUpdate t u) : SameUpdate s u := ⟨b.1.trans a.1, b.2.trans a.2⟩

theorem SameUpdate.ofEq {s t : State} (h : t.fe = s.fe) : SameUpdate s t := by unfold SameUpdate; rw [h]; exact ⟨rfl, rfl⟩

theorem fld_merge_flow (a b : Word) : fld (merge 0x0304 a b) 0 2 = fld a 0 2 := fld_merge_old (by decide) a b

theorem queueBatch_sameUpdate (s : State) (cs : List Change) : SameUpdate s (s.queueBatch cs) := .ofEq (State.queueBatch_keeps ..).eqFe

theorem releaseHeld_sameUpdate (s : State) : SameUpdate s s.releaseHeld := by
  unfold State.releaseHeld
  split
  · exact SameUpdate.refl _
  · refine SameUpdate.trans (t := { s with fe := { s.fe with heldWrites := [] } }) ⟨rfl, rfl⟩ ?_
    dsimp only
    split
    · exact SameUpdate.refl _
    · split
      · suffices h : ∀ (l : List Change) (t : State), SameUpdate t (l.foldl (fun acc c => acc.refuseFull (c.feKey % 0x10000)) t) from h _ _
        intro l
        induction l with
        | nil => exact fun t => SameUpdate.refl _
        | cons c l ih => exact fun t => SameUpdate.trans (.ofEq (State.refuseFull_keeps ..).eqFe) (ih _)
      · exact queueBatch_sameUpdate ..

theorem ferr_sameUpdate (s : State) a b : SameUpdate s (s.ferr a b) := by
  unfold State.ferr
  exact SameUpdate.trans (t := { s with fe := { s.fe with ferr := true } }) ⟨rfl, rfl⟩ (.ofEq (State.logEv_keeps ..).eqFe)

theorem rangeEvents_sameUpdate (s : State) a : SameUpdate s (s.rangeEvents a) := by
  unfold State.rangeEvents
  dsimp only
  suffices h : ∀ (l : List (Nat × F32)) (t : State), SameUpdate s t → SameUpdate s (l.foldl (fun acc p =>
    ({ acc with fe := { acc.fe with range := true } }.logEv 0x0602 (evData [(p.1, 0), (p.2.toNat, 16)])).irq 5) t) from
      SameUpdate.trans (h _ s (SameUpdate.refl s)) ⟨rfl, rfl⟩
  intro l
  induction l with
  | nil => exact fun t h => h
  | cons p l ih =>
    intro t h
    refine ih _ (h.trans (SameUpdate.trans (t := { t with fe := { t.fe with range := true } }) ⟨rfl, rfl⟩ (SameUpdate.trans (.ofEq (State.logEv_keeps ..).eqFe) (.ofEq (State.irq_keeps ..).eqFe))))

theorem wetEvents_sameUpdate (s : State) a : SameUpdate s (s.wetEvents a) := by
  unfold State.wetEvents
  split
  · exact ⟨rfl, rfl⟩
  · dsimp only
    split
    · exact SameUpdate.trans (t := { s with fe := { s.fe with wet := true } }) ⟨rfl, rfl⟩ (SameUpdate.trans (.ofEq (State.logEv_keeps ..).eqFe) (.ofEq (State.irq_keeps ..).eqFe))
    · split
      · exact SameUpdate.trans (t := { s with fe := { s.fe with wet := false } }) ⟨rfl, rfl⟩ (.ofEq (State.logEv_keeps ..).eqFe)
      · exact SameUpdate.refl _

theorem feUpdate_sameUpdate (s : State) : SameUpdate s s.feUpdate := by
  unfold State.feUpdate
  split
  · exact releaseHeld_sameUpdate s
  · dsimp only
    split
    · refine (releaseHeld_sameUpdate s).trans (SameUpdate.trans ?_ (ferr_sameUpdate _ _ _))
      exact ⟨rfl, rfl⟩
    · refine (releaseHeld_sameUpdate s).trans (SameUpdate.trans (SameUpdate.trans ?_ (rangeEvents_sameUpdate _ _)) (SameUpdate.trans (wetEvents_sameUpdate _ _) ⟨rfl, rfl⟩))
      exact ⟨rfl, rfl⟩

theorem addTotal_sameUpdate (s : State) n x : SameUpdate s (s.addTotal n x) := .ofEq (State.addTotal_keeps ..).eqFe

theorem commitInc_sameUpdate (s : State) inc : SameUpdate s (s.commitInc inc) := by
  unfold State.commitInc
  dsimp only
  split
  · exact ⟨rfl, rfl⟩
  · exact ((addTotal_sameUpdate ..).trans (addTotal_sameUpdate ..)).trans ((addTotal_sameUpdate ..).trans (addTotal_sameUpdate ..)) |> fun h =>
      SameUpdate.trans (t := { s with fe := { s.fe with secVol := F32.add s.fe.secVol (inc.getD 1 0) } }) ⟨rfl, rfl⟩ h

theorem magUpTo_sameUpdate (s : State) : SameUpdate s s.magUpTo := by
  unfold State.magUpTo
  dsimp only
  split
  · unfold State.totaliseQ
    dsimp only
    refine SameUpdate.trans (t := State.commitInc _ _) ?_ ⟨rfl, rfl⟩
    refine SameUpdate.trans ?_ (commitInc_sameUpdate _ _)
    split
    · exact ferr_sameUpdate ..
    · exact SameUpdate.refl _
  · exact ⟨rfl, rfl⟩

/-- An update, the time before it totalised first, leaves the place it is for. -/
theorem feUpdateNow_sameUpdate (s : State) : SameUpdate s s.feUpdateNow := (magUpTo_sameUpdate s).trans (feUpdate_sameUpdate _)

/-- The flows that follow a volume flow: the quantities in force, the last valid ones where it gives none (R193). -/
theorem setFlows_fe (s : State) n x : (s.setFlows n x).fe.du = s.fe.du ∧ (s.setFlows n x).fe.q = s.fe.q ∧ (s.setFlows n x).fe.qAt = s.fe.qAt ∧
    (s.setFlows n x).fe.qvp = s.fe.qvp ∧ (s.setFlows n x).fe.qvc = validOr x s.fe.qvc ∧ (s.setFlows n x).fe.bStale = s.fe.bStale ∧
    (s.setFlows n x).fe.stale = s.fe.stale := by
  unfold State.setFlows
  dsimp only
  split
  · unfold State.ferr
    rw [(State.logEv_keeps ..).eqFe]
    exact ⟨rfl, rfl, rfl, rfl, rfl, rfl, rfl⟩
  · exact ⟨rfl, rfl, rfl, rfl, rfl, rfl, rfl⟩

end Sys2Proof.Machine
end

