-- ==== Sys2Proof/Laws/Rules.lean ====
section
/-! SUPPORT. Sys2Proof/Laws/Rules.lean: what an assertion and a release leave: rules, alarm, freeze, log. -/

set_option Elab.async false

set_option linter.all false

open Sys2Proof

namespace Sys2Proof.Machine

theorem setAt_getD {α : Type} (d : α) : ∀ (l : List α) (k m : Nat) (v : α), (setAt l k v).getD m d = if m = k ∧ k < l.length then v else l.getD m d
  | [], k, m, v => by simp [setAt]
  | x :: xs, 0, 0, v => by simp [setAt]
  | x :: xs, 0, m + 1, v => by simp [setAt]
  | x :: xs, k + 1, 0, v => by simp [setAt]
  | x :: xs, k + 1, m + 1, v => by
    have := setAt_getD d xs k m v
    simp only [setAt, List.getD_cons_succ, this, List.length_cons]
    simp

theorem setAt_setAt {α : Type} : ∀ (l : List α) (k : Nat) (v w : α), setAt (setAt l k v) k w = setAt l k w
  | [], _, _, _ => rfl
  | _ :: _, 0, _, _ => rfl
  | _ :: xs, k + 1, v, w => by simp only [setAt, setAt_setAt xs k v w]

theorem ruleAt_setRule (s : State) (n m : Nat) (r : Rule) (h : s.pl.rules.length = 32) (hn : n < 32) : (s.setRule n r).ruleAt m = if m = n then r else s.ruleAt m := by
  show (setAt s.pl.rules n r).getD m {} = _
  rw [setAt_getD]
  by_cases hm : m = n
  · rw [if_pos ⟨hm, by omega⟩, if_pos hm]
  · rw [if_neg (fun h => hm h.1), if_neg hm]; rfl

theorem find_range32_none {f : Nat → Bool} (h : (List.range 32).find? f = none) : ∀ m, m < 32 → f m = false := by
  intro m hm
  have := List.find?_eq_none.1 h m (List.mem_range.2 hm)
  simpa using this

theorem find_range32_none_of {f : Nat → Bool} (h : ∀ m, m < 32 → f m = false) : (List.range 32).find? f = none := by
  rw [List.find?_eq_none]; intro m hm; simpa using h m (List.mem_range.1 hm)

theorem find_range32_only {f : Nat → Bool} {n : Nat} (hn : n < 32) (h0 : f n = true) (h : ∀ m, m < 32 → m ≠ n → f m = false) : (List.range 32).find? f = some n := by
  rw [List.find?_range_eq_some]
  refine ⟨h0, List.mem_range.2 hn, fun j hj => ?_⟩
  rw [h j (by omega) (by omega)]; rfl

theorem prevailing_none (s : State) : s.prevailing = none ↔ ∀ m, m < 32 → (s.ruleAt m).inForce = true → s.ruleAction m ≠ 1 ∧ s.ruleAction m ≠ 2 ∧ s.ruleAction m ≠ 3 := by
  unfold State.prevailing
  dsimp only
  constructor
  · intro h
    split at h
    · cases h
    · rename_i h1
      have h2 : (List.range 32).find? (fun n => (s.ruleAt n).inForce && s.ruleAction n == 3) = none := by
        simpa using h
      intro m hm hf
      have a := find_range32_none h1 m hm
      have b := find_range32_none h2 m hm
      rw [hf] at a b
      simp at a b
      exact ⟨a.1, a.2, b⟩
  · intro h
    have h1 : (List.range 32).find? (fun n => (s.ruleAt n).inForce && (s.ruleAction n == 1 || s.ruleAction n == 2)) = none := by
      apply find_range32_none_of
      intro m hm
      cases hf : (s.ruleAt m).inForce
      · rfl
      · have := h m hm hf; simp [this.1, this.2.1]
    have h2 : (List.range 32).find? (fun n => (s.ruleAt n).inForce && s.ruleAction n == 3) = none := by
      apply find_range32_none_of
      intro m hm
      cases hf : (s.ruleAt m).inForce
      · rfl
      · have := h m hm hf; simp [this.2.2]
    rw [h1, h2]; rfl

theorem prevailing_only (s : State) (n a : Nat) (hn : n < 32) (ha : s.ruleAction n = a) (h1 : 1 ≤ a) (h3 : a ≤ 3) (hf : (s.ruleAt n).inForce = true)
   (h : ∀ m, m < 32 → m ≠ n → (s.ruleAt m).inForce = true → s.ruleAction m ≠ 1 ∧ s.ruleAction m ≠ 2 ∧ s.ruleAction m ≠ 3) : s.prevailing = some (n, a) := by
  unfold State.prevailing
  dsimp only
  by_cases hc : a = 3
  · have k1 : (List.range 32).find? (fun n => (s.ruleAt n).inForce && (s.ruleAction n == 1 || s.ruleAction n == 2)) = none := by
      apply find_range32_none_of
      intro m hm
      by_cases he : m = n
      · rw [he, ha, hc]; simp
      · cases hf : (s.ruleAt m).inForce
        · rfl
        · have := h m hm he hf; simp [this.1, this.2.1]
    have k2 : (List.range 32).find? (fun n => (s.ruleAt n).inForce && s.ruleAction n == 3) = some n := by
      apply find_range32_only hn
      · rw [hf, ha, hc]; rfl
      · intro m hm he
        cases hf : (s.ruleAt m).inForce
        · rfl
        · have := h m hm he hf; simp [this.2.2]
    rw [k1, k2, hc]; rfl
  · have k1 : (List.range 32).find? (fun n => (s.ruleAt n).inForce && (s.ruleAction n == 1 || s.ruleAction n == 2)) = some n := by
      apply find_range32_only hn
      · rw [hf, ha]; have : a = 1 ∨ a = 2 := by omega
        rcases this with h | h <;> rw [h] <;> rfl
      · intro m hm he
        cases hf : (s.ruleAt m).inForce
        · rfl
        · have := h m hm he hf; simp [this.1, this.2.1]
    rw [k1]
    dsimp only
    rw [ha]

theorem resolveAlarm_quiet (s : State) (h1 : s.prevailing = none) (h2 : s.lp.alarm = 0) : s.resolveAlarm = s := by
  unfold State.resolveAlarm
  rw [h1]
  dsimp only
  rw [if_pos]
  rw [h2]; split <;> rfl

theorem actionOn_congr (s t : State) (a : Nat) (h : ∀ m, m < 32 → ((t.ruleAt m).inForce && t.ruleAction m == a) = ((s.ruleAt m).inForce && s.ruleAction m == a)) : t.actionOn a = s.actionOn a := by
  have : ∀ l : List Nat, (∀ m ∈ l, m < 32) → l.any (fun n => (t.pl.rules.getD n {}).inForce && t.ruleAction n == a) = l.any (fun n => (s.pl.rules.getD n {}).inForce && s.ruleAction n == a) := by
    intro l
    induction l with
    | nil => intro _; rfl
    | cons x l ih =>
      intro hl
      rw [List.any_cons, List.any_cons, ih (fun m hm => hl m (List.mem_cons_of_mem _ hm))]
      congr 1
      exact h x (hl x (List.mem_cons_self ..))
  exact this _ (fun m hm => List.mem_range.1 hm)

theorem resolveFreeze_quiet (s : State) (h : s.fe.alm = s.actionOn 4) : s.resolveFreeze = s := by
  unfold State.resolveFreeze; rw [← h]

theorem irq_bit (s : State) : (s.irq 13).hb.irq.getLsbD 13 = true := by
  show (s.hb.irq ||| 0x2000#16).getLsbD 13 = true
  rw [BitVec.getLsbD_or]
  simp

theorem logAssert_room (s : State) (n : Nat) (h : (s.ruleAt n).secLogs < 8) : s.logAssert n = (s.setRule n { s.ruleAt n with secLogs := (s.ruleAt n).secLogs + 1 }).logEv 0x0D01 (s.ruleData n) := by
  unfold State.logAssert
  exact if_pos h

theorem logAssert_rule (s : State) (h : s.pl.rules.length = 32) (n : Nat) (hn : n < 32) : ((s.logAssert n).ruleAt n).state = (s.ruleAt n).state ∧ ((s.logAssert n).ruleAt n).dueOn = (s.ruleAt n).dueOn ∧ ((s.logAssert n).ruleAt n).value = (s.ruleAt n).value ∧ (∀ m, ((s.logAssert n).ruleAt m).inForce = (s.ruleAt m).inForce) := by
  unfold State.logAssert
  dsimp only
  split
  · have hp : ∀ c d m, ((s.setRule n { s.ruleAt n with secLogs := (s.ruleAt n).secLogs + 1 }).logEv c d).ruleAt m = (s.setRule n { s.ruleAt n with secLogs := (s.ruleAt n).secLogs + 1 }).ruleAt m := by
      intro c d m; unfold State.ruleAt; rw [(State.logEv_keeps ..).eqPl]
    refine ⟨?_, ?_, ?_, fun m => ?_⟩ <;> rw [hp, ruleAt_setRule _ _ _ _ h hn]
    · rw [if_pos rfl]
    · rw [if_pos rfl]
    · rw [if_pos rfl]
    · split
      · rename_i h; rw [h]; rfl
      · rfl
  · have hp : ∀ (b w v : _) (x : State) m, (x.pinned b w v).ruleAt m = x.ruleAt m := by
      intro b w v x m
      unfold State.pinned
      split
      · unfold State.ruleAt; rw [(State.logEv_keeps ..).eqPl]
      · rfl
    refine ⟨?_, ?_, ?_, fun m => ?_⟩ <;> rw [hp] <;> rfl

theorem foldl_bits (l : List Nat) (b n : Nat) (hn : n < 32) : ∀ a0 : BitVec 32, (l.foldl (fun a i => a ||| (1#32 <<< (b + i))) a0).getLsbD n = (a0.getLsbD n || l.any (fun i => decide (b + i = n))) := by
  induction l with
  | nil => intro a0; simp
  | cons x l ih =>
    intro a0
    rw [List.foldl_cons, ih, List.any_cons, BitVec.getLsbD_or]
    have : (1#32 <<< (b + x)).getLsbD n = decide (b + x = n) := by
      rw [BitVec.getLsbD_shiftLeft]
      by_cases h : b + x = n
      · rw [h]; simp [hn]
      · simp only [h, decide_false]
        by_cases h2 : n < b + x
        · simp [h2]
        · simp [BitVec.getLsbD_one]; omega
    rw [this, Bool.or_assoc]

end Sys2Proof.Machine
end

