-- ==== Sys2Proof/Laws/Supply.lean ====
section
/-! SUPPORT. Sys2Proof/Laws/Supply.lean: what the governor's tick, the supervisor and the regulator leave or set. -/

set_option Elab.async false

set_option linter.all false

open Sys2Proof

namespace Sys2Proof.Machine

theorem rxShed_ticks (s : State) p o : (s.rxShed p o).pw.ticks = s.pw.ticks := by
  unfold State.rxShed
  dsimp only
  split_ifs <;> simp [(State.dslEvent_keeps ..).eqPw, (State.dsStatHeld_keeps ..).eqPw]

theorem toneShed_ticks (s : State) o : (s.toneShed o).pw.ticks = s.pw.ticks := by
  unfold State.toneShed
  dsimp only
  split
  · rfl
  · split
    · rw [(State.tnCut_keeps ..).eqPw, (State.tnEvent_keeps ..).eqPw]
    · rw [(State.tnStatHeld_keeps ..).eqPw, (State.tnEvent_keeps ..).eqPw]

theorem dropSheds_ticks (s : State) : (s.dropSheds).pw.ticks = s.pw.ticks := rfl

theorem shedServices_ticks (s : State) : (s.shedServices).pw.ticks = s.pw.ticks := by
  unfold State.shedServices
  dsimp only
  have h1 : (if s.fits 0 || !s.pben then s else s.rxShed .B true).pw.ticks = s.pw.ticks := by split <;> simp [rxShed_ticks]
  generalize (if s.fits 0 || !s.pben then s else s.rxShed .B true) = s1 at *
  have h2 : (if s1.fits 0 then s1 else s1.rxShed .A true).pw.ticks = s.pw.ticks := by split <;> simp [rxShed_ticks, h1]
  generalize (if s1.fits 0 then s1 else s1.rxShed .A true) = s2 at *
  split <;> simp [toneShed_ticks, h2]

theorem governT_ticks (s : State) : (s.governT).pw.ticks = s.pw.ticks := by
  unfold State.governT State.levelTo
  dsimp only
  split <;> simp [shedServices_ticks, dropSheds_ticks]

theorem lineSteps_ticks (s : State) : (s.lineSteps).pw.ticks = s.pw.ticks := by
  unfold State.lineSteps
  dsimp only
  split <;> split <;> simp [toneShed_ticks, rxShed_ticks]

theorem govern_ticks (s : State) : (s.govern).pw.ticks = s.pw.ticks := by
  unfold State.govern
  split
  · rfl
  · split
    · unfold State.governLine; simp [lineSteps_ticks, dropSheds_ticks]
    · exact governT_ticks s

theorem shedVres_ticks (s : State) : (s.shedVres).pw.ticks = s.pw.ticks := by
  unfold State.shedVres; split <;> rfl

theorem aonTick_pw (s : State) : s.aonTick.pw = s.pw := (State.aonTick_keeps s).eqPw

theorem cutCoil_pol (s : State) : s.cutCoil.xb.pol = 0 := by
  unfold State.cutCoil
  split
  · assumption
  · rename_i h
    have h' : ¬ (s.xb.pol = 0#2) := h
    rw [(State.logEv_keeps ..).eqXb]
    simp [State.cutHalf, h', State.truncPair, State.clearPair, State.endHalf]

theorem shedRise_irq (s : State) b : (s.shedRise b).hb.irq ||| 1#16 = s.hb.irq ||| 1#16 := by
  unfold State.shedRise
  split
  · simp only [State.irq_hb_irq, State.logEv_hb]
    rw [BitVec.or_assoc]; rfl
  · rfl

theorem takeVres_irq (s : State) v : (s.takeVres v).hb.irq ||| 1#16 = s.hb.irq ||| 1#16 := by
  unfold State.takeVres
  rw [shedRise_irq, (State.shedVres_keeps ..).eqIrq, (State.boostRestart_keeps ..).eqIrq]
  rfl

theorem takeVres_pins (s : State) v : (s.takeVres v).pins = { s.pins with vres := v } := by
    unfold State.takeVres
    rw [(State.shedRise_keeps ..).eqPins, (State.shedVres_keeps ..).eqPins, (State.boostRestart_keeps ..).eqPins]
    rfl

theorem nvPutAll_fields (ws : List (Nat × Word)) : ∀ s : State, (s.nvPutAll ws).reg = s.reg ∧ (s.nvPutAll ws).ev = s.ev ∧ (s.nvPutAll ws).aon = s.aon ∧ (s.nvPutAll ws).hb.irq = s.hb.irq := by
  unfold State.nvPutAll
  induction ws with
  | nil => exact fun s => ⟨rfl, rfl, rfl, rfl⟩
  | cons p ws ih => exact fun s => ih _

theorem faultRecord_fields (s : State) c l e : (s.faultRecord c l e).reg = s.reg ∧ (s.faultRecord c l e).ev = s.ev ∧ (s.faultRecord c l e).aon = s.aon ∧ (s.faultRecord c l e).hb.irq = s.hb.irq := nvPutAll_fields _ s

/-- The fault record's words alone change. -/
theorem faultRecord_nv (s : State) (h : s.fram.ok) c l e k (hk : k < Config.key 3 0xF810 ∨ Config.key 3 0xF81F < k) : (s.faultRecord c l e).nv k = s.nv k := by
  unfold State.faultRecord
  rw [State.nv_nvPutAll_block s h, if_neg (by unfold Config.key at *; omega)]

theorem regFail_nv (s : State) c e k : (s.regFail c e).nv k = (s.faultRecord c (decide (fld (s.lgw 0xF803) 4 3 ≤ s.reg.att.toNat)) e).nv k := by
  unfold State.regFail
  dsimp only
  generalize s.faultRecord c (decide (fld (s.lgw 0xF803) 4 3 ≤ s.reg.att.toNat)) e = u
  split <;> rw [State.nv_irq, State.nv_logEv] <;> exact State.nv_congr rfl rfl k

theorem regFail_spec (s : State) (c : Nat) (e : RegEnv) (h : s.ev.buf.length < 32) (hc : c < 256) :
   (s.regFail c e).hb.irq = s.hb.irq ||| 0x0002#16 ∧
      (s.regFail c e).reg = { s.reg with
        stepEnded := true,
        state := if fld (s.lgw 0xF803) 4 3 ≤ s.reg.att.toNat then 0 else 3,
        scl := s.reg.scl || decide (fld (s.lgw 0xF803) 4 3 ≤ s.reg.att.toNat) } ∧
      (s.regFail c e).ev = { s.ev with buf := s.ev.buf ++
        [s.eventOf (if fld (s.lgw 0xF803) 4 3 ≤ s.reg.att.toNat then 0x0202 else 0x0201) (c + s.reg.att.toNat * 256)] } := by
  unfold State.regFail
  dsimp only
  have hf := faultRecord_fields s c (decide (fld (s.lgw 0xF803) 4 3 ≤ s.reg.att.toNat)) e
  by_cases hl : fld (s.lgw 0xF803) 4 3 ≤ s.reg.att.toNat
  · simp only [hl, decide_true, if_true, Bool.or_true] at hf ⊢
    rw [State.logEv_room _ _ _ (by simp [hf, h])]
    simp [State.irq, hf, State.eventOf, State.stamp, evData]
  · simp only [hl, decide_false, if_false, Bool.or_false, Bool.false_eq_true] at hf ⊢
    rw [State.logEv_room _ _ _ (by simp [hf, h])]
    simp [State.irq, hf, State.eventOf, State.stamp, evData]

theorem truncPair_pol (s : State) : s.truncPair.xb.pol = s.xb.pol := by
  rfl

theorem cutHalf_pol (s : State) : s.cutHalf.xb.pol = 0 := by
  unfold State.cutHalf
  split
  · rename_i h; simp at h; exact h.1
  · rw [truncPair_pol]; rfl

theorem boostStop_spec (s : State) (c : Nat) (h : s.ev.buf.length < 32) :
    (s.boostStop c).xb.brun = false ∧ (s.boostStop c).xb.bstate = (if s.bretry + 1 ≤ s.xb.batt.toNat + 1 then 0 else 3) ∧
    (s.boostStop c).xb.bscl = (s.xb.bscl || decide (s.bretry + 1 ≤ s.xb.batt.toNat + 1)) ∧
    (s.boostStop c).ev = { s.ev with buf := s.ev.buf ++
        [s.eventOf (if s.bretry + 1 ≤ s.xb.batt.toNat + 1 then 0x0404 else 0x0403) (c + (s.xb.batt.toNat + 1) * 256)] } ∧
    (s.boostStop c).hb.irq = s.hb.irq ||| 0x0008#16 := by
  unfold State.boostStop
  dsimp only
  by_cases hc : s.bretry + 1 ≤ s.xb.batt.toNat + 1
  · simp only [hc, if_true]
    rw [State.logEv_room _ _ _ (by exact h)]
    refine ⟨rfl, rfl, by simp [State.irq], ?_, rfl⟩
    rw [evData_two]; rfl
  · simp only [hc, if_false]
    rw [State.logEv_room _ _ _ (by exact h)]
    refine ⟨rfl, rfl, by simp [State.irq], ?_, rfl⟩
    rw [evData_two]; rfl

theorem xbOn_core {s : State} (h : s.xbOn = true) : s.coreOn = true := by simp [State.xbOn] at h; exact h.1

end Sys2Proof.Machine
end

