-- ==== Sys2Proof/Tests/Slice0.lean ====
section
/-! SUPPORT. Sys2Proof/Tests/Slice0.lean: the checks of WellFormed on ill-formed commands, published values of the checksums and of the
arithmetic, single steps against the words of the spec, and for every statement with hypotheses the states and operands that meet them
(witness_<statement>, clause by clause). -/

set_option Elab.async false

set_option maxRecDepth 10000

open Sys2Proof Sys2Proof.Machine

namespace Sys2Proof.Tests

/-- A machine in RUN, NVR set, the seal open, VRES full. -/
def run : State :=
  { State.reset with pw.st := .run, hb.nvr := true, aon.sealOpen := true, pins.supply := true, pins.rstnLow := false, pins.vres := 3000,
                     fram.serial := 0x0000000000000011 }

/-- A Descant frame without content from node 0x005. -/
def frame0 : DFrame := { dest := 0x011, src := 0x005, type := 0, seq := 1, flags := 0, payload := [] }

/-- It as port A receives it. -/
def rx0 : RxFrame := { port := .A, frame := frame0, txidx := 1, rxidx := 2, load := false, gen := 0, sec := 100, cyc := 0 }

/-- A Cantus frame for poll address 0. -/
def cf0 : CFrame := { addr := 0, cmd := 0, seq := 1, data := [], rssi := 0, soft := [] }

/-- A segment under search on port A. -/
def seg0 : Segment :=
  { port := .A, epoch := 1, seq := 1, roll := [], tries := 1, stack := [], query := none, answers := [], joining := none, assign := none,
    departed := [], joined := 0, cut := false, done := false }
def req0 : Request := { frame := frame0, port := .A, tries := 1, host := false }
def q0 : QFrame := { port := .A, frame := frame0, prot := false, peer := none }
def tr0 : Training := { port := .A, peer := 1, sent := 0 }
def commit0 : Commit := { toB := true, data := State.reset.bankData 0 false 1, bytes := [], sweeps := [] }
def waiting0 : Waiting := { data := State.reset.bankData 0 false 0, sweeps := [] }
def wave0 : Wave := { fast := false, syms := [1, 0], cyc := 0 }
def entry0 : LogEntry := { time := 0, seq := 0, code := 1, data := 0 }
def stored0 : Stored := { src := 0x005, seq := 1, crc := 0, reply := frame0, at_ := 0 }
def ann0 : Announce := { number := 1, sec := 0, cyc := 0 }
def coll0 : Collect := { number := 1, todo := [], asked := none, counts := [], late := false }
def row0 : RowWrite := { row := 0, words := [] }
/-- A magnetic result of a half, long after its commutation. -/
def res0 (half : BitVec 2) : Result := { seq := 0, ch := 0, code := 100, ovr := false, sinceCommute := 100000, half := half, v := 0 }
/-- A node of a system, address 0x011, index 2, line time valid, a pair key loaded. -/
def node : State :=
  { run with fram.joined := true, fram.addr := 0x011, fram.lidx := 2, ck.ltv := true, ck.linelk := true, fram.key1 := some [1] }

/-- A paired node in STATE 3: partner 0x22 at address 0x005, EN set, PERIOD 1. -/
def pair : State :=
  (({ node with fram.anState := 3, fram.pserial := 0x22 }).nvPut (Config.key 0 0x52) 3).nvPut (Config.key 3 0xF880) 5

/-- A CALL of this node's own, still without its ASEQ. -/
def anQ0 : QFrame := { q0 with frame.type := 0x08, frame.src := 0x011, frame.payload := 1 :: 1 :: List.replicate 226 0, prot := true }

/-- A BEACON of PHASE 1, epoch 1. -/
def lateBeacon : RxSearch :=
  { port := .A, payload := bytesBE 2 1 ++ bytesBE 6 0 ++ bytesBE 2 0 ++ [(0 : Byte), 1], rssi := 0 }

/-- A Cantus device: modem enabled. -/
def tone : State := run.nvPut (Config.key 0 0x40) 1

/-- An Antiphon message of a length and KIND, from a SERIAL, with fields at their offsets and its TAG. -/
def anMsg (key : List Byte) (len kind : Nat) (sender : Nat) (fields : List (Nat × List Byte)) (receiver : Word64) : List Byte :=
  let start := [1, BitVec.ofNat 8 kind, 0, 1] ++ bytesBE 8 sender ++ List.replicate (len - 20) 0
  let body := fields.foldl (fun b f => (f.2.zip (List.range f.2.length)).foldl (fun b x => setAt b (f.1 + x.2) x.1) b) start
  body ++ tag8 key (body ++ bytesBE 8 receiver.toNat)

/-! ## WellFormed: one ill-formed command for each check -/

/-- A frame whose payload LEN could not count. -/
def longFrame : RxFrame := { rx0 with frame.payload := List.replicate 2048 0 }
def lateFrame : RxFrame := { rx0 with cyc := 400000 }
def longCantus : CFrame := { cf0 with data := List.replicate 256 0 }
def longSearch : RxSearch := { port := .A, payload := List.replicate 65 0, rssi := 0 }

theorem test_wf_descant : (wellFormed (.hello rx0) && !wellFormed (.hello longFrame) && !wellFormed (.hello lateFrame)) = true := by decide +kernel
theorem test_wf_descantFrames :
    [.hello longFrame, .confirm longFrame, .call longFrame 0, .answer longFrame, .retract longFrame, .notice longFrame, .restore longFrame,
     .frameRelay longFrame, .descantRead longFrame, .descantWrite longFrame, .report longFrame, .descantNack longFrame, .time longFrame, .timeReply longFrame,
     .search longFrame, .join longFrame, .sweep longFrame, .collect longFrame, .collectReply longFrame, .descantReservedType longFrame,
     .descantReply longFrame, .joinReply longFrame, .searchReply longFrame].any wellFormed = false := by decide +kernel
theorem test_wf_cantusFrames :
    [.identify longCantus, .cantusRead longCantus, .cantusWrite longCantus, .cantusHostCommand longCantus, .masterReply longCantus,
     .cantusUnknownCommand longCantus].any wellFormed = false := by decide +kernel
theorem test_wf_searchFrames :
    [.train longSearch, .table longSearch, .tableAck longSearch, .retrain longSearch, .beacon longSearch, .query longSearch 0, .searchAnswer longSearch, .assign longSearch, .assignAck longSearch].any wellFormed = false := by
  decide +kernel
theorem test_wf_inputs : (wellFormed (.faultInputTrip 2) && !wellFormed (.faultInputTrip 3) && !wellFormed (.faultAutoRestart 3)) = true := by decide
theorem test_wf_carriers :
    (!wellFormed (.noiseBlockTransform (.line .A [1])) && !wellFormed (.trainingSymbolsEnd .A [1])) = true := by decide
theorem test_wf_cause :
    (wellFormed (.retrainTrigger .A 1 4 []) && !wellFormed (.retrainTrigger .A 1 2 []) && !wellFormed (.retrainTrigger .A 1 0 []) &&
      !wellFormed (.retrainTrigger .A 1 5 [])) = true := by
  decide
theorem test_wf_halves :
    (wellFormed (.lowByteWrite 2 0) && !wellFormed (.lowByteWrite 3 0) && wellFormed (.registerWrite 3 0) && !wellFormed (.registerWrite 2 0)) = true := by
  decide
theorem test_wf_kind :
    (wellFormed (.descantFrameDropped (.reservedKind 0x43)) && !wellFormed (.descantFrameDropped (.reservedKind 0x44))) = true := by decide

/-! ## The words of the table -/

/-- The table gives no row bits, so no word spells a command. -/
theorem test_no_word : decodeTableWord 16 0 = none := rfl

/-! ## Checksums and arithmetic, by their standards' published values -/

/-- The nine bytes "123456789". -/
def digits : List Byte := [0x31, 0x32, 0x33, 0x34, 0x35, 0x36, 0x37, 0x38, 0x39]

/-- CRC-16 with polynomial 0x1021 and initial value 0xFFFF of the nine digits (R323). -/
theorem test_crc16 : crc16 digits = 0x29B1 := by decide +kernel
/-- CRC-32 of the nine digits (R369). -/
theorem test_crc32 : crc32 digits = 0xCBF43926 := by decide +kernel
/-- SHA-256 of "abc", first and last word (FIPS 180-4). -/
theorem test_sha256 : (sha256 [0x61, 0x62, 0x63]).take 4 = [0xBA, 0x78, 0x16, 0xBF] ∧ (sha256 [0x61, 0x62, 0x63]).drop 28 = [0xF2, 0x00, 0x15, 0xAD] := by
  decide +kernel
/-- 1 / 3 rounds to even (R214). -/
theorem test_div : F32.div 0x3F800000 0x40400000 = 0x3EAAAAAB := by decide +kernel
theorem test_sqrt : F32.sqrt 0x40000000 = 0x3FB504F3 := by decide +kernel

/-! ## Reset values of the register tables (16, Registers) -/

theorem test_syId : run.readReg 0x00 = 0x4422 := by decide +kernel
theorem test_hbCfg : (State.reset.readReg 0x74).extractLsb' 0 2 = 1#2 := by decide +kernel
theorem test_reset_off : State.reset.pw.st = .off ∧ State.reset.pending = [] := by decide

/-! ## Single steps -/

/-- The high byte commits the latched low byte (R429). -/
theorem test_scratch :
    (match step { run with pending := [.registerWrite 0x7F 0xAB], hb.wlatch := some (0x7E, 0xCD) } with
      | .next t => t.hb.scratch == 0xABCD && t.pending == []
      | _ => false) = true := by decide +kernel
/-- AD7 = 1 is class 0x0E17 and sets HBV (R442). -/
theorem test_ad7 :
    (match exec (.lowByteWrite 0x80 0) run with
      | .next t => t.hb.hbv && t.hb.flags == 0x20#6 && t.ev.buf.map (fun e => e.code) == [0x0E17]
      | _ => false) = true := by decide +kernel
/-- An empty queue. -/
theorem test_idle : step State.reset = .next State.reset := rfl

/-! ## The hypotheses of the statements can be met -/

theorem tag8_length (key m : List Byte) : (tag8 key m).length = 8 := by
  have h : ∀ s : Sha, (Sha.digest s).length = 32 := fun s => by simp [Sha.digest, bytesBE, bytesLE]
  simp [tag8, hmac, sha256, h]

/-- A message carries the tag its receiver checks (R264). -/
theorem anMsg_tag (s : State) (key : List Byte) (len kind sender : Nat) (fields : List (Nat × List Byte)) (r : Word64)
    (h : s.fram.key1 = some key) : s.anTagOk (anMsg key len kind sender fields r) r = true := by
  simp only [State.anTagOk, State.anTag, State.pairKey, anMsg, h, List.length_append, tag8_length, Nat.add_sub_cancel]
  simp

/-- States and operands that meet the hypotheses of Obligations.StepRunsTheFrontCommand, clause by clause. -/
theorem witness_StepRunsTheFrontCommand :
    ∃ (c : Instr) (rest : List Instr) (s : State), s.pending = c :: rest :=
  ⟨.secondBoundary, [], { run with pending := [.secondBoundary] }, by decide +kernel⟩

/-- States and operands that meet the hypotheses of Obligations.EmptyQueueIdles, clause by clause. -/
theorem witness_EmptyQueueIdles :
    ∃ (s : State), s.pending = [] :=
  ⟨run, by decide +kernel⟩

/-- States and operands that meet the hypotheses of Obligations.OnAndBackup, clause by clause. -/
theorem witness_OnAndBackup :
    (∃ (s : State), s.pw.st = .off) ∧
    (∃ (s : State), s.pw.st = .backup ∧ s.pins.supply = true ∧ s.aon.softLatch = false ∧ s.aon.thermLatch = false) ∧
    (∃ (s : State), s.pw.st = .off ∧ s.pins.rstnLow = false ∧ s.aon.softLatch = false) ∧
    (∃ (s : State), s.pw.st = .off ∧ s.pins.rstnLow = true) ∧
    (∃ (s : State) (vbak : Nat), s.pw.st = .off ∧ s.pins.supply = false ∧ 220 ≤ vbak) :=
  ⟨⟨{ run with pw.st := .off }, by decide +kernel⟩,
   ⟨{ run with pw.st := .backup, pins.supply := true, aon.softLatch := false, aon.thermLatch := false }, by decide +kernel⟩,
   ⟨{ run with pw.st := .off, pins.rstnLow := false, aon.softLatch := false }, by decide +kernel⟩,
   ⟨{ run with pw.st := .off, pins.rstnLow := true }, by decide +kernel⟩,
   ⟨{ run with pw.st := .off, pins.supply := false }, 220, by decide +kernel⟩⟩

/-- States and operands that meet the hypotheses of Obligations.OffRequests, clause by clause. -/
theorem witness_OffRequests :
    (∃ (s : State), s.pw.st = .run) ∧
    (∃ (s : State), s.pw.st = .run) ∧
    (∃ (s : State) (hi lo : Byte), s.pw.st = .run ∧ s.busOn = true ∧ s.hb.wlatch = some (0x0A, lo) ∧ s.sc.armHost = .armed ∧ hi.extractLsb' 0 2 = 2) ∧
    (∃ (s : State), s.coreOn = true ∧ s.startUp = true ∧ s.pw.offPend = false ∧ s.pw.stepBusy = true) ∧
    (∃ (s : State), s.coreOn = true ∧ s.startUp = true ∧ s.pw.offPend = true) :=
  ⟨⟨{ run with pw.st := .run }, by decide +kernel⟩,
   ⟨{ run with pw.st := .run }, by decide +kernel⟩,
   ⟨{ run with pw.st := .run, hb.wlatch := some (0x0A, (0x0 : Byte)), sc.armHost := .armed }, 0x2, 0x0, by decide +kernel⟩,
   ⟨{ run with pw.st := .calib, pw.offPend := false, pw.stepBusy := true }, by decide +kernel⟩,
   ⟨{ run with pw.st := .calib, pw.offPend := true }, by decide +kernel⟩⟩

/-- States and operands that meet the hypotheses of Obligations.SequencerStates, clause by clause. -/
theorem witness_SequencerStates :
    (∃ (s : State), s.coreOn = true ∧ s.pw.st = .wake ∧ s.pw.offPend = false) ∧
    (∃ (s : State) (vres : Nat), s.coreOn = true ∧ s.pw.st = .rails ∧ s.pw.offPend = false ∧ s.reg.stepEnded = true ∧ 1000 ≤ vres) ∧
    (∃ (s : State), s.coreOn = true ∧ s.pw.st = .rails ∧ s.pw.railsLogged = false ∧ s.ev.buf.length < 32) ∧
    (∃ (s : State), s.coreOn = true ∧ s.pw.st = .calib ∧ s.pw.offPend = false ∧ 8 ≤ s.ad.n13 ∧ 8 ≤ s.ad.n14) ∧
    (∃ (s : State), s.coreOn = true ∧ s.pw.st = .calib ∧ s.pw.offPend = false ∧ s.ck.measFail = true) ∧
    (∃ (s : State), s.pw.st = .drain ∧ s.pins.rstnLow = false ∧ s.aon.softLatch = false) ∧
    (∃ (s : State), s.coreOn = true ∧ s.pw.st = .drain ∧ s.drained = true) ∧
    (∃ (s : State) (vbak : Nat), s.pw.st = .backup ∧ s.pins.supply = false ∧ vbak < 180) :=
  ⟨⟨{ run with pw.st := .wake, pw.offPend := false }, by decide +kernel⟩,
   ⟨{ run with pw.st := .rails, pw.offPend := false, reg.stepEnded := true }, 1000, by decide +kernel⟩,
   ⟨{ run with pw.st := .rails, pw.railsLogged := false }, by decide +kernel⟩,
   ⟨{ run with pw.st := .calib, pw.offPend := false, ad.n13 := 8, ad.n14 := 8 }, by decide +kernel⟩,
   ⟨{ run with pw.st := .calib, pw.offPend := false, ck.measFail := true }, by decide +kernel⟩,
   ⟨{ run with pw.st := .drain, pins.rstnLow := false, aon.softLatch := false }, by decide +kernel⟩,
   ⟨{ run with pw.st := .drain }, by decide +kernel⟩,
   ⟨{ run with pw.st := .backup, pins.supply := false }, 0, by decide +kernel⟩⟩

/-- States and operands that meet the hypotheses of Obligations.ThermalShutdown, clause by clause. -/
theorem witness_ThermalShutdown :
    (∃ (s : State), s.pw.st = .run ∧ s.aon.thermLatch = false ∧ s.pins.supply = true) ∧
    (∃ (s : State), s.pw.st = .hold ∧ s.aon.thermLatch = true) :=
  ⟨⟨{ run with pw.st := .run, aon.thermLatch := false, pins.supply := true }, by decide +kernel⟩,
   ⟨{ run with pw.st := .hold, aon.thermLatch := true }, by decide +kernel⟩⟩

/-- States and operands that meet the hypotheses of Obligations.GovernorTickCounts, clause by clause. -/
theorem witness_GovernorTickCounts :
    (∃ (s : State), s.coreOn = true) ∧
    (∃ (s : State), s.pw.st = .backup ∧ s.ck.disc = 0) :=
  ⟨⟨run, by decide +kernel⟩,
   ⟨{ run with pw.st := .backup, ck.disc := 0 }, by decide +kernel⟩⟩

/-- States and operands that meet the hypotheses of Obligations.LevelRiseAndRestore, clause by clause. -/
theorem witness_LevelRiseAndRestore :
    (∃ (s : State), s.governs = true ∧ 4 ≤ s.pw.upCount ∧ s.pw.level.toNat < min 5 s.pw.lmax.toNat) ∧
    (∃ (s : State), (s.pw.upCount < 4 ∨ s.pw.st = .drain)) ∧
    (∃ (s : State), s.governs = true ∧ 4 ≤ s.pw.fitCount ∧ s.pw.shedTone = true) ∧
    (∃ (s : State), s.governs = true ∧ 4 ≤ s.pw.fitCount ∧ s.pw.shedTone = false ∧ s.pw.shedRx1 = true) ∧
    (∃ (s : State), s.governs = true ∧ 4 ≤ s.pw.fitCount ∧ s.pw.shedTone = false ∧ s.pw.shedRx1 = false ∧ s.pw.shedRx2 = true) :=
  ⟨⟨{ run with pw.upCount := 4, pw.level := 0, pw.lmax := 5 }, by decide +kernel⟩,
   ⟨run, by decide +kernel⟩,
   ⟨{ run with pw.shedTone := true, pw.fitCount := 4 }, by decide +kernel⟩,
   ⟨{ run with pw.shedTone := false, pw.shedRx1 := true, pw.fitCount := 4 }, by decide +kernel⟩,
   ⟨{ run with pw.shedTone := false, pw.shedRx1 := false, pw.shedRx2 := true, pw.fitCount := 4 }, by decide +kernel⟩⟩

/-- States and operands that meet the hypotheses of Obligations.VresThresholds, clause by clause. -/
theorem witness_VresThresholds :
    (∃ (s : State), s.running = true ∧ s.pw.lineShed = 0) ∧
    (∃ (s : State), s.running = true) ∧
    (∃ (s : State) (v : Nat), s.xbOn = true ∧ s.xb.brun = true ∧ 2350 ≤ v) ∧
    (∃ (s : State) (v : Nat), s.xbOn = true ∧ s.xb.brun = false ∧ s.xb.bfull = true ∧ v + 50 ≤ s.xb.fullAt ∧ s.xb.bstate = 2 ∧ s.ck.lost = false ∧
      s.xb.fl.getLsbD 2 = false) ∧
    (∃ (s : State) (v : Nat), s.xbOn = true ∧ s.xb.brun = false ∧ s.xb.bfull = true ∧ s.xb.fullAt < v + 50) :=
  ⟨⟨{ run with pw.lineShed := 0 }, by decide +kernel⟩,
   ⟨run, by decide +kernel⟩,
   ⟨{ run with pw.st := .run, xb.brun := true }, 2350, by decide +kernel⟩,
   ⟨{ run with pw.st := .run, xb.brun := false, xb.bfull := true, xb.fullAt := 2400, xb.bstate := 2 }, 2350, by decide +kernel⟩,
   ⟨{ run with pw.st := .run, xb.brun := false, xb.bfull := true, xb.fullAt := 2400 }, 2351, by decide +kernel⟩⟩

/-- States and operands that meet the hypotheses of Obligations.SecondBoundary, clause by clause. -/
theorem witness_SecondBoundary :
    (∃ (s : State), s.pw.st ≠ .off) ∧
    (∃ (s : State), s.pw.st = .backup) :=
  ⟨⟨run, by decide +kernel⟩,
   ⟨{ run with pw.st := .backup }, by decide +kernel⟩⟩

/-- States and operands that meet the hypotheses of Obligations.DebugFreeze, clause by clause. -/
theorem witness_DebugFreeze :
    (∃ (s : State), s.pw.st = .run ∧ s.pins.rstnLow = false) ∧
    (∃ (s : State), s.pw.st = .backup) ∧
    (∃ (s : State), s.hb.frzTest = true ∧ s.hb.frzTs = false) ∧
    (∃ (s : State), s.hb.frzTest = true ∧ s.hb.frzTs = true) :=
  ⟨⟨{ run with pw.st := .run, pins.rstnLow := false }, by decide +kernel⟩,
   ⟨{ run with pw.st := .backup }, by decide +kernel⟩,
   ⟨{ run with hb.frzTest := true, hb.frzTs := false }, by decide +kernel⟩,
   ⟨{ run with hb.frzTest := true, hb.frzTs := true }, by decide +kernel⟩⟩

/-- States and operands that meet the hypotheses of Obligations.RegulatorSoftStart, clause by clause. -/
theorem witness_RegulatorSoftStart :
    (∃ (s : State) (e : RegEnv), s.regOn = true ∧ s.reg.state = 1 ∧ s.reg.aim * 3 ≤ e.vaux * 10) ∧
    (∃ (s : State) (e : RegEnv), s.Inv ∧ s.regOn = true ∧ s.reg.state = 1 ∧ e.vaux * 10 < s.reg.aim * 3 ∧ s.ev.buf.length < 32) ∧
    (∃ (s : State) (e : RegEnv), s.Inv ∧ s.regOn = true ∧ s.reg.state = 2 ∧ e.vaux * 1000 < s.reg.target * 7 ∧ s.ev.buf.length < 32) ∧
    (∃ (s : State), s.regOn = true ∧ s.reg.state = 3 ∧ s.aon.ovl = false) ∧
    (∃ (s : State), s.regOn = true ∧ s.reg.state = 2) :=
  ⟨⟨{ run with pins.role := .TM, reg.state := 1, reg.aim := 1500 }, { vline := 240, vaux := 4000, cs1 := 0, cs2 := 0, die := 250 }, by decide +kernel⟩,
   ⟨{ run with pins.role := .TM, reg.state := 1, reg.aim := 1500 }, { vline := 240, vaux := 0, cs1 := 0, cs2 := 0, die := 250 },
     by unfold State.Inv Fram.ok Ev.ok Hb.ok Tn.ok Dn.ok Pl.ok; decide +kernel⟩,
   ⟨{ run with pins.role := .TM, reg.state := 2, reg.target := 180 }, { vline := 240, vaux := 0, cs1 := 0, cs2 := 0, die := 250 },
     by unfold State.Inv Fram.ok Ev.ok Hb.ok Tn.ok Dn.ok Pl.ok; decide +kernel⟩,
   ⟨{ run with pins.role := .TM, reg.state := 3, aon.ovl := false }, by decide +kernel⟩,
   ⟨{ run with pins.role := .TM, reg.state := 2 }, by decide +kernel⟩⟩

def atRegulatorLatches2_s : State := { run with pins.role := .TM, hb.wlatch := some (0x0E, (0xb4 : Byte)), sc.armHost := .armed, reg.scl := true }

/-- States and operands that meet the hypotheses of Obligations.RegulatorLatches, clause by clause. -/
theorem witness_RegulatorLatches :
    (∃ (s : State) (e : RegEnv), s.Inv ∧ s.regOn = true ∧ s.aon.ovl = false ∧ s.ev.buf.length < 32 ∧
      (110 + fld (s.lgw 0xF803) 8 4) * s.ovRef < e.vaux * 10000) ∧
    (∃ (s : State), s.aon.ovl = true) ∧
    (∃ (s : State) (hi lo : Byte), s.busOn = true ∧ s.hb.wlatch = some (0x0E, lo) ∧ s.sc.armHost = .armed ∧ bitAt (wordOf hi lo) 14 = true ∧
      s.regOn = true ∧ (s.aon.ovl || s.reg.scl) = true ∧ setpointBad (fld (wordOf hi lo) 0 12) = false ∧ s.ev.buf.length < 32) :=
  ⟨⟨{ run with pins.role := .TM, aon.ovl := false }, { vline := 240, vaux := 5000, cs1 := 0, cs2 := 0, die := 250 },
     by unfold State.Inv Fram.ok Ev.ok Hb.ok Tn.ok Dn.ok Pl.ok; decide +kernel⟩,
   ⟨{ run with aon.ovl := true }, by decide +kernel⟩,
   ⟨atRegulatorLatches2_s, 0x40, 0xb4, by decide +kernel⟩⟩

/-- States and operands that meet the hypotheses of Obligations.RegulatorFaultRecord, clause by clause. -/
theorem witness_RegulatorFaultRecord :
    ∃ (s : State) (e : RegEnv), s.Inv ∧ s.regOn = true ∧ s.reg.state = 2 ∧ e.vaux * 1000 < s.reg.target * 7 :=
  ⟨{ run with pins.role := .TM, reg.state := 2, reg.target := 180 }, { vline := 240, vaux := 0, cs1 := 0, cs2 := 0, die := 250 },
    by unfold State.Inv Fram.ok Ev.ok Hb.ok Tn.ok Dn.ok Pl.ok; decide +kernel⟩

def atSetpointAndSync3_s : State := { (run).nvPut (Config.key 3 0xF801) 0x0080 with pins.role := .TM, reg.synclk := false, reg.syncLost := false }

def atSetpointAndSync4_s : State := { (run).nvPut (Config.key 3 0xF801) 0x0080 with pins.role := .TM, reg.synclk := false, reg.syncLost := true }

/-- States and operands that meet the hypotheses of Obligations.SetpointAndSync, clause by clause. -/
theorem witness_SetpointAndSync :
    (∃ (s : State), s.regOn = true ∧ s.reg.state = 2) ∧
    (∃ (s : State) (us : Nat), s.regOn = true ∧ s.reg.state = 1 ∧ s.reg.rampUs + us ≤ s.regTss ∧ s.reg.rampFrom ≤ s.reg.aim * 100) ∧
    (∃ (s : State), s.pins.role ≠ .T ∧ s.pw.st ≠ .off) ∧
    (∃ (s : State), s.pins.role = .T) ∧
    (∃ (s : State) (hz : Nat), s.regOn = true ∧ bitAt (s.lgw 0xF801) 7 = true ∧ s.reg.synclk = false ∧ s.reg.syncLost = false ∧ 200000 ≤ hz ∧
      hz ≤ 1200000) ∧
    (∃ (hz : Nat), (hz < 200000 ∨ 1200000 < hz)) ∧
    (∃ (s : State) (hz : Nat), s.regOn = true ∧ bitAt (s.lgw 0xF801) 7 = true ∧ s.reg.synclk = false ∧ s.reg.syncLost = true ∧ 200000 ≤ hz ∧
      hz ≤ 1200000 ∧ s.ev.buf.length < 32) ∧
    (∃ (s : State), s.regOn = true ∧ s.reg.synclk = true ∧ s.ev.buf.length < 32) :=
  ⟨⟨{ run with pins.role := .TM, reg.state := 2 }, by decide +kernel⟩,
   ⟨{ run with pins.role := .TM, reg.state := 1, reg.aim := 1500 }, 0, by decide +kernel⟩,
   ⟨{ run with pins.role := .TM }, by decide +kernel⟩,
   ⟨{ run with pins.role := .T }, by decide +kernel⟩,
   ⟨atSetpointAndSync3_s, 200000, by decide +kernel⟩,
   ⟨199999, by decide +kernel⟩,
   ⟨atSetpointAndSync4_s, 1200000, by decide +kernel⟩,
   ⟨{ run with pins.role := .TM, reg.synclk := true }, by decide +kernel⟩⟩

/-- States and operands that meet the hypotheses of Obligations.CrystalFailure, clause by clause. -/
theorem witness_CrystalFailure :
    (∃ (s : State), s.coreOn = true ∧ s.aon.xtalf = false ∧ s.ev.buf.length < 32) ∧
    (∃ (s : State), s.coreOn = false ∧ s.pw.st ≠ .off ∧ s.aon.xtalf = false) ∧
    (∃ (s : State), s.pw.st ≠ .off ∧ s.aon.xtalf = true) :=
  ⟨⟨{ run with aon.xtalf := false }, by decide +kernel⟩,
   ⟨{ run with pw.st := .backup, aon.xtalf := false }, by decide +kernel⟩,
   ⟨{ run with aon.xtalf := true }, by decide +kernel⟩⟩

/-- States and operands that meet the hypotheses of Obligations.SwitchAndMeasPlls, clause by clause. -/
theorem witness_SwitchAndMeasPlls :
    (∃ (s : State), s.coreOn = true ∧ s.pw.st = .rails ∧ s.pw.calf = false) ∧
    (∃ (s : State), s.pllOn = true ∧ s.ck.swlk = false ∧ s.ck.swMissed = false) ∧
    (∃ (s : State), s.pllOn = true ∧ s.ck.swlk = false ∧ s.ck.swMissed = true ∧ s.ev.buf.length < 32) ∧
    (∃ (s : State), s.coreOn = true ∧ s.pw.st = .calib ∧ s.ck.swlk = false ∧ s.ev.buf.length < 32) ∧
    (∃ (s : State), s.pllOn = true ∧ s.ck.swlk = true) ∧
    (∃ (s : State), s.coreOn = true ∧ (s.pw.st = .calib ∨ s.pw.st = .run) ∧ s.ck.swlk = true) :=
  ⟨⟨{ run with pw.st := .rails, pw.calf := false }, by decide +kernel⟩,
   ⟨{ run with ck.swlk := false, ck.swMissed := false }, by decide +kernel⟩,
   ⟨{ run with ck.swlk := false, ck.swMissed := true }, by decide +kernel⟩,
   ⟨{ run with pw.st := .calib, ck.swlk := false }, by decide +kernel⟩,
   ⟨{ run with ck.swlk := true }, by decide +kernel⟩,
   ⟨{ run with ck.swlk := true }, by decide +kernel⟩⟩

/-- States and operands that meet the hypotheses of Obligations.MainsPll, clause by clause. -/
theorem witness_MainsPll :
    (∃ (s : State), s.pllOn = true ∧ s.mainsEn = true ∧ s.mainsFr = false ∧ s.ck.mplk = false ∧ (s.ck.mfree = false ∨ s.ck.pullIn = true) ∧
      s.ev.buf.length < 32) ∧
    (∃ (s : State), s.pllOn = true ∧ s.mainsEn = true ∧ (s.ck.mfree = false ∨ s.ck.pullIn = true) ∧ s.ev.buf.length < 32) ∧
    (∃ (s : State), s.pllOn = true ∧ s.mainsEn = true ∧ s.mainsFr = false ∧ s.ck.mfree = true) ∧
    (∃ (s : State), s.mainsFr = true) :=
  ⟨⟨{ run with ck.mplk := false, ck.ctl := 1 }, by decide +kernel⟩,
   ⟨{ run with ck.ctl := 1 }, by decide +kernel⟩,
   ⟨{ run with ck.mfree := true, ck.ctl := 1 }, by decide +kernel⟩,
   ⟨{ run with ck.ctl := 2 }, by decide +kernel⟩⟩

/-- States and operands that meet the hypotheses of Obligations.TimeRegisters, clause by clause. -/
theorem witness_TimeRegisters :
    (∃ (s : State) (lo : Byte), s.busOn = true ∧ s.hb.wlatch = some (0x76, lo) ∧ s.sc.armHost ≠ .armed) ∧
    (∃ (s : State) (lo : Byte) (low : Word), s.busOn = true ∧ s.hb.wlatch = some (0x78, lo) ∧ s.sc.armHost ≠ .armed ∧ s.hb.timeHost = some low ∧
      s.startUp = false ∧ s.lg.acount < 2048 ∧ s.aon.tv = true) ∧
    (∃ (s : State) (low hi : Word) (rest : List Change), s.runOrDrain = true ∧ s.lg.queue = .rtc (some low) hi :: rest ∧ s.lg.acount < 1983 ∧
      s.ev.buf.length < 32 ∧ s.isHead = false) ∧
    (∃ (s : State) (lo : Byte), s.busOn = true ∧ s.hb.wlatch = some (0x78, lo) ∧ s.sc.armHost ≠ .armed ∧ s.startUp = true ∧
      s.ev.buf.length < 32) ∧
    (∃ (s : State), s.busOn = true) ∧
    (∃ (s : State), s.busOn = true) :=
  ⟨⟨{ run with hb.wlatch := some (0x76, (0x0 : Byte)) }, 0x0, by decide +kernel⟩,
   ⟨{ run with hb.wlatch := some (0x78, (0x0 : Byte)), hb.timeHost := some (0 : Word), aon.tv := true }, 0x0, 0, by decide +kernel⟩,
   ⟨{ run with lg.queue := [.rtc (some 5) 6] }, 5, 6, [], by decide +kernel⟩,
   ⟨{ run with pw.st := .calib, hb.wlatch := some (0x78, (0x0 : Byte)) }, 0x0, by decide +kernel⟩,
   ⟨run, by decide +kernel⟩,
   ⟨run, by decide +kernel⟩⟩

/-- States and operands that meet the hypotheses of Obligations.RtcDiscipline, clause by clause. -/
theorem witness_RtcDiscipline :
    (∃ (s : State), s.runOrDrain = true ∧ s.pins.role ≠ .H ∧ s.ck.ltv = true ∧ s.ck.ctl.getLsbD 2 = true ∧ s.aon.tv = true ∧
      ((s.aon.rtc - s.ck.lsec).toInt * 32768 + s.aon.sub.toNat).natAbs ≤ 16384) ∧
    (∃ (s : State), s.runOrDrain = true ∧ s.pins.role ≠ .H ∧ s.ck.ltv = true ∧ s.ck.ctl.getLsbD 2 = true ∧ s.lg.acount < 2048 ∧ s.aon.tv = true ∧
      16384 < ((s.aon.rtc - s.ck.lsec).toInt * 32768 + s.aon.sub.toNat).natAbs) ∧
    (∃ (s : State), s.runOrDrain = true ∧ s.pins.role ≠ .H ∧ s.ck.ltv = true ∧ s.ck.ctl.getLsbD 2 = true ∧ s.lg.acount < 2048 ∧ s.aon.tv = false) :=
  ⟨⟨{ run with ck.ltv := true, aon.tv := true, ck.ctl := 4 }, by decide +kernel⟩,
   ⟨{ run with ck.ltv := true, aon.tv := true, ck.ctl := 4, aon.rtc := 5 }, by decide +kernel⟩,
   ⟨{ run with ck.ltv := true, aon.tv := false, ck.ctl := 4 }, by decide +kernel⟩⟩

/-- States and operands that meet the hypotheses of Obligations.StoppedCoreReadsZero, clause by clause. -/
theorem witness_StoppedCoreReadsZero :
    (∃ (s : State), s.coreOn = false) ∧
    (∃ (s : State), s.coreOn = false ∧ s.pins.rstnLow = false) ∧
    (∃ (s : State), s.coreOn = false ∧ s.pins.rstnLow = false) :=
  ⟨⟨{ run with pw.st := .backup }, by decide +kernel⟩,
   ⟨{ run with pw.st := .backup, pins.rstnLow := false }, by decide +kernel⟩,
   ⟨{ run with pw.st := .backup, pins.rstnLow := false }, by decide +kernel⟩⟩

def atTeethAreAccepted0_s : State := { (run).nvPut (Config.key 0 0x18) 0x0001 with orr.hasLast := false, orr.hasDir := false, orr.pend := [], orr.window := [] }

/-- States and operands that meet the hypotheses of Obligations.TeethAreAccepted, clause by clause. -/
theorem witness_TeethAreAccepted :
    (∃ (s : State) (rising bHigh : Bool), s.running = true ∧ (s.orSrc = 1 ∧ bHigh = false ∨ s.orSrc = 2 ∧ rising = true) ∧ s.orr.hasLast = false ∧
      s.orr.hasDir = false ∧ s.orr.pend = [] ∧ s.orr.window = []) ∧
    (∃ (s : State), s.running = true ∧ s.orSrc = 3 ∧ s.ck.mainsRun = true ∧ s.orr.pend = []) ∧
    (∃ (s : State) (now : Nat), s.running = true ∧ s.orSrc = 2 ∧ s.orr.hasLast = true ∧ (s.orw 0x304).toNat ≠ 0 ∧
      now - s.orr.tLast < (s.orw 0x304).toNat * 16 ∧ s.orr.rejCnt.toNat < 0xFFFE) ∧
    (∃ (s : State) (rising bHigh : Bool), s.running = true ∧
      (s.orSrc = 0 ∨ s.orSrc = 1 ∧ bHigh = true ∨ s.orSrc = 2 ∧ rising = false ∨ s.orSrc = 3 ∧ s.ck.mainsRun = false)) ∧
    (∃ (s : State), s.running = false) :=
  ⟨⟨atTeethAreAccepted0_s, false, false, by decide +kernel⟩,
   ⟨{ (run).nvPut (Config.key 0 0x18) 0x0003 with orr.pend := [], ck.mainsRun := true }, by decide +kernel⟩,
   ⟨{ ((run).nvPut (Config.key 0 0x18) 0x0002).nvPut (Config.key 1 0x304) 1 with orr.hasLast := true }, 5, by decide +kernel⟩,
   ⟨run, false, false, by decide +kernel⟩,
   ⟨{ run with pw.st := .drain }, by decide +kernel⟩⟩

def atSyntheticTeeth0_s : State := { (run).nvPut (Config.key 0 0x18) 0x0001 with orr.window := [{ dt := 10, pitch := 65536 }], orr.hasLast := true, orr.still := false }

/-- States and operands that meet the hypotheses of Obligations.SyntheticTeeth, clause by clause. -/
theorem witness_SyntheticTeeth :
    ∃ (s : State) (now : Nat) (q : Nat × Nat), s.running = true ∧ s.synthDue now = true ∧ s.predict s.moving = some q :=
  ⟨atSyntheticTeeth0_s, 100, (65536 * 10, 65536), by decide +kernel⟩

def atStandstillAndRestart1_s : State := { run with lg.queue := .word (Config.key 1 0x300) (0 : Word) :: ([] : List Change), orr.still := true }

/-- States and operands that meet the hypotheses of Obligations.StandstillAndRestart, clause by clause. -/
theorem witness_StandstillAndRestart :
    (∃ (s : State), s.running = true ∧ s.orSrc = 3 ∧ s.ck.mainsRun = true) ∧
    (∃ (s : State), s.running = true ∧ s.orr.still = false ∧ (s.orSrc = 3 → s.ck.mainsRun = false)) ∧
    (∃ (s : State) (v : Word) (rest : List Change), s.runOrDrain = true ∧ s.lg.queue = .word (Config.key 1 0x300) v :: rest ∧ s.lg.acount < 2048 ∧
      s.orr.still = true) :=
  ⟨⟨{ (run).nvPut (Config.key 0 0x18) 0x0003 with ck.mainsRun := true }, by decide +kernel⟩,
   ⟨{ run with orr.still := false }, by decide +kernel⟩,
   ⟨atStandstillAndRestart1_s, 0, [], by decide +kernel⟩⟩

def atEntriesFire0_s : State := (((((run).nvPut (Config.key 0 0x18) 0x0005).nvPut (Config.key 1 0x301) 1).nvPut (Config.key 1 1) 0x100).nvPut (Config.key 1 2) 0).nvPut (Config.key 1 3) 0

def atEntriesFire1_s : State := (((((run).nvPut (Config.key 0 0x18) 0x0005).nvPut (Config.key 1 0x301) 1).nvPut (Config.key 1 1) 0x200).nvPut (Config.key 1 2) 0).nvPut (Config.key 1 3) 0

def atEntriesFire2_s : State := { (((((run).nvPut (Config.key 0 0x18) 0x0005).nvPut (Config.key 1 0x301) 1).nvPut (Config.key 1 1) 0x300).nvPut (Config.key 1 2) 0).nvPut (Config.key 1 3) 0 with ad.runs := true }

def atEntriesFire3_s : State := (((((run).nvPut (Config.key 0 0x18) 0x0005).nvPut (Config.key 1 0x301) 1).nvPut (Config.key 1 1) 0x400).nvPut (Config.key 1 2) 1).nvPut (Config.key 1 3) 0

def atEntriesFire4_s : State := (((((run).nvPut (Config.key 0 0x18) 0x0005).nvPut (Config.key 1 0x301) 1).nvPut (Config.key 1 1) 0x500).nvPut (Config.key 1 2) 0).nvPut (Config.key 1 3) 0

def atEntriesFire5_s : State := (((((run).nvPut (Config.key 0 0x18) 0x0005).nvPut (Config.key 1 0x301) 1).nvPut (Config.key 1 1) 0x600).nvPut (Config.key 1 2) 0).nvPut (Config.key 1 3) 0

def atEntriesFire6_s : State := (((((run).nvPut (Config.key 0 0x18) 0x0005).nvPut (Config.key 1 0x301) 1).nvPut (Config.key 1 1) 0x700).nvPut (Config.key 1 2) 0).nvPut (Config.key 1 3) 0

/-- States and operands that meet the hypotheses of Obligations.EntriesFire, clause by clause. -/
theorem witness_EntriesFire :
    (∃ (s : State) (n : BitVec 6) (now : Nat), s.dueAt n.toNat now (· == 1) = true ∧ (s.entry n.toNat).arg.extractLsb' 0 4 ≠ 15#4) ∧
    (∃ (s : State) (n : BitVec 6) (now : Nat) (hi lo : Byte), s.Inv ∧ s.dueAt n.toNat now (· == 1) = true ∧
      (s.entry n.toNat).arg.extractLsb' 0 4 ≠ 15#4 ∧ s.busOn = true ∧ s.hb.wlatch = some (0x2C, lo) ∧ s.sc.armHost ≠ .armed ∧ s.hb.nvr = true ∧
      s.hb.rows.length < 2 ∧ s.ad.runs = true ∧ fld (wordOf hi lo) 4 4 < 12) ∧
    (∃ (s : State) (n : BitVec 6) (now : Nat), s.dueAt n.toNat now (· == 2) = true) ∧
    (∃ (s : State) (n : BitVec 6), s.runOrDrain = true ∧ s.running = false ∧ s.xb.pol ≠ 0 ∧ (s.entry n.toNat).action = 2 ∧
      maskOf ((s.entry n.toNat).arg.extractLsb' 0 2) ≠ s.xb.mask) ∧
    (∃ (s : State) (n : BitVec 6) (now : Nat), s.dueAt n.toNat now (· == 3) = true ∧ s.ad.runs = true) ∧
    (∃ (s : State) (n : BitVec 6) (now : Nat), s.dueAt n.toNat now (· == 4) = true ∧ s.ncoTaken = false ∧
      (s.entry n.toNat).arg.extractLsb' 0 24 ≠ 0#24) ∧
    (∃ (s : State) (n : BitVec 6) (now : Nat), s.dueAt n.toNat now (· == 5) = true) ∧
    (∃ (s : State) (n : BitVec 6) (now : Nat), s.dueAt n.toNat now (· == 6) = true) ∧
    (∃ (s : State) (n : BitVec 6) (now : Nat), s.dueAt n.toNat now (fun a => decide (7 ≤ a)) = true ∧ n.toNat ∉ s.orr.resLogged ∧
      s.ev.buf.length < 32) :=
  ⟨⟨atEntriesFire0_s, 0, 0, by decide +kernel⟩,
   ⟨{ atEntriesFire0_s with hb.wlatch := some (0x2C, (0x10 : Byte)), ad.runs := true, hb.rows := [] }, 0, 0, 0, 0x10,
     by unfold State.Inv Fram.ok Ev.ok Hb.ok Tn.ok Dn.ok Pl.ok; decide +kernel⟩,
   ⟨atEntriesFire1_s, 0, 0, by decide +kernel⟩,
   ⟨{ (((((run).nvPut (Config.key 0 0x18) 0x0005).nvPut (Config.key 1 0x301) 1).nvPut (Config.key 1 1) 0x200).nvPut (Config.key 1 2) 1).nvPut (Config.key 1 3) 0 with pw.st := .drain, xb.pol := 2, xb.mask := 2 },
     0, by decide +kernel⟩,
   ⟨atEntriesFire2_s, 0, 0, by decide +kernel⟩,
   ⟨atEntriesFire3_s, 0, 0, by decide +kernel⟩,
   ⟨atEntriesFire4_s, 0, 0, by decide +kernel⟩,
   ⟨atEntriesFire5_s, 0, 0, by decide +kernel⟩,
   ⟨atEntriesFire6_s, 0, 0, by decide +kernel⟩⟩

def atOrreryWindowWrites0_s : State := { run with hb.wlatch := some (0x20, (0x1 : Byte)), hb.nvr := true, aon.sealOpen := true, orr.ptr := 0x100 }

def atOrreryWindowWrites1_s : State := { run with hb.wlatch := some (0x20, (0x1 : Byte)), hb.nvr := true, aon.sealOpen := true, orr.ptr := 3, hb.held := [(Config.key 1 0, 0), (Config.key 1 1, 0), (Config.key 1 2, 0)] }

/-- States and operands that meet the hypotheses of Obligations.OrreryWindowWrites, clause by clause. -/
theorem witness_OrreryWindowWrites :
    (∃ (s : State) (hi lo : Byte), s.busOn = true ∧ s.hb.wlatch = some (0x20, lo) ∧ s.sc.armHost ≠ .armed ∧ s.hb.nvr = true ∧ s.startUp = false ∧
      s.aon.sealOpen = true ∧ s.lg.acount < 2048 ∧ 0x100 ≤ s.orr.ptr.toNat ∧ s.orr.ptr.toNat < 0x300 ∧ s.orw s.orr.ptr.toNat ≠ wordOf hi lo) ∧
    (∃ (s : State) (hi lo : Byte) (w0 w1 w2 : Word), s.busOn = true ∧ s.hb.wlatch = some (0x20, lo) ∧ s.sc.armHost ≠ .armed ∧ s.hb.nvr = true ∧
      s.startUp = false ∧ s.aon.sealOpen = true ∧ s.lg.acount < 2048 ∧ s.orr.ptr.toNat < 0x100 ∧ s.orr.ptr.toNat % 4 = 3 ∧
      s.hb.held.lookup (Config.key 1 (s.orr.ptr.toNat - 3)) = some w0 ∧ s.hb.held.lookup (Config.key 1 (s.orr.ptr.toNat - 2)) = some w1 ∧
      s.hb.held.lookup (Config.key 1 (s.orr.ptr.toNat - 1)) = some w2 ∧ s.orw s.orr.ptr.toNat ≠ wordOf hi lo) ∧
    (∃ (s : State), s.running = true ∧ s.orSrc = 1 ∧ 1 ≤ s.tpr ∧ s.moving = false) :=
  ⟨⟨atOrreryWindowWrites0_s, 0x0, 0x1, by decide +kernel⟩,
   ⟨atOrreryWindowWrites1_s, 0x0, 0x1, 0, 0, 0, by decide +kernel⟩,
   ⟨((run).nvPut (Config.key 0 0x18) 0x0001).nvPut (Config.key 1 0x300) 64, by decide +kernel⟩⟩

def atMapLearning0_s : State := { ((run).nvPut (Config.key 0 0x18) 0x0005).nvPut (Config.key 1 0x300) 64 with hb.wlatch := some (0x18, (0x8 : Byte)), hb.nvr := true, aon.sealOpen := true, orr.learn := false, orr.sync := true }

/-- States and operands that meet the hypotheses of Obligations.MapLearning, clause by clause. -/
theorem witness_MapLearning :
    (∃ (s : State) (hi lo : Byte), s.Inv ∧ s.busOn = true ∧ s.hb.wlatch = some (0x18, lo) ∧ s.sc.armHost ≠ .armed ∧ s.hb.nvr = true ∧
      s.running = true ∧ s.aon.sealOpen = true ∧ s.lg.acount < 2048 ∧ s.hb.rows.length < 2 ∧ s.orRun = true ∧ bitAt (wordOf hi lo) 3 = true ∧
      s.mayLearn = true ∧ s.orr.learn = false) ∧
    (∃ (s : State), s.running = true ∧ s.orr.lrn = true ∧ s.lrnRevs ≤ s.orr.lrnAll.length ∧ s.lg.acount < 2048) ∧
    (∃ (s : State), s.running = true ∧ s.orr.learn = true ∧ s.ev.buf.length < 32) :=
  ⟨⟨atMapLearning0_s, 0x0, 0x8, by unfold State.Inv Fram.ok Ev.ok Hb.ok Tn.ok Dn.ok Pl.ok; decide +kernel⟩,
   ⟨{ run with orr.lrn := true, orr.lrnAll := List.replicate 64 [] }, by decide +kernel⟩,
   ⟨{ run with orr.learn := true }, by decide +kernel⟩⟩

/-- States and operands that meet the hypotheses of Obligations.CarrierAndRegulation, clause by clause. -/
theorem witness_CarrierAndRegulation :
    (∃ (s : State), s.runOrDrain = true ∧ s.xb.hold = false) ∧
    (∃ (s : State), s.runOrDrain = true ∧ s.xb.hold = true) ∧
    (∃ (s : State), s.runOrDrain = true ∧ s.xbIreg = true ∧ s.xb.pol ≠ 0 ∧ s.window ≠ 0) ∧
    (∃ (s : State), s.runOrDrain = true ∧ s.xbIreg = false ∧ s.window = 0) ∧
    (∃ (s : State), s.runOrDrain = true ∧ s.xb.pol ≠ 0 ∧ fld (s.lgw 0xF822) 0 8 ≠ 0 ∧ fld (s.lgw 0xF822) 0 8 ≤ s.xb.full ∧
      s.xb.refCnt.toNat < 0xFFFE) ∧
    (∃ (s : State), s.xb.full < fld (s.lgw 0xF822) 0 8 ∨ fld (s.lgw 0xF822) 0 8 = 0 ∨ s.xb.pol = 0) ∧
    (∃ (s : State), s.runOrDrain = true ∧ 64 ≤ s.xb.openRun ∧ s.ev.buf.length < 32) :=
  ⟨⟨{ run with xb.hold := false }, by decide +kernel⟩,
   ⟨{ run with xb.hold := true }, by decide +kernel⟩,
   ⟨{ (run).nvPut (Config.key 0 0x22) 0x0002 with xb.pol := 1, xb.duty := 1, xb.per := 64, xb.d := 1 }, by decide +kernel⟩,
   ⟨run, by decide +kernel⟩,
   ⟨{ (run).nvPut (Config.key 3 0xF822) 16 with xb.full := 255, xb.pol := 1 }, by decide +kernel⟩,
   ⟨run, by decide +kernel⟩,
   ⟨{ run with xb.openRun := 64 }, by decide +kernel⟩⟩

def atBoostAttempts8_s : State := { run with hb.wlatch := some (0x22, (0x8 : Byte)), sc.armHost := .armed, hb.nvr := true, xb.bscl := true }

/-- States and operands that meet the hypotheses of Obligations.BoostAttempts, clause by clause. -/
theorem witness_BoostAttempts :
    (∃ (s : State), s.xbOn = true ∧ s.ton ≠ 0 ∧ s.boostMay = true ∧ s.xb.bfull = false ∧
      (s.xb.brun = true ∧ s.xb.cyc = 0 ∨ s.xb.brun = false ∧ (s.xb.bstate = 1 ∨ s.xb.bstate = 2))) ∧
    (∃ (s : State) (e : BoostEnv), s.xbOn = true ∧ s.xb.brun = true ∧ s.xb.cyc = 1 ∧ e.elapsed < s.cycleEnd e) ∧
    (∃ (s : State) (e : BoostEnv), s.xbOn = true ∧ s.xb.brun = true ∧ s.ton ≠ 0 ∧ s.xb.cyc = 1 ∧ s.cycleEnd e ≤ e.elapsed ∧ s.limited e = false ∧
      (s.cycleReady e && s.boostGrant e) = false) ∧
    (∃ (s : State) (e : BoostEnv), s.xbOn = true ∧ s.xb.brun = true ∧ s.ton ≠ 0 ∧ s.xb.cyc = 1 ∧ s.cycleEnd e ≤ e.elapsed ∧ s.limited e = true ∧
      s.cycleReady e = true ∧ s.boostGrant e = true ∧ s.xb.limCnt.toNat < 0xFFFE) ∧
    (∃ (s : State), s.bmode = false) ∧
    (∃ (s : State), s.bmode = true) ∧
    (∃ (s : State), s.xbOn = true ∧ s.xb.bstate = 1 ∧ (false ∈ s.xb.last8 ∨ s.xb.bfull = true ∨ s.xb.fullSeen = true)) ∧
    (∃ (s : State), s.xbOn = true ∧ s.xb.bstate = 1 ∧ s.xb.bfull = false ∧ s.xb.fullSeen = false ∧ s.xb.last8 = [] ∧ s.ev.buf.length < 32) ∧
    (∃ (s : State), s.xbOn = true ∧ s.xb.bstate = 2 ∧ 64 ≤ s.xb.limRun ∧ s.ev.buf.length < 32) ∧
    (∃ (s : State), s.xbOn = true ∧ s.xb.bstate = 3 ∧ s.lgw 0xF826 ≠ 0 ∧ s.xb.lvl.getLsbD 1 = false) ∧
    (∃ (s : State), s.xbOn = true ∧ s.xb.bstate = 2 ∧ s.xb.limRun = 0) ∧
    (∃ (s : State) (hi lo : Byte), s.Inv ∧ s.busOn = true ∧ s.hb.wlatch = some (0x22, lo) ∧ s.sc.armHost = .armed ∧ s.hb.nvr = true ∧
      s.hb.rows.length < 2 ∧ bitAt (wordOf hi lo) 3 = true ∧ s.xb.bscl = true ∧ s.xb.lvl.getLsbD 1 = false ∧ s.ev.buf.length < 32) :=
  ⟨⟨{ (((run).nvPut (Config.key 3 0xF825) 0).nvPut (Config.key 3 0xF826) 100).nvPut (Config.key 3 0xF827) 50 with xb.bfull := false, xb.brun := true, xb.cyc := 0 }, by decide +kernel⟩,
   ⟨{ (((run).nvPut (Config.key 3 0xF825) 0).nvPut (Config.key 3 0xF826) 100).nvPut (Config.key 3 0xF827) 50 with xb.brun := true, xb.cyc := 1 },
     { csOn := 0, blimAt := none, lowAt := some 0, area := 0, elapsed := 127 }, by decide +kernel⟩,
   ⟨{ (((run).nvPut (Config.key 3 0xF825) 0).nvPut (Config.key 3 0xF826) 100).nvPut (Config.key 3 0xF827) 50 with xb.brun := true, xb.cyc := 1 },
     { csOn := 0, blimAt := none, lowAt := some 0, area := 0, elapsed := 128 }, by decide +kernel⟩,
   ⟨{ (((run).nvPut (Config.key 3 0xF825) 0).nvPut (Config.key 3 0xF826) 100).nvPut (Config.key 3 0xF827) 50 with xb.brun := true, xb.cyc := 1, pins.role := .TM },
     { csOn := 0, blimAt := some 50, lowAt := some 0, area := 0, elapsed := 114 }, by decide +kernel⟩,
   ⟨(((run).nvPut (Config.key 3 0xF825) 0).nvPut (Config.key 3 0xF826) 100).nvPut (Config.key 3 0xF827) 50, by decide +kernel⟩,
   ⟨(((run).nvPut (Config.key 3 0xF825) 1).nvPut (Config.key 3 0xF826) 100).nvPut (Config.key 3 0xF827) 50, by decide +kernel⟩,
   ⟨{ run with pw.st := .run, xb.bstate := 1, xb.last8 := [true, false] }, by decide +kernel⟩,
   ⟨{ run with pw.st := .run, xb.bstate := 1, xb.bfull := false, xb.fullSeen := false, xb.last8 := [] }, by decide +kernel⟩,
   ⟨{ run with pw.st := .run, xb.bstate := 2, xb.limRun := 64 }, by decide +kernel⟩,
   ⟨{ run with pw.st := .run, xb.bstate := 3 }, by decide +kernel⟩,
   ⟨{ run with pw.st := .run, xb.bstate := 2, xb.limRun := 0 }, by decide +kernel⟩,
   ⟨atBoostAttempts8_s, 0x0, 0x8, by unfold State.Inv Fram.ok Ev.ok Hb.ok Tn.ok Dn.ok Pl.ok; decide +kernel⟩⟩

/-- States and operands that meet the hypotheses of Obligations.FaultInputs, clause by clause. -/
theorem witness_FaultInputs :
    (∃ (s : State), s.xbOn = true ∧ s.soonAfterAuto 0 = false ∧ s.ev.buf.length < 32) ∧
    (∃ (s : State), s.xbOn = true ∧ s.soonAfterAuto 1 = false ∧ (s.xb.bstate = 1 ∨ s.xb.bstate = 2) ∧ s.ev.buf.length < 31) ∧
    (∃ (s : State), s.xbOn = true ∧ s.soonAfterAuto 2 = false ∧ s.ev.buf.length < 32) ∧
    (∃ (s : State), (s.hb.frzTs || s.hb.frzTest) = true) ∧
    (∃ (s : State) (lo : Byte), s.busOn = true ∧ s.hb.wlatch = some (0x2A, lo) ∧ s.sc.armHost ≠ .armed) ∧
    (∃ (s : State), s.xbOn = true ∧ bitAt (s.nvReg 0x2A) 8 = true ∧ s.xb.fl.getLsbD 0 = true ∧ s.xb.kept.getLsbD 0 = false) ∧
    (∃ (s : State), s.xbOn = true ∧ bitAt (s.nvReg 0x2A) 8 = false) :=
  ⟨⟨run, by decide +kernel⟩,
   ⟨{ run with xb.bstate := 2 }, by decide +kernel⟩,
   ⟨run, by decide +kernel⟩,
   ⟨{ run with hb.frzTest := true }, by decide +kernel⟩,
   ⟨{ run with hb.wlatch := some (0x2A, (0x0 : Byte)) }, 0x0, by decide +kernel⟩,
   ⟨{ (run).nvPut (Config.key 0 0x2A) 0x0100 with xb.fl := 1 }, by decide +kernel⟩,
   ⟨run, by decide +kernel⟩⟩

/-- States and operands that meet the hypotheses of Obligations.Conversions, clause by clause. -/
theorem witness_Conversions :
    (∃ (s : State), s.coreOn = true ∧ s.ad.runs = true) ∧
    (∃ (s : State), s.ad.curCh.toNat < 8 ∧ bitAt s.ad.curCfg 3 = false) ∧
    (∃ (s : State), s.running = true ∧ s.ad.runs = true ∧ s.adEn = true) ∧
    (∃ (s : State) (hi lo : Byte), s.Inv ∧ s.busOn = true ∧ s.hb.wlatch = some (0x2C, lo) ∧ s.sc.armHost ≠ .armed ∧ s.hb.nvr = true ∧
      s.hb.rows.length < 2 ∧ s.runOrDrain = true ∧ s.ad.runs = false ∧ bitAt (wordOf hi lo) 8 = true ∧ fld (wordOf hi lo) 4 4 < 12 ∧
      (wordOf hi lo).extractLsb' 0 4 ≠ 15#4) ∧
    (∃ (s : State) (lo : Byte), s.busOn = true ∧ s.hb.wlatch = some (0x2C, lo) ∧ s.sc.armHost ≠ .armed ∧ s.pw.st = .calib) :=
  ⟨⟨{ run with ad.runs := true }, by decide +kernel⟩,
   ⟨run, by decide +kernel⟩,
   ⟨{ (run).nvPut (Config.key 0 0x2C) 0x0100 with ad.runs := true }, by decide +kernel⟩,
   ⟨{ run with hb.wlatch := some (0x2C, (0x0 : Byte)), hb.nvr := true, ad.runs := false }, 0x1, 0x0,
     by unfold State.Inv Fram.ok Ev.ok Hb.ok Tn.ok Dn.ok Pl.ok; decide +kernel⟩,
   ⟨{ run with hb.wlatch := some (0x2C, (0x0 : Byte)), pw.st := .calib }, 0x0, by decide +kernel⟩⟩

def atDacsAndNco5_s : State := { (run).nvPut (Config.key 0 0x38) 1 with hb.wlatch := some (0x32, (0x0 : Byte)), lp.traw := false, lp.driving := true, lp.alarm := 0 }

/-- States and operands that meet the hypotheses of Obligations.DacsAndNco, clause by clause. -/
theorem witness_DacsAndNco :
    (∃ (s : State) (lo : Byte), s.busOn = true ∧ s.hb.wlatch = some (0x34, lo) ∧ s.sc.armHost ≠ .armed) ∧
    (∃ (s : State) (lo : Byte), s.Inv ∧ s.busOn = true ∧ s.hb.wlatch = some (0x60, lo) ∧ s.sc.armHost ≠ .armed ∧ s.hb.nvr = true ∧
      s.hb.rows.length < 2 ∧ s.lg.ptr = 0xF840) ∧
    (∃ (s : State) (mv : Nat), s.coreOn = true ∧ s.daoMode = true ∧ s.ad.compl = false ∧ 2600 < mv ∧ s.ev.buf.length < 32) ∧
    (∃ (s : State), s.coreOn = true) ∧
    (∃ (s : State) (mv : Nat), s.coreOn = true ∧ s.daoMode = true ∧ 2850 ≤ mv ∧ s.ev.buf.length < 31) ∧
    (∃ (s : State) (lo : Byte), s.busOn = true ∧ s.hb.wlatch = some (0x32, lo) ∧ s.sc.armHost ≠ .armed ∧ s.asrc = 1 ∧ s.lp.traw = false ∧
      s.lp.driving = true ∧ s.lp.alarm = 0) ∧
    (∃ (s : State) (hi lo : Byte), s.busOn = true ∧ s.hb.wlatch = some (0x36, lo) ∧ s.sc.armHost ≠ .armed ∧ bitAt (wordOf hi lo) 15 = false) ∧
    (∃ (s : State) (hi lo : Byte), s.busOn = true ∧ s.hb.wlatch = some (0x36, lo) ∧ s.sc.armHost ≠ .armed ∧ bitAt (wordOf hi lo) 15 = true ∧
      s.ncoTaken = false ∧ (wordOf hi lo &&& 0x8FFF#16).extractLsb' 0 12 ++ s.ad.ncoLow ≠ 0#24) ∧
    (∃ (s : State) (hi lo : Byte), s.busOn = true ∧ s.hb.wlatch = some (0x36, lo) ∧ s.sc.armHost ≠ .armed ∧ bitAt (wordOf hi lo) 15 = true ∧
      s.ncoTaken = false ∧ (wordOf hi lo &&& 0x8FFF#16).extractLsb' 0 12 ++ s.ad.ncoLow = 0#24) ∧
    (∃ (s : State), s.coreOn = true ∧ s.ad.ncoRamp = true) :=
  ⟨⟨{ run with hb.wlatch := some (0x34, (0x0 : Byte)) }, 0x0, by decide +kernel⟩,
   ⟨{ run with hb.wlatch := some (0x60, (0x0 : Byte)), hb.nvr := true, lg.ptr := 0xF840 }, 0x0,
     by unfold State.Inv Fram.ok Ev.ok Hb.ok Tn.ok Dn.ok Pl.ok; decide +kernel⟩,
   ⟨{ (run).nvPut (Config.key 3 0xF840) 1 with ad.compl := false }, 2700, by decide +kernel⟩,
   ⟨run, by decide +kernel⟩,
   ⟨{ (run).nvPut (Config.key 3 0xF840) 1 with ad.daAux := 5 }, 2850, by decide +kernel⟩,
   ⟨atDacsAndNco5_s, 0x0, by decide +kernel⟩,
   ⟨{ run with hb.wlatch := some (0x36, (0x0 : Byte)) }, 0x0, 0x0, by decide +kernel⟩,
   ⟨{ run with hb.wlatch := some (0x36, (0x1 : Byte)) }, 0x80, 0x1, by decide +kernel⟩,
   ⟨{ run with hb.wlatch := some (0x36, (0x0 : Byte)), ad.ncoLow := 0 }, 0x80, 0x0, by decide +kernel⟩,
   ⟨{ run with ad.ncoRamp := true }, by decide +kernel⟩⟩

def atMagneticPairs1_s : State := { (((run).nvPut (Config.key 0 0x56) 1).nvPut (Config.key 2 2) 0).nvPut (Config.key 2 3) 0x3F80 with xb.pairOpen := true, fe.cutPair := false, fe.modelLive := 1, ad.results := [res0 1, res0 1, res0 2, res0 2], xb.icsSum := 200, xb.icsN := 2 }

/-- States and operands that meet the hypotheses of Obligations.MagneticPairs, clause by clause. -/
theorem witness_MagneticPairs :
    (∃ (s : State), s.running = true ∧ s.feMag = true ∧ s.xb.pairOpen = true ∧ (s.halfResults 1).length < 2) ∧
    (∃ (s : State), s.running = true ∧ s.feMag = true ∧ s.xb.pairOpen = true ∧ s.fe.cutPair = false ∧ 2 ≤ (s.halfResults 1).length ∧
      2 ≤ (s.halfResults 2).length ∧ F32.eq (s.fef 0x002) 0 = false ∧
      F32.isFinite (F32.div (F32.mul (F32.mul (s.fef 0x002) (F32.div (F32.sub (meanCode (s.halfResults 1)) (meanCode (s.halfResults 2))) (F32.ofInt 2))) (F32.ofInt s.iset)) (F32.ofRatio s.xb.icsSum s.xb.icsN)) = true) :=
  ⟨⟨{ (run).nvPut (Config.key 0 0x56) 1 with xb.pairOpen := true, fe.modelLive := 1 }, by decide +kernel⟩,
   ⟨atMagneticPairs1_s, by decide +kernel⟩⟩

def atFlowInputsAndWords2_s : State := { run with hb.wlatch := some (0x5A, (0x41 : Byte)), hb.nvr := true, aon.sealOpen := true, fe.phold := false, fe.ptr := 0 }

def atFlowInputsAndWords3_s : State := { run with hb.wlatch := some (0x5A, (0x0 : Byte)), hb.nvr := true, aon.sealOpen := true, fe.phold := true, fe.ptr := 3, hb.held := [(Config.key 2 2, 7)] }

def atAdaptationRecommends0_s : State := { (((run).nvPut (Config.key 2 1) 1).nvPut (Config.key 0 0x56) 1).nvPut (Config.key 0 0x18) 3 with fe.modelLive := 1 }

/-- States and operands that meet the hypotheses of Obligations.FlowInputsAndWords, clause by clause. -/
theorem witness_FlowInputsAndWords :
    (∃ (s : State), s.running = true ∧ s.feEn = true ∧ s.ev.buf.length < 32) ∧
    (∃ (s : State), s.running = true ∧ s.feEn = true ∧ s.fe.srcLive = false) ∧
    (∃ (s : State), s.running = true ∧ s.feEn = true ∧ s.fe.srcLive = true) ∧
    (∃ (s : State) (hi lo : Byte), s.busOn = true ∧ s.hb.wlatch = some (0x5A, lo) ∧ s.sc.armHost ≠ .armed ∧ s.hb.nvr = true ∧ s.startUp = false ∧
      s.aon.sealOpen = true ∧ s.lg.acount < 2048 ∧ s.fe.phold = false ∧ s.fe.ptr = 0 ∧ s.few 0 ≠ wordOf hi lo &&& 0x007F) ∧
    (∃ (s : State) (lo : Byte) (low : Word), s.busOn = true ∧ s.hb.wlatch = some (0x5A, lo) ∧ s.sc.armHost ≠ .armed ∧ s.hb.nvr = true ∧
      s.startUp = false ∧ s.aon.sealOpen = true ∧ s.fe.phold = true ∧ s.fe.ptr = 3 ∧ s.hb.held.lookup (Config.key 2 2) = some low) ∧
    (∃ (s : State), s.runOrDrain = true ∧ s.takesIdle = true ∧ s.fe.idle.length = 256) ∧
    (∃ (s : State), s.runOrDrain = true ∧ s.takesVor = true ∧ s.fe.vor.length = 256) ∧
    (∃ (s : State), s.runOrDrain = true ∧ s.fe.idle.length ≠ 256 ∧ s.fe.vor.length ≠ 256) ∧
    (∃ (s : State), s.runOrDrain = true ∧ s.rxOn .A = true) :=
  ⟨⟨(run).nvPut (Config.key 0 0x56) 1, by decide +kernel⟩,
   ⟨{ (run).nvPut (Config.key 0 0x56) 1 with fe.srcLive := false }, by decide +kernel⟩,
   ⟨{ (run).nvPut (Config.key 0 0x56) 1 with fe.srcLive := true }, by decide +kernel⟩,
   ⟨atFlowInputsAndWords2_s, 0x0, 0x41, by decide +kernel⟩,
   ⟨atFlowInputsAndWords3_s, 0x0, 7, by decide +kernel⟩,
   ⟨{ atAdaptationRecommends0_s with fe.idle := List.replicate 256 0 }, by decide +kernel⟩,
   ⟨{ ((run).nvPut (Config.key 2 1) 2).nvPut (Config.key 0 0x56) 1 with fe.modelLive := 3, fe.vor := List.replicate 256 0 }, by decide +kernel⟩,
   ⟨run, by decide +kernel⟩,
   ⟨node, by decide +kernel⟩⟩


def atAdaptationRecommends1_s : State := { (((run).nvPut (Config.key 2 1) 1).nvPut (Config.key 0 0x56) 1).nvPut (Config.key 0 0x18) 0x0013 with fe.modelLive := 1 }

/-- States and operands that meet the hypotheses of Obligations.AdaptationRecommends, clause by clause. -/
theorem witness_AdaptationRecommends :
    (∃ (s : State), s.running = true ∧ bitAt (s.few 1) 0 = true ∧ s.feMag = true ∧ s.orSrc = 3 ∧ s.fe.powers ≠ []) ∧
    (∃ (s : State), s.running = true ∧ bitAt (s.few 1) 0 = true ∧ s.feMag = true ∧ s.orSrc = 3 ∧ s.fe.powers ≠ [] ∧
      quietest s.fe.powers + 1 = fld (s.nvReg 0x18) 4 3) ∧
    (∃ (s : State) (rms : Nat), s.running = true ∧ bitAt (s.few 1) 1 = true ∧ s.feTeeth = true ∧ s.fe.modelLive = 3 ∧ s.fe.rms = some rms) :=
  ⟨⟨{ atAdaptationRecommends0_s with fe.powers := [5, 6] }, by decide +kernel⟩,
   ⟨{ atAdaptationRecommends1_s with fe.powers := [5, 6] }, by decide +kernel⟩,
   ⟨{ ((run).nvPut (Config.key 2 1) 2).nvPut (Config.key 0 0x56) 1 with fe.modelLive := 3, fe.rms := some 7 }, 7, by decide +kernel⟩⟩

/-- States and operands that meet the hypotheses of Obligations.Commits, clause by clause. -/
theorem witness_Commits :
    (∃ (s : State) (hi lo : Byte), s.busOn = true ∧ s.hb.wlatch = some (0x5C, lo) ∧ s.sc.armHost ≠ .armed ∧ s.runOrDrain = true ∧
      bitAt (wordOf hi lo) 0 = true ∧ s.lg.lbad = false ∧ s.lg.cur = none ∧ s.lg.seq.toNat < 0xFFFFFFFE) ∧
    (∃ (s : State) (hi lo : Byte), s.busOn = true ∧ s.hb.wlatch = some (0x5C, lo) ∧ s.sc.armHost ≠ .armed ∧ s.runOrDrain = true ∧
      bitAt (wordOf hi lo) 0 = true ∧ s.lg.lbad = false ∧ s.lg.cur = none ∧ s.lg.seq = 0xFFFFFFFE#32 ∧ s.ev.buf.length < 32) ∧
    (∃ (s : State) (hi lo : Byte) (c : Commit), s.busOn = true ∧ s.hb.wlatch = some (0x5C, lo) ∧ s.sc.armHost ≠ .armed ∧ s.runOrDrain = true ∧
      bitAt (wordOf hi lo) 0 = true ∧ s.lg.lbad = false ∧ s.lg.cur = some c) ∧
    (∃ (s : State) (c : Commit), s.runOrDrain = true ∧ s.lg.cur = some c ∧ s.lg.waiting = [] ∧ c.sweeps = [] ∧ s.an.restoreAck = none) ∧
    (∃ (s : State) (c : Commit) (sw : Word32 × Word32), s.runOrDrain = true ∧ s.lg.cur = some c ∧ s.lg.waiting = [] ∧ c.sweeps = [sw] ∧
      s.an.restoreAck = none) ∧
    (∃ (s : State) (c : Commit) (w : Waiting) (rest : List Waiting), s.runOrDrain = true ∧ s.lg.cur = some c ∧ s.lg.waiting = w :: rest ∧
      s.lg.lbad = false ∧ s.lg.seq.toNat < 0xFFFFFFFE ∧ s.an.restoreAck = none) ∧
    (∃ (s : State) (hi lo : Byte), s.busOn = true ∧ s.hb.wlatch = some (0x5C, lo) ∧ s.sc.armHost = .armed ∧ s.startUp = false ∧
      s.aon.sealOpen = true ∧ s.lg.acount < 2048 ∧ bitAt (wordOf hi lo) 0 = false ∧ bitAt (wordOf hi lo) 2 = true) :=
  ⟨⟨{ run with hb.wlatch := some (0x5C, (0x1 : Byte)), lg.lbad := false, lg.cur := none }, 0x0, 0x1, by decide +kernel⟩,
   ⟨{ run with hb.wlatch := some (0x5C, (0x1 : Byte)), lg.lbad := false, lg.cur := none, lg.seq := 0xFFFFFFFE }, 0x0, 0x1, by decide +kernel⟩,
   ⟨{ run with hb.wlatch := some (0x5C, (0x1 : Byte)), lg.lbad := false, lg.cur := some commit0 }, 0x0, 0x1, commit0, by decide +kernel⟩,
   ⟨{ run with lg.cur := some commit0 }, commit0, by decide +kernel⟩,
   ⟨{ run with lg.cur := some { commit0 with sweeps := [(1, 2)] } }, { commit0 with sweeps := [(1, 2)] }, (1, 2), by decide +kernel⟩,
   ⟨{ run with lg.cur := some commit0, lg.waiting := [waiting0] }, commit0, waiting0, [], by decide +kernel⟩,
   ⟨{ run with hb.wlatch := some (0x5C, (0x4 : Byte)), sc.armHost := .armed, aon.sealOpen := true }, 0x0, 0x4, by decide +kernel⟩⟩

def atEventAndAuditRows1_k : Nat := Config.key 3 0xF884

/-- States and operands that meet the hypotheses of Obligations.EventAndAuditRows, clause by clause. -/
theorem witness_EventAndAuditRows :
    (∃ (s : State) (e : LogEntry) (rest : List LogEntry), s.runOrDrain = true ∧ s.ev.buf = e :: rest ∧ s.ev.drops = 0) ∧
    (∃ (s : State) (k : Nat) (v : Word) (rest : List Change), s.Inv ∧ s.runOrDrain = true ∧ s.lg.queue = .word k v :: rest ∧ s.lg.acount < 1983 ∧
      Config.key 3 0xF884 ≤ k) ∧
    (∃ (s : State) (k : Nat) (v : Word) (rest : List Change), s.runOrDrain = true ∧ s.lg.queue = .word k v :: rest ∧ 2048 ≤ s.lg.acount) :=
  ⟨⟨{ run with ev.buf := entry0 :: ([] : List LogEntry), ev.drops := 0 }, entry0, [], by decide +kernel⟩,
   ⟨{ run with lg.queue := .word atEventAndAuditRows1_k (0 : Word) :: ([] : List Change) }, atEventAndAuditRows1_k, 0, [],
     by unfold State.Inv Fram.ok Ev.ok Hb.ok Tn.ok Dn.ok Pl.ok; decide +kernel⟩,
   ⟨{ run with lg.queue := .word (0 : Nat) (0 : Word) :: ([] : List Change), lg.acount := 2048 }, 0, 0, [], by decide +kernel⟩⟩

/-- States and operands that meet the hypotheses of Obligations.SealChanges, clause by clause. -/
theorem witness_SealChanges :
    (∃ (s : State) (isOpen : Bool), s.aon.sealLevel = isOpen) ∧
    (∃ (s : State) (isOpen : Bool), s.aon.sealLevel ≠ isOpen ∧ s.runOrDrain = true ∧ s.lg.acount < 2048) ∧
    (∃ (s : State), s.aon.sealLevel = false ∧ s.runOrDrain = true ∧ 2048 ≤ s.lg.acount ∧ s.ev.buf.length < 32) ∧
    (∃ (s : State) (isOpen : Bool), s.aon.sealLevel ≠ isOpen ∧ (s.pw.st = .run ∨ s.pw.st = .drain) ∧ (s.hb.frzTs || s.hb.frzTest) = true ∧
      s.lg.acount < 2048) ∧
    (∃ (s : State) (isOpen : Bool), s.aon.sealLevel ≠ isOpen ∧ s.pw.st ≠ .run ∧ s.pw.st ≠ .drain ∧ s.pw.st ≠ .off ∧ s.hb.frzTs = false ∧
      s.hb.frzTest = false) :=
  ⟨⟨{ run with aon.sealLevel := false }, false, by decide +kernel⟩,
   ⟨{ run with aon.sealLevel := false }, true, by decide +kernel⟩,
   ⟨{ run with aon.sealLevel := false, lg.acount := 2048 }, by decide +kernel⟩,
   ⟨{ run with aon.sealLevel := false, hb.frzTs := true }, true, by decide +kernel⟩,
   ⟨{ run with aon.sealLevel := false, pw.st := .backup }, true, by decide +kernel⟩⟩

/-- States and operands that meet the hypotheses of Obligations.UnlockSteps, clause by clause. -/
theorem witness_UnlockSteps :
    (∃ (s : State), s.busOn = true ∧ s.hb.wlatch = some (0x7A, 0x5A)) ∧
    (∃ (s : State) (cycles : Nat), s.busOn = true ∧ s.hb.wlatch = some (0x7A, 0xA5) ∧ s.sc.armHost = .first ∧ s.hb.rdyen = true ∧ cycles ≤ 64) ∧
    (∃ (s : State) (cycles : Nat), s.busOn = true ∧ s.hb.wlatch = some (0x7A, 0xA5) ∧ s.hb.rdyen = true ∧ 64 < cycles ∧ s.ev.buf.length < 32) ∧
    (∃ (s : State) (hi lo : Byte), s.busOn = true ∧ s.hb.wlatch = some (0x7A, lo) ∧ s.ev.buf.length < 32 ∧ wordOf hi lo ≠ 0x005A#16 ∧
      wordOf hi lo ≠ 0x00A5#16) ∧
    (∃ (s : State), s.coreOn = true ∧ s.sc.armHost = .armed) :=
  ⟨⟨{ run with hb.wlatch := some (0x7A, 0x5A) }, by decide +kernel⟩,
   ⟨{ run with hb.wlatch := some (0x7A, 0xA5), sc.armHost := .first, hb.rdyen := true }, 0, by decide +kernel⟩,
   ⟨{ run with hb.wlatch := some (0x7A, 0xA5), hb.rdyen := true }, 65, by decide +kernel⟩,
   ⟨{ run with hb.wlatch := some (0x7A, (0x0 : Byte)) }, 0x0, 0x0, by decide +kernel⟩,
   ⟨{ run with sc.armHost := .armed }, by decide +kernel⟩⟩

def atKeyLoading0_s : State := { run with hb.wlatch := some (0x68, (0x4 : Byte)), sc.armHost := .armed, aon.sealOpen := true, sc.ldg := false }

def atKeyLoading3_s : State := { run with hb.wlatch := some (0x6A, (0x0 : Byte)), sc.ldg := true, sc.words := List.replicate 7 0#16 }

/-- States and operands that meet the hypotheses of Obligations.KeyLoading, clause by clause. -/
theorem witness_KeyLoading :
    (∃ (s : State) (hi lo : Byte), s.busOn = true ∧ s.hb.wlatch = some (0x68, lo) ∧ s.sc.armHost = .armed ∧ s.startUp = false ∧
      s.aon.sealOpen = true ∧ s.sc.ldg = false ∧ bitAt (wordOf hi lo) 2 = true ∧ fld (wordOf hi lo) 0 2 < 2) ∧
    (∃ (s : State) (lo : Byte), s.busOn = true ∧ s.hb.wlatch = some (0x6A, lo) ∧ s.sc.armHost ≠ .armed ∧ s.sc.ldg = true ∧ s.sc.words.length < 7) ∧
    (∃ (s : State) (hi lo : Byte), s.busOn = true ∧ s.hb.wlatch = some (0x6A, lo) ∧ s.sc.armHost ≠ .armed ∧ s.sc.ldg = true ∧ s.sc.words.length = 7 ∧
      wordOf hi lo ≠ 0 ∧ s.lg.acount < 2048) ∧
    (∃ (s : State) (hi lo : Byte), s.busOn = true ∧ s.hb.wlatch = some (0x6A, lo) ∧ s.sc.armHost ≠ .armed ∧ s.sc.ldg = true ∧
      s.sc.words = List.replicate 7 0#16 ∧ wordOf hi lo = 0 ∧ s.ev.buf.length < 32) ∧
    (∃ (s : State), s.coreOn = true ∧ s.sc.ldg = true ∧ s.ev.buf.length < 32) :=
  ⟨⟨atKeyLoading0_s, 0x0, 0x4, by decide +kernel⟩,
   ⟨{ run with hb.wlatch := some (0x6A, (0x0 : Byte)), sc.ldg := true }, 0x0, by decide +kernel⟩,
   ⟨{ run with hb.wlatch := some (0x6A, (0x1 : Byte)), sc.ldg := true, sc.words := List.replicate 7 0 }, 0x0, 0x1, by decide +kernel⟩,
   ⟨atKeyLoading3_s, 0x0, 0x0, by decide +kernel⟩,
   ⟨{ run with sc.ldg := true }, by decide +kernel⟩⟩

/-- States and operands that meet the hypotheses of Obligations.LedgerSnapshots, clause by clause. -/
theorem witness_LedgerSnapshots :
    (∃ (s : State), s.busOn = true ∧ s.lg.ptr = 0xF600) ∧
    (∃ (s : State), s.busOn = true ∧ fld s.ev.ptr 0 3 = 0 ∧ bitAt s.ev.ptr 15 = false) :=
  ⟨⟨{ run with lg.ptr := 0xF600 }, by decide +kernel⟩,
   ⟨run, by decide +kernel⟩⟩

/-- States and operands that meet the hypotheses of Obligations.Ceremony, clause by clause. -/
theorem witness_Ceremony :
    (∃ (s : State) (hi lo : Byte), s.Inv ∧ s.busOn = true ∧ s.hb.wlatch = some (0x52, lo) ∧ s.sc.armHost = .armed ∧ s.running = true ∧
      s.aon.sealOpen = true ∧ s.hb.nvr = true ∧ s.hb.rows.length < 2 ∧ s.lg.acount < 2048 ∧ s.fram.anState = 0 ∧
      (wordOf hi lo).extractLsb' 1 6 = (s.nvReg 0x52).extractLsb' 1 6 ∧ bitAt (wordOf hi lo) 7 = true ∧ bitAt (wordOf hi lo) 9 = false ∧
      bitAt (wordOf hi lo) 10 = false ∧ (bitAt (wordOf hi lo) 8 = false ∨ s.lg.lbad = true)) ∧
    (∃ (s : State), s.running = true ∧ s.fram.anState = 1 ∧ s.fram.aseq ≠ 0xFFFFFFFF#32) ∧
    (∃ (s u : State) (f : RxFrame), s.hearsAntiphon f 0x08 0x03 ∧ u = s.heard f ∧ u.fram.anState = 1 ∧ anSender f.frame.payload ≠ u.fram.serial ∧
      f.frame.src = u.paddr ∧ u.anTagOk f.frame.payload 0 = true ∧ u.fram.aseq ≠ 0xFFFFFFFF#32 ∧
      (u.an.gotConfirm = some (anSender f.frame.payload) → u.lg.acount < 2048 ∧ u.pairQueued = false)) ∧
    (∃ (s u : State) (f : RxFrame), s.hearsAntiphon f 0x08 0x04 ∧ u = s.heard f ∧ u.fram.anState = 1 ∧ f.frame.src = u.paddr ∧
      u.anTagOk f.frame.payload u.fram.serial = true ∧ beAt f.frame.payload 0x0C 8 = u.fram.serial.toNat ∧ u.an.hasPeer = true ∧
      u.an.sentConfirm = true ∧ u.an.peer = anSender f.frame.payload ∧ u.lg.acount < 2048 ∧ u.pairQueued = false) ∧
    (∃ (s : State), s.coreOn = true ∧ s.fram.anState = 1 ∧ s.ev.buf.length < 32) ∧
    (∃ (s : State) (hi lo : Byte), s.Inv ∧ s.busOn = true ∧ s.hb.wlatch = some (0x52, lo) ∧ s.sc.armHost = .armed ∧ s.startUp = false ∧
      s.aon.sealOpen = true ∧ s.hb.nvr = true ∧ s.hb.rows.length < 2 ∧ s.lg.acount < 2048 ∧
      (wordOf hi lo).extractLsb' 1 6 = (s.nvReg 0x52).extractLsb' 1 6 ∧ bitAt (wordOf hi lo) 7 = false ∧ bitAt (wordOf hi lo) 9 = false ∧
      bitAt (wordOf hi lo) 10 = true) :=
  ⟨⟨{ (run).nvPut (Config.key 0 0x52) 0x0000 with hb.wlatch := some (0x52, (0x80 : Byte)), sc.armHost := .armed, aon.sealOpen := true, hb.nvr := true, fram.anState := 0 }, 0x0, 0x80, by unfold State.Inv Fram.ok Ev.ok Hb.ok Tn.ok Dn.ok Pl.ok; decide +kernel⟩,
   ⟨{ run with fram.anState := 1 }, by decide +kernel⟩,
   ⟨{ pair with fram.anState := 1 },
     ({ pair with fram.anState := 1 } : State).heard ({ rx0 with frame.type := 0x08, frame.payload := anMsg [1] 36 3 0x22 [] (0), frame.src := 0x005 } : RxFrame),
     { rx0 with frame.type := 0x08, frame.payload := anMsg [1] 36 3 0x22 [] (0), frame.src := 0x005 },
     by unfold State.hearsAntiphon State.hears; decide +kernel, rfl, by decide +kernel, by decide +kernel, by decide +kernel,
     anMsg_tag _ _ _ _ _ _ _ rfl, by decide +kernel⟩,
   ⟨{ pair with fram.anState := 1, an.hasPeer := true, an.sentConfirm := true, an.peer := anSender ({ rx0 with frame.type := 0x08, frame.payload := anMsg [1] 36 4 0x22 [(0x0C, bytesBE 8 0x11)] (0x11), frame.src := 0x005 } : RxFrame).frame.payload },
     ({ pair with fram.anState := 1, an.hasPeer := true, an.sentConfirm := true, an.peer := anSender ({ rx0 with frame.type := 0x08, frame.payload := anMsg [1] 36 4 0x22 [(0x0C, bytesBE 8 0x11)] (0x11), frame.src := 0x005 } : RxFrame).frame.payload } : State).heard ({ rx0 with frame.type := 0x08, frame.payload := anMsg [1] 36 4 0x22 [(0x0C, bytesBE 8 0x11)] (0x11), frame.src := 0x005 } : RxFrame),
     { rx0 with frame.type := 0x08, frame.payload := anMsg [1] 36 4 0x22 [(0x0C, bytesBE 8 0x11)] (0x11), frame.src := 0x005 },
     by unfold State.hearsAntiphon State.hears; decide +kernel, rfl, by decide +kernel, by decide +kernel, anMsg_tag _ _ _ _ _ _ _ rfl,
     by decide +kernel⟩,
   ⟨{ run with fram.anState := 1 }, by decide +kernel⟩,
   ⟨{ (run).nvPut (Config.key 0 0x52) 0x0000 with hb.wlatch := some (0x52, (0x0 : Byte)), sc.armHost := .armed, aon.sealOpen := true, hb.nvr := true },
     0x4, 0x0, by unfold State.Inv Fram.ok Ev.ok Hb.ok Tn.ok Dn.ok Pl.ok; decide +kernel⟩⟩

/-- States and operands that meet the hypotheses of Obligations.Exchanges, clause by clause. -/
theorem witness_Exchanges :
    (∃ (s : State), s.exchOk = true ∧ s.caller = true ∧ s.an.wdCount = 0 ∧
      (∀ q ∈ s.dl.queue, s.ownAntiphon q = true → payAt q.frame.payload 1 ≠ 0x07)) ∧
    (∃ (s : State), s.exchOk = true ∧ s.caller = false ∧ s.an.wdCount = 0 ∧
      (∀ q ∈ s.dl.queue, s.ownAntiphon q = true → payAt q.frame.payload 1 ≠ 0x07)) ∧
    (∃ (s : State), s.exchOk = true ∧ s.caller = false ∧ s.an.wdCount ≠ 0 ∧ s.ev.buf.length < 32 ∧
      (∀ q ∈ s.dl.queue, s.ownAntiphon q = true → payAt q.frame.payload 1 ≠ 0x07)) ∧
    (∃ (s : State) (q : QFrame), s.unstamped q = true ∧ s.fram.aseq ≠ 0xFFFFFFFF#32) ∧
    (∃ (s u : State) (f : RxFrame) (spacing : Nat), s.hearsAntiphon f 0x08 0x01 ∧ u = s.heard f ∧ u.partners f ∧ u.exchOk = true ∧
      u.caller = false ∧ u.fresh f.frame.payload ∧ (200 ≤ spacing ∨ u.fram.rxaseq = 0)) ∧
    (∃ (s u : State) (f : RxFrame), s.hearsAntiphon f 0x08 0x01 ∧ u = s.heard f ∧ u.partners f ∧ u.exchOk = true ∧ u.caller = false ∧
      beAt f.frame.payload 0x0C 4 = u.fram.rxaseq.toNat ∧ u.an.lastAnswer ≠ [] ∧ u.an.resent = false) ∧
    (∃ (s u : State) (f : RxFrame), s.hearsAntiphon f 0x08 0x02 ∧ u = s.heard f ∧ u.partners f ∧ u.ck.ltv = true ∧ u.caller = true ∧
      u.an.restoreWait = none ∧ BitVec.ofNat 32 (beAt f.frame.payload 0x10 4) = u.an.lastCall ∧ u.fresh f.frame.payload) ∧
    (∃ (s : State), s.exchOk = true ∧ s.an.awaiting = true ∧ s.an.missCnt.toNat < 0xFFFE ∧ (s.fram.anState = 4 ∨ s.an.misses + 1 < s.lossn)) ∧
    (∃ (s : State), s.exchOk = true ∧ s.an.awaiting = true ∧ s.an.missCnt.toNat < 0xFFFE ∧ s.fram.anState = 3 ∧ s.lossn ≤ s.an.misses + 1 ∧
      s.ev.buf.length < 32) :=
  ⟨⟨{ pair with an.wdCount := 0 }, by decide +kernel⟩,
   ⟨{ pair with an.wdCount := 0, fram.pserial := 0x05 }, by decide +kernel⟩,
   ⟨{ pair with an.wdCount := 1, fram.pserial := 0x05 }, by decide +kernel⟩,
   ⟨pair, { q0 with frame.type := 0x08, frame.src := 0x011, frame.payload := 1 :: 1 :: List.replicate 226 0 }, by decide +kernel⟩,
   ⟨{ pair with fram.pserial := 0x05 },
     ({ pair with fram.pserial := 0x05 } : State).heard ({ rx0 with frame.type := 0x08, frame.payload := anMsg [1] 228 1 0x05 [(0x0C, [0, 0, 0, 1])] (0x11) } : RxFrame),
     { rx0 with frame.type := 0x08, frame.payload := anMsg [1] 228 1 0x05 [(0x0C, [0, 0, 0, 1])] (0x11) }, 0,
     by unfold State.hearsAntiphon State.hears; decide +kernel, rfl,
     ⟨by decide +kernel, by decide +kernel, anMsg_tag _ _ _ _ _ _ _ rfl, by decide +kernel⟩, by unfold State.fresh; decide +kernel⟩,
   ⟨{ pair with an.resent := false, fram.pserial := 0x05, an.lastAnswer := [1] },
     ({ pair with an.resent := false, fram.pserial := 0x05, an.lastAnswer := [1] } : State).heard ({ rx0 with frame.type := 0x08, frame.payload := anMsg [1] 228 1 0x05 [] (0x11) } : RxFrame),
     { rx0 with frame.type := 0x08, frame.payload := anMsg [1] 228 1 0x05 [] (0x11) }, by unfold State.hearsAntiphon State.hears; decide +kernel,
     rfl, ⟨by decide +kernel, by decide +kernel, anMsg_tag _ _ _ _ _ _ _ rfl, by decide +kernel⟩, by decide +kernel⟩,
   ⟨{ pair with ck.ltv := true, an.restoreWait := none },
     ({ pair with ck.ltv := true, an.restoreWait := none } : State).heard ({ rx0 with frame.type := 0x08, frame.payload := anMsg [1] 228 2 0x22 [(0x0C, [0, 0, 0, 1])] (0x11) } : RxFrame),
     { rx0 with frame.type := 0x08, frame.payload := anMsg [1] 228 2 0x22 [(0x0C, [0, 0, 0, 1])] (0x11) },
     by unfold State.hearsAntiphon State.hears; decide +kernel, rfl,
     ⟨by decide +kernel, by decide +kernel, anMsg_tag _ _ _ _ _ _ _ rfl, by decide +kernel⟩, by unfold State.fresh; decide +kernel⟩,
   ⟨{ pair with an.awaiting := true }, by decide +kernel⟩,
   ⟨{ pair with an.awaiting := true, fram.anState := 3, an.misses := 254 }, by decide +kernel⟩⟩

/-- States and operands that meet the hypotheses of Obligations.PairSettings, clause by clause. -/
theorem witness_PairSettings :
    (∃ (s : State) (hi lo : Byte), s.Inv ∧ s.busOn = true ∧ s.hb.wlatch = some (0x52, lo) ∧ s.sc.armHost ≠ .armed ∧ s.startUp = false ∧
      s.aon.sealOpen = true ∧ s.hb.nvr = true ∧ s.hb.rows.length < 2 ∧ s.lg.acount < 2048 ∧
      (wordOf hi lo).extractLsb' 1 6 ≠ (s.nvReg 0x52).extractLsb' 1 6) ∧
    (∃ (s : State) (hi lo : Byte), s.Inv ∧ s.busOn = true ∧ s.hb.wlatch = some (0x52, lo) ∧ s.sc.armHost = .armed ∧ s.startUp = false ∧
      s.aon.sealOpen = true ∧ s.hb.nvr = true ∧ s.hb.rows.length < 2 ∧ s.lg.acount < 2048 ∧
      (wordOf hi lo).extractLsb' 1 6 = (s.nvReg 0x52).extractLsb' 1 6 ∧ bitAt (wordOf hi lo) 7 = false ∧ bitAt (wordOf hi lo) 9 = true ∧
      bitAt (wordOf hi lo) 10 = false ∧ (s.fram.anState = 2 ∨ s.fram.anState = 3 ∨ s.fram.anState = 4)) ∧
    (∃ (s : State), s.coreOn = true ∧ s.lg.cdigDirty = true) ∧
    (∃ (s u : State) (f : RxFrame), s.hearsAntiphon f 0x08 0x06 ∧ u = s.heard f ∧ u.anTagOk f.frame.payload u.fram.serial = true ∧
      u.an.wantRestore = true ∧ u.fram.anState ≠ 0 ∧ u.fram.anState ≠ 1 ∧ (u.lg.lbad = true ∨ u.lg.totalsDone.any (fun x => x != 0) = false) ∧
      u.aon.sealOpen = true ∧ u.lg.acount < 2048) ∧
    (∃ (s : State) (a c : Word32), s.coreOn = true ∧ s.an.restoreWait = some (a, c) ∧ s.an.vioCnt.toNat < 0xFFFE ∧ s.ev.buf.length < 32 ∧
      s.hb.secCodes.contains 0x081B = false) :=
  ⟨⟨{ run with hb.wlatch := some (0x52, (0x0 : Byte)), aon.sealOpen := true, hb.nvr := true }, 0x0, 0x0,
     by unfold State.Inv Fram.ok Ev.ok Hb.ok Tn.ok Dn.ok Pl.ok; decide +kernel⟩,
   ⟨{ (pair).nvPut (Config.key 0 0x52) 0x0000 with hb.wlatch := some (0x52, (0x0 : Byte)), sc.armHost := .armed, aon.sealOpen := true, hb.nvr := true },
     0x2, 0x0, by unfold State.Inv Fram.ok Ev.ok Hb.ok Tn.ok Dn.ok Pl.ok; decide +kernel⟩,
   ⟨{ run with lg.cdigDirty := true }, by decide +kernel⟩,
   ⟨{ pair with an.wantRestore := true, aon.sealOpen := true },
     ({ pair with an.wantRestore := true, aon.sealOpen := true } : State).heard ({ rx0 with frame.type := 0x08, frame.payload := anMsg [1] 238 6 0x22 [] (0x11) } : RxFrame),
     { rx0 with frame.type := 0x08, frame.payload := anMsg [1] 238 6 0x22 [] (0x11) }, by unfold State.hearsAntiphon State.hears; decide +kernel,
     rfl, anMsg_tag _ _ _ _ _ _ _ rfl, by decide +kernel⟩,
   ⟨{ run with an.restoreWait := some ((0 : Word32), (0 : Word32)) }, 0, 0, by decide +kernel⟩⟩

/-- States and operands that meet the hypotheses of Obligations.RetractionsAndNotices, clause by clause. -/
theorem witness_RetractionsAndNotices :
    (∃ (s : State), s.exchOk = true ∧ s.fram.anState = 3 ∧ s.an.wdCount ≠ 0 ∧ s.spaced s.an.retractAt 100 = true) ∧
    (∃ (s u : State) (f : RxFrame), s.hearsAntiphon f 0x09 0x07 ∧ u = s.heard f ∧ u.partners f ∧ beAt f.frame.payload 2 2 ≠ 0 ∧
      u.fram.rxaseq.toNat < beAt f.frame.payload 0x0C 4) ∧
    (∃ (s : State), s.an.noticeDue = true ∧ s.spaced s.an.noticeAt 1000 = true ∧ s.exchOk = true ∧ s.fram.anState = 3) ∧
    (∃ (s : State), s.an.noticeDue = true ∧ s.spaced s.an.noticeAt 1000 = true ∧ s.fram.anState ≠ 3) ∧
    (∃ (s u : State) (f : RxFrame), s.hearsAntiphon f 0x08 0x05 ∧ u = s.heard f ∧ u.partners f ∧ u.ck.ltv = true ∧ u.fresh f.frame.payload) :=
  ⟨⟨{ pair with fram.anState := 3, an.wdCount := 1 }, by decide +kernel⟩,
   ⟨pair, pair.heard ({ rx0 with frame.type := 0x09, frame.payload := anMsg [1] 48 7 0x22 [(0x0C, [0, 0, 0, 1])] (0x11) } : RxFrame),
     { rx0 with frame.type := 0x09, frame.payload := anMsg [1] 48 7 0x22 [(0x0C, [0, 0, 0, 1])] (0x11) },
     by unfold State.hearsAntiphon State.hears; decide +kernel, rfl,
     ⟨by decide +kernel, by decide +kernel, anMsg_tag _ _ _ _ _ _ _ rfl, by decide +kernel⟩, by decide +kernel⟩,
   ⟨{ pair with an.noticeDue := true, fram.anState := 3 }, by decide +kernel⟩,
   ⟨{ run with an.noticeDue := true }, by decide +kernel⟩,
   ⟨{ pair with ck.ltv := true },
     ({ pair with ck.ltv := true } : State).heard ({ rx0 with frame.type := 0x08, frame.payload := anMsg [1] 228 5 0x22 [(0x0C, [0, 0, 0, 1])] (0x11) } : RxFrame),
     { rx0 with frame.type := 0x08, frame.payload := anMsg [1] 228 5 0x22 [(0x0C, [0, 0, 0, 1])] (0x11) },
     by unfold State.hearsAntiphon State.hears; decide +kernel, rfl,
     ⟨by decide +kernel, by decide +kernel, anMsg_tag _ _ _ _ _ _ _ rfl, by decide +kernel⟩, by unfold State.fresh; decide +kernel⟩⟩

def atLoopA7_s : State := { run with hb.wlatch := some (0x60, (0x3b : Byte)), hb.nvr := true, aon.sealOpen := true, lg.ptr := 0xF8C7, lg.ainc := false, hb.held := [(Config.key 3 0xF8C6, 0x8260)] }

def atLoopA8_s : State := { run with hb.wlatch := some (0x60, (0x0 : Byte)), hb.nvr := true, aon.sealOpen := true, lg.ptr := 0xF8C7, lg.ainc := false }

/-- States and operands that meet the hypotheses of Obligations.LoopA, clause by clause. -/
theorem witness_LoopA :
    (∃ (s : State), s.running = true ∧ s.loopARole = true ∧ bitAt (s.nvReg 0x38) 6 = true ∧ s.lp.driving = true ∧ s.readbackBad = true ∧
      s.lp.lfCnt.toNat < 0xFFFE ∧ s.ev.buf.length < 30) ∧
    (∃ (s : State), s.running = true ∧ s.loopARole = true ∧ (bitAt (s.nvReg 0x38) 6 = false ∨ s.lp.driving = false ∨ s.readbackBad = false)) ∧
    (∃ (s : State), s.running = true ∧ s.lp.faulted = true ∧ s.loopARole = true ∧ s.asrc = 1 ∧ s.lp.alarm = 0 ∧ s.lp.traw = false) ∧
    (∃ (s : State), s.running = true ∧ s.loopARole = true ∧ s.ev.buf.length < 31) ∧
    (∃ (s : State) (v : Nat), s.running = true ∧ s.loopARole = true ∧ s.lp.lowv = false ∧ v < 950 ∧ s.ev.buf.length < 32) ∧
    (∃ (s : State) (v : Nat), s.running = true ∧ s.loopARole = true ∧ s.lp.lowv = true ∧ 970 ≤ v) ∧
    (∃ (s : State), s.running = true ∧ s.pins.role = .TM ∧ s.asrc = 2) ∧
    (∃ (s : State) (hi lo : Byte), s.busOn = true ∧ s.hb.wlatch = some (0x60, lo) ∧ s.sc.armHost ≠ .armed ∧ s.hb.nvr = true ∧ s.startUp = false ∧
      s.aon.sealOpen = true ∧ s.lg.acount < 2048 ∧ s.lg.ptr = 0xF8C7 ∧ s.lg.ainc = false ∧
      3900000 ≤ (dword (s.heldWord (Config.key 3 0xF8C6)) (wordOf hi lo)).toNat ∧
      (dword (s.heldWord (Config.key 3 0xF8C6)) (wordOf hi lo)).toNat ≤ 4100000 ∧
      (s.nv (Config.key 3 0xF8C6) ≠ s.heldWord (Config.key 3 0xF8C6) ∨ s.nv (Config.key 3 0xF8C7) ≠ wordOf hi lo)) ∧
    (∃ (s : State) (hi lo : Byte), s.busOn = true ∧ s.hb.wlatch = some (0x60, lo) ∧ s.sc.armHost ≠ .armed ∧ s.hb.nvr = true ∧ s.startUp = false ∧
      s.aon.sealOpen = true ∧ s.lg.ptr = 0xF8C7 ∧ s.lg.ainc = false ∧ s.ev.buf.length < 32 ∧
      ((dword (s.heldWord (Config.key 3 0xF8C6)) (wordOf hi lo)).toNat < 3900000 ∨ 4100000 < (dword (s.heldWord (Config.key 3 0xF8C6)) (wordOf hi lo)).toNat)) :=
  ⟨⟨{ run with lp.driving := true, lp.rbN := 8, lp.rbTicks := 8, lp.rbCmd := 0, lp.rbSum := 100000000 }, by decide +kernel⟩,
   ⟨run, by decide +kernel⟩,
   ⟨{ (run).nvPut (Config.key 0 0x38) 1 with lp.faulted := true, lp.alarm := 0, lp.traw := false }, by decide +kernel⟩,
   ⟨run, by decide +kernel⟩,
   ⟨{ run with lp.lowv := false }, 0, by decide +kernel⟩,
   ⟨{ run with lp.lowv := true }, 970, by decide +kernel⟩,
   ⟨{ (run).nvPut (Config.key 0 0x38) 2 with pins.role := .TM }, by decide +kernel⟩,
   ⟨atLoopA7_s, 0x0, 0x3b, by decide +kernel⟩,
   ⟨atLoopA8_s, 0x0, 0x0, by decide +kernel⟩⟩

/-- States and operands that meet the hypotheses of Obligations.LoopB, clause by clause. -/
theorem witness_LoopB :
    (∃ (s : State), s.coreOn = true ∧ s.loopBOn = true ∧ s.lp.bN = 0) ∧
    (∃ (s : State), s.coreOn = true ∧ s.loopBOn = true ∧ s.lp.bN ≠ 0) ∧
    (∃ (s : State), s.coreOn = true ∧ s.loopBOn = true) ∧
    (∃ (s : State), s.coreOn = true ∧ 1000 ≤ s.lp.fallRun ∧ s.lp.lbcl = false) ∧
    (∃ (s : State), s.coreOn = true ∧ s.lp.fold = true ∧ s.lp.dwarn = false ∧ 10000 ≤ s.lp.coolRun ∧ s.ev.buf.length < 32) ∧
    (∃ (s : State) (die : Int), s.coreOn = true ∧ s.lp.dwarn = false ∧ 1250 ≤ die ∧ s.ev.buf.length < 31) ∧
    (∃ (s : State) (die : Int), s.coreOn = true ∧ s.lp.dwarn = true ∧ die ≤ 1200) ∧
    (∃ (s : State), s.running = true ∧ s.pins.role = .TM ∧ s.lsel ≠ s.tn.loopB ∧ s.tnIdle = true ∧ s.ev.buf.length < 32) :=
  ⟨⟨{ run with lp.bN := 0, pins.role := .M }, by decide +kernel⟩,
   ⟨{ run with pins.role := .M, lp.bN := 1 }, by decide +kernel⟩,
   ⟨{ run with pins.role := .M }, by decide +kernel⟩,
   ⟨{ run with lp.lbcl := false, lp.fallRun := 1000 }, by decide +kernel⟩,
   ⟨{ run with lp.fold := true, lp.coolRun := 10000, lp.dwarn := false }, by decide +kernel⟩,
   ⟨{ run with lp.dwarn := false }, 1250, by decide +kernel⟩,
   ⟨{ run with lp.dwarn := true }, 0, by decide +kernel⟩,
   ⟨{ run with pins.role := .TM, tn.loopB := true }, by decide +kernel⟩⟩

def atToneDevice1_f : CFrame := { cf0 with cmd := 0x00 }

def atToneDevice2_f : CFrame := { cf0 with cmd := 0x01, data := [(0 : Byte), (0 : Byte)] }

def atToneDevice3_s : State := { tone with hb.rlock := true }
def atToneDevice3_f : CFrame := { cf0 with cmd := 2, data := [0x7E, 1, 2] }

def atToneDevice4_s : State := { tone with hb.rlock := false }
def atToneDevice4_f : CFrame := { cf0 with cmd := 0x02, data := (([] : List (Nat × Word)).map (fun t => [BitVec.ofNat 8 t.1, hiByte t.2, loByte t.2])).flatten }

def atToneDevice5_s : State := (run).nvPut (Config.key 0 0x40) 0x11
def atToneDevice5_f : CFrame := { cf0 with cmd := 0x80 }

/-- States and operands that meet the hypotheses of Obligations.ToneDevice, clause by clause. -/
theorem witness_ToneDevice :
    (∃ (s : State) (f : CFrame), s.tnHears f ∧ s.tnNew f ∧ f.cmd = 0x00 ∧ f.data = []) ∧
    (∃ (s : State) (f r : CFrame) (since : Nat), s.tnHears f ∧ s.tn.stored = some (f.seq, cantusCrc f, r, since) ∧ s.within since 2000 = true ∧
      f.cmd = 0x00 ∧ s.tn.vioCnt.toNat < 0xFFFE) ∧
    (∃ (s u : State) (f : CFrame) (a c : Byte) (n step : Nat), s.tnHears f ∧ s.tnNew f ∧ u = s.tnTaken f ∧ f.cmd = 0x01 ∧ f.data = [a, c] ∧
      n = c.toNat % 128 ∧ step = (if c.getLsbD 7 then 0 else 2) ∧ a.toNat % 2 = 0 ∧ a.toNat ≤ 0x7E ∧ a.toNat + step * n ≤ 0x80) ∧
    (∃ (s u : State) (f : CFrame), s.tnHears f ∧ s.tnNew f ∧ u = s.tnTaken f ∧ f.cmd = 0x02 ∧ triplesFit f.data = true ∧ u.hb.rlock = true ∧
      f.data ≠ [] ∧ s.ev.buf.length < 32) ∧
    (∃ (s u : State) (f : CFrame) (ts : List (Nat × Word)), s.tnHears f ∧ s.tnNew f ∧ u = s.tnTaken f ∧ f.cmd = 0x02 ∧
      f.data = (ts.map (fun t => [BitVec.ofNat 8 t.1, hiByte t.2, loByte t.2])).flatten ∧ (∀ t ∈ ts, t.1 % 2 = 0 ∧ t.1 ≤ 0x7E) ∧
      u.hb.rlock = false) ∧
    (∃ (s u : State) (f : CFrame), s.tnHears f ∧ s.tnNew f ∧ u = s.tnTaken f ∧ 0x80 ≤ f.cmd.toNat ∧ s.hostCmd = true ∧ s.tnFits f = true) ∧
    (∃ (s : State) (f : CFrame), s.tnHears f ∧ 3 ≤ f.cmd.toNat ∧ f.cmd.toNat < 0x80 ∧ s.tn.vioCnt.toNat < 0xFFFE ∧ s.ev.buf.length < 32 ∧
      s.hb.secCodes.contains 0x0A13 = false) ∧
    (∃ (s : State) (r : CFrame) (w : Wave), s.tnOn = true ∧ s.tnDevice = true ∧ s.tn.reply = some r ∧
      w = { fast := s.tnFast, syms := waveSyms s.tnFast (s.wireBytes r), cyc := 0 }) ∧
    (∃ (s : State) (seq crc : Word) (w : Wave), s.tnOn = true ∧ s.tnDevice = true ∧ s.tn.pt = false ∧ s.tnReady = true ∧
      s.tn.hostSeq = some (seq, crc) ∧ w = { fast := s.tnFast, syms := waveSyms s.tnFast (s.wireBytes (s.tnFrame seq)), cyc := 0 }) ∧
    (∃ (s : State), s.tnOn = true ∧ s.tn.pt = true ∧ s.tn.txf ≠ [] ∧ s.tn.tx = none) ∧
    (∃ (s : State) (w : Wave), s.tnOn = true ∧ s.tn.pt = true ∧ s.tn.txf ≠ [] ∧ s.tn.tx = some w) ∧
    (∃ (s : State) (c : BitVec 11) (bad : Bool), s.tnOn = true ∧ s.tn.pt = true ∧ s.tn.rxf.length < 528 ∧
      (bad = true ↔ c.getLsbD 0 = true ∨ c.getLsbD 10 = false ∨ ((List.range 9).filter (fun i => c.getLsbD (i + 1))).length % 2 = 0)) ∧
    (∃ (s : State), s.busOn = true ∧ s.toneRun = true) :=
  ⟨⟨tone, { cf0 with cmd := 0x00, data := [] }, by unfold State.tnHears State.tnNew; decide +kernel⟩,
   ⟨{ tone with tn.stored := some (atToneDevice1_f.seq, cantusCrc atToneDevice1_f, cf0, (0 : Nat)) }, atToneDevice1_f, cf0, 0,
     by unfold State.tnHears; decide +kernel⟩,
   ⟨tone, tone.tnTaken atToneDevice2_f, atToneDevice2_f, 0, 0, (0 : Byte).toNat % 128, (if (0 : Byte).getLsbD 7 then 0 else 2),
     by unfold State.tnHears; decide +kernel, by unfold State.tnNew; decide +kernel, rfl, by decide +kernel⟩,
   ⟨atToneDevice3_s, atToneDevice3_s.tnTaken atToneDevice3_f, atToneDevice3_f, by unfold State.tnHears; decide +kernel,
     by unfold State.tnNew; decide +kernel, rfl, by decide +kernel⟩,
   ⟨atToneDevice4_s, atToneDevice4_s.tnTaken atToneDevice4_f, atToneDevice4_f, [], by unfold State.tnHears; decide +kernel,
     by unfold State.tnNew; decide +kernel, rfl, by decide +kernel⟩,
   ⟨atToneDevice5_s, atToneDevice5_s.tnTaken atToneDevice5_f, atToneDevice5_f, by unfold State.tnHears; decide +kernel,
     by unfold State.tnNew; decide +kernel, rfl, by decide +kernel⟩,
   ⟨tone, { cf0 with cmd := 3 }, by unfold State.tnHears; decide +kernel⟩,
   ⟨{ tone with tn.reply := some cf0 }, cf0, _, by decide +kernel, by decide +kernel, by decide +kernel, rfl⟩,
   ⟨{ tone with tn.pt := false, tn.hostSeq := some ((0 : Word), (0 : Word)), tn.txf := [0, 0, 0] }, 0, 0, _, by decide +kernel, by decide +kernel,
     by decide +kernel, by decide +kernel, by decide +kernel, rfl⟩,
   ⟨{ tone with tn.pt := true, tn.txf := [0] }, by decide +kernel⟩,
   ⟨{ tone with tn.pt := true, tn.txf := [0], tn.tx := some wave0 }, wave0, by decide +kernel⟩,
   ⟨{ tone with tn.pt := true }, 0x600, false, by decide +kernel⟩,
   ⟨tone, by decide +kernel⟩⟩

def atToneMaster1_s : State := { tone with tn.pt := false, tn.req := some cf0, tn.reqWatch := false, tn.watch := [], pins.role := .M }

def atToneMaster3_s : State := { tone with tn.req := some cf0, tn.reqWatch := false, tn.watch := [], pins.role := .M, tn.attempts := 8 }

def atToneMaster4_s : State := { tone with tn.pt := false, tn.req := none, tn.jamEpisode := false, pins.role := .M, tn.txf := [0, 0, 0] }

def atToneMaster5_s : State := { ((tone).nvPut (Config.key 3 0xF902) 2).nvPut (Config.key 3 0xF903) 1 with tn.pt := false, tn.req := none, pins.role := .M }

/-- States and operands that meet the hypotheses of Obligations.ToneMaster, clause by clause. -/
theorem witness_ToneMaster :
    (∃ (s : State) (w : Wave), s.tnOn = true ∧ s.tnDevice = false ∧ s.tn.pt = false ∧ s.tnReady = true ∧ s.tn.req = none ∧
      w = { fast := s.tnFast, syms := waveSyms s.tnFast (s.wireBytes (s.tnFrame (s.tn.txseq + 1#16))), cyc := 0 }) ∧
    (∃ (s : State) (f r : CFrame), s.tnOn = true ∧ s.tn.pt = false ∧ f.addr.getLsbD 7 = true ∧ s.tnDevice = false ∧ s.tn.req = some r ∧
      r.seq = f.seq ∧ f.addr.extractLsb' 0 4 = r.addr.extractLsb' 0 4 ∧ s.tn.rxCnt.toNat < 0xFFFE ∧ s.tnFits f = true ∧ s.tn.reqWatch = false ∧
      s.tn.watch = []) ∧
    (∃ (s : State) (r : CFrame) (w : Wave), s.tnOn = true ∧ s.tnDevice = false ∧ s.tn.req = some r ∧ s.tn.attempts ≤ s.tnRetry ∧
      w = { fast := s.tnFast, syms := waveSyms s.tnFast (s.wireBytes r), cyc := 0 }) ∧
    (∃ (s : State) (r : CFrame), s.tnOn = true ∧ s.tnDevice = false ∧ s.tn.req = some r ∧ s.tnRetry < s.tn.attempts ∧ s.tn.toCnt.toNat < 0xFFFE ∧
      s.tn.reqWatch = false ∧ s.tn.watch = [] ∧ s.ev.buf.length < 32) ∧
    (∃ (s : State), s.tnOn = true ∧ s.tnDevice = false ∧ s.tn.pt = false ∧ s.tnReady = true ∧ s.tn.req = none ∧ s.tn.vioCnt.toNat < 0xFFFE ∧
      s.tn.jamEpisode = false ∧ s.ev.buf.length < 32) ∧
    (∃ (s : State) (a : Nat) (rest : List Nat) (f : CFrame), s.tnOn = true ∧ s.tnDevice = false ∧ s.tn.pt = false ∧ s.plint ≠ 0 ∧
      s.plmap = a :: rest ∧ s.tnReady = false ∧ s.tn.req = none ∧
      f = { addr := BitVec.ofNat 8 a, cmd := 0x00, seq := s.tn.txseq + 1#16, data := [], rssi := 0, soft := [] }) ∧
    (∃ (s : State), s.tnOn = true ∧ s.tn.pt = false ∧ s.tn.crcCnt.toNat < 0xFFFE ∧ s.tn.vioCnt.toNat < 0xFFFE ∧ s.ev.buf.length < 32 ∧
      s.hb.secCodes.contains 0x0A10 = false) ∧
    (∃ (s : State), s.tnOn = true ∧ s.tn.pt = false ∧ s.tn.vioCnt.toNat < 0xFFFE ∧ s.ev.buf.length < 32 ∧ s.hb.secCodes.contains 0x0A11 = false) ∧
    (∃ (s : State), s.tnOn = true ∧ s.tn.pt = false ∧ s.tnFast = false ∧ s.tn.vioCnt.toNat < 0xFFFE ∧ s.ev.buf.length < 32 ∧
      s.hb.secCodes.contains 0x0A12 = false) :=
  ⟨⟨{ tone with tn.pt := false, tn.req := none, pins.role := .M, tn.txf := [0, 0, 0] }, _, by decide +kernel, by decide +kernel, by decide +kernel, by decide +kernel, by decide +kernel, rfl⟩,
   ⟨atToneMaster1_s, { cf0 with addr := 0x80 }, cf0, by decide +kernel⟩,
   ⟨{ tone with tn.req := some cf0, pins.role := .M }, cf0, _, by decide +kernel, by decide +kernel, by decide +kernel, by decide +kernel, rfl⟩,
   ⟨atToneMaster3_s, cf0, by decide +kernel⟩,
   ⟨atToneMaster4_s, by decide +kernel⟩,
   ⟨atToneMaster5_s, 1, [], { cf0 with addr := 1, seq := atToneMaster5_s.tn.txseq + 1#16 }, by decide +kernel⟩,
   ⟨{ tone with tn.pt := false }, by decide +kernel⟩,
   ⟨{ tone with tn.pt := false }, by decide +kernel⟩,
   ⟨{ tone with tn.pt := false }, by decide +kernel⟩⟩

def atLineFrames4_q : QFrame := { q0 with frame.type := 0x0B }

def atLineFrames5_s : State := { (node).nvPut (Config.key 0 0x46) 1 with pins.role := .M }
def atLineFrames5_f : RxFrame := { rx0 with port := .B, frame.dest := 0x020 }
def atLineFrames5_u : State := (atLineFrames5_s.learnIdx atLineFrames5_f.port atLineFrames5_f.frame.src atLineFrames5_f.txidx).heardFrom atLineFrames5_f.port atLineFrames5_f.frame.src

def atLineFrames6_s : State := { (node).nvPut (Config.key 0 0x46) 1 with pins.role := .M }
def atLineFrames6_f : RxFrame := { rx0 with port := .B, frame.dest := 0x020, frame.type := 5, frame.flags := 16 }
def atLineFrames6_u : State := (atLineFrames6_s.learnIdx atLineFrames6_f.port atLineFrames6_f.frame.src atLineFrames6_f.txidx).heardFrom atLineFrames6_f.port atLineFrames6_f.frame.src

def atLineFrames7_s : State := { run with hb.wlatch := some (0x50, (0x0 : Byte)), hb.nvr := true, dn.ptr := BitVec.ofNat 16 (0x1010 : Nat) }

def atLineFrames8_s : State := { (((((run).nvPut (Config.key 4 0x1011) 0x1F1F).nvPut (Config.key 4 0x1012) 0x1F1F).nvPut (Config.key 4 0x1013) 0x1F1F).nvPut (Config.key 4 0x1014) 0x1F1F).nvPut (Config.key 4 0x1015) 0x1F1F with hb.wlatch := some (0x50, (0x1f : Byte)), hb.nvr := true, dn.ptr := BitVec.ofNat 16 (0x1010 : Nat) }

/-- States and operands that meet the hypotheses of Obligations.LineFrames, clause by clause. -/
theorem witness_LineFrames :
    (∃ (s : State), s.isHead = false ∧ s.coreOn = true ∧ s.lineOn = true ∧ s.ck.linelk = false ∧ s.ev.buf.length < 32) ∧
    (∃ (s : State), s.isHead = false ∧ s.coreOn = true ∧ s.ck.linelk = true ∧ (s.live s.fram.upPort).lockLost.toNat < 0xFFFE ∧
      s.ev.buf.length < 32) ∧
    (∃ (s : State) (f : RxFrame), f.load = false ∧ (s.live f.port).frCnt.toNat < 0xFFFE ∧ s.isBridge = false) ∧
    (∃ (s : State) (p : Port) (q : QFrame), s.mayDmt p = true ∧ s.nextFrame p = some q ∧ q.frame.type ≠ 0x0B ∧ s.unstamped q = false) ∧
    (∃ (s : State) (p : Port) (q : QFrame), s.mayDmt p = true ∧ s.nextFrame p = some q ∧ q.frame.type = 0x0B ∧ q.frame.flags.getLsbD 4 = false) ∧
    (∃ (s : State) (p : Port) (q : QFrame), s.mayDmt p = true ∧ s.nextFrame p = some q ∧ s.unstamped q = true ∧ s.fram.aseq.toNat < 0xFFFFFFFE) ∧
    (∃ (s u : State) (f : RxFrame), s.listens f.port ∧ s.running = true ∧ f.load = false ∧
      u = (s.learnIdx f.port f.frame.src f.txidx).heardFrom f.port f.frame.src ∧ u.relays f = true ∧
      (f.frame.type ≠ 0x05 ∨ f.frame.flags.getLsbD 4 = false)) ∧
    (∃ (s u : State) (f : RxFrame), s.listens f.port ∧ s.running = true ∧ f.load = false ∧
      u = (s.learnIdx f.port f.frame.src f.txidx).heardFrom f.port f.frame.src ∧ u.relays f = true ∧ f.frame.type = 0x05 ∧
      f.frame.flags.getLsbD 4 = true) ∧
    (∃ (s : State) (hi lo : Byte) (a : Nat), s.Inv ∧ s.busOn = true ∧ s.hb.wlatch = some (0x50, lo) ∧ s.sc.armHost ≠ .armed ∧ s.hb.nvr = true ∧
      s.hb.rows.length < 2 ∧ s.dn.ptr = BitVec.ofNat 16 a ∧ isMaskWord a = true ∧
      50 ≤ ((s.nvPut (Config.key 4 a) (wordOf hi lo &&& 0x1F1F#16)).usable (dsPortOf a)).length) ∧
    (∃ (s : State) (hi lo : Byte) (a : Nat), s.busOn = true ∧ s.hb.wlatch = some (0x50, lo) ∧ s.sc.armHost ≠ .armed ∧ s.hb.nvr = true ∧
      s.hb.rows.length < 2 ∧ s.dn.ptr = BitVec.ofNat 16 a ∧ isMaskWord a = true ∧ s.ev.buf.length < 32 ∧
      ((s.nvPut (Config.key 4 a) (wordOf hi lo &&& 0x1F1F#16)).usable (dsPortOf a)).length < 50) :=
  ⟨⟨{ run with ck.linelk := false }, by decide +kernel⟩,
   ⟨{ run with ck.linelk := true }, by decide +kernel⟩,
   ⟨run, { rx0 with load := false }, by decide +kernel⟩,
   ⟨{ node with dl.queue := [q0] }, .A, q0, by decide +kernel⟩,
   ⟨{ node with dl.queue := [atLineFrames4_q] }, .A, atLineFrames4_q, by decide +kernel⟩,
   ⟨{ node with dl.queue := [anQ0] }, .A, anQ0, by decide +kernel⟩,
   ⟨atLineFrames5_s, atLineFrames5_u, atLineFrames5_f, by unfold State.listens; decide +kernel, by decide +kernel, by decide +kernel, rfl,
     by decide +kernel⟩,
   ⟨atLineFrames6_s, atLineFrames6_u, atLineFrames6_f, by unfold State.listens; decide +kernel, by decide +kernel, by decide +kernel, rfl,
     by decide +kernel⟩,
   ⟨atLineFrames7_s, 0x0, 0x0, 0x1010, by unfold State.Inv Fram.ok Ev.ok Hb.ok Tn.ok Dn.ok Pl.ok; decide +kernel⟩,
   ⟨atLineFrames8_s, 0x1f, 0x1f, 0x1010, by decide +kernel⟩⟩

def atLineTraining3_r : RxSearch := { port := .A, payload := [2, 3, 1], rssi := 7 }

def atLineTraining4_r : RxSearch := { port := .A, payload := [2, 3, 1], rssi := 7 }

def atLineTraining6_t0 : Training := { tr0 with sent := 3 }

def atLineTraining8_r : RxSearch := { port := .A, payload := [2, 3, 1], rssi := 7 }

def atLineTraining11_s : State := { node with hb.wlatch := some (0x46, (0x3 : Byte)), hb.nvr := true, dl.retrainAt := [], fram.gens := [(false, 3, true, 1)] }

/-- States and operands that meet the hypotheses of Obligations.LineTraining, clause by clause. -/
theorem witness_LineTraining :
    (∃ (s : State) (p : Port) (peer : BitVec 6), s.mayTrain p peer = true ∧ s.trainDue p peer = true) ∧
    (∃ (s : State) (r : RxSearch), s.listens r.port ∧ idxByte (payAt r.payload 0) = s.ownIdx r.port) ∧
    (∃ (s : State) (p : Port) (peer : BitVec 6) (n : Nat), s.rxOn p = true ∧ s.dl.rxTrain = some (p, peer, n)) ∧
    (∃ (s : State) (r : RxSearch) (peer : BitVec 6) (gen : Nat), s.Inv ∧ s.listens r.port ∧ idxByte (payAt r.payload 0) = s.ownIdx r.port ∧
      peer = idxByte (payAt r.payload 1) ∧ gen = (payAt r.payload 2).toNat % 16 ∧
      s.dl.training.any (fun t => t.port == r.port && t.peer == peer) = true) ∧
    (∃ (s : State) (f : SFrame) (x : Training) (g : Nat), f.kind = 0x42 ∧ s.dl.training = [x] ∧ x.port = f.port ∧
      x.peer = idxByte (payAt f.payload 0) ∧ x.gen = some g ∧ s.ev.buf.length < 32) ∧
    (∃ (s : State) (r : RxSearch) (peer : BitVec 6) (gen : Nat) (bits : List Nat) (rest : List (Port × BitVec 6 × Nat × List Nat)), s.Inv ∧
      s.listens r.port ∧ idxByte (payAt r.payload 0) = s.ownIdx r.port ∧ peer = idxByte (payAt r.payload 1) ∧
      gen = (payAt r.payload 2).toNat % 16 ∧ s.dl.rxPend = (r.port, peer, gen, bits) :: rest) ∧
    (∃ (s : State) (t0 : Training) (rest : List Training), s.running = true ∧ s.dl.training = t0 :: rest ∧ t0.gen = none ∧ t0.sent < 3) ∧
    (∃ (s : State) (t0 : Training) (rest : List Training), s.running = true ∧ s.dl.training = t0 :: rest ∧ t0.gen = none ∧ 3 ≤ t0.sent ∧
      s.ev.buf.length < 32) ∧
    (∃ (s : State) (p : Port) (peer : BitVec 6), s.dl.failed.contains (p, peer) = true ∧ s.mayTrain p peer = true) ∧
    (∃ (s : State) (r : RxSearch) (peer : BitVec 6), s.listens r.port ∧ idxByte (payAt r.payload 0) = s.ownIdx r.port ∧
      peer = idxByte (payAt r.payload 1) ∧ s.mayTrain r.port peer = true) ∧
    (∃ (s : State) (p : Port) (peer : BitVec 6) (cause : BitVec 3) (snr : List Byte), s.rxOn p = true ∧ s.inSystem = true ∧
      s.retrainDue p peer cause.toNat snr = true ∧ s.dl.retrainAt.any (fun r => r.1 == p && r.2.1 == peer && s.within r.2.2 10000) = false ∧
      (s.live p).rtCnt.toNat < 0xFFFE ∧ s.ev.buf.length < 32) ∧
    (∃ (s : State) (p : Port) (peer : BitVec 6) (cause : BitVec 3) (snr : List Byte), s.rxOn p = true ∧ s.inSystem = true ∧
      s.retrainDue p peer cause.toNat snr = true ∧ s.dl.retrainAt.any (fun r => r.1 == p && r.2.1 == peer && s.within r.2.2 10000) = true) ∧
    (∃ (s : State) (hi lo : Byte) (i : BitVec 6), s.Inv ∧ s.busOn = true ∧ s.hb.wlatch = some (0x46, lo) ∧ s.sc.armHost ≠ .armed ∧
      s.hb.nvr = true ∧ s.hb.rows.length < 2 ∧ s.running = true ∧ bitAt (wordOf hi lo) 0 = true ∧ bitAt (wordOf hi lo) 1 = true ∧
      bitAt (wordOf hi lo) 8 = false ∧ bitAt (wordOf hi lo) 10 = false ∧ s.peersOf .A = [i] ∧ s.peersOf .B = [] ∧ s.portUsed .A = true ∧
      s.dl.retrainAt = [] ∧ s.dl.liveA.rtCnt.toNat < 0xFFFE ∧ s.ev.buf.length < 32) :=
  ⟨⟨{ node with dl.queue := [{ q0 with peer := some 3 }] }, .A, 3, by decide +kernel⟩,
   ⟨node, { port := .A, payload := [2, 3, 0], rssi := 7 }, by unfold State.listens; decide +kernel⟩,
   ⟨{ node with dl.rxTrain := some ((.A : Port), (0 : BitVec 6), (0 : Nat)) }, .A, 0, 0, by decide +kernel⟩,
   ⟨{ node with dl.training := [{ tr0 with peer := 3 }] }, atLineTraining3_r, idxByte (payAt atLineTraining3_r.payload 1),
     (payAt atLineTraining3_r.payload 2).toNat % 16, by unfold State.Inv State.listens Fram.ok Ev.ok Hb.ok Tn.ok Dn.ok Pl.ok; decide +kernel⟩,
   ⟨{ run with dl.training := [{ tr0 with gen := some 1 }] }, { port := .A, kind := 0x42, payload := [1, 2, 1] }, { tr0 with gen := some 1 }, 1,
     by decide +kernel⟩,
   ⟨{ node with dl.rxPend := [(.A, 3, 1, [])] }, atLineTraining4_r, idxByte (payAt atLineTraining4_r.payload 1),
     (payAt atLineTraining4_r.payload 2).toNat % 16, [], [],
     by unfold State.Inv State.listens Fram.ok Ev.ok Hb.ok Tn.ok Dn.ok Pl.ok; decide +kernel⟩,
   ⟨{ run with dl.training := tr0 :: ([] : List Training) }, tr0, [], by decide +kernel⟩,
   ⟨{ run with dl.training := atLineTraining6_t0 :: ([] : List Training) }, atLineTraining6_t0, [], by decide +kernel⟩,
   ⟨{ node with dl.failed := [(.A, 3)] }, .A, 3, by decide +kernel⟩,
   ⟨node, atLineTraining8_r, idxByte (payAt atLineTraining8_r.payload 1), by unfold State.listens; decide +kernel⟩,
   ⟨{ node with dl.fails := [(.A, 3, 15)] }, .A, 3, 1, [], by decide +kernel⟩,
   ⟨{ node with dl.retrainAt := [(.A, 3, 0)], dl.stale := [(.A, 3)] }, .A, 3, 4, [], by decide +kernel⟩,
   ⟨atLineTraining11_s, 0x0, 0x3, 3, by unfold State.Inv Fram.ok Ev.ok Hb.ok Tn.ok Dn.ok Pl.ok; decide +kernel⟩⟩

def atNetworkRequests0_f : RxFrame := { rx0 with frame.type := 0x01, frame.payload := [(0 : Byte), (0 : Byte), (0 : Byte)] }

def atNetworkRequests1_f : RxFrame := { rx0 with frame.type := 0x01 }
def atNetworkRequests1_x : Stored := { stored0 with src := atNetworkRequests1_f.frame.src, seq := atNetworkRequests1_f.frame.seq, crc := crc32 atNetworkRequests1_f.frame.payload, reply.type := 0x01 }
def atNetworkRequests1_s : State := { node with dn.stored := atNetworkRequests1_x :: ([] : List Stored) }

def atNetworkRequests2_s : State := { node with hb.rlock := false }
def atNetworkRequests2_ts : List (Nat × Word) := [(0x7E, 0x1234)]
def atNetworkRequests2_f : RxFrame := { rx0 with frame.type := 0x02, frame.payload := (atNetworkRequests2_ts.map (fun t => [BitVec.ofNat 8 t.1, hiByte t.2, loByte t.2])).flatten, frame.src := 0 }

def atNetworkRequests3_s : State := { node with hb.rlock := true }
def atNetworkRequests3_f : RxFrame := { rx0 with frame.type := 0x02, frame.src := 0, frame.payload := [0x7E, 1, 2] }

def atNetworkRequests4_f : RxFrame := { rx0 with frame.type := 0x02 }

def atNetworkRequests5_f : RxFrame := { rx0 with frame.type := 0x03 }

def atNetworkRequests6_s : State := { node with dn.rxf := List.replicate 4113 0 }
def atNetworkRequests6_f : RxFrame := { rx0 with frame.type := 0x03 }

def atNetworkRequests7_f : RxFrame := { rx0 with frame.flags := 16, frame.type := 1 }
def atNetworkRequests7_r : Request := { req0 with frame.type := atNetworkRequests7_f.frame.type, frame.seq := atNetworkRequests7_f.frame.seq, frame.dest := atNetworkRequests7_f.frame.src, host := true }
def atNetworkRequests7_s : State := { node with dn.reqs := atNetworkRequests7_r :: ([] : List Request) }

def atNetworkRequests8_s : State := { node with dn.reqs := [] }
def atNetworkRequests8_f : RxFrame := { rx0 with frame.flags := 16, frame.type := 2 }

def atNetworkRequests9_f : RxFrame := { rx0 with frame.type := 0x0A, frame.payload := [(0 : Byte), (0 : Byte), (1 : Byte), (0 : Byte)] }
def atNetworkRequests9_r : Request := { req0 with frame.type := (0 : Byte), frame.dest := atNetworkRequests9_f.frame.src, host := true }
def atNetworkRequests9_s : State := { node with dn.reqs := atNetworkRequests9_r :: ([] : List Request) }

def atNetworkRequests10_f : RxFrame := { rx0 with frame.type := 0x0A, frame.payload := [0x08, (0 : Byte), (0 : Byte), 0x85] }

def atNetworkRequests15_s : State := { node with dn.txf := hostFrame (0 : BitVec 12) (1 : Byte) (0 : Byte) ([] : List Byte) ++ ([] : List Byte) }

def atNetworkRequests16_s : State := { node with dn.txf := hostFrame (0 : BitVec 12) 0x03 (0 : Byte) ([] : List Byte) ++ ([] : List Byte) }

def atNetworkRequests17_s : State := { run with dn.txf := hostFrame (0 : BitVec 12) (0 : Byte) (0 : Byte) ([] : List Byte) ++ ([] : List Byte) }

def atNetworkRequests18_s : State := { run with dn.reqs := req0 :: ([] : List Request) }
def atNetworkRequests18_g : DFrame := { req0.frame with flags := req0.frame.flags ||| 0x04#5, payload := if req0.frame.type = 0x0B then timeBytes atNetworkRequests18_s.ck.lsec atNetworkRequests18_s.ck.lcyc else req0.frame.payload }

def atNetworkRequests19_r : Request := { req0 with host := true, tries := 7 }

/-- States and operands that meet the hypotheses of Obligations.NetworkRequests, clause by clause. -/
theorem witness_NetworkRequests :
    (∃ (s u : State) (f : RxFrame) (a h l : Byte) (n step : Nat), s.asksAnew f 0x01 ∧ u = s.heard f ∧ f.frame.payload = [a, h, l] ∧
      n = (h.toNat % 128) * 256 + l.toNat ∧ step = (if h.getLsbD 7 then 0 else 2) ∧ a.toNat % 2 = 0 ∧ a.toNat ≤ 0x7E ∧ n ≤ 511 ∧
      a.toNat + step * n ≤ 0x80) ∧
    (∃ (s u : State) (f : RxFrame) (x : Stored) (rest : List Stored), s.hears f ∧ u = s.heard f ∧ f.frame.type = 0x01 ∧
      f.frame.flags.getLsbD 4 = false ∧ f.frame.flags.getLsbD 3 = false ∧ s.dn.stored = x :: rest ∧ x.src = f.frame.src ∧ x.seq = f.frame.seq ∧
      x.crc = crc32 f.frame.payload ∧ x.reply.type = 0x01 ∧ s.within x.at_ 2000 = true ∧ s.dn.vioCnt.toNat < 0xFFFE) ∧
    (∃ (s u : State) (f : RxFrame) (ts : List (Nat × Word)), s.asksAnew f 0x02 ∧ u = s.heard f ∧
      (f.frame.src = 0 ∨ bitAt (u.nvReg 0x46) 9 = true) ∧
      f.frame.payload = (ts.map (fun t => [BitVec.ofNat 8 t.1, hiByte t.2, loByte t.2])).flatten ∧ (∀ t ∈ ts, t.1 % 2 = 0 ∧ t.1 ≤ 0x7E) ∧
      u.hb.rlock = false) ∧
    (∃ (s u : State) (f : RxFrame), s.asksAnew f 0x02 ∧ u = s.heard f ∧ f.frame.src = 0 ∧ triplesFit f.frame.payload = true ∧
      f.frame.payload ≠ [] ∧ u.hb.rlock = true ∧ u.ev.buf.length < 32) ∧
    (∃ (s u : State) (f : RxFrame), s.asksAnew f 0x02 ∧ u = s.heard f ∧ f.frame.src ≠ 0 ∧ bitAt (u.nvReg 0x46) 9 = false ∧ u.mayLog 0x0C14) ∧
    (∃ (s u : State) (f : RxFrame), s.hears f ∧ u = s.heard f ∧ f.frame.type = 0x03 ∧ u.dn.rxf.length + 8 + f.frame.payload.length ≤ 4120) ∧
    (∃ (s u : State) (f : RxFrame), s.hears f ∧ u = s.heard f ∧ f.frame.type = 0x03 ∧ 4120 < u.dn.rxf.length + 8 + f.frame.payload.length) ∧
    (∃ (s u : State) (f : RxFrame) (r : Request) (rest : List Request), s.hears f ∧ u = s.heard f ∧ (f.frame.type = 0x01 ∨ f.frame.type = 0x02) ∧
      f.frame.flags.getLsbD 4 = true ∧ u.awaits f r rest ∧ r.host = true ∧ u.dn.rxf.length + 8 + f.frame.payload.length ≤ 4120) ∧
    (∃ (s u : State) (f : RxFrame), s.hears f ∧ u = s.heard f ∧ (f.frame.type = 0x01 ∨ f.frame.type = 0x02) ∧ f.frame.flags.getLsbD 4 = true ∧
      u.dn.reqs = [] ∧ u.mayLog 0x0C18) ∧
    (∃ (s u : State) (f : RxFrame) (r : Request) (rest : List Request) (ty h l code : Byte), s.hears f ∧ u = s.heard f ∧ f.frame.type = 0x0A ∧
      f.frame.payload = [ty, h, l, code] ∧ ty ≠ 0x08 ∧ ty ≠ 0x09 ∧ u.dn.reqs = r :: rest ∧ r.frame.type = ty ∧
      r.frame.seq.toNat = h.toNat * 256 + l.toNat ∧ r.frame.dest = f.frame.src ∧ r.host = true ∧ u.dn.rxf.length + 12 ≤ 4120) ∧
    (∃ (s u : State) (f : RxFrame) (h l : Byte), s.hears f ∧ u = s.heard f ∧ f.frame.type = 0x0A ∧ f.frame.payload = [0x08, h, l, 0x85]) ∧
    (∃ (s u : State) (f : RxFrame), s.hears f ∧ u = s.heard f ∧ (f.frame.type = 0x00 ∨ 0x0B < f.frame.type.toNat) ∧ u.mayLog 0x0C10) ∧
    (∃ (s : State) (p : Port), s.coreOn = true ∧ s.lineOn = true ∧ (s.live p).hdrErr.toNat < 0xFFFE) ∧
    (∃ (s : State), s.coreOn = true ∧ s.lineOn = true) ∧
    (∃ (s : State), s.coreOn = true ∧ s.lineOn = true) ∧
    (∃ (s : State), s.coreOn = true ∧ s.lineOn = true ∧ s.mayLog 0x0C1A) ∧
    (∃ (s : State) (dest : BitVec 12) (type flags : Byte) (payload rest : List Byte), s.runOrDrain = true ∧ s.inSystem = true ∧
      s.dn.txf = hostFrame dest type flags payload ++ rest ∧ payload.length ≤ 1024 ∧ (type = 0x01 ∨ type = 0x02) ∧ flags.getLsbD 3 = false) ∧
    (∃ (s : State) (dest : BitVec 12) (flags : Byte) (payload rest : List Byte), s.runOrDrain = true ∧ s.inSystem = true ∧
      s.dn.txf = hostFrame dest 0x03 flags payload ++ rest ∧ payload.length ≤ 1024 ∧ flags.getLsbD 3 = false) ∧
    (∃ (s : State) (dest : BitVec 12) (type flags : Byte) (payload rest : List Byte), s.runOrDrain = true ∧ s.ev.buf.length < 32 ∧
      s.dn.txf = hostFrame dest type flags payload ++ rest ∧ payload.length ≤ 1024 ∧ (type = 0x00 ∨ 0x08 ≤ type.toNat)) ∧
    (∃ (s : State) (r : Request) (rest : List Request) (g : DFrame), s.coreOn = true ∧ s.dn.reqs = r :: rest ∧
      (∀ x ∈ rest, x.frame.seq ≠ r.frame.seq) ∧ r.tries < fld (s.dsw 0x2003) 0 3 ∧
      g = { r.frame with flags := r.frame.flags ||| 0x04#5, payload := if r.frame.type = 0x0B then timeBytes s.ck.lsec s.ck.lcyc else r.frame.payload }) ∧
    (∃ (s : State) (r : Request) (rest : List Request), s.coreOn = true ∧ s.dn.reqs = r :: rest ∧ fld (s.dsw 0x2003) 0 3 ≤ r.tries ∧
      r.host = true ∧ s.dn.rtxCnt.toNat < 0xFFFE ∧ s.dn.rxf.length + 12 ≤ 4120) :=
  ⟨⟨node, node.heard atNetworkRequests0_f, atNetworkRequests0_f, 0, 0, 0, ((0 : Byte).toNat % 128) * 256 + (0 : Byte).toNat, (if (0 : Byte).getLsbD 7 then 0 else 2), by unfold State.asksAnew State.hears State.noRepeat; decide +kernel, rfl, by decide +kernel⟩,
   ⟨atNetworkRequests1_s, atNetworkRequests1_s.heard atNetworkRequests1_f, atNetworkRequests1_f, atNetworkRequests1_x, [],
     by unfold State.hears; decide +kernel, rfl, by decide +kernel⟩,
   ⟨atNetworkRequests2_s, atNetworkRequests2_s.heard atNetworkRequests2_f, atNetworkRequests2_f, atNetworkRequests2_ts,
     by unfold State.asksAnew State.hears State.noRepeat; decide +kernel, rfl, by decide +kernel⟩,
   ⟨atNetworkRequests3_s, atNetworkRequests3_s.heard atNetworkRequests3_f, atNetworkRequests3_f,
     by unfold State.asksAnew State.hears State.noRepeat; decide +kernel, rfl, by decide +kernel⟩,
   ⟨node, node.heard atNetworkRequests4_f, atNetworkRequests4_f, by unfold State.asksAnew State.hears State.noRepeat; decide +kernel, rfl,
     by unfold State.mayLog; decide +kernel⟩,
   ⟨node, node.heard atNetworkRequests5_f, atNetworkRequests5_f, by unfold State.hears; decide +kernel, rfl, by decide +kernel⟩,
   ⟨atNetworkRequests6_s, atNetworkRequests6_s.heard atNetworkRequests6_f, atNetworkRequests6_f, by unfold State.hears; decide +kernel, rfl,
     by decide +kernel⟩,
   ⟨atNetworkRequests7_s, atNetworkRequests7_s.heard atNetworkRequests7_f, atNetworkRequests7_f, atNetworkRequests7_r, [],
     by unfold State.hears; decide +kernel, rfl, by unfold State.awaits; decide +kernel⟩,
   ⟨atNetworkRequests8_s, atNetworkRequests8_s.heard atNetworkRequests8_f, atNetworkRequests8_f, by unfold State.hears; decide +kernel, rfl,
     by unfold State.mayLog; decide +kernel⟩,
   ⟨atNetworkRequests9_s, atNetworkRequests9_s.heard atNetworkRequests9_f, atNetworkRequests9_f, atNetworkRequests9_r, [], 0, 0, 1, 0,
     by unfold State.hears; decide +kernel, rfl, by decide +kernel⟩,
   ⟨node, node.heard atNetworkRequests10_f, atNetworkRequests10_f, 0, 0, by unfold State.hears; decide +kernel, rfl, by decide +kernel⟩,
   ⟨node, node.heard rx0, rx0, by unfold State.hears; decide +kernel, rfl, by unfold State.mayLog; decide +kernel⟩,
   ⟨run, .A, by decide +kernel⟩,
   ⟨run, by decide +kernel⟩,
   ⟨node, by decide +kernel⟩,
   ⟨run, by unfold State.mayLog; decide +kernel⟩,
   ⟨atNetworkRequests15_s, 0, 1, 0, [], [], by decide +kernel⟩,
   ⟨atNetworkRequests16_s, 0, 0, [], [], by decide +kernel⟩,
   ⟨atNetworkRequests17_s, 0, 0, 0, [], [], by decide +kernel⟩,
   ⟨atNetworkRequests18_s, req0, [], atNetworkRequests18_g, by decide +kernel⟩,
   ⟨{ run with dn.reqs := atNetworkRequests19_r :: ([] : List Request) }, atNetworkRequests19_r, [], by decide +kernel⟩⟩

def atLineTimeAndMembership1_f : RxFrame := { rx0 with frame.type := 0x0B, frame.payload := List.replicate 8 0 }

def atLineTimeAndMembership2_f : RxFrame := { rx0 with frame.type := 0x0B, frame.flags := 16, frame.payload := timeBytes 100 0 ++ timeBytes 100 0 ++ timeBytes 100 0 }
def atLineTimeAndMembership2_r : Request := { req0 with frame.type := atLineTimeAndMembership2_f.frame.type, frame.seq := atLineTimeAndMembership2_f.frame.seq, frame.dest := atLineTimeAndMembership2_f.frame.src }
def atLineTimeAndMembership2_s : State := { node with ck.ltv := true, dn.reqs := atLineTimeAndMembership2_r :: ([] : List Request) }
def atLineTimeAndMembership2_T : Nat → Int := (fun i => lineCount (BitVec.ofNat 32 (beAt atLineTimeAndMembership2_f.frame.payload (8 * i) 4)) (beAt atLineTimeAndMembership2_f.frame.payload (8 * i + 4) 4))
def atLineTimeAndMembership2_θ : Int := ((atLineTimeAndMembership2_T 1 - atLineTimeAndMembership2_T 0) + (atLineTimeAndMembership2_T 2 - lineCount atLineTimeAndMembership2_f.sec atLineTimeAndMembership2_f.cyc.toNat)) / 2
def atLineTimeAndMembership2_d : Int := ((lineCount atLineTimeAndMembership2_f.sec atLineTimeAndMembership2_f.cyc.toNat - atLineTimeAndMembership2_T 0) - (atLineTimeAndMembership2_T 2 - atLineTimeAndMembership2_T 1)) / 2

def atLineTimeAndMembership3_f : RxFrame := { rx0 with frame.type := 0x0B, frame.flags := 16, frame.payload := timeBytes 100 0 ++ timeBytes 100 0 ++ timeBytes 100 200 }
def atLineTimeAndMembership3_r : Request := { req0 with frame.type := atLineTimeAndMembership3_f.frame.type, frame.seq := atLineTimeAndMembership3_f.frame.seq, frame.dest := atLineTimeAndMembership3_f.frame.src }
def atLineTimeAndMembership3_s : State := { node with dn.reqs := atLineTimeAndMembership3_r :: ([] : List Request) }
def atLineTimeAndMembership3_T : Nat → Int := (fun i => lineCount (BitVec.ofNat 32 (beAt atLineTimeAndMembership3_f.frame.payload (8 * i) 4)) (beAt atLineTimeAndMembership3_f.frame.payload (8 * i + 4) 4))
def atLineTimeAndMembership3_d : Int := ((lineCount atLineTimeAndMembership3_f.sec atLineTimeAndMembership3_f.cyc.toNat - atLineTimeAndMembership3_T 0) - (atLineTimeAndMembership3_T 2 - atLineTimeAndMembership3_T 1)) / 2

def atLineTimeAndMembership4_s : State := { run with ck.ltv := true, ck.lpend := 5 }
def atLineTimeAndMembership4_n : Nat := ((lineCount atLineTimeAndMembership4_s.ck.lsec atLineTimeAndMembership4_s.ck.lcyc + atLineTimeAndMembership4_s.ck.lpend) % ((2 ^ 32 * 400000 : Nat) : Int)).toNat

def atLineTimeAndMembership6_f : RxFrame := { rx0 with frame.type := 0x0A, frame.payload := [0x0B, (0 : Byte), (1 : Byte), 0x0A] }
def atLineTimeAndMembership6_r : Request := { req0 with frame.type := 0x0B, frame.dest := atLineTimeAndMembership6_f.frame.src, host := false }
def atLineTimeAndMembership6_s : State := { node with dn.reqs := atLineTimeAndMembership6_r :: ([] : List Request), fram.joined := true }

def atLineTimeAndMembership9_s : State := { run with pins.role := .H, hb.wlatch := some (0x46, (0x1 : Byte)), hb.nvr := true, dn.epr := false }

/-- States and operands that meet the hypotheses of Obligations.LineTimeAndMembership, clause by clause. -/
theorem witness_LineTimeAndMembership :
    (∃ (s : State), s.running = true ∧ s.isHead = false ∧ s.fram.joined = true ∧ s.ck.linelk = true) ∧
    (∃ (s u : State) (f : RxFrame), s.asksAnew f 0x0B ∧ u = s.heard f ∧ f.frame.payload.length = 8) ∧
    (∃ (s u : State) (f : RxFrame) (r : Request) (rest : List Request) (T : Nat → Int) (θ d : Int), s.hears f ∧ u = s.heard f ∧
      f.frame.type = 0x0B ∧ f.frame.flags.getLsbD 4 = true ∧ u.awaits f r rest ∧ f.frame.payload.length = 24 ∧
      T = (fun i => lineCount (BitVec.ofNat 32 (beAt f.frame.payload (8 * i) 4)) (beAt f.frame.payload (8 * i + 4) 4)) ∧
      θ = ((T 1 - T 0) + (T 2 - lineCount f.sec f.cyc.toNat)) / 2 ∧ d = ((lineCount f.sec f.cyc.toNat - T 0) - (T 2 - T 1)) / 2 ∧ 0 ≤ d ∧ d ≤ 60 ∧
      u.ck.ltv = true) ∧
    (∃ (s u : State) (f : RxFrame) (r : Request) (rest : List Request) (T : Nat → Int) (d : Int), s.hears f ∧ u = s.heard f ∧
      f.frame.type = 0x0B ∧ f.frame.flags.getLsbD 4 = true ∧ u.awaits f r rest ∧ f.frame.payload.length = 24 ∧
      T = (fun i => lineCount (BitVec.ofNat 32 (beAt f.frame.payload (8 * i) 4)) (beAt f.frame.payload (8 * i + 4) 4)) ∧
      d = ((lineCount f.sec f.cyc.toNat - T 0) - (T 2 - T 1)) / 2 ∧ (d < 0 ∨ 60 < d) ∧ u.mayLog 0x0C1B) ∧
    (∃ (s : State) (n : Nat), s.coreOn = true ∧ s.lineOn = true ∧ s.ck.ltv = true ∧ s.ck.lpend ≠ 0 ∧ s.ev.buf.length < 32 ∧
      n = ((lineCount s.ck.lsec s.ck.lcyc + s.ck.lpend) % ((2 ^ 32 * 400000 : Nat) : Int)).toNat) ∧
    (∃ (s : State), s.running = true ∧ s.ck.linelk = false ∧ s.isHead = false ∧ s.fram.joined = true ∧ s.ev.buf.length + s.dn.pend.length < 32) ∧
    (∃ (s u : State) (f : RxFrame) (r : Request) (rest : List Request) (h l : Byte), s.hears f ∧ u = s.heard f ∧ f.frame.type = 0x0A ∧
      f.frame.payload = [0x0B, h, l, 0x0A] ∧ u.dn.reqs = r :: rest ∧ r.frame.type = 0x0B ∧ r.frame.seq.toNat = h.toNat * 256 + l.toNat ∧
      r.frame.dest = f.frame.src ∧ r.host = false ∧ u.isHead = false ∧ u.fram.joined = true) ∧
    (∃ (s : State) (hi lo : Byte), s.Inv ∧ s.busOn = true ∧ s.hb.wlatch = some (0x46, lo) ∧ s.sc.armHost ≠ .armed ∧ s.hb.nvr = true ∧
      s.hb.rows.length < 2 ∧ bitAt (wordOf hi lo) 0 = true ∧ bitAt (wordOf hi lo) 1 = false ∧ bitAt (wordOf hi lo) 8 = false ∧
      bitAt (wordOf hi lo) 10 = true ∧ s.runOrDrain = true ∧ s.isHead = false ∧ s.fram.joined = true ∧ s.ev.buf.length + s.dn.pend.length < 32) ∧
    (∃ (s : State) (hi lo : Byte), s.Inv ∧ s.busOn = true ∧ s.hb.wlatch = some (0x46, lo) ∧ s.sc.armHost ≠ .armed ∧ s.hb.nvr = true ∧
      s.hb.rows.length < 2 ∧ bitAt (wordOf hi lo) 0 = true ∧ s.runOrDrain = false) ∧
    (∃ (s : State), s.epochDue = true) ∧
    (∃ (s : State) (hi lo : Byte), s.Inv ∧ s.busOn = true ∧ s.hb.wlatch = some (0x46, lo) ∧ s.sc.armHost ≠ .armed ∧ s.hb.nvr = true ∧
      s.hb.rows.length < 2 ∧ bitAt (wordOf hi lo) 0 = true ∧ bitAt (wordOf hi lo) 1 = false ∧ bitAt (wordOf hi lo) 8 = true ∧
      bitAt (wordOf hi lo) 10 = false ∧ s.running = true ∧ s.isHead = true ∧ s.dn.epr = false) :=
  ⟨⟨{ run with fram.joined := true, ck.linelk := true }, by decide +kernel⟩,
   ⟨node, node.heard atLineTimeAndMembership1_f, atLineTimeAndMembership1_f, by unfold State.asksAnew State.hears State.noRepeat; decide +kernel,
     rfl, by decide +kernel⟩,
   ⟨atLineTimeAndMembership2_s, atLineTimeAndMembership2_s.heard atLineTimeAndMembership2_f, atLineTimeAndMembership2_f,
     atLineTimeAndMembership2_r, [], atLineTimeAndMembership2_T, atLineTimeAndMembership2_θ, atLineTimeAndMembership2_d,
     by unfold State.hears; decide +kernel, rfl, by decide +kernel, by decide +kernel, by unfold State.awaits; decide +kernel, by decide +kernel,
     rfl, by decide +kernel⟩,
   ⟨atLineTimeAndMembership3_s, atLineTimeAndMembership3_s.heard atLineTimeAndMembership3_f, atLineTimeAndMembership3_f,
     atLineTimeAndMembership3_r, [], atLineTimeAndMembership3_T, atLineTimeAndMembership3_d, by unfold State.hears; decide +kernel, rfl,
     by decide +kernel, by decide +kernel, by unfold State.awaits; decide +kernel, by decide +kernel, rfl,
     by unfold State.mayLog; decide +kernel⟩,
   ⟨atLineTimeAndMembership4_s, atLineTimeAndMembership4_n, by decide +kernel⟩,
   ⟨{ run with ck.linelk := false, fram.joined := true, dn.pend := [ann0] }, by decide +kernel⟩,
   ⟨atLineTimeAndMembership6_s, atLineTimeAndMembership6_s.heard atLineTimeAndMembership6_f, atLineTimeAndMembership6_f,
     atLineTimeAndMembership6_r, [], 0, 1, by unfold State.hears; decide +kernel, rfl, by decide +kernel⟩,
   ⟨{ run with hb.wlatch := some (0x46, (0x1 : Byte)), hb.nvr := true, fram.joined := true, dn.pend := [ann0] }, 0x4, 0x1,
     by unfold State.Inv Fram.ok Ev.ok Hb.ok Tn.ok Dn.ok Pl.ok; decide +kernel⟩,
   ⟨{ run with pw.st := .rails, hb.wlatch := some (0x46, (0x1 : Byte)), hb.nvr := true }, 0x4, 0x1,
     by unfold State.Inv Fram.ok Ev.ok Hb.ok Tn.ok Dn.ok Pl.ok; decide +kernel⟩,
   ⟨{ (run).nvPut (Config.key 4 0x2000) 1 with pins.role := .H }, by decide +kernel⟩,
   ⟨atLineTimeAndMembership9_s, 0x1, 0x1, by unfold State.Inv Fram.ok Ev.ok Hb.ok Tn.ok Dn.ok Pl.ok; decide +kernel⟩⟩

def atSegmentSearch0_s : State := { (node).nvPut (Config.key 0 0x46) 1 with pins.role := .M }
def atSegmentSearch0_f : RxFrame := { rx0 with frame.type := 0x04, frame.src := 0, frame.payload := bytesBE 2 (0 : Word).toNat }

def atSegmentSearch1_g : Segment := { seg0 with port := .B, done := true }
def atSegmentSearch1_s : State := { (node).nvPut (Config.key 0 0x46) 1 with pins.role := .M, dn.segs := [atSegmentSearch1_g] }
def atSegmentSearch1_f : RxFrame := { rx0 with frame.type := 0x04, frame.src := 0, frame.payload := bytesBE 2 atSegmentSearch1_g.epoch.toNat }

def atSegmentSearch2_g : Segment := { seg0 with port := .B }

def atSegmentSearch3_r : RxSearch := { port := .A, payload := bytesBE 2 (0 : Word).toNat ++ bytesBE 6 (0 : Word48).toNat ++ bytesBE 2 (0 : BitVec 12).toNat ++ [(0 : Byte), 0], rssi := 0 }

def atSegmentSearch4_s : State := { node with pins.role := .H, fram.joined := false }
def atSegmentSearch4_r : RxSearch := { port := .A, payload := bytesBE 2 (0 : Word).toNat ++ bytesBE 6 (0 : Word48).toNat ++ bytesBE 2 (0 : BitVec 12).toNat ++ [(0 : Byte), (0 : Byte)], rssi := 0 }

def atSegmentSearch5_r : RxSearch := { port := .A, payload := bytesBE 2 (0 : Word).toNat ++ [BitVec.ofNat 8 (b2n true * 128 + (0 : Nat))] ++ bytesBE 8 (0 : Word64).toNat, rssi := 0 }

def atSegmentSearch6_g : Segment := { seg0 with query := some (false, (0 : Nat), (0 : Word64)), roll := [], cut := false }

def atSegmentSearch7_g : Segment := { seg0 with query := some (false, (0 : Nat), (0 : Word64)), roll := [], cut := false, answers := [], stack := ((0 : Nat), (0 : Word64)) :: ([] : List (Nat × Word64)) }

def atSegmentSearch8_g : Segment := { seg0 with query := some (false, (0 : Nat), (0 : Word64)), answers := [([] : List Byte)] }

def atSegmentSearch9_g : Segment := { seg0 with query := some (true, (0 : Nat), (0 : Word64)), answers := [], roll := [(1 : Nat)], tries := 3, cut := false, stack := ((0 : Nat), (0 : Word64)) :: ([] : List (Nat × Word64)) }

def atSegmentSearch10_r : RxSearch := { port := .A, payload := List.replicate 10 0, rssi := 0 }
def atSegmentSearch10_g : Segment := { seg0 with query := some (false, 0, 0) }
def atSegmentSearch10_s : State := { node with dn.segs := [atSegmentSearch10_g] }

def atSegmentSearch11_r : RxSearch := { port := .A, payload := [], rssi := 0 }

def atSegmentSearch12_g : Segment := { seg0 with roll := [], joining := none }

def atSegmentSearch15_s : State := { node with dn.epr := true, pins.role := .H, fram.joined := false }
def atSegmentSearch15_f : RxFrame := { rx0 with frame.type := 0x04, frame.flags := 16, frame.payload := bytesBE 2 atSegmentSearch15_s.dn.epochNo.toNat ++ [(0 : Byte), (0 : Byte)] ++ (([] : List (BitVec 12)).map (fun a => bytesBE 2 a.toNat)).flatten, frame.dest := 0 }

def atSegmentSearch16_s : State := { run with dn.departed := [], dn.arrived := [], dn.cut := false, pins.role := .H, dn.epr := true, pw.st := .run }

def atSegmentSearch17_s : State := { (run).nvPut (Config.key 6 23) 0x0020 with dn.departed := [(5 : BitVec 12)], dn.arrived := [], pins.role := .H, dn.epr := true }

/-- States and operands that meet the hypotheses of Obligations.SegmentSearch, clause by clause. -/
theorem witness_SegmentSearch :
    (∃ (s u : State) (f : RxFrame) (e : Word) (p : Port), s.hears f ∧ u = s.heard f ∧ f.frame.type = 0x04 ∧ f.frame.flags.getLsbD 4 = false ∧
      s.noRepeat f ∧ f.frame.src = 0 ∧ f.frame.payload = bytesBE 2 e.toNat ∧ u.isBridge = true ∧ p = otherPort u.fram.upPort ∧
      (∀ g, u.segOn p = some g → g.epoch ≠ e)) ∧
    (∃ (s u : State) (f : RxFrame) (g : Segment), s.asksAnew f 0x04 ∧ u = s.heard f ∧ f.frame.src = 0 ∧
      f.frame.payload = bytesBE 2 g.epoch.toNat ∧ u.isBridge = true ∧ u.segOn (otherPort u.fram.upPort) = some g ∧ g.done = true) ∧
    (∃ (s : State) (p : Port) (g : Segment), s.running = true ∧ s.agentOn p = true ∧ s.searching p g ∧ s.isHead = false) ∧
    (∃ (s u : State) (r : RxSearch) (e : Word) (sys : Word48) (agent : BitVec 12) (hops : Byte), s.listens r.port ∧ u = s.latchRssi r ∧
      r.payload = bytesBE 2 e.toNat ++ bytesBE 6 sys.toNat ++ bytesBE 2 agent.toNat ++ [hops, 0] ∧ s.isHead = false ∧ s.agentOn r.port = false ∧
      (s.fram.joined = true ∧ r.port = s.fram.upPort ∨ s.fram.joined = false ∧ (s.dn.hearing = none ∨ s.dn.hearing = some r.port))) ∧
    (∃ (s u : State) (r : RxSearch) (e : Word) (sys : Word48) (agent : BitVec 12) (hops : Byte), s.listens r.port ∧ u = s.latchRssi r ∧
      r.payload = bytesBE 2 e.toNat ++ bytesBE 6 sys.toNat ++ bytesBE 2 agent.toNat ++ [hops, 1] ∧ s.isHead = false ∧ s.agentOn r.port = false ∧
      s.fram.joined = false ∧ (s.dn.hearing = none ∨ s.dn.hearing = some r.port) ∧ s.dn.phase0 ≠ some e ∧ s.dn.defer = false ∧
      s.ev.buf.length < 32) ∧
    (∃ (s u : State) (r : RxSearch) (e : Word) (sys : Word48) (agent : BitVec 12) (hops phase : Byte) (late : Bool), s.listens r.port ∧
      u = s.latchRssi r ∧ r.payload = bytesBE 2 e.toNat ++ bytesBE 6 sys.toNat ++ bytesBE 2 agent.toNat ++ [hops, phase] ∧ s.isHead = true ∧
      sys ≠ s.fram.serial.setWidth 48 ∧ late = (phase == 1 && !s.fram.joined && s.dn.phase0 != some e && !s.dn.defer) ∧
      s.ev.buf.length + s.dn.pend.length < 31) ∧
    (∃ (s u : State) (r : RxSearch) (e : Word) (mode : Bool) (l : Nat) (x : Word64), s.listens r.port ∧ u = s.latchRssi r ∧
      r.payload = bytesBE 2 e.toNat ++ [BitVec.ofNat 8 (b2n mode * 128 + l)] ++ bytesBE 8 x.toNat ∧ l ≤ 64 ∧ s.isHead = false ∧
      s.agentOn r.port = false ∧ s.portUsed r.port = true ∧
      (mode = true ∧ s.fram.joined = true ∨ s.fram.joined = false ∧ s.dn.phase0 = some e ∧ s.dn.refused ≠ some e) ∧
      (∀ i, i < l → x.getLsbD (63 - i) = s.fram.serial.getLsbD (63 - i))) ∧
    (∃ (s : State) (r : RxSearch) (e : Word) (rest : List Byte), s.listens r.port ∧ r.payload = bytesBE 2 e.toNat ++ rest ∧
      s.fram.joined = false ∧ s.dn.refused = some e) ∧
    (∃ (s : State) (p : Port) (g : Segment) (carrier : Bool) (l : Nat) (x : Word64), s.running = true ∧ s.searching p g ∧
      g.query = some (false, l, x) ∧ l < 64 ∧ g.roll = [] ∧ g.cut = false ∧ (carrier = true ∨ 2 ≤ g.answers.length)) ∧
    (∃ (s : State) (p : Port) (g : Segment) (l l' : Nat) (x x' : Word64) (rest : List (Nat × Word64)), s.running = true ∧ s.searching p g ∧
      g.query = some (false, l, x) ∧ g.roll = [] ∧ g.cut = false ∧ g.answers = [] ∧ g.stack = (l', x') :: rest) ∧
    (∃ (s : State) (p : Port) (g : Segment) (l : Nat) (x : Word64) (a : List Byte), s.running = true ∧ s.searching p g ∧
      g.query = some (false, l, x) ∧ g.answers = [a] ∧ s.isHead = false) ∧
    (∃ (s : State) (p : Port) (g : Segment) (i l l' : Nat) (x x' : Word64) (rest : List (Nat × Word64)) (e : Word48 × BitVec 12 × Bool), s.Inv ∧
      s.running = true ∧ s.searching p g ∧ g.query = some (true, l, x) ∧ g.answers = [] ∧ g.roll = [i] ∧ g.tries = 3 ∧ g.cut = false ∧
      g.stack = (l', x') :: rest ∧ s.segEntry p i = some e) ∧
    (∃ (s u : State) (r : RxSearch) (g : Segment), s.listens r.port ∧ u = s.latchRssi r ∧ s.segOn r.port = some g ∧ g.query.isSome = true ∧
      r.payload.length = 10) ∧
    (∃ (s u : State) (r : RxSearch), s.listens r.port ∧ u = s.latchRssi r ∧ s.segOn r.port = none ∧ u.mayLog 0x0C1A) ∧
    (∃ (s : State) (p : Port) (g : Segment), s.running = true ∧ s.searching p g ∧ g.roll = [] ∧ g.joining = none ∧ s.isHead = false) ∧
    (∃ (s : State) (b : BitVec 12) (n : Nat), s.running = true ∧ s.isHead = true ∧ s.dn.epr = true ∧ s.dn.await.lookup b = some n ∧ n < 3) ∧
    (∃ (s : State) (b : BitVec 12) (n : Nat), s.running = true ∧ s.isHead = true ∧ s.dn.epr = true ∧ s.dn.await.lookup b = some n ∧ 3 ≤ n) ∧
    (∃ (s u : State) (f : RxFrame) (n j : Byte) (gone : List (BitVec 12)), s.hears f ∧ u = s.heard f ∧ f.frame.type = 0x04 ∧
      f.frame.flags.getLsbD 4 = true ∧ u.isHead = true ∧ u.dn.epr = true ∧ u.Inv ∧
      f.frame.payload = bytesBE 2 u.dn.epochNo.toNat ++ [n, j] ++ (gone.map (fun a => bytesBE 2 a.toNat)).flatten) ∧
    (∃ (s : State), s.running = true ∧ s.epochOver = true ∧ s.dn.departed = [] ∧ s.dn.arrived = [] ∧ s.dn.cut = false ∧ s.ev.buf.length < 32) ∧
    (∃ (s : State) (a : BitVec 12), s.Inv ∧ s.running = true ∧ s.epochOver = true ∧ s.dn.departed = [a] ∧ s.dn.arrived = [] ∧
      s.present a.toNat = true ∧ s.ev.buf.length < 31) :=
  ⟨⟨atSegmentSearch0_s, atSegmentSearch0_s.heard atSegmentSearch0_f, atSegmentSearch0_f, 0, otherPort (atSegmentSearch0_s.heard atSegmentSearch0_f : State).fram.upPort, by unfold State.hears; decide +kernel, rfl, by unfold State.noRepeat; decide +kernel⟩,
   ⟨atSegmentSearch1_s, atSegmentSearch1_s.heard atSegmentSearch1_f, atSegmentSearch1_f, atSegmentSearch1_g,
     by unfold State.asksAnew State.hears State.noRepeat; decide +kernel, rfl, by decide +kernel⟩,
   ⟨{ (node).nvPut (Config.key 0 0x46) 1 with pins.role := .M, dn.segs := [atSegmentSearch2_g] }, .B, atSegmentSearch2_g,
     by unfold State.searching; decide +kernel⟩,
   ⟨node, node.latchRssi atSegmentSearch3_r, atSegmentSearch3_r, 0, 0, 0, 0, by unfold State.listens; decide +kernel, rfl, by decide +kernel⟩,
   ⟨{ node with fram.joined := false }, ({ node with fram.joined := false } : State).latchRssi lateBeacon, lateBeacon, 1, 0, 0, 0,
     by unfold State.listens; decide +kernel, rfl, by decide +kernel⟩,
   ⟨{ atSegmentSearch4_s with dn.pend := [ann0] }, ({ atSegmentSearch4_s with dn.pend := [ann0] } : State).latchRssi atSegmentSearch4_r,
     atSegmentSearch4_r, 0, 0, 0, 0, 0, false, by unfold State.listens; decide +kernel, rfl, by decide +kernel⟩,
   ⟨node, node.latchRssi atSegmentSearch5_r, atSegmentSearch5_r, 0, true, 0, 0, by unfold State.listens; decide +kernel, rfl, by decide +kernel⟩,
   ⟨{ node with fram.joined := false, dn.refused := some 1 }, lateBeacon, 1, lateBeacon.payload.drop 2, by unfold State.listens; decide +kernel⟩,
   ⟨{ node with dn.segs := [atSegmentSearch6_g] }, .A, atSegmentSearch6_g, true, 0, 0, by unfold State.searching; decide +kernel⟩,
   ⟨{ node with dn.segs := [atSegmentSearch7_g] }, .A, atSegmentSearch7_g, 0, 0, 0, 0, [], by unfold State.searching; decide +kernel⟩,
   ⟨{ node with dn.segs := [atSegmentSearch8_g] }, .A, atSegmentSearch8_g, 0, 0, [], by unfold State.searching; decide +kernel⟩,
   ⟨{ (node).nvPut (Config.key 4 0x3003) 0x8007 with dn.segs := [atSegmentSearch9_g] }, .A, atSegmentSearch9_g, 1, 0, 0, 0, 0, [], (0, 7, false),
     by unfold State.Inv State.searching Fram.ok Ev.ok Hb.ok Tn.ok Dn.ok Pl.ok; decide +kernel⟩,
   ⟨atSegmentSearch10_s, atSegmentSearch10_s.latchRssi atSegmentSearch10_r, atSegmentSearch10_r, atSegmentSearch10_g,
     by unfold State.listens; decide +kernel, rfl, by decide +kernel⟩,
   ⟨node, node.latchRssi atSegmentSearch11_r, atSegmentSearch11_r, by unfold State.listens; decide +kernel, rfl,
     by unfold State.mayLog; decide +kernel⟩,
   ⟨{ node with dn.segs := [atSegmentSearch12_g] }, .A, atSegmentSearch12_g, by unfold State.searching; decide +kernel⟩,
   ⟨{ run with pins.role := .H, dn.epr := true, dn.await := [((5 : BitVec 12), (0 : Nat))] }, 5, 0, by decide +kernel⟩,
   ⟨{ run with pins.role := .H, dn.epr := true, dn.await := [((5 : BitVec 12), (3 : Nat))] }, 5, 3, by decide +kernel⟩,
   ⟨atSegmentSearch15_s, atSegmentSearch15_s.heard atSegmentSearch15_f, atSegmentSearch15_f, 0, 0, [], by unfold State.hears; decide +kernel, rfl,
     by unfold State.Inv Fram.ok Ev.ok Hb.ok Tn.ok Dn.ok Pl.ok; decide +kernel⟩,
   ⟨atSegmentSearch16_s, by decide +kernel⟩,
   ⟨atSegmentSearch17_s, 5, by unfold State.Inv Fram.ok Ev.ok Hb.ok Tn.ok Dn.ok Pl.ok; decide +kernel⟩⟩

def atJoiningAndSweeps0_s : State := { node with pins.role := .H, fram.joined := false }
def atJoiningAndSweeps0_f : RxFrame := { rx0 with frame.type := 0x05, frame.payload := bytesBE 8 (0 : Word64).toNat ++ [(0 : Byte), (0 : Byte)], frame.dest := 0 }

def atJoiningAndSweeps1_s : State := { node with pins.role := .H, fram.joined := false }
def atJoiningAndSweeps1_f : RxFrame := { rx0 with frame.type := 0x05, frame.payload := bytesBE 8 (0 : Word64).toNat ++ [(0 : Byte), (0 : Byte)], frame.dest := 0 }
theorem atJoiningAndSweeps1_free (m : Nat) (h : m ≤ 4095) : (atJoiningAndSweeps1_s.heard atJoiningAndSweeps1_f).nodeState m = 0 := by
  have hk : (6 * 65536 + (4 * m + 3)) / 65536 = 6 := by omega
  have hs : Config.shipment (Config.key 6 (4 * m + 3)) = 0 := by unfold Config.shipment Config.key; simp only [hk]
  have hn : (atJoiningAndSweeps1_s.heard atJoiningAndSweeps1_f).fram.nv = [] := by decide +kernel
  have hr : (atJoiningAndSweeps1_s.heard atJoiningAndSweeps1_f).hb.rows = [] := by decide +kernel
  unfold State.nodeState State.nodeWord State.ntw State.nv
  rw [hn, hr]
  simp only [pendWord, WMem.get, hs]
  decide


def atJoiningAndSweeps2_s : State := { node with fram.joined := false }
def atJoiningAndSweeps2_r : RxSearch := { port := .A, payload := bytesBE 8 atJoiningAndSweeps2_s.fram.serial.toNat ++ bytesBE 2 (0 : BitVec 12).toNat ++ [(0 : Byte), (0 : Byte)] ++ bytesBE 2 (0 : Word).toNat, rssi := 0 }

def atJoiningAndSweeps3_s : State := { node with fram.joined := false }
def atJoiningAndSweeps3_r : RxSearch := { port := .A, payload := bytesBE 8 atJoiningAndSweeps3_s.fram.serial.toNat ++ bytesBE 2 (0x8000 + (0 : Byte).toNat) ++ [(0 : Byte), (0 : Byte)] ++ bytesBE 2 (0 : Word).toNat, rssi := 0 }

def atJoiningAndSweeps4_f : RxFrame := { rx0 with frame.type := 0x05, frame.flags := 16, frame.payload := bytesBE 8 (0 : Word64).toNat ++ bytesBE 2 (0 : BitVec 12).toNat }
def atJoiningAndSweeps4_r : Request := { req0 with frame.type := atJoiningAndSweeps4_f.frame.type, frame.seq := atJoiningAndSweeps4_f.frame.seq, frame.dest := atJoiningAndSweeps4_f.frame.src }
def atJoiningAndSweeps4_g : Segment := { seg0 with joining := some ((0 : Word64), false), assign := none }
def atJoiningAndSweeps4_s : State := { node with dn.segs := [atJoiningAndSweeps4_g], dn.reqs := atJoiningAndSweeps4_r :: ([] : List Request) }

def atJoiningAndSweeps5_g : Segment := { seg0 with joining := some ((0 : Word64), false), assign := some ((0 : BitVec 12), (0 : BitVec 6), (0 : Nat)) }

def atJoiningAndSweeps6_r : RxSearch := { port := .A, payload := bytesBE 8 (0 : Word64).toNat ++ bytesBE 2 (0 : BitVec 12).toNat, rssi := 0 }
def atJoiningAndSweeps6_g : Segment := { seg0 with joining := some ((0 : Word64), false), assign := some ((0 : BitVec 12), (1 : BitVec 6), (0 : Nat)), roll := [], cut := false, stack := ((0 : Nat), (0 : Word64)) :: ([] : List (Nat × Word64)) }

def atJoiningAndSweeps7_s : State := { run with hb.wlatch := some (0x50, (0x0 : Byte)), hb.nvr := true, hb.rows := [], dn.ptr := BitVec.ofNat 16 (0x4000 + (4 * (0 : Nat) + 3)), pins.role := .H }

def atJoiningAndSweeps8_s : State := { run with pins.role := .H, ck.ltv := true, dn.pend := [] }

def atJoiningAndSweeps9_s : State := { node with ck.ltv := true }
def atJoiningAndSweeps9_f : RxFrame := { rx0 with frame.type := 0x06, frame.src := 0, frame.payload := bytesBE 4 (1 : Word32).toNat ++ timeBytes (1000 : Word32) (0 : Nat) ++ bytesBE 2 (100 : Nat) }

def atJoiningAndSweeps12_f : RxFrame := { rx0 with frame.type := 0x07, frame.src := 0, frame.payload := bytesBE 4 (0 : Word32).toNat }

def atJoiningAndSweeps13_f : RxFrame := { rx0 with frame.type := 0x07, frame.flags := 16, frame.payload := [0, 0, 0, 1, 0] }
def atJoiningAndSweeps13_r : Request := { req0 with frame.type := atJoiningAndSweeps13_f.frame.type, frame.seq := atJoiningAndSweeps13_f.frame.seq, frame.dest := atJoiningAndSweeps13_f.frame.src, host := false }
def atJoiningAndSweeps13_c : Collect := { coll0 with asked := some atJoiningAndSweeps13_f.frame.src, todo := [], late := false }
def atJoiningAndSweeps13_s : State := { node with dn.collects := [atJoiningAndSweeps13_c], dn.counts := [(0 : Nat), (0 : Nat), (0 : Nat), (0 : Nat)], dn.reqs := atJoiningAndSweeps13_r :: ([] : List Request) }

def atJoiningAndSweeps14_f : RxFrame := { rx0 with frame.type := 0x07, frame.flags := 16 }
def atJoiningAndSweeps14_r : Request := { req0 with frame.type := atJoiningAndSweeps14_f.frame.type, frame.seq := atJoiningAndSweeps14_f.frame.seq, frame.dest := atJoiningAndSweeps14_f.frame.src, host := true }
def atJoiningAndSweeps14_s : State := { node with dn.reqs := atJoiningAndSweeps14_r :: ([] : List Request) }

/-- States and operands that meet the hypotheses of Obligations.JoiningAndSweeps, clause by clause. -/
theorem witness_JoiningAndSweeps :
    (∃ (s u : State) (f : RxFrame) (serial : Word64) (hops segn : Byte), s.asksAnew f 0x05 ∧ u = s.heard f ∧ u.isHead = true ∧
      f.frame.payload = bytesBE 8 serial.toNat ++ [hops, segn]) ∧
    (∃ (s u : State) (f : RxFrame) (serial : Word64) (hops segn : Byte) (n : Nat), s.asksAnew f 0x05 ∧ u = s.heard f ∧ u.isHead = true ∧ u.Inv ∧
      f.frame.payload = bytesBE 8 serial.toNat ++ [hops, segn] ∧ hops.toNat ≤ 16 ∧ segn.toNat ≤ 64 ∧ 1 ≤ n ∧ n ≤ 4095 ∧
      (u.nodeSerial n = serial.setWidth 48 ∧ (∀ m, 1 ≤ m → m < n → u.nodeSerial m ≠ serial.setWidth 48) ∧ u.present n = false ∨ u.nodeState n = 0 ∧ (∀ m, 1 ≤ m → m < n → u.nodeState m ≠ 0) ∧ (∀ m, 1 ≤ m → m ≤ 4095 → u.nodeSerial m ≠ serial.setWidth 48)) ∧
      fld (u.nodeWord n) 11 5 = 0) ∧
    (∃ (s u : State) (r : RxSearch) (a : BitVec 12) (idx hops : Byte) (e : Word), s.listens r.port ∧ u = s.latchRssi r ∧ s.running = true ∧
      s.agentOn r.port = false ∧ s.isHead = false ∧ s.fram.joined = false ∧ s.ev.buf.length < 32 ∧
      r.payload = bytesBE 8 s.fram.serial.toNat ++ bytesBE 2 a.toNat ++ [idx, hops] ++ bytesBE 2 e.toNat) ∧
    (∃ (s u : State) (r : RxSearch) (code idx hops : Byte) (e : Word), s.listens r.port ∧ u = s.latchRssi r ∧ s.running = true ∧
      s.agentOn r.port = false ∧ s.isHead = false ∧ s.fram.joined = false ∧ s.ev.buf.length < 32 ∧
      r.payload = bytesBE 8 s.fram.serial.toNat ++ bytesBE 2 (0x8000 + code.toNat) ++ [idx, hops] ++ bytesBE 2 e.toNat) ∧
    (∃ (s u : State) (f : RxFrame) (r : Request) (rest : List Request) (serial : Word64) (a : BitVec 12) (g : Segment) (ag : Bool) (segs : List Segment) (i : Nat),
      s.hears f ∧ u = s.heard f ∧ f.frame.type = 0x05 ∧ f.frame.flags.getLsbD 4 = true ∧ u.awaits f r rest ∧
      f.frame.payload = bytesBE 8 serial.toNat ++ bytesBE 2 a.toNat ∧ u.dn.segs = g :: segs ∧ g.joining = some (serial, ag) ∧ g.assign = none ∧
      1 ≤ i ∧ i ≤ 63 ∧ u.segEntry g.port i = none ∧ (∀ j, 1 ≤ j → j < i → (u.segEntry g.port j).isSome = true) ∧ u.isHead = false) ∧
    (∃ (s : State) (p : Port) (g : Segment) (serial : Word64) (ag : Bool) (a : BitVec 12) (i : BitVec 6) (n : Nat), s.running = true ∧
      s.searching p g ∧ g.joining = some (serial, ag) ∧ g.assign = some (a, i, n) ∧ n < 3 ∧ s.isHead = false) ∧
    (∃ (s : State) (r : RxSearch) (g : Segment) (serial : Word64) (ag : Bool) (a : BitVec 12) (i : BitVec 6) (n l : Nat) (x : Word64) (rest : List (Nat × Word64)),
      s.Inv ∧ s.listens r.port ∧ s.searching r.port g ∧ g.joining = some (serial, ag) ∧ g.assign = some (a, i, n) ∧
      r.payload = bytesBE 8 serial.toNat ++ bytesBE 2 a.toNat ∧ 1 ≤ i.toNat ∧ g.roll = [] ∧ g.cut = false ∧ g.stack = (l, x) :: rest ∧
      s.isHead = false) ∧
    (∃ (s : State) (hi lo : Byte) (n : Nat), s.Inv ∧ s.busOn = true ∧ s.hb.wlatch = some (0x50, lo) ∧ s.sc.armHost ≠ .armed ∧ s.hb.nvr = true ∧
      s.hb.rows = [] ∧ s.dn.ptr = BitVec.ofNat 16 (0x4000 + (4 * n + 3)) ∧ n ≤ 4095 ∧ s.pins.role = .H ∧
      (fld (wordOf hi lo) 5 3 = 0 ∨ fld (wordOf hi lo) 5 3 = 4) ∧ (s.nodeState n = 0 ∨ s.nodeState n = 3 ∨ s.nodeState n = 4)) ∧
    (∃ (s : State) (per : Nat) (number : Word32) (f : DFrame), s.running = true ∧ s.isHead = true ∧ s.ck.ltv = true ∧
      per = (s.dsw 0x2004).toNat * 60 ∧ per ≠ 0 ∧ s.lg.sweep = s.fram.lastSweep ∧ number = s.fram.lastSweep + 1 ∧ s.dn.pend = [] ∧
      f = s.ownFrame 0 0x06 0x08 (bytesBE 4 number.toNat ++ timeBytes (BitVec.ofNat 32 ((s.ck.lsec.toNat / per + 1) * per)) 0 ++ bytesBE 2 (max 10 (s.dsw 0x2005).toNat * 10))) ∧
    (∃ (s : State) (f : DFrame) (at_ : Nat), s.running = true ∧ s.dn.copies = [(f, at_)] ∧ at_ ≤ s.pw.ticks ∧ f.flags.getLsbD 3 = true) ∧
    (∃ (s u : State) (f : RxFrame) (number sec : Word32) (cyc lead : Nat), s.hears f ∧ u = s.heard f ∧ f.frame.type = 0x06 ∧ f.frame.src = 0 ∧
      f.frame.payload = bytesBE 4 number.toNat ++ timeBytes sec cyc ++ bytesBE 2 lead ∧ cyc < 400000 ∧ 100 ≤ lead ∧ lead < 65536 ∧
      newer 32 u.lg.sweep number = true ∧ (∀ a ∈ u.dn.pend, a.number ≠ number) ∧ u.ck.ltv = true ∧
      lineCount u.ck.lsec u.ck.lcyc < lineCount sec cyc ∧ u.dn.pend.length < 4) ∧
    (∃ (s : State) (a : Announce), s.running = true ∧ s.ck.ltv = true ∧ s.dn.pend = [a] ∧ s.isHead = false ∧ s.lg.lbad = false ∧ s.lg.cur = none ∧
      s.lg.seq.toNat < 0xFFFFFFFE ∧ s.ev.buf.length < 32) ∧
    (∃ (s : State) (a : Announce) (c : Commit), s.running = true ∧ s.ck.ltv = true ∧ s.dn.pend = [a] ∧ s.isHead = false ∧ s.lg.lbad = false ∧
      s.lg.cur = some c ∧ s.lg.waiting = [] ∧ s.ev.buf.length < 32) ∧
    (∃ (s : State), s.running = true ∧ s.isHead = true ∧ s.dn.collects = [] ∧ (∀ a ∈ s.dn.sweepSet, a ≠ 0 ∧ s.present a.toNat = true) ∧
      (∃ a : BitVec 12, a ≠ 0 ∧ s.present a.toNat = true)) ∧
    (∃ (s u : State) (f : RxFrame) (number : Word32), s.asksAnew f 0x07 ∧ u = s.heard f ∧ f.frame.src = 0 ∧
      f.frame.payload = bytesBE 4 number.toNat) ∧
    (∃ (s u : State) (f : RxFrame) (r : Request) (rest : List Request) (c : Collect) (n0 n1 n2 n3 : Nat) (number : List Byte), s.hears f ∧
      u = s.heard f ∧ f.frame.type = 0x07 ∧ f.frame.flags.getLsbD 4 = true ∧ u.awaits f r rest ∧ r.host = false ∧ u.Inv ∧
      u.dn.rxf.length + 8 + f.frame.payload.length ≤ 4120 ∧ number.length = 4 ∧ (∃ b, f.frame.payload = number ++ [0] ++ b) ∧
      u.dn.collects = [c] ∧ c.asked = some f.frame.src ∧ c.todo = [] ∧ c.late = false ∧ u.dn.counts = [n0, n1, n2, n3] ∧ u.ev.buf.length < 32) ∧
    (∃ (s u : State) (f : RxFrame) (r : Request) (rest : List Request), s.hears f ∧ u = s.heard f ∧ f.frame.type = 0x07 ∧
      f.frame.flags.getLsbD 4 = true ∧ u.awaits f r rest ∧ r.host = true ∧ u.dn.rxf.length + 8 + f.frame.payload.length ≤ 4120) :=
  ⟨⟨atJoiningAndSweeps0_s, atJoiningAndSweeps0_s.heard atJoiningAndSweeps0_f, atJoiningAndSweeps0_f, 0, 0, 0, by unfold State.asksAnew State.hears State.noRepeat; decide +kernel, rfl, by decide +kernel⟩,
   ⟨atJoiningAndSweeps1_s, atJoiningAndSweeps1_s.heard atJoiningAndSweeps1_f, atJoiningAndSweeps1_f, 0, 0, 0, 1,
     by unfold State.asksAnew State.hears State.noRepeat; decide +kernel, rfl, by decide +kernel,
     by unfold State.Inv Fram.ok Ev.ok Hb.ok Tn.ok Dn.ok Pl.ok; decide +kernel, by decide +kernel, by decide +kernel, by decide +kernel,
     by decide +kernel, by decide +kernel, Or.inl ⟨by decide +kernel, fun _ h k => absurd k (by omega), by decide +kernel⟩, by decide +kernel⟩,
   ⟨atJoiningAndSweeps2_s, atJoiningAndSweeps2_s.latchRssi atJoiningAndSweeps2_r, atJoiningAndSweeps2_r, 0, 0, 0, 0,
     by unfold State.listens; decide +kernel, rfl, by decide +kernel⟩,
   ⟨atJoiningAndSweeps3_s, atJoiningAndSweeps3_s.latchRssi atJoiningAndSweeps3_r, atJoiningAndSweeps3_r, 0, 0, 0, 0,
     by unfold State.listens; decide +kernel, rfl, by decide +kernel⟩,
   ⟨atJoiningAndSweeps4_s, atJoiningAndSweeps4_s.heard atJoiningAndSweeps4_f, atJoiningAndSweeps4_f, atJoiningAndSweeps4_r, [], 0, 0,
     atJoiningAndSweeps4_g, false, [], 1, by unfold State.hears; decide +kernel, rfl, by unfold State.awaits; decide +kernel⟩,
   ⟨{ node with dn.segs := [atJoiningAndSweeps5_g] }, .A, atJoiningAndSweeps5_g, 0, false, 0, 0, 0, by unfold State.searching; decide +kernel⟩,
   ⟨{ node with dn.segs := [atJoiningAndSweeps6_g] }, atJoiningAndSweeps6_r, atJoiningAndSweeps6_g, 0, false, 0, 1, 0, 0, 0, [],
     by unfold State.Inv State.searching State.listens Fram.ok Ev.ok Hb.ok Tn.ok Dn.ok Pl.ok; decide +kernel⟩,
   ⟨atJoiningAndSweeps7_s, 0x0, 0x0, 0, by unfold State.Inv Fram.ok Ev.ok Hb.ok Tn.ok Dn.ok Pl.ok; decide +kernel⟩,
   ⟨atJoiningAndSweeps8_s, (atJoiningAndSweeps8_s.dsw 0x2004).toNat * 60, atJoiningAndSweeps8_s.fram.lastSweep + 1, _, by decide +kernel,
     by decide +kernel, by decide +kernel, by decide +kernel, by decide +kernel, by decide +kernel, by decide +kernel, by decide +kernel, rfl⟩,
   ⟨{ run with dn.copies := [({ frame0 with flags := 0x08 }, 0)] }, { frame0 with flags := 0x08 }, 0, by decide +kernel⟩,
   ⟨atJoiningAndSweeps9_s, atJoiningAndSweeps9_s.heard atJoiningAndSweeps9_f, atJoiningAndSweeps9_f, 1, 1000, 0, 100,
     by unfold State.hears; decide +kernel, rfl, by decide +kernel⟩,
   ⟨{ run with ck.ltv := true, dn.pend := [ann0], lg.lbad := false, lg.cur := none }, ann0, by decide +kernel⟩,
   ⟨{ run with ck.ltv := true, dn.pend := [ann0], lg.lbad := false, lg.cur := some commit0, lg.waiting := [] }, ann0, commit0, by decide +kernel⟩,
   ⟨{ (run).nvPut (Config.key 6 23) 0x0020 with pins.role := .H, dn.collects := [] }, by decide +kernel⟩,
   ⟨node, node.heard atJoiningAndSweeps12_f, atJoiningAndSweeps12_f, 0, by unfold State.asksAnew State.hears State.noRepeat; decide +kernel, rfl,
     by decide +kernel⟩,
   ⟨atJoiningAndSweeps13_s, atJoiningAndSweeps13_s.heard atJoiningAndSweeps13_f, atJoiningAndSweeps13_f, atJoiningAndSweeps13_r, [],
     atJoiningAndSweeps13_c, 0, 0, 0, 0, [0, 0, 0, 1], by unfold State.hears; decide +kernel, rfl, by decide +kernel, by decide +kernel,
     by unfold State.awaits; decide +kernel, by decide +kernel, by unfold State.Inv Fram.ok Ev.ok Hb.ok Tn.ok Dn.ok Pl.ok; decide +kernel,
     by decide +kernel, by decide +kernel, ⟨[], by decide +kernel⟩, by decide +kernel⟩,
   ⟨atJoiningAndSweeps14_s, atJoiningAndSweeps14_s.heard atJoiningAndSweeps14_f, atJoiningAndSweeps14_f, atJoiningAndSweeps14_r, [],
     by unfold State.hears; decide +kernel, rfl, by unfold State.awaits; decide +kernel⟩⟩

def atPolicyRules0_s : State := { ((run).nvPut (Config.key 0 0x6E) 1).nvPut (Config.key 5 5) 1 with pl.rules := setAt State.reset.pl.rules 0 { state := 1, dueOn := true } }

def atPolicyRules1_s : State := { ((run).nvPut (Config.key 0 0x6E) 1).nvPut (Config.key 5 5) 6 with lp.alarm := 0, pl.rules := setAt State.reset.pl.rules 0 { state := 1, dueOn := true } }

def atPolicyRules2_s : State := { ((run).nvPut (Config.key 0 0x6E) 1).nvPut (Config.key 5 5) 1 with lp.alarm := 0, lp.driving := false, pl.rules := setAt State.reset.pl.rules 0 { state := 1, dueOn := true } }

def atPolicyRules3_s : State := { ((run).nvPut (Config.key 0 0x6E) 1).nvPut (Config.key 5 0) 0x0800 with pl.rules := setAt State.reset.pl.rules 0 { state := 3, dueOff := true } }

def atPolicyRules4_s : State := { ((run).nvPut (Config.key 0 0x6E) 1).nvPut (Config.key 5 5) 6 with pl.rules := setAt State.reset.pl.rules 0 { state := 3, dueOff := true } }

def atPolicyRules5_s : State := { ((run).nvPut (Config.key 0 0x6E) 1).nvPut (Config.key 5 5) 6 with lp.alarm := 0, pl.rules := setAt State.reset.pl.rules 0 { state := 3, dueOff := true } }

def atPolicyRules7_s : State := { run with hb.wlatch := some (0x72, (0x0 : Byte)), hb.nvr := true, aon.sealOpen := true, pl.ptr := BitVec.ofNat 9 (8 * (0 : Nat) + 7) }

def atPolicyRules8_s : State := { (run).nvPut (Config.key 0 0x6E) 1 with hb.wlatch := some (0x6E, (0x3 : Byte)), sc.armHost := .armed, hb.nvr := true, aon.sealOpen := true }

/-- States and operands that meet the hypotheses of Obligations.PolicyRules, clause by clause. -/
theorem witness_PolicyRules :
    (∃ (s : State) (n : BitVec 5), s.Inv ∧ s.running = true ∧ s.plEn = true ∧ (s.ruleAt n.toNat).dueOn = true) ∧
    (∃ (s : State) (n : BitVec 5), s.Inv ∧ s.running = true ∧ s.plEn = true ∧ (s.ruleAt n.toNat).dueOn = true ∧
      (s.ruleAction n.toNat = 6 ∨ s.ruleAction n.toNat = 8) ∧ s.prevailing = none ∧ s.lp.alarm = 0 ∧ s.fe.alm = s.actionOn 4 ∧
      (s.ruleAt n.toNat).secLogs < 8 ∧ s.ev.buf.length < 32) ∧
    (∃ (s : State) (n : BitVec 5), s.Inv ∧ s.running = true ∧ s.plEn = true ∧ (s.ruleAt n.toNat).dueOn = true ∧ 1 ≤ s.ruleAction n.toNat ∧
      s.ruleAction n.toNat ≤ 3 ∧ s.loopARole = true ∧ s.prevailing = none ∧ s.lp.alarm = 0 ∧ s.lp.driving = false) ∧
    (∃ (s : State) (n : BitVec 5), s.running = true ∧ s.plEn = true ∧ (s.ruleAt n.toNat).dueOff = true ∧ s.ruleLatch n.toNat = true) ∧
    (∃ (s : State) (n : BitVec 5), s.Inv ∧ s.running = true ∧ s.plEn = true ∧ (s.ruleAt n.toNat).dueOff = true ∧ s.ruleLatch n.toNat = false ∧
      (s.ruleAt n.toNat).inForce = true) ∧
    (∃ (s : State) (n : BitVec 5), s.Inv ∧ s.running = true ∧ s.plEn = true ∧ (s.ruleAt n.toNat).dueOff = true ∧ s.ruleLatch n.toNat = false ∧
      (s.ruleAt n.toNat).inForce = true ∧ (s.ruleAction n.toNat = 6 ∨ s.ruleAction n.toNat = 8) ∧ s.prevailing = none ∧ s.lp.alarm = 0 ∧
      s.fe.alm = s.actionOn 4 ∧ s.ev.buf.length < 32) ∧
    (∃ (s : State) (lo : Byte) (half : Nat), s.busOn = true ∧ s.hb.wlatch = some (0x72, lo) ∧ s.sc.armHost ≠ .armed ∧ half ≤ 1 ∧
      s.pl.ptr = BitVec.ofNat 9 (0x104 + half)) ∧
    (∃ (s : State) (lo : Byte) (n : Nat) (ws : List Word), s.busOn = true ∧ s.hb.wlatch = some (0x72, lo) ∧ s.sc.armHost ≠ .armed ∧ s.hb.nvr = true ∧
      s.startUp = false ∧ s.aon.sealOpen = true ∧ s.lg.acount < 2048 ∧ n < 32 ∧ s.pl.ptr = BitVec.ofNat 9 (8 * n + 7) ∧
      ws = (List.range 7).map (fun i => s.heldWord (Config.key 5 (8 * n + i))) ++ [0]) ∧
    (∃ (s : State) (hi lo : Byte), s.busOn = true ∧ s.hb.wlatch = some (0x6E, lo) ∧ s.sc.armHost = .armed ∧ s.hb.nvr = true ∧ s.startUp = false ∧
      s.aon.sealOpen = true ∧ s.lg.acount < 2048 ∧ bitAt (wordOf hi lo) 0 = s.plEn ∧ bitAt (wordOf hi lo) 1 = true) ∧
    (∃ (s : State) (lo : Byte), s.busOn = true ∧ s.hb.wlatch = some (0x6E, lo) ∧ s.sc.armHost ≠ .armed ∧ s.hb.nvr = true ∧ s.startUp = false ∧
      s.aon.sealOpen = true ∧ s.lg.acount < 2048) ∧
    (∃ (s : State) (lo : Byte), s.busOn = true ∧ s.hb.wlatch = some (0x6E, lo) ∧ s.sc.armHost ≠ .armed ∧ s.hb.nvr = true ∧ s.startUp = false ∧
      s.aon.sealOpen = false ∧ s.ev.buf.length < 32) :=
  ⟨⟨atPolicyRules0_s, 0, by unfold State.Inv Fram.ok Ev.ok Hb.ok Tn.ok Dn.ok Pl.ok; decide +kernel⟩,
   ⟨atPolicyRules1_s, 0, by unfold State.Inv Fram.ok Ev.ok Hb.ok Tn.ok Dn.ok Pl.ok; decide +kernel⟩,
   ⟨atPolicyRules2_s, 0, by unfold State.Inv Fram.ok Ev.ok Hb.ok Tn.ok Dn.ok Pl.ok; decide +kernel⟩,
   ⟨atPolicyRules3_s, 0, by decide +kernel⟩,
   ⟨atPolicyRules4_s, 0, by unfold State.Inv Fram.ok Ev.ok Hb.ok Tn.ok Dn.ok Pl.ok; decide +kernel⟩,
   ⟨atPolicyRules5_s, 0, by unfold State.Inv Fram.ok Ev.ok Hb.ok Tn.ok Dn.ok Pl.ok; decide +kernel⟩,
   ⟨{ run with hb.wlatch := some (0x72, (0x0 : Byte)), pl.ptr := BitVec.ofNat 9 (0x104 + (0 : Nat)) }, 0x0, 0, by decide +kernel⟩,
   ⟨atPolicyRules7_s, 0x0, 0, (List.range 7).map (fun i => atPolicyRules7_s.heldWord (Config.key 5 (8 * (0 : Nat) + i))) ++ [0], by decide +kernel⟩,
   ⟨atPolicyRules8_s, 0x0, 0x3, by decide +kernel⟩,
   ⟨{ run with hb.wlatch := some (0x6E, (0x0 : Byte)), hb.nvr := true, aon.sealOpen := true }, 0x0, by decide +kernel⟩,
   ⟨{ run with hb.wlatch := some (0x6E, (0x0 : Byte)), hb.nvr := true, aon.sealOpen := false }, 0x0, by decide +kernel⟩⟩

/-- States and operands that meet the hypotheses of Obligations.HostBusCycles, clause by clause. -/
theorem witness_HostBusCycles :
    (∃ (s : State) (addr : Byte), s.busOn = true ∧ addr.getLsbD 7 = false ∧ addr.getLsbD 0 = false ∧ (s.hb.wlatch = none ∨ ∃ b,
      s.hb.wlatch = some (addr, b))) ∧
    (∃ (s : State) (addr r b : Byte), s.busOn = true ∧ addr.getLsbD 7 = false ∧ addr.getLsbD 0 = false ∧ s.hb.wlatch = some (r, b) ∧ r ≠ addr ∧
      0x0E11 ∉ s.hb.secCodes ∧ s.ev.buf.length < 32) ∧
    (∃ (s : State) (addr : Byte), s.busOn = true ∧ addr.getLsbD 7 = true ∧ 0x0E17 ∉ s.hb.secCodes ∧ s.ev.buf.length < 32) ∧
    (∃ (s : State) (lo r : Byte), s.busOn = true ∧ s.hb.wlatch = some (r, lo) ∧ s.sc.armHost ≠ .armed) ∧
    (∃ (s : State), s.busOn = true ∧ s.hb.wlatch = none ∧ s.sc.armHost ≠ .armed ∧ 0x0E10 ∉ s.hb.secCodes ∧ s.ev.buf.length < 32) ∧
    (∃ (s : State) (r : RowWrite) (rest : List RowWrite), s.Inv ∧ (s.pw.st = .wake ∨ s.pw.st = .run ∨ s.pw.st = .drain) ∧ s.hb.rows = r :: rest) ∧
    (∃ (s : State) (lo : Byte), s.busOn = true ∧ s.hb.wlatch = some (0x06, lo) ∧ s.sc.armHost ≠ .armed) ∧
    (∃ (s : State) (hi lo : Byte), s.busOn = true ∧ s.hb.wlatch = some (0x7C, lo) ∧ s.sc.armHost = .armed ∧ s.startUp = false ∧
      s.aon.sealOpen = true ∧ s.lg.acount < 2048 ∧ bitAt (wordOf hi lo) 0 = true ∧ hi ≠ 0) ∧
    (∃ (s : State), s.busOn = true) ∧
    (∃ (s : State), s.busOn = true ∧ s.orr.ptr = 0x310) ∧
    (∃ (s : State), s.busOn = true ∧ s.fe.ptr = 0x380) ∧
    (∃ (s : State) (w : Word) (rest : List Word), s.busOn = true ∧ s.lineOn = true ∧ s.dn.rxf = w :: rest ∧ s.dn.collectRepeat = []) ∧
    (∃ (s : State), s.busOn = true ∧ s.ev.buf.length < 32) :=
  ⟨⟨run, 0, by decide +kernel⟩,
   ⟨{ run with hb.wlatch := some ((0 : Byte), (0 : Byte)) }, 2, 0, 0, by decide +kernel⟩,
   ⟨run, 0x80, by decide +kernel⟩,
   ⟨{ run with hb.wlatch := some ((0 : Byte), (0x0 : Byte)) }, 0x0, 0, by decide +kernel⟩,
   ⟨{ run with hb.wlatch := none }, by decide +kernel⟩,
   ⟨{ run with hb.rows := row0 :: ([] : List RowWrite) }, row0, [],
     by unfold State.Inv Fram.ok Ev.ok Hb.ok Tn.ok Dn.ok Pl.ok; decide +kernel⟩,
   ⟨{ run with hb.wlatch := some (0x06, (0x0 : Byte)) }, 0x0, by decide +kernel⟩,
   ⟨{ run with hb.wlatch := some (0x7C, (0x1 : Byte)), sc.armHost := .armed, aon.sealOpen := true }, 0x1, 0x1, by decide +kernel⟩,
   ⟨run, by decide +kernel⟩,
   ⟨{ run with orr.ptr := 0x310 }, by decide +kernel⟩,
   ⟨{ run with fe.ptr := 0x380 }, by decide +kernel⟩,
   ⟨{ run with dn.rxf := (0 : Word) :: ([] : List Word), dn.collectRepeat := [] }, 0, [], by decide +kernel⟩,
   ⟨run, by decide +kernel⟩⟩


/-- A state with a command waiting that has the invariant, and the state its step gives. -/
theorem witness_EveryStepKeepsTheInvariant :
    ∃ s t : State, s.Inv ∧ s.pending ≠ [] ∧ step s = .next t :=
  ⟨{ run with pending := [.registerWrite 0x7F 0xAB] }, run.hostWrite 0x7F 0xAB false,
    by unfold State.Inv Fram.ok Ev.ok Hb.ok Tn.ok Dn.ok Pl.ok; decide +kernel, by decide, rfl⟩

end Sys2Proof.Tests
end

section
/-! PROOF. The sequencer's way from WAKE to RUN, out of DRAIN and from BACKUP to OFF (R47, R51, R52, R60, R85): what each state's
entry leaves, then the commands that lead there. -/

open Sys2Proof

namespace Sys2Proof.Machine

variable (s : State)

/-! ## CORE's clock -/

theorem State.not_frozen_of_coreOn {s : State} (h : s.coreOn = true) : s.hb.frzTs = false ∧ s.hb.frzTest = false := by
  simp only [State.coreOn, Bool.and_eq_true, Bool.not_eq_true'] at h
  exact ⟨h.1.2, h.2⟩

/-! ## RAILS: the flow source in force and the converter's channel outlast a trip of the fault inputs -/

/-- The flow source in force and the converter's channel stand. -/
def SelectionsKept (s t : State) : Prop := t.fe.srcLive = s.fe.srcLive ∧ t.ad.ch = s.ad.ch

theorem SelectionsKept.refl : SelectionsKept s s := ⟨rfl, rfl⟩

theorem SelectionsKept.trans {s t u : State} (h : SelectionsKept s t) (k : SelectionsKept t u) : SelectionsKept s u :=
  ⟨k.1.trans h.1, k.2.trans h.2⟩

/-- An operation that lists neither the flow engine nor the converter. -/
theorem Keeps.selectionsKept {L : List Part} {s t : State} (h : Keeps L s t)
    (hf : L.contains .fe = false := by with_unfolding_all rfl) (ha : L.contains .ad = false := by with_unfolding_all rfl) :
    SelectionsKept s t :=
  ⟨congrArg Fe.srcLive (h.eqFe hf), congrArg Ad.ch (h.eqAd ha)⟩

theorem State.cutHalf_selectionsKept : SelectionsKept s s.cutHalf := by
  unfold State.cutHalf
  split <;> exact ⟨rfl, rfl⟩

theorem State.groupLow_selectionsKept (n : Nat) : SelectionsKept s (s.groupLow n) := by
  unfold State.groupLow
  split
  · exact s.cutHalf_selectionsKept
  · split
    · split
      · exact (State.boostStop_keeps ..).selectionsKept
      · exact .refl s
    · exact s.cutHalf_selectionsKept

theorem State.faultTrip_selectionsKept (n : Nat) : SelectionsKept s (s.faultTrip n) := by
  have h := (s.groupLow_selectionsKept n).trans (State.tripFlag_keeps _ n).selectionsKept
  unfold State.faultTrip
  dsimp only
  split
  · exact h.trans ⟨by simp, by simp⟩
  · exact h

theorem SelectionsKept.foldl {α : Type} {f : State → α → State} (hf : ∀ u x, SelectionsKept u (f u x)) (l : List α) :
    ∀ t, SelectionsKept t (l.foldl f t) := by
  induction l with
  | nil => exact .refl
  | cons x xs ih => exact fun t => (hf t x).trans (ih _)

theorem State.faultLevels_selectionsKept : SelectionsKept s s.faultLevels := by
  unfold State.faultLevels
  refine SelectionsKept.trans (t := { s with xb := { s.xb with lvl := s.faultActive } }) ⟨rfl, rfl⟩ (.foldl (fun u n => ?_) _ _)
  split
  · exact u.faultTrip_selectionsKept n
  · exact .refl u

/-! ## RAILS -/

/-- The fields that the entry to RAILS takes from FRAM (R47, R435). -/
def State.railsFields : State :=
  { s with
    hb := { s.hb with nvr := true }, pw := { s.pw with st := .rails, stepBusy := true },
    ad := { s.ad with ch := (s.nvReg 0x2C).extractLsb' 0 4 },
    xb := { s.xb with per := s.nvReg 0x24, duty := s.nvReg 0x26, dt := s.nvReg 0x28 },
    fe := { s.fe with srcLive := bitAt (s.nvReg 0x56) 1, modelLive := s.feModel } }

/-- Boost and regulator as the entry to RAILS starts them (R47, R66, R159). -/
def State.railsPower (vaux : Nat) : State :=
  let u := s.boostStart.faultLevels
  if u.lineRole then u.regStart vaux else { u with reg := { u.reg with stepEnded := true } }

theorem State.enterRails_eq (vaux : Nat) : s.enterRails vaux = (s.railsFields.railsPower vaux).testFreeze := rfl

theorem State.railsPower_keeps (vaux : Nat) : Keeps [.reg, .ck, .xb, .ad, .fe, .ev, .irq] s (s.railsPower vaux) := by
  have h : Keeps [.reg, .ck, .xb, .ad, .fe, .ev, .irq] s s.boostStart.faultLevels :=
    (State.faultLevels_keeps _).after (State.boostStart_keeps s).mono
  unfold State.railsPower
  exact Keeps.ite (fun _ => (State.regStart_keeps ..).after h) (fun _ => Keeps.upd h)

theorem State.railsPower_selectionsKept (vaux : Nat) : SelectionsKept s (s.railsPower vaux) := by
  have h := (State.boostStart_keeps s).selectionsKept.trans s.boostStart.faultLevels_selectionsKept
  unfold State.railsPower
  dsimp only
  split
  · exact h.trans (State.regStart_keeps ..).selectionsKept
  · exact h

theorem State.testFreeze_nvr : s.testFreeze.hb.nvr = s.hb.nvr := by
  unfold State.testFreeze
  split <;> rfl

theorem State.enterRails_st (vaux : Nat) : (s.enterRails vaux).pw.st = .rails := by
  rw [State.enterRails_eq, (State.testFreeze_keeps _).eqPw, (State.railsPower_keeps ..).eqPw]
  rfl

theorem State.enterRails_nvr (vaux : Nat) : (s.enterRails vaux).hb.nvr = true := by
  rw [State.enterRails_eq, State.testFreeze_nvr]
  exact congrArg Hb.nvr (State.railsPower_keeps s.railsFields vaux).eqHb

theorem State.enterRails_selectionsKept (vaux : Nat) : SelectionsKept s.railsFields (s.enterRails vaux) :=
  (s.railsFields.railsPower_selectionsKept vaux).trans (State.testFreeze_keeps _).selectionsKept

/-- RAILS once its wait has been logged: no step is in progress any more (R60). -/
def State.railsWaitLogged : State := { s with pw := { s.pw with railsLogged := true, stepBusy := false } }.logEv 0x0103 0

theorem State.railsWaitLogged_keeps : Keeps [.pw, .ev] s s.railsWaitLogged :=
  (State.logEv_keeps ..).after (Keeps.upd (Keeps.refl _ s))

theorem State.railsWaitLogged_ev {s : State} (h : s.ev.buf.length < 32) :
    s.railsWaitLogged.ev = { s.ev with buf := s.ev.buf ++ [s.eventOf 0x0103 0] } := by
  unfold State.railsWaitLogged
  rw [State.logEv_room _ _ _ (by exact h)]
  rfl

/-! ## CALIB -/

theorem State.enterCalib_pw (vres : Nat) : (s.enterCalib vres).pw = { s.pw with st := .calib, stepBusy := true } := by
  unfold State.enterCalib
  rw [(State.nextConv_keeps _).eqPw, (State.mainsForce_keeps _).eqPw, (State.mainsSwitch_keeps _).eqPw]

theorem State.enterCalib_pins (vres : Nat) : (s.enterCalib vres).pins = { s.pins with vres := vres } := by
  unfold State.enterCalib
  rw [(State.nextConv_keeps _).eqPins, (State.mainsForce_keeps _).eqPins, (State.mainsSwitch_keeps _).eqPins]

theorem State.mainsSwitch_enabled {s : State} (h : s.mainsEn = true) :
    s.mainsSwitch = { s with ck := { s.ck with mainsRun := s.pllOn } } := by
  rw [State.mainsSwitch, if_pos h]

theorem State.mainsForce_idle {s : State} (h : s.mainsFr = false) : s.mainsForce = s := by
  simp [State.mainsForce, h]

/-- With MAINSEN set and no forced free-run CALIB only starts the MAINS PLL (R47, R93). -/
theorem State.enterCalib_ck {s : State} (vres : Nat) (hc : s.coreOn = true) (he : s.mainsEn = true) (hf : s.mainsFr = false) :
    (s.enterCalib vres).ck = { s.ck with mainsRun := true } := by
  obtain ⟨h1, h2⟩ := State.not_frozen_of_coreOn hc
  unfold State.enterCalib
  rw [(State.nextConv_keeps _).eqCk, State.mainsSwitch_enabled (by exact he), State.mainsForce_idle (by exact hf)]
  simp [State.pllOn, State.coreOn, h1, h2]

/-! ## RUN -/

/-- The sequencer state and the step in progress stand. -/
def SequencerKept (s t : State) : Prop := t.pw.st = s.pw.st ∧ t.pw.stepBusy = s.pw.stepBusy

theorem SequencerKept.trans {s t u : State} (h : SequencerKept s t) (k : SequencerKept t u) : SequencerKept s u :=
  ⟨k.1.trans h.1, k.2.trans h.2⟩

/-- An operation that does not list the power part. -/
theorem Keeps.sequencerKept {L : List Part} {s t : State} (h : Keeps L s t)
    (hp : L.contains .pw = false := by with_unfolding_all rfl) : SequencerKept s t :=
  ⟨congrArg Pw.st (h.eqPw hp), congrArg Pw.stepBusy (h.eqPw hp)⟩

theorem State.chargeJudge_sequencerKept : SequencerKept s s.chargeJudge := ⟨rfl, rfl⟩

theorem State.shedVres_sequencerKept : SequencerKept s s.shedVres := by
  unfold State.shedVres
  split <;> exact ⟨rfl, rfl⟩

/-- RUN as the last checks of CALIB leave it, before anything starts there (R47). -/
def State.runFields (bad : List Nat) : State :=
  let t := s.calibCheck.loadRows bad true
  { t with pw := { t.pw with st := .run, stepBusy := false }, lp := { t.lp with dT := 0, filt := none } }

/-- Nothing that starts with RUN moves the sequencer. -/
theorem State.enterRun_sequencerKept (bad : List Nat) : SequencerKept (s.runFields bad) (s.enterRun bad) :=
  (State.irq_keeps (s.runFields bad) 0).sequencerKept
    |>.trans (State.cdigTake_keeps _).sequencerKept
    |>.trans (State.anActivate_keeps _).sequencerKept
    |>.trans (State.sealAtRun_keeps _).sequencerKept
    |>.trans (State.orrRun0_keeps _).sequencerKept
    |>.trans (State.headTime_keeps _).sequencerKept
    |>.trans (State.takeSource_keeps _).sequencerKept
    |>.trans (State.policyRun_keeps _).sequencerKept
    |>.trans (State.startAdc_keeps _).sequencerKept
    |>.trans (State.dsStatHeld_keeps _).sequencerKept
    |>.trans (State.tnStatHeld_keeps _).sequencerKept
    |>.trans (State.dsCtlHeld_keeps _).sequencerKept
    |>.trans (State.chargeJudge_sequencerKept _)
    |>.trans (State.shedVres_sequencerKept _)
    |>.trans (State.shedRise_keeps _ 0).sequencerKept

theorem State.enterRun_st (bad : List Nat) : (s.enterRun bad).pw.st = .run ∧ (s.enterRun bad).pw.stepBusy = false :=
  s.enterRun_sequencerKept bad

/-! ## An ON request, DRAIN's end -/

theorem State.tryWake_of_ne_backup {s : State} (env : WakeEnv) (h : s.pw.st ≠ .backup) : s.tryWake env = s := by
  simp [State.tryWake, h]

theorem State.drainEnd_st (vbak : Nat) (env : WakeEnv) :
    (s.drainEnd vbak env).pw.st =
      if s.onStands then .wake else if vbak < 180 ∧ s.pins.supply = false then .off else .backup := by
  unfold State.drainEnd
  by_cases hon : s.onStands = true
  · rw [if_pos hon, if_pos hon, State.enterWake_pw]
  · rw [if_neg hon, if_neg hon]
    by_cases hoff : vbak < 180 ∧ s.pins.supply = false
    · rw [if_pos hoff, if_pos (by simpa using hoff), State.enterOff_st]
    · rw [if_neg hoff, if_neg (by simpa using hoff), State.enterBackup_st]

/-! ## The commands, in a state fit for their effect -/

theorem exec_wakeStepsDone {s : State} (vaux : Nat) (hc : s.coreOn = true) (hw : s.pw.st = .wake) (ho : s.pw.offPend = false) :
    exec (.wakeStepsDone vaux) s = .next (s.enterRails vaux) :=
  State.when_next _ (by simp [hc, hw]) (if_neg (by simp [ho]))

theorem exec_railsDone {s : State} (vres : Nat) (hc : s.coreOn = true) (hr : s.pw.st = .rails) (ho : s.pw.offPend = false)
    (he : s.reg.stepEnded = true) (hv : 1000 ≤ vres) : exec (.railsDone vres) s = .next (s.enterCalib vres) :=
  State.when_next _ (by simp [hc, hr, ho, he, hv]) rfl

theorem exec_railsWaitOver5s {s : State} (hc : s.coreOn = true) (hr : s.pw.st = .rails) (hl : s.pw.railsLogged = false) :
    exec .railsWaitOver5s s = .next s.railsWaitLogged :=
  State.when_next _ (by simp [hc, hr, hl]) rfl

theorem exec_calibDone {s : State} (bad : List Nat) (hc : s.coreOn = true) (hk : s.pw.st = .calib) (ho : s.pw.offPend = false)
    (hr : s.calibReady = true) : exec (.calibDone bad) s = .next (s.enterRun bad) :=
  State.when_next _ (by simp [hc, hk, ho, hr]) rfl

/-- CALIB_DONE in a CALIB that is ready leads to RUN with no step in progress (R47). -/
theorem exec_calibDone_run {s : State} (bad : List Nat) (hc : s.coreOn = true) (hk : s.pw.st = .calib) (ho : s.pw.offPend = false)
    (hr : s.calibReady = true) : ∃ t, exec (.calibDone bad) s = .next t ∧ t.pw.st = .run ∧ t.pw.stepBusy = false :=
  ⟨s.enterRun bad, exec_calibDone bad hc hk ho hr, s.enterRun_st bad⟩

/-- In DRAIN an ON request is only noted (R51). -/
theorem exec_onRequest_drain {s : State} (env : WakeEnv) (hd : s.pw.st = .drain) (hr : s.pins.rstnLow = false)
    (hl : s.aon.softLatch = false) : exec (.onRequest env) s = .next { s with pins := { s.pins with supply := true } } := by
  refine State.when_next _ (by simp [hr, hl]) ?_
  dsimp only
  rw [if_neg (by simp [hd]), State.tryWake_of_ne_backup env (by simp [hd])]

theorem exec_drainDone {s : State} (vbak : Nat) (env : WakeEnv) (hc : s.coreOn = true) (hd : s.pw.st = .drain)
    (hdone : s.drained = true) : exec (.drainDone vbak env) s = .next ((s.takeVbak vbak).drainEnd vbak env) :=
  State.when_next _ (by simp [hc, hd, hdone]) rfl

theorem exec_vbakDepleted_backup {s : State} (vbak : Nat) (hb : s.pw.st = .backup) (hs : s.pins.supply = false) (hv : vbak < 180) :
    exec (.vbakDepleted vbak) s = .next (s.takeVbak vbak).enterOff := by
  have hnd : ((s.takeVbak vbak).pw.st == .drain) = false := by simp [State.takeVbak, hb]
  exact State.when_next _ (by simp [hb, hs, hv]) (by rw [hnd, State.when_false])

/-- Settles O8: each clause is what the entered state holds, and the command that enters it. -/
theorem sequencerStates : Obligations.SequencerStates := by
  unfold Obligations.SequencerStates
  refine ⟨?wake, ?rails, ?wait, ?calib, ?noLock, ?onInDrain, ?drain, ?depleted⟩
  case wake =>
    intro s vaux hc hw ho
    obtain ⟨hsrc, hch⟩ := s.enterRails_selectionsKept vaux
    exact ⟨s.enterRails vaux, exec_wakeStepsDone vaux hc hw ho, s.enterRails_st vaux, s.enterRails_nvr vaux, hsrc, hch,
      (State.enterRails_keeps s vaux).eqFramAll⟩
  case rails =>
    intro s vres hc hr ho he hv
    exact ⟨s.enterCalib vres, exec_railsDone vres hc hr ho he hv, (State.enterCalib_keeps s vres).left, s.enterCalib_pw vres,
      s.enterCalib_pins vres, State.enterCalib_ck vres hc⟩
  case wait =>
    intro s hc hr hl hb
    exact ⟨s.railsWaitLogged, exec_railsWaitOver5s hc hr hl, s.railsWaitLogged_keeps.left, State.logEv_pw ..,
      State.railsWaitLogged_ev hb⟩
  case calib =>
    intro s bad hc hk ho h13 h14
    exact exec_calibDone_run bad hc hk ho (by simp [State.calibReady, h13, h14])
  case noLock =>
    intro s bad hc hk ho hm
    exact exec_calibDone_run bad hc hk ho (by simp [State.calibReady, hm])
  case onInDrain =>
    intro s env hd hr hl
    exact exec_onRequest_drain env hd hr hl
  case drain =>
    intro s vbak env hc hd hdone
    exact ⟨_, exec_drainDone vbak env hc hd hdone, (s.takeVbak vbak).drainEnd_st vbak env⟩
  case depleted =>
    intro s vbak hb hs hv
    exact ⟨_, exec_vbakDepleted_backup vbak hb hs hv, State.enterOff_st _, rfl, rfl, rfl, rfl,
      (State.enterOff_keeps (s.takeVbak vbak)).eqFramAll⟩

end Sys2Proof.Machine
end

section
/-! PROOF. The host bus while CORE is stopped and VIO is present (R101): IRQN, and what a read and a write do. -/

open Sys2Proof

namespace Sys2Proof.Machine

/-- Without CORE nothing pulls IRQN low, whatever interrupts stand enabled (R101, R438). -/
theorem State.irqLow_of_coreStopped {s : State} (hc : s.coreOn = false) : s.irqLow = false := by
  simp only [State.irqLow, hc, Bool.false_and]

@[simp] theorem State.stoppedCycle_read (s : State) :
    s.stoppedCycle true = { s with hb := { s.hb with adout := 0 } } := rfl

@[simp] theorem State.stoppedCycle_write (s : State) : s.stoppedCycle false = s := rfl

/-- Outside RSTN a host cycle that finds CORE stopped completes, whatever register it addresses (R101, R426). -/
theorem exec_hostCycleCoreStopped {s : State} (read : Bool) (addr : Byte) (hc : s.coreOn = false) (hr : s.pins.rstnLow = false) :
    exec (.hostCycleCoreStopped read addr) s = .next (s.stoppedCycle read) :=
  State.when_next _ (by simp [hc, hr]) rfl

/-- Settles O24: R101 for IRQN, and the stopped cycle as a read and as a write. That both latches stand is the model's reading
(log entry 28), and RDY is not modelled (log entry 73). -/
theorem stoppedCoreReadsZero : Obligations.StoppedCoreReadsZero := by
  unfold Obligations.StoppedCoreReadsZero
  refine ⟨?irqn, ?read, ?write⟩
  case irqn =>
    intro s hc
    exact State.irqLow_of_coreStopped hc
  case read =>
    intro s addr hc hr
    rw [exec_hostCycleCoreStopped true addr hc hr, State.stoppedCycle_read]
  case write =>
    intro s addr hc hr
    rw [exec_hostCycleCoreStopped false addr hc hr, State.stoppedCycle_write]

end Sys2Proof.Machine
end

section
/-! PROOF. Requests over the Descant network (R366, R374 to R379, R400): what a READ, a WRITE, a REPORT, a reply and a NACK do in the state
reception leaves, the host's frames, the time-out of a request, and the counts of dropped frames. -/

open Sys2Proof

namespace Sys2Proof.Machine

/-! ## A received frame's command acts on the state reception leaves -/

/-- A READ heard, to this node alone. -/
theorem exec_descantRead_hears {s : State} {f : RxFrame} (hh : s.hears f) (ht : f.frame.type = 0x01)
    (hrsp : f.frame.flags.getLsbD 4 = false) (hall : f.frame.flags.getLsbD 3 = false) :
    exec (.descantRead f) s = .next ((s.heard f).orRepeat f (fun v => v.descantRead f)) :=
  State.when_next s (by rw [ht, hrsp]; rfl) (by rw [State.takeFrame_hears s f hh, hall]; rfl)

/-- A new READ (R376). -/
theorem exec_descantRead_new {s : State} {f : RxFrame} (h : s.asksAnew f 0x01) :
    exec (.descantRead f) s = .next ((s.heard f).descantRead f) := by
  obtain ⟨hh, ht, hrsp, hall, hnew⟩ := h
  rw [exec_descantRead_hears hh ht hrsp hall, orRepeat_none s _ f hnew rfl]

/-- A new WRITE (R376). -/
theorem exec_descantWrite_new {s : State} {f : RxFrame} (h : s.asksAnew f 0x02) :
    exec (.descantWrite f) s = .next ((s.heard f).descantWrite f) := by
  obtain ⟨hh, ht, hrsp, hall, hnew⟩ := h
  refine State.when_next s (by rw [ht, hrsp]; rfl) ?_
  rw [State.takeFrame_hears s f hh, hall, if_neg Bool.false_ne_true]
  exact orRepeat_none s _ f hnew rfl _

theorem exec_report_hears {s : State} {f : RxFrame} (hh : s.hears f) (ht : f.frame.type = 0x03) :
    exec (.report f) s =
      .next (if (s.heard f).dnFits f.frame then (s.heard f).dnPush f.frame else (s.heard f).nackTo f 0x04) :=
  State.when_next s (by rw [ht]; rfl) (State.takeFrame_hears s f hh _)

theorem exec_descantReply_hears {s : State} {f : RxFrame} (hh : s.hears f) (ht : f.frame.type = 0x01 ∨ f.frame.type = 0x02)
    (hrsp : f.frame.flags.getLsbD 4 = true) :
    exec (.descantReply f) s =
      .next ((s.heard f).takeReply f (fun r v => if r.host then v.dnPush f.frame else v)) :=
  State.when_next s (by simpa [hrsp] using ht) (State.takeFrame_hears s f hh _)

theorem exec_descantNack_hears {s : State} {f : RxFrame} (hh : s.hears f) (ht : f.frame.type = 0x0A) :
    exec (.descantNack f) s = .next ((s.heard f).takeNack f) :=
  State.when_next s (by rw [ht]; rfl) (State.takeFrame_hears s f hh _)

theorem exec_descantReservedType_hears {s : State} {f : RxFrame} (hh : s.hears f)
    (ht : f.frame.type = 0x00 ∨ 0x0B < f.frame.type.toNat) :
    exec (.descantReservedType f) s =
      .next (((s.heard f).dnVio 0x0C10 (f.frame.type.toNat + f.frame.src.toNat * 256)).nacked f 0x01) := by
  refine State.when_next s (by simpa using ht) ?_
  rw [State.takeFrame_hears s f hh, evData_two, nackTo_eq]
  rfl

/-! ## The receive FIFO -/

theorem State.dnFits_iff (s : State) (f : DFrame) : s.dnFits f = true ↔ s.dn.rxf.length + 8 + f.payload.length ≤ 4120 := by
  unfold State.dnFits
  rw [decide_eq_true_iff, entry_len, Nat.add_assoc]

/-! ## READ (R376, R377) -/

/-- The word after the first byte. -/
theorem beAt_afterFirst {p rest : List Byte} {a h l : Byte} (hp : p = a :: h :: l :: rest) :
    beAt p 1 2 = h.toNat * 256 + l.toNat := by
  rw [hp]
  simp only [beAt, slice, natOfBE, natOfLE, List.drop, List.take, List.reverse_cons, List.reverse_nil, List.nil_append,
    List.cons_append]
  omega

/-- The repeat flag and the number of reads share the word after the address. -/
theorem beAt_count {p : List Byte} {a h l : Byte} (hp : p = [a, h, l]) :
    decide (0x8000 ≤ beAt p 1 2) = h.getLsbD 7 ∧ beAt p 1 2 % 0x8000 = (h.toNat % 128) * 256 + l.toNat := by
  have hh := h.isLt
  have hl := l.isLt
  rw [beAt_afterFirst hp]
  refine ⟨?_, by omega⟩
  rw [← BitVec.msb_eq_getLsbD_last h, BitVec.msb_eq_decide]
  exact decide_eq_decide.2 (by omega)

/-- A READ fits the register space where its last address does; with repeat the address stands. -/
theorem readFits_of_end_le {a step n : Nat} {rep : Bool} (hstep : step = if rep then 0 else 2) (heven : a % 2 = 0) (hle : a ≤ 0x7E)
    (hend : a + step * n ≤ 0x80) : readFits a rep n = true := by
  unfold readFits
  cases rep with
  | true => simp [heven, hle]
  | false =>
    have hend' : a + 2 * n ≤ 0x80 := by rwa [hstep] at hend
    simp [heven, hle, hend']

/-- A READ within the register space is executed and answered. -/
theorem State.descantRead_fits {s : State} {f : RxFrame} {a h l : Byte} {n : Nat} (hp : f.frame.payload = [a, h, l])
    (hn : n = (h.toNat % 128) * 256 + l.toNat) (hle : n ≤ 511) (hfit : readFits a.toNat (h.getLsbD 7) n = true) :
    s.descantRead f = (s.remoteRead a.toNat (h.getLsbD 7) n).2.answered f (s.remoteRead a.toNat (h.getLsbD 7) n).1 := by
  obtain ⟨hrep, hcount⟩ := beAt_count hp
  have ha : payAt f.frame.payload 0 = a := by rw [hp]; rfl
  have hlen : f.frame.payload.length = 3 := by rw [hp]; rfl
  unfold State.descantRead
  simp only [hrep, hcount, ha, hlen, ← hn, hfit, hle, decide_true, Bool.and_self, if_true, replyTo_eq]

/-- A repeat within 2 s brings the stored reply again, and is counted (R376, R400). -/
theorem State.orRepeat_stored {s : State} {f : RxFrame} {x : Stored} {rest : List Stored} (hs : s.dn.stored = x :: rest)
    (hsrc : x.src = f.frame.src) (hseq : x.seq = f.frame.seq) (hcrc : x.crc = crc32 f.frame.payload)
    (htype : x.reply.type = f.frame.type) (hw : s.within x.at_ 2000 = true) (hv : s.dn.vioCnt.toNat < 0xFFFE) (g : State → State) :
    s.orRepeat f g = { s with dn := { s.dn with vioCnt := s.dn.vioCnt + 1 },
                              dl := { s.dl with queue := s.dl.queue ++ [s.queued x.reply f.port] } } := by
  unfold State.orRepeat
  rw [hs, List.find?_cons_of_pos (by simp [hsrc, hseq, hcrc, htype, hw])]
  dsimp only
  rw [dnCount_lt s hv]
  rfl

/-! ## WRITE (R377, R437) -/

theorem triples_ne_nil {bs : List Byte} (hfit : triplesFit bs = true) (hne : bs ≠ []) : triples bs ≠ [] := by
  match bs, hne with
  | [_], _ => exact absurd hfit (by simp [triplesFit])
  | [_, _], _ => exact absurd hfit (by simp [triplesFit])
  | _ :: _ :: _ :: _, _ => exact List.cons_ne_nil _ _

/-- With RLOCK clear the triples are applied in order, the writer's unlock idle before and after. -/
theorem State.remoteWrite_unlocked {s : State} (h : s.hb.rlock = false) (w : Writer) (who : Nat) (bs : List Byte) :
    s.remoteWrite w who bs = ((State.applyTriples w (triples bs) (s.setArm w .idle)).1,
      (State.applyTriples w (triples bs) (s.setArm w .idle)).2.setArm w .idle) := by
  unfold State.remoteWrite
  rw [h]
  rfl

/-- With RLOCK set every triple is refused and one event says so. -/
theorem State.remoteWrite_locked {s : State} (h : s.hb.rlock = true) (w : Writer) (who : Nat) {bs : List Byte}
    (hfit : triplesFit bs = true) (hne : bs ≠ []) (hroom : s.ev.buf.length < 32) :
    s.remoteWrite w who bs = ((triples bs).length,
      { s with ev := { s.ev with buf := s.ev.buf ++ [s.eventOf 0x0E05 (who + (triples bs).length * 256)] } }) := by
  have hts : (triples bs).isEmpty = false := List.isEmpty_eq_false_iff.2 (triples_ne_nil hfit hne)
  unfold State.remoteWrite
  simp only [h, hts, if_true, Bool.false_eq_true, if_false, evData_two, State.logEv_room _ _ _ hroom]
  rfl

theorem State.writerMay_iff (s : State) (f : RxFrame) :
    s.writerMay f = true ↔ f.frame.src = 0 ∨ bitAt (s.nvReg 0x46) 9 = true := by
  simp [State.writerMay]

/-- A permitted WRITE of whole triples is executed, and answered with the number refused. -/
theorem State.descantWrite_permitted {s : State} {f : RxFrame} (hmay : f.frame.src = 0 ∨ bitAt (s.nvReg 0x46) 9 = true)
    (hfit : triplesFit f.frame.payload = true) :
    s.descantWrite f = (s.remoteWrite .descant 1 f.frame.payload).2.answered f
      (bytesBE 2 (s.remoteWrite .descant 1 f.frame.payload).1) := by
  unfold State.descantWrite
  rw [(s.writerMay_iff f).2 hmay, hfit]
  rfl

/-- A WRITE from a node other than the head while NWR is 0 is a violation and refused (R400). -/
theorem State.descantWrite_notPermitted {s : State} {f : RxFrame} (hsrc : f.frame.src ≠ 0) (hnwr : bitAt (s.nvReg 0x46) 9 = false)
    (hlog : s.mayLog 0x0C14) : s.descantWrite f = (s.networkViolated 0x0C14 f.frame.src.toNat).nacked f 0x05 := by
  have hmay : s.writerMay f = false := by
    rw [← Bool.not_eq_true, s.writerMay_iff f, hnwr]
    simpa using hsrc
  unfold State.descantWrite State.notPermitted
  rw [hmay, dnVio_eq s _ _ hlog, nackTo_eq]
  rfl

/-! ## Replies and NACKs (R371, R374, R375) -/

/-- A reply without a request is a violation (R400). -/
theorem State.takeReply_stray {s : State} {f : RxFrame} (hreqs : s.dn.reqs = []) (hlog : s.mayLog 0x0C18)
    (g : Request → State → State) :
    s.takeReply f g = s.networkViolated 0x0C18 (f.frame.src.toNat + f.frame.seq.toNat * 65536) := by
  unfold State.takeReply State.openReq
  rw [hreqs]
  show s.strayReply f = _
  unfold State.strayReply
  rw [evData_two, dnVio_eq s _ _ hlog]
  rfl

/-- A request at the front of its list is the one found and closed. -/
theorem State.openReq_front {s : State} {r : Request} {rest : List Request} (hreqs : s.dn.reqs = r :: rest) :
    s.openReq r.frame.type r.frame.seq r.frame.dest = some r := by
  unfold State.openReq
  rw [hreqs, List.find?_cons_of_pos (by simp)]

theorem State.closeReq_front {s : State} {r : Request} {rest : List Request} (hreqs : s.dn.reqs = r :: rest) :
    s.closeReq r = { s with dn := { s.dn with reqs := rest } } := by
  unfold State.closeReq
  rw [hreqs, List.erase_cons_head]

/-- The SEQ a NACK names. -/
theorem beAt_nackSeq {p : List Byte} {ty h l code : Byte} {q : Word} (hp : p = [ty, h, l, code]) (hq : q.toNat = h.toNat * 256 + l.toNat) :
    BitVec.ofNat 16 (beAt p 1 2) = q := by
  rw [beAt_afterFirst hp, ← hq, BitVec.ofNat_toNat, BitVec.setWidth_eq]

/-- A NACK of the host's request settles it, and the host reads it in the receive FIFO (R379). -/
theorem State.takeNack_host {s : State} {f : RxFrame} {r : Request} {rest : List Request} {ty h l code : Byte}
    (hp : f.frame.payload = [ty, h, l, code]) (h8 : ty ≠ 0x08) (h9 : ty ≠ 0x09) (hreqs : s.dn.reqs = r :: rest)
    (htype : r.frame.type = ty) (hseq : r.frame.seq.toNat = h.toNat * 256 + l.toNat) (hdest : r.frame.dest = f.frame.src)
    (hhost : r.host = true) (hroom : s.dn.rxf.length + 12 ≤ 4120) :
    s.takeNack f = { s with dn := { s.dn with reqs := rest, rxf := s.dn.rxf ++ fifoWords (entryBytes f.frame) } } := by
  have hlen : f.frame.payload.length = 4 := by rw [hp]; rfl
  have hty : payAt f.frame.payload 0 = ty := by rw [hp]; rfl
  have hopen : s.openReq ty (BitVec.ofNat 16 (beAt f.frame.payload 1 2)) f.frame.src = some r := by
    rw [beAt_nackSeq hp hseq, ← htype, ← hdest, State.openReq_front hreqs]
  unfold State.takeNack
  simp only [hlen, hty, h8, h9, hopen, hhost, ne_eq, not_true_eq_false, or_self, if_false, if_true,
    State.closeReq_front hreqs]
  exact dnPush_room _ _ (by rw [hlen]; exact hroom)

/-- NACK 0x85 of a RESTORE ends the wait for its acknowledgement (R277). -/
theorem State.takeNack_restoreRefused {s : State} {f : RxFrame} {h l : Byte} (hp : f.frame.payload = [0x08, h, l, 0x85]) :
    s.takeNack f = { s with an := { s.an with restoreWait := none } } := by
  unfold State.takeNack
  rw [hp]
  rfl

/-! ## Dropped frames (R352, R366) -/

theorem exec_descantFrameDropped {s : State} (hc : s.coreOn = true) (hl : s.lineOn = true) (k : DropKind)
    (hk : ∀ kind, k ≠ .reservedKind kind) : exec (.descantFrameDropped k) s = .next (s.dropFrame k) := by
  refine State.when_next s (by rw [hc, hl]; rfl) ?_
  cases k with
  | reservedKind kind => exact absurd rfl (hk kind)
  | _ => rfl

theorem exec_descantFrameDropped_reservedKind {s : State} (hc : s.coreOn = true) (hl : s.lineOn = true) (kind : Byte)
    (hlog : s.mayLog 0x0C1A) : exec (.descantFrameDropped (.reservedKind kind)) s = .next (s.networkViolated 0x0C1A kind.toNat) :=
  State.when_next s (by rw [hc, hl]; rfl) (dnVio_eq s _ _ hlog)

/-- A port's count changes neither HERR nor the second's count. -/
theorem State.setLive_header (s : State) (p : Port) (g : PortLive → PortLive) :
    (s.setLive p g).dl.herr = s.dl.herr ∧ (s.setLive p g).dl.secHdr = s.dl.secHdr := by
  cases p <;> exact ⟨rfl, rfl⟩

/-- A frame with a bad header CRC, the port's count not about to pin. -/
theorem State.dropFrame_header {s : State} {p : Port} (h : (s.live p).hdrErr.toNat < 0xFFFE) :
    State.sameBut [.dl] s (s.dropFrame (.header p)) ∧ (s.dropFrame (.header p)).dl.herr = true ∧
      (s.dropFrame (.header p)).dl.secHdr = s.dl.secHdr + 1 ∧
      (s.dropFrame (.header p)).live p = { s.live p with hdrErr := (s.live p).hdrErr + 1 } ∧
      (s.dropFrame (.header p)).live (otherPort p) = s.live (otherPort p) := by
  obtain ⟨hinc, hpin⟩ := satInc_lt h
  unfold State.dropFrame
  dsimp only
  rw [State.pinned_not _ _ _ _ (by rw [(setLive_live ..).1]; exact hpin)]
  exact ⟨((State.setLive_keeps ..).after (Keeps.upd (Keeps.refl [.dl] s))).left, (State.setLive_header ..).1, (State.setLive_header ..).2,
    (setLive_live ..).1.trans (congrArg (fun c => ({ s.live p with hdrErr := c } : PortLive)) hinc), (setLive_live ..).2⟩

theorem State.failsOf_setFails (s : State) (p : Port) (peer : BitVec 6) (n : Nat) : (s.setFails p peer (n + 1)).failsOf p peer = n + 1 := by
  simp [State.failsOf, State.setFails]

/-- A frame with a bad payload CRC; one with LOAD 1 is a failure of its peer's. -/
theorem State.dropFrame_payload (s : State) (p : Port) (peer : BitVec 6) (load : Bool) :
    State.sameBut [.dl] s (s.dropFrame (.payload p peer load)) ∧ (s.dropFrame (.payload p peer load)).dl.secPay = s.dl.secPay + 1 ∧
      (s.dropFrame (.payload p peer load)).failsOf p peer = s.failsOf p peer + b2n load := by
  cases load with
  | false => exact ⟨(Keeps.upd (Keeps.refl [.dl] s)).left, rfl, rfl⟩
  | true =>
    exact ⟨((State.setFails_keeps ..).after (Keeps.upd (Keeps.refl [.dl] s))).left, rfl,
      State.failsOf_setFails _ p peer (s.failsOf p peer)⟩

/-! ## The host's frames (R379) -/

/-- A network event with room for it, and its interrupt. -/
theorem State.dnEvent_room {s : State} (h : s.ev.buf.length < 32) (code : Word) (data : Nat) :
    s.dnEvent code data = { s with hb := { s.hb with irq := s.hb.irq ||| 0x1000#16 },
                                   ev := { s.ev with buf := s.ev.buf ++ [s.eventOf code data] } } := by
  unfold State.dnEvent
  rw [State.logEv_room s _ _ h]
  rfl

/-- A whole frame of the host, no SWEEP, leaves the transmit FIFO: sent where the host may issue it, else event 0x0C0C. -/
theorem exec_hostFrameIssue {s : State} {dest : BitVec 12} {type flags : Byte} {payload rest : List Byte} (hr : s.runOrDrain = true)
    (htx : s.dn.txf = hostFrame dest type flags payload ++ rest) (hlen : payload.length ≤ 1024) (h6 : type ≠ 0x06) :
    exec .hostFrameIssue s = .next (if s.hostMay type flags
      then State.hostSend { s with dn := { s.dn with txf := rest } } dest type flags payload
      else State.dnEvent { s with dn := { s.dn with txf := rest } } 0x0C0C type.toNat) := by
  obtain ⟨hl, hd, ht, hf, hp, hrest, hready⟩ := s.txf_read dest type flags payload rest htx hlen
  refine State.when_next s (by rw [hr, hready]; rfl) ?_
  have hsweep : (type == 0x06#8) = false := beq_eq_false_iff_ne.2 h6
  have hshort : ¬ 1024 < payload.length := by omega
  unfold State.issueHostFrame
  rw [hl] at hp hrest
  simp only [hl, hd, ht, hf, hp, hrest, hsweep, h6, hshort, if_false, Bool.false_and, Bool.or_false, decide_false, Bool.false_or]
  cases s.hostMay type flags <;> rfl

/-- In the system the host may send a READ, a WRITE or a REPORT to one node. -/
theorem State.hostMay_request {s : State} {type flags : Byte} (hin : s.inSystem = true) (ht : type = 0x01 ∨ type = 0x02 ∨ type = 0x03)
    (hall : flags.getLsbD 3 = false) : s.hostMay type flags = true := by
  have hmem : [0x01#8, 0x02#8, 0x03#8].contains type = true := by rcases ht with rfl | rfl | rfl <;> rfl
  unfold State.hostMay
  rw [hmem, hall, hin, Bool.true_or, Bool.not_false, Bool.or_true]
  rfl

/-- Neither type 0x00 nor one above 0x07 is the host's to issue. -/
theorem State.hostMay_reserved (s : State) {type : Byte} (flags : Byte) (ht : type = 0x00 ∨ 0x08 ≤ type.toNat) :
    s.hostMay type flags = false := by
  have hnot : ∀ bs : List Byte, (∀ b ∈ bs, b ≠ 0x00 ∧ b.toNat < 0x08) → bs.contains type = false := by
    intro bs hbs
    rw [← Bool.not_eq_true, List.contains_iff_mem]
    intro hmem
    obtain ⟨h0, hlt⟩ := hbs type hmem
    exact ht.elim h0 (Nat.not_le.2 hlt)
  unfold State.hostMay
  rw [hnot [0x01#8, 0x02#8, 0x03#8] (by decide), hnot [0x06#8, 0x07#8] (by decide), Bool.and_false, Bool.or_self, Bool.false_and]
  rfl

/-- A request of the host's goes out and its reply is awaited. -/
theorem State.hostSend_request (s : State) (dest : BitVec 12) {type flags : Byte} (payload : List Byte)
    (ht : type ≠ 0x03) (hall : flags.getLsbD 3 = false) : s.hostSend dest type flags payload = s.asked dest type payload true := by
  unfold State.hostSend
  rw [hall, asked_eq]
  exact if_neg (not_or.2 ⟨ht, Bool.false_ne_true⟩)

/-- A REPORT of the host's goes out, and no reply is awaited (R374). -/
theorem State.hostSend_report (s : State) (dest : BitVec 12) {flags : Byte} (payload : List Byte) (hall : flags.getLsbD 3 = false) :
    s.hostSend dest 0x03 flags payload =
      { s with dn := { s.dn with seq := s.dn.seq + 1#16 },
               dl := { s.dl with queue := s.dl.queue ++ (s.portsFor dest).map (s.queued (s.ownFrame dest 0x03 0 payload)) } } := by
  have hflags : flags.extractLsb' 0 5 &&& 0x08#5 = 0 := by
    refine BitVec.eq_of_getLsbD_eq fun i hi => ?_
    rw [BitVec.getLsbD_and, BitVec.getLsbD_extractLsb', Nat.zero_add]
    by_cases h3 : i = 3
    · rw [h3, hall]
      rfl
    · have hbit : (0x08#5).getLsbD i = false := by
        revert h3
        interval_cases i <;> decide
      rw [hbit, Bool.and_false]
      exact BitVec.getLsbD_zero.symm
  unfold State.hostSend
  rw [hflags, State.originate_to]
  exact if_pos (Or.inl rfl)

/-! ## Requests without a reply (R375) -/

/-- The frame of a request sent again: RTY set, a TIME request stamped anew. -/
theorem State.requestTimeout_resends {s : State} {r : Request} {rest : List Request} {g : DFrame} (hreqs : s.dn.reqs = r :: rest)
    (hrest : ∀ x ∈ rest, x.frame.seq ≠ r.frame.seq) (htries : r.tries < fld (s.dsw 0x2003) 0 3)
    (hg : g = { r.frame with flags := r.frame.flags ||| 0x04#5,
                             payload := if r.frame.type = 0x0B then timeBytes s.ck.lsec s.ck.lcyc else r.frame.payload }) :
    s.requestTimeout r.frame.seq =
      { s with dn := { s.dn with reqs := { r with frame := g, tries := r.tries + 1 } :: rest },
               dl := { s.dl with queue := s.dl.queue ++ [s.queued g r.port] } } := by
  have hframe : (if r.frame.type = 0x0B then
      { r.frame with flags := r.frame.flags ||| 0x04#5, payload := timeBytes s.ck.lsec s.ck.lcyc }
      else { r.frame with flags := r.frame.flags ||| 0x04#5 }) = g := by
    rw [hg]
    split <;> rfl
  have hothers : rest.map (fun x => if x.frame.seq == r.frame.seq then { r with frame := g, tries := r.tries + 1 } else x) = rest :=
    (List.map_congr_left (g := id) fun x hx => if_neg (by simpa using hrest x hx)).trans (List.map_id rest)
  unfold State.requestTimeout
  rw [hreqs, List.find?_cons_of_pos (by simp)]
  simp only [htries, if_true, hframe, List.map_cons, beq_self_eq_true, hothers]
  rfl

/-- The host's request given up after its last resend: RTXCNT counts it, its count not about to pin, and the host reads NACK 0x08. -/
theorem State.requestTimeout_host {s : State} {r : Request} {rest : List Request} (hreqs : s.dn.reqs = r :: rest)
    (htries : fld (s.dsw 0x2003) 0 3 ≤ r.tries) (hhost : r.host = true) (hcnt : s.dn.rtxCnt.toNat < 0xFFFE)
    (hroom : s.dn.rxf.length + 12 ≤ 4120) :
    s.requestTimeout r.frame.seq =
      { s with dn := { s.dn with
        reqs := rest, rtxCnt := s.dn.rtxCnt + 1,
        rxf := s.dn.rxf ++ fifoWords (entryBytes { dest := s.ownAddr, src := r.frame.dest, type := 0x0A, seq := r.frame.seq, flags := 0,
                                                   payload := [r.frame.type] ++ bytesBE 2 r.frame.seq.toNat ++ [0x08] }) } } := by
  obtain ⟨hinc, hpin⟩ := satInc_lt hcnt
  unfold State.requestTimeout
  rw [hreqs, List.find?_cons_of_pos (by simp)]
  dsimp only
  rw [if_neg (Nat.not_lt.2 htries), State.pinned_not _ _ _ _ hpin, hhost, if_pos rfl, State.closeReq_front hreqs, hinc]
  exact dnPush_room _ _ hroom

/-! ## The obligation -/

/-- Settles O55, clause by clause: reception is `State.takeFrame_hears`, then what each command does in the state it leaves. The data of
0x0C0C, 0x0C10, 0x0C18 and 0x0E05 are packed as log entry 12 says. -/
theorem networkRequests : Obligations.NetworkRequests := by
  unfold Obligations.NetworkRequests
  refine ⟨?read, ?readAgain, ?write, ?writeLocked, ?writeNotPermitted, ?report, ?reportRefused, ?reply, ?strayReply, ?nack, ?restoreNack,
    ?reserved, ?header, ?payload, ?search, ?kind, ?request, ?hostReport, ?hostReserved, ?resend, ?giveUp⟩
  case read =>
    rintro s _ f a h l n step hnew rfl hp hn hstep heven hle hn511 hend
    have hfit := readFits_of_end_le hstep heven hle hend
    obtain ⟨v, hv0, hsteps, hread⟩ := remoteRead_steps (h.getLsbD 7) step hstep n (s.heard f) a.toNat
    refine ⟨v, hv0, hsteps, ?_⟩
    rw [exec_descantRead_new hnew, State.descantRead_fits hp hn hn511 hfit, hread]
  case readAgain =>
    rintro s _ f x rest hh rfl ht hrsp hall hstored hsrc hseq hcrc htype hw hv
    have hpw : (s.heard f).pw = s.pw := (s.heard_keeps f).eqPw
    obtain ⟨down, hdn⟩ := heard_dn s f
    rw [exec_descantRead_hears hh ht hrsp hall]
    exact congrArg Host.Outcome.next (State.orRepeat_stored (by rw [hdn]; exact hstored) hsrc hseq hcrc (htype.trans ht.symm)
      (by unfold State.within; rw [hpw]; exact hw) (by rw [hdn]; exact hv) _)
  case write =>
    rintro s _ f ts hnew rfl hmay hp hts hopen
    obtain ⟨v, hv0, hsteps, happly⟩ := applyTriples_steps .descant ts ((s.heard f).setArm .descant .idle)
    refine ⟨v, hv0, hsteps, ?_⟩
    rw [exec_descantWrite_new hnew, State.descantWrite_permitted hmay (by rw [hp]; exact triplesFit_of ts hts),
      State.remoteWrite_unlocked hopen, hp, triples_flatten ts hts, happly]
    rfl
  case writeLocked =>
    rintro s _ f hnew rfl hsrc hfit hne hlock hroom
    rw [exec_descantWrite_new hnew, State.descantWrite_permitted (.inl hsrc) hfit, State.remoteWrite_locked hlock _ _ hfit hne hroom]
  case writeNotPermitted =>
    rintro s _ f hnew rfl hsrc hnwr hlog
    rw [exec_descantWrite_new hnew, State.descantWrite_notPermitted hsrc hnwr hlog]
  case report =>
    rintro s _ f hh rfl ht hroom
    rw [exec_report_hears hh ht, if_pos ((State.dnFits_iff _ _).2 hroom), dnPush_room _ _ hroom]
  case reportRefused =>
    rintro s _ f hh rfl ht hfull
    rw [exec_report_hears hh ht, if_neg (mt (State.dnFits_iff _ _).1 (Nat.not_le.2 hfull)), nackTo_eq]
  case reply =>
    rintro s _ f r rest hh rfl ht hrsp hawaits hhost hroom
    rw [exec_descantReply_hears hh ht hrsp, takeReply_found _ f r rest hawaits, if_pos hhost]
    exact congrArg Host.Outcome.next (dnPush_room _ _ hroom)
  case strayReply =>
    rintro s _ f hh rfl ht hrsp hreqs hlog
    rw [exec_descantReply_hears hh ht hrsp, State.takeReply_stray hreqs hlog]
  case nack =>
    rintro s _ f r rest ty h l code hh rfl ht hp h8 h9 hreqs htype hseq hdest hhost hroom
    rw [exec_descantNack_hears hh ht, State.takeNack_host hp h8 h9 hreqs htype hseq hdest hhost hroom]
  case restoreNack =>
    rintro s _ f h l hh rfl ht hp
    rw [exec_descantNack_hears hh ht, State.takeNack_restoreRefused hp]
  case reserved =>
    rintro s _ f hh rfl ht hlog
    rw [exec_descantReservedType_hears hh ht, dnVio_eq _ _ _ hlog]
  case header =>
    intro s p hc hl hcnt
    exact ⟨_, exec_descantFrameDropped hc hl (.header p) (by simp), State.dropFrame_header hcnt⟩
  case payload =>
    intro s p peer load hc hl
    exact ⟨_, exec_descantFrameDropped hc hl (.payload p peer load) (by simp), s.dropFrame_payload p peer load⟩
  case search =>
    intro s hc hl
    exact exec_descantFrameDropped hc hl .search (by simp)
  case kind =>
    intro s kind hc hl hlog
    exact exec_descantFrameDropped_reservedKind hc hl kind hlog
  case request =>
    intro s dest type flags payload rest hr hin htx hlen ht hall
    have h3 : type ≠ 0x03 := by rcases ht with rfl | rfl <;> decide
    have h6 : type ≠ 0x06 := by rcases ht with rfl | rfl <;> decide
    rw [exec_hostFrameIssue hr htx hlen h6, if_pos (State.hostMay_request hin (ht.imp_right .inl) hall),
      State.hostSend_request _ _ _ h3 hall]
  case hostReport =>
    intro s dest flags payload rest hr hin htx hlen hall
    rw [exec_hostFrameIssue hr htx hlen (by decide), if_pos (State.hostMay_request hin (.inr (.inr rfl)) hall),
      State.hostSend_report _ _ _ hall]
    rfl
  case hostReserved =>
    intro s dest type flags payload rest hr hroom htx hlen ht
    have h6 : type ≠ 0x06 := by
      rintro rfl
      exact absurd ht (by decide)
    rw [exec_hostFrameIssue hr htx hlen h6, State.hostMay_reserved s flags ht, if_neg Bool.false_ne_true]
    exact congrArg Host.Outcome.next (State.dnEvent_room (s := { s with dn := { s.dn with txf := rest } }) hroom 0x0C0C type.toNat)
  case resend =>
    intro s r rest g hc hreqs hrest htries hg
    exact State.when_next s hc (State.requestTimeout_resends hreqs hrest htries hg)
  case giveUp =>
    intro s r rest hc hreqs htries hhost hcnt hroom
    exact State.when_next s hc (State.requestTimeout_host hreqs htries hhost hcnt hroom)

end Sys2Proof.Machine
end

section
/-! PROOF. The queue, reset and the whole machine: a step takes the front command; every command has a next state, which keeps what the
command does not list and the invariant. -/

/- Proofs are elaborated one after the other: in parallel they outrun the kernel's checks of the text before them, and each that waits
holds a thread's memory. -/
set_option Elab.async false

open Sys2Proof

namespace Sys2Proof.Machine

/-! ## The queue and reset -/

/-- Settles O1: the queue's first case of `step`. -/
theorem stepRunsTheFrontCommand : Obligations.StepRunsTheFrontCommand := by
  intro c rest s h
  unfold step
  rw [h]

/-- Settles O2: the empty queue is the other case of `step` (log entry 19). -/
theorem emptyQueueIdles : Obligations.EmptyQueueIdles := by
  intro s h
  unfold step
  rw [h]

/-- Settles O5: after reset every list is empty but the 32 rules. -/
theorem resetHasTheInvariant : Obligations.ResetHasTheInvariant :=
  ⟨⟨rfl, Nat.zero_le _⟩, Nat.zero_le _, ⟨Nat.zero_le _, fun _ hr => absurd hr List.not_mem_nil⟩,
    ⟨Nat.zero_le _, Nat.zero_le _⟩, ⟨Nat.zero_le _, Nat.zero_le _⟩, rfl⟩

/-! ## Outcomes -/

/-- The outcome is a next state, and from s to it only the parts listed may differ; the serial number and the invariant stand. -/
def Completes (L : List Part) (s : State) (o : Host.Outcome State Fault Refusal) : Prop := ∃ t, o = .next t ∧ Keeps L s t

section

variable {L : List Part} {s t : State} {b : Bool} {f : State → State}

theorem Completes.of (h : Keeps L s t) : Completes L s (.next t) := ⟨t, rfl, h⟩

/-- An effect that only a fit state has (log entry 1). -/
theorem Completes.when (h : ∀ t, Keeps L t (f t)) : Completes L s (.next (s.when b f)) := .of (State.when_keeps s b f h rfl)

/-- An effect that only a fit state has, after one that every state has. -/
theorem Completes.whenAfter (ht : Keeps L s t) (h : ∀ u, Keeps L u (f u)) : Completes L s (.next (t.when b f)) :=
  .of ((State.when_keeps t b f h rfl).next ht)

/-- An entry of the event table that is due. -/
theorem Completes.onTime {n : BitVec 6} {now : Nat} {action : Nat → Bool} {g : State → Entry → State} (h : ∀ t e, Keeps L t (g t e))
    (hL : List.all [.orr] (L.contains ·) = true := by with_unfolding_all rfl) : Completes L s (.next (s.onTime n now action g)) :=
  .of (State.onTime_keeps s n now action g h hL)

/-- A search frame's effect after its reception. -/
theorem Completes.takeSearch {r : RxSearch} (h : ∀ t, Keeps L t (f t))
    (hL : List.all [.dl] (L.contains ·) = true := by with_unfolding_all rfl) : Completes L s (.next (s.takeSearch r f)) :=
  .of (State.takeSearch_keeps s r f h hL)

/-- A Descant frame's effect after its reception. -/
theorem Completes.takeFrame {x : RxFrame} (h : ∀ t, Keeps L t (f t))
    (hL : List.all [.nv, .fram, .ev, .dl, .dn, .pl, .irq, .hb] (L.contains ·) = true := by with_unfolding_all rfl) :
    Completes L s (.next (s.when b (fun t => t.takeFrame x f))) :=
  .when fun t => State.takeFrame_keeps t x f h hL

/-- An Antiphon message's effect after its reception. -/
theorem Completes.anFrame {x : RxFrame} {kind : Byte} {g : List Byte → State → State} (h : ∀ p t, Keeps L t (g p t))
    (hL : List.all [.nv, .fram, .ev, .an, .dl, .dn, .pl, .irq, .hb] (L.contains ·) = true := by with_unfolding_all rfl) :
    Completes L s (.next (s.anFrame x kind g)) :=
  .of (State.anFrame_keeps s x kind g h hL)

/-- A Cantus request's effect after its reception. -/
theorem Completes.tnRequest {x : CFrame} (h : ∀ t, Keeps L t (f t))
    (hL : List.all [.ev, .tn, .pl, .irq, .hb] (L.contains ·) = true := by with_unfolding_all rfl) :
    Completes L s (.next (s.tnRequest x b f)) :=
  .of (State.tnRequest_keeps s x b f h hL)

end

/-! ## Commands with cases of their own -/

/-- An entry that sets the channel, with a host commit of AD_CTL in the same cycle or none (R167). -/
theorem execOrrSetChannel_completes (n : BitVec 6) (now : Nat) (host : Option Byte) (s : State) :
    Completes registerParts s (execOrrSetChannel n now host s) := by
  have h := State.onTime_keeps (L := registerParts) s n now (· == 1) (fun t e => t.setChannel (e.arg.extractLsb' 0 4) n.toNat)
    (fun t e => (State.setChannel_keeps ..).mono) rfl
  cases host with
  | none => exact .of h
  | some hi => exact .of (Keeps.ite (fun _ => (State.adCommitBeside_keeps ..).after h) (fun _ => (State.hostCommit_keeps ..).after h))

/-- A block of the converter's estimator or of a port's (R212, R365). -/
theorem execNoiseBlockTransform_completes (b : NoiseBlock) (s : State) : Completes [.fe, .dl] s (execNoiseBlockTransform b s) := by
  cases b with
  | converter => exact .when fun t => (State.converterBlock_keeps t).mono
  | line p noise =>
    exact .when fun t => State.when_keeps t _ _
      (fun u => Keeps.ite (fun _ => Keeps.upd (Keeps.refl _ u)) (fun _ => Keeps.upd (Keeps.refl _ u))) rfl

/-- A RESTORE that waits for its acknowledgement, or none (R277). -/
theorem execRestoreAckTimeout_completes (s : State) : Completes [.ev, .an, .pl, .hb] s (execRestoreAckTimeout s) := by
  refine .when fun t => ?_
  split
  · exact (State.anVio_keeps ..).after (Keeps.upd (Keeps.refl _ t))
  · exact Keeps.refl _ t

/-- A reception cut by the carrier or by the parity (R332). -/
theorem execCantusReceiveAbort_completes (k : AbortKind) (bytes : Nat) (s : State) :
    Completes [.ev, .tn, .pl, .irq, .hb] s (execCantusReceiveAbort k bytes s) := by
  cases k with
  | carrier => exact .when fun t => (State.tnVio_keeps ..).after (Keeps.upd (Keeps.refl _ t))
  | parity => exact .when fun t => State.when_keeps t _ _ (fun u => (State.tnVio_keeps ..).mono) rfl

/-- A dropped frame of each kind (R366, R400). -/
theorem execDescantFrameDropped_completes (k : DropKind) (s : State) :
    Completes [.ev, .dl, .dn, .pl, .irq, .hb] s (execDescantFrameDropped k s) := by
  refine .when fun t => ?_
  split
  · exact (State.dnVio_keeps ..).mono
  · exact (State.dropFrame_keeps ..).mono

/-- A reply to JOIN for a search of its own, or for none (R393). -/
theorem execJoinReply_completes (f : RxFrame) (s : State) :
    Completes [.nv, .fram, .ev, .dl, .dn, .pl, .irq, .hb] s (execJoinReply f s) := by
  refine .takeFrame fun u => State.takeReply_keeps _ _ _ (fun _ v => ?_) rfl
  split
  · exact (State.assigned_keeps ..).mono
  · exact Keeps.refl _ v

/-! ## Every command -/

/-- Every command completes within the parts it lists: each arm is what its operation keeps. -/
theorem exec_completes (c : Instr) (s : State) : Completes (touches c) s (exec c s) := by
  cases c with
  | resetRelease _ _ _ => exact .when fun t => (State.resetEnd_keeps ..).mono
  | onRequest _ =>
    exact .when fun t => Keeps.ite (fun _ => (State.enterWake_keeps ..).after (Keeps.upd (Keeps.refl _ t)))
      (fun _ => (State.tryWake_keeps ..).after (Keeps.upd (Keeps.refl _ t)))
  | offLoss => exact .when fun t => (State.supplyLost_keeps ..).mono
  | offReset => exact .of (State.resetLow_keeps ..)
  | vbakBackupEntry _ => exact .whenAfter (State.takeVbak_keeps ..).mono fun t => (State.enterBackup_keeps t).mono
  | vbakDepleted _ =>
    exact .whenAfter (State.takeVbak_keeps ..).mono fun t => (State.enterOff_keeps _).after
      (State.when_keeps t _ _ (fun u => (State.zeroAtEnd_keeps u).mono) rfl)
  | wakeStepsDone _ => exact .when fun t => Keeps.ite (fun _ => (State.enterDrain_keeps ..).mono) (fun _ => (State.enterRails_keeps ..).mono)
  | railsDone _ => exact .when fun t => (State.enterCalib_keeps ..).mono
  | railsWaitOver5s => exact .when fun t => (State.logEv_keeps ..).after (Keeps.upd (Keeps.refl _ t))
  | calibDone _ => exact .when fun t => (State.enterRun_keeps ..).mono
  | drainDone _ _ => exact .whenAfter (State.takeVbak_keeps ..).mono fun t => (State.drainEnd_keeps ..).mono
  | thermalShutdown _ _ => exact .when fun t => (State.shutdown_keeps ..).mono
  | thermalCooled _ => exact .when fun t => (State.cooled_keeps ..).mono
  | governorTick _ =>
    exact .when fun t => Keeps.ite (fun _ => (State.coreTick_keeps ..).after (State.aonTick_keeps t).mono)
      (fun _ => (State.aonTick_keeps t).mono)
  | levelRise => exact .when fun t => Keeps.upd (Keeps.refl _ t)
  | serviceRestore => exact .when fun t => (State.restoreOne_keeps ..).mono
  | vresThresholdCross _ => exact .when fun t => (State.takeVres_keeps ..).mono
  | vresFall10v => exact .when fun t => (State.fall10_keeps ..).mono
  | vresFloor => exact .of (State.floor8_keeps ..)
  | vresFull _ =>
    exact .when fun t => (State.shedRise_keeps ..).after ((State.shedVres_keeps _).after ((State.chargeJudge_keeps _).after
      ((State.boostFull_keeps _).after (Keeps.upd (Keeps.refl _ t)))))
  | regRampEnd _ => exact .when fun t => (State.regRampEnd_keeps ..).mono
  | regRetryTimeout _ => exact .when fun t => (State.regRetry_keeps ..).mono
  | regUndervoltage _ => exact .when fun t => (State.regUnder_keeps ..).mono
  | regAttemptCountReset => exact .when fun t => Keeps.upd (Keeps.refl _ t)
  | regOvervoltage _ => exact .when fun t => (State.regOver_keeps ..).mono
  | setpointChange _ => exact .when fun t => (State.regSlewed_keeps ..).mono
  | vselChange _ => exact .when fun t => Keeps.upd (Keeps.refl _ t)
  | syncLock _ =>
    exact .when fun t => Keeps.ite (fun _ => (State.logEv_keeps ..).after (Keeps.upd (Keeps.refl _ t))) (fun _ => Keeps.upd (Keeps.refl _ t))
  | syncLoss => exact .when fun t => (State.irq_keeps ..).after ((State.logEv_keeps ..).after (Keeps.upd (Keeps.refl _ t)))
  | xtalFail => exact .when fun t => (State.xtalFail_keeps ..).mono
  | xtalReturn => exact .when fun t => Keeps.upd (Keeps.refl _ t)
  | measPllTimeout => exact .when fun t => (State.setCalf_keeps _).after (Keeps.upd (Keeps.refl _ t))
  | switchPllLock => exact .when fun t => (State.switchLock_keeps ..).mono
  | switchPllLockTimeout =>
    exact .when fun t => (State.irq_keeps ..).after ((State.logEv_keeps ..).after ((State.setCalf_keeps _).after
      (Keeps.upd (Keeps.refl _ t))))
  | switchPllLoss => exact .when fun t => (State.switchLoss_keeps ..).mono
  | tapCalibration => exact .when fun t => (State.tapCalibrate_keeps ..).mono
  | mainsLock _ => exact .when fun t => (State.irq_keeps ..).after ((State.logEv_keeps ..).after (Keeps.upd (Keeps.refl _ t)))
  | mainsRefAbsent _ => exact .when fun t => (State.mainsLost_keeps ..).mono
  | mainsRefReturn _ => exact .when fun t => Keeps.upd (Keeps.refl _ t)
  | rtcDiscipline => exact .when fun t => (State.discipline_keeps ..).mono
  | secondBoundary => exact .when fun t => (State.second_keeps ..).mono
  | hostCycleCoreStopped _ _ => exact .when fun t => (State.stoppedCycle_keeps ..).mono
  | toothEdge _ _ _ => exact .when fun u => (State.seenAt_keeps ..).after (State.edge_keeps ..).mono
  | syntheticTooth _ => exact .when fun u => (State.seenAt_keeps ..).after (State.insertSynthetic_keeps u).mono
  | standstill => exact .when fun t => (State.standstill_keeps ..).mono
  | orreryRestart => exact .when fun t => (State.auditRow_keeps ..).mono
  | orrSetChannel _ _ _ => exact execOrrSetChannel_completes ..
  | orrCommuteBridge _ _ =>
    exact .of (Keeps.ite (fun _ => State.when_keeps _ _ _ (fun t => (State.commuteDrain_keeps ..).mono) rfl)
      (fun _ => State.onTime_keeps _ _ _ _ _ (fun t e => (State.commute_keeps ..).mono) rfl))
  | orrSampleTag _ _ => exact .onTime fun t _ => (State.sampleTag_keeps ..).mono
  | orrStepNco _ _ => exact .onTime fun t _ => (State.setFw_keeps ..).mono
  | orrFeUpdate _ _ => exact .onTime fun t _ => (State.orrUpdate_keeps ..).mono
  | orrInterrupt _ _ => exact .onTime fun t _ => (State.orrInterrupt_keeps ..).mono
  | orrReservedAction _ _ => exact .onTime fun t _ => (State.reservedAction_keeps ..).mono
  | indexEdge => exact .when fun t => Keeps.upd (Keeps.refl _ t)
  | learnComplete =>
    exact .when fun t => Keeps.ite (fun _ => (State.learnAbort_keeps ..).after (State.refuseFull_keeps ..).mono)
      (fun _ => (State.queueChange_keeps ..).after (Keeps.upd (Keeps.refl _ t)))
  | learnAbort => exact .when fun t => (State.learnAbort_keeps ..).mono
  | carrierPeak _ => exact .when fun t => (State.carrierPeak_keeps ..).mono
  | carrierValley => exact .when fun t => (State.carrierValley_keeps ..).mono
  | bootstrapRefresh => exact .when fun t => (State.refresh_keeps ..).mono
  | coilOpen => exact .when fun t => (State.coilOpen_keeps ..).mono
  | boostCycleStart _ => exact .when fun t => (State.boostCycle_keeps ..).mono
  | boostCheckWindowEnd => exact .when fun t => (State.boostCheck_keeps ..).mono
  | boostLimitedRun => exact .when fun t => (State.boostStop_keeps ..).mono
  | boostRetryTimeout => exact .when fun t => (State.boostStart_keeps ..).mono
  | boostAttemptReset => exact .when fun t => Keeps.upd (Keeps.refl _ t)
  | faultInputTrip _ =>
    exact .of (Keeps.ite (fun _ => Keeps.refl _ s) (fun _ => Keeps.ite
      (fun _ => (State.frozenFault_keeps ..).after (State.fltPin_keeps ..).mono)
      (fun _ => State.when_keeps _ _ _ (fun t => (State.faultTrip_keeps ..).after (State.fltPin_keeps ..).mono) rfl)))
  | faultFlagClear _ _ => exact .when fun t => (State.hostCommit_keeps ..).after (Keeps.upd (Keeps.refl _ t))
  | faultAutoRestart _ =>
    exact .of (Keeps.ite (fun _ => Keeps.refl _ s) (fun _ => State.when_keeps _ _ _
      (fun t => (State.autoRestart_keeps ..).after (State.fltPin_keeps ..).mono) rfl))
  | conversionEnd _ => exact .when fun t => (State.convEnd_keeps ..).mono
  | daoCompliance _ => exact .when fun t => (State.compliance_keeps ..).mono
  | daoOpenLoop _ => exact .when fun t => (State.openLoop_keeps ..).mono
  | ncoZeroStop => exact .when fun t => Keeps.upd (Keeps.refl _ t)
  | magPairEnd _ => exact .when fun t => Keeps.upd (State.pairEnd_keeps ..).mono
  | inputStale _ => exact .when fun t => (State.inputStale_keeps ..).mono
  | adaptEvaluation =>
    exact .when fun t => Keeps.ite (fun _ => (State.evalMag_keeps t).mono)
      (fun _ => Keeps.ite (fun _ => (State.evalVor_keeps t).mono) (fun _ => Keeps.refl _ t))
  | noiseBlockTransform _ => exact execNoiseBlockTransform_completes ..
  | commitComplete => exact .when fun t => (State.sendRestoreAck_keeps _).after (State.commitComplete_keeps t).mono
  | eventEntryWrite => exact .when fun t => (State.writeEvent_keeps ..).mono
  | sealChange _ =>
    exact .when fun t => Keeps.ite (fun _ => (State.sealEdge_keeps ..).after (State.sealFrozen_keeps ..).mono)
      (fun _ => Keeps.ite (fun _ => (State.sealHeld_keeps ..).after (State.sealFrozen_keeps ..).mono)
        (fun _ => Keeps.upd (State.sealFrozen_keeps ..).mono))
  | unlockLapse => exact .when fun t => (State.setArm_keeps ..).mono
  | keyLoadTimeout => exact .when fun t => (State.abortLoad_keeps ..).mono
  | helloSend => exact .when fun t => (State.anSend_keeps ..).mono
  | hello _ => exact .anFrame fun _ t => (State.takeHello_keeps ..).mono
  | confirm _ => exact .anFrame fun _ t => (State.takeConfirm_keeps ..).mono
  | ceremonyTimeout => exact .when fun t => (State.abortCeremony_keeps ..).mono
  | exchangeInstant => exact .when fun t => (State.exchange_keeps ..).mono
  | call _ _ => exact .anFrame fun _ t => State.fromPartner_keeps _ _ _ (fun u => (State.takeCall_keeps ..).mono) rfl
  | answer _ => exact .anFrame fun _ t => State.fromPartner_keeps _ _ _ (fun u => (State.takeAnswerMsg_keeps ..).mono) rfl
  | exchangeMiss => exact .when fun t => (State.miss_keeps ..).mono
  | retractSend => exact .when fun t => (State.sendRetract_keeps ..).mono
  | retract _ => exact .anFrame fun _ t => State.fromPartner_keeps _ _ _ (fun u => (State.takeRetract_keeps ..).mono) rfl
  | noticeSend => exact .when fun t => Keeps.ite (fun _ => (State.sendNotice_keeps t).mono) (fun _ => Keeps.upd (Keeps.refl _ t))
  | notice _ => exact .anFrame fun _ t => State.fromPartner_keeps _ _ _ (fun u => (State.takeNotice_keeps ..).mono) rfl
  | restore _ => exact .anFrame fun _ t => (State.takeRestore_keeps ..).mono
  | cdigRecompute => exact .when fun t => (State.cdigTake_keeps ..).mono
  | readbackCheck => exact .when fun t => (State.readback_keeps ..).mono
  | loopFaultRetry =>
    exact .when fun t => (State.loopATick_keeps _).after ((State.clearReadback_keeps _).after (Keeps.upd (Keeps.refl _ t)))
  | fallbackTimeout _ => exact .when fun t => (State.logEv_keeps ..).after (Keeps.upd (State.toFallback_keeps t).mono)
  | lowv _ => exact .when fun t => (State.lowvTest_keeps ..).mono
  | loopBDecode => exact .when fun t => (State.decodeB_keeps ..).mono
  | loopBLimit _ => exact .when fun t => Keeps.upd (Keeps.refl _ t)
  | adaptiveTargetFall => exact .when fun t => Keeps.upd (Keeps.refl _ t)
  | foldRelease => exact .when fun t => (State.foldEvent_keeps ..).after (Keeps.upd (Keeps.refl _ t))
  | dieWarning _ => exact .when fun t => (State.dieWarn_keeps ..).mono
  | repeaterTimeout => exact .when fun t => Keeps.upd (Keeps.refl _ t)
  | loopSwitch => exact .when fun t => (State.switchLoop_keeps ..).mono
  | identify _ =>
    exact .tnRequest fun t => State.tnOnce_keeps _ _ _
      (fun u => Keeps.ite (fun _ => (State.tnReply_keeps ..).mono) (fun _ => (State.tnBad_keeps ..).mono)) rfl
  | cantusRead _ => exact .tnRequest fun t => State.tnOnce_keeps _ _ _ (fun u => (State.cantusRead_keeps ..).mono) rfl
  | cantusWrite _ => exact .tnRequest fun t => State.tnOnce_keeps _ _ _ (fun u => (State.cantusWrite_keeps ..).mono) rfl
  | cantusHostCommand _ => exact .tnRequest fun t => State.tnOnce_keeps _ _ _ (fun u => (State.tnHostCommand_keeps ..).mono) rfl
  | cantusReplySend => exact .when fun t => (State.tnReplySend_keeps ..).mono
  | hostReplySend => exact .when fun t => (State.tnHostReply_keeps ..).mono
  | masterRequestSend => exact .when fun t => (State.tnIssue_keeps ..).after (State.tnTake_keeps t).mono
  | masterReply _ =>
    exact .when fun t => Keeps.ite (fun _ => (State.tnHeard_keeps ..).mono)
      (fun _ => (State.tnMasterReply_keeps ..).after (State.tnHeard_keeps ..).mono)
  | replyTimeout => exact .when fun t => (State.tnTimeout_keeps ..).mono
  | lineJam =>
    exact .when fun t => Keeps.ite (fun _ => (State.tnCount_keeps _).after (Keeps.upd (Keeps.refl _ t)))
      (fun _ => (State.tnEvent_keeps ..).after ((State.tnCount_keeps _).after (Keeps.upd (Keeps.refl _ t))))
  | watchPoll => exact .when fun t => (State.watchNext_keeps _).after (Keeps.upd (Keeps.refl _ t))
  | passthroughTx => exact .when fun t => (State.passTx_keeps ..).mono
  | passthroughRx _ => exact .when fun t => (State.passRx_keeps ..).mono
  | lineLock _ => exact .when fun t => (State.dslEvent_keeps ..).after (Keeps.upd (Keeps.refl _ t))
  | lineLockLost =>
    exact .when fun t => (State.dslEvent_keeps ..).after ((State.pinned_keeps ..).after ((State.setLive_keeps ..).after
      (Keeps.upd (Keeps.refl _ t))))
  | dmtFrameStart _ => exact .when fun t => (State.frameGo_keeps ..).after (State.lineClear_keeps ..).mono
  | frameRelay _ => exact .when fun t => (State.relay_keeps ..).mono
  | trainStart _ _ => exact .when fun t => (State.sendTrain_keeps ..).mono
  | train _ => exact .takeSearch fun t => (State.rxTrainFrame_keeps ..).mono
  | trainingSymbolsEnd _ _ => exact .when fun t => (State.trainingEnd_keeps ..).mono
  | table _ => exact .takeSearch fun t => (State.rxTable_keeps ..).mono
  | tableAck _ => exact .takeSearch fun t => (State.rxTableAck_keeps ..).mono
  | trainTimeout => exact .when fun t => (State.trainTimeout_keeps ..).mono
  | trainRetry _ _ => exact .when fun t => (State.sendTrain_keeps ..).after (Keeps.upd (Keeps.refl _ t))
  | retrain _ => exact .takeSearch fun t => (State.rxRetrain_keeps ..).mono
  | retrainTrigger _ _ _ _ => exact .when fun t => (State.retrainTrigger_keeps ..).after (State.retrainTaken_keeps ..).mono
  | descantRead _ =>
    exact .takeFrame fun u => Keeps.ite (fun _ => Keeps.refl _ u)
      (fun _ => State.orRepeat_keeps _ _ _ (fun v => (State.descantRead_keeps ..).mono) rfl)
  | descantWrite _ =>
    exact .takeFrame fun u => Keeps.ite (fun _ => (State.descantWriteAll_keeps ..).mono)
      (fun _ => State.orRepeat_keeps _ _ _ (fun v => (State.descantWrite_keeps ..).mono) rfl)
  | report _ => exact .takeFrame fun u => Keeps.ite (fun _ => (State.dnPush_keeps ..).mono) (fun _ => (State.nackTo_keeps ..).mono)
  | descantNack _ => exact .takeFrame fun u => (State.takeNack_keeps ..).mono
  | hostFrameIssue => exact .when fun t => (State.issueHostFrame_keeps ..).mono
  | requestTimeout _ => exact .when fun t => (State.requestTimeout_keeps ..).mono
  | timeInterval => exact .when fun t => (State.sendTime_keeps ..).mono
  | time _ => exact .takeFrame fun u => State.orRepeat_keeps _ _ _ (fun v => (State.answerTime_keeps ..).mono) rfl
  | timeReply _ => exact .takeFrame fun u => State.takeReply_keeps _ _ _ (fun _ v => (State.takeTime_keeps ..).mono) rfl
  | lineTimeStep => exact .when fun t => (State.lineTimeStep_keeps ..).mono
  | leaveLockTimeout => exact .when fun t => (State.leaveSystem_keeps ..).mono
  | epochStart => exact .when fun t => (State.startEpoch_keeps ..).mono
  | search _ => exact .takeFrame fun u => State.orRepeat_keeps _ _ _ (fun v => (State.takeSearchMsg_keeps ..).mono) rfl
  | beaconSend _ => exact .when fun t => State.onSegment_keeps _ _ _ (fun g u => (State.sendBeacon_keeps ..).mono) rfl
  | beacon _ => exact .takeSearch fun t => (State.takeBeacon_keeps ..).mono
  | query _ _ => exact .takeSearch fun t => (State.takeQuery_keeps ..).mono
  | queryWindowEnd _ _ => exact .when fun t => State.onSegment_keeps _ _ _ (fun g u => (State.windowEnd_keeps ..).mono) rfl
  | searchAnswer _ => exact .takeSearch fun t => (State.takeAnswer_keeps ..).mono
  | discoveryTimeout _ => exact .when fun t => (State.discoveryTimeout_keeps ..).mono
  | searchReplyTimeout _ => exact .when fun t => (State.bridgeTimeout_keeps ..).mono
  | epochEnd => exact .when fun t => (State.endEpoch_keeps ..).mono
  | join _ => exact .takeFrame fun u => State.orRepeat_keeps _ _ _ (fun v => (State.answerJoin_keeps ..).mono) rfl
  | assign _ => exact .takeSearch fun t => State.when_keeps _ _ _ (fun u => (State.takeAssign_keeps ..).mono) rfl
  | assignAck _ => exact .takeSearch fun t => State.onSegment_keeps _ _ _ (fun g u => (State.assignAck_keeps ..).mono) rfl
  | assignTimeout _ => exact .when fun t => State.onSegment_keeps _ _ _ (fun g u => (State.assignTimeout_keeps ..).mono) rfl
  | sweepIssue => exact .when fun t => (State.sweepIssue_keeps ..).mono
  | sweep _ => exact .takeFrame fun u => (State.takeSweep_keeps ..).mono
  | sweepLatch _ => exact .when fun t => (State.sweepLatch_keeps ..).mono
  | collectStart => exact .when fun t => (State.collectStart_keeps ..).mono
  | collect _ => exact .takeFrame fun u => State.orRepeat_keeps _ _ _ (fun v => (State.answerCollect_keeps ..).mono) rfl
  | collectReply _ => exact .takeFrame fun u => State.takeReply_keeps _ _ _ (fun r v => (State.collectReply_keeps ..).mono) rfl
  | ruleAssert _ => exact .when fun t => (State.ruleAssert_keeps ..).mono
  | ruleRelease _ => exact .when fun t => (State.ruleRelease_keeps ..).mono
  | lowByteWrite _ _ => exact .of (State.hostWrite_keeps ..)
  | registerWrite _ _ => exact .of (State.hostWrite_keeps ..)
  | framRowWrite => exact .when fun t => (State.rowWritten_keeps ..).mono
  | testPinFreeze => exact .of ((State.testFreeze_keeps _).after (Keeps.upd (Keeps.refl _ s)))
  | freezeEnd _ _ => exact .of ((State.freezeEnd_keeps ..).after (Keeps.upd (Keeps.refl _ s)))
  | primarySupplyGood =>
    exact .when fun t => Keeps.ite (fun _ => (State.enterBackup_keeps _).after (Keeps.upd (Keeps.refl _ t))) (fun _ => Keeps.upd (Keeps.refl _ t))
  | stepInProgressDone =>
    exact .when fun t => Keeps.ite (fun _ => (State.enterDrain_keeps ..).mono)
      (fun _ => Keeps.ite (fun _ => Keeps.upd (Keeps.refl _ t)) (fun _ => Keeps.refl _ t))
  | daoComplianceClear => exact .when fun t => Keeps.upd (Keeps.refl _ t)
  | restoreAckTimeout => exact execRestoreAckTimeout_completes s
  | cantusCrcFailure => exact .when fun t => (State.tnVio_keeps ..).after ((State.pinned_keeps ..).after (Keeps.upd (Keeps.refl _ t)))
  | cantusReceiveAbort _ _ => exact execCantusReceiveAbort_completes ..
  | cantusUnknownCommand _ => exact .tnRequest fun t => (State.tnNack_keeps ..).after (State.tnVio_keeps ..).mono
  | descantFrameDropped _ => exact execDescantFrameDropped_completes ..
  | descantReservedType _ => exact .takeFrame fun u => (State.nackTo_keeps ..).after (State.dnVio_keeps ..).mono
  | descantReply _ =>
    exact .takeFrame fun u => State.takeReply_keeps _ _ _
      (fun r v => Keeps.ite (fun _ => (State.dnPush_keeps ..).mono) (fun _ => Keeps.refl _ v)) rfl
  | joinReply _ => exact execJoinReply_completes ..
  | searchReply _ =>
    exact .takeFrame fun u => Keeps.ite (fun _ => (State.searchReply_keeps ..).mono) (fun _ => (State.strayReply_keeps ..).mono)
  | hostStrobeViolation _ _ _ => exact .when fun t => (State.strobe_keeps ..).mono
  | auditRowWritten => exact .when fun t => (State.auditRow_keeps ..).mono
  | softOff _ | regLatchClear _ | syTimeLWrite _ | syTimeHWrite _ | mapWordWrite _ | learnStart _ | eventEntryCommit _
  | boostLatchClear _ | adcEnable _ | daLoopWrite _ | daAuxWrite _ | auxModeChange _ | daNcoWrite _ | feWordCommit _
  | commitRequest _ | ledgerInit _ | unlockFirst _ | unlockSecond _ _ | syKeyOther _ _ | keyLoadStart _ | keyWord _
  | ceremonyArm _ | unpair _ | divergenceReset _ | periodChange _ | trimWrite _ | retrainAll _ | maskWrite _ | leave _
  | epochWrite _ | nodeTableWrite _ | ruleAck _ | ruleCommit _ | defaultsRestore _ | policyEnable _ | syIrqClear _
  | freezeStart _ =>
    exact .of (State.hostCommit_keeps ..).mono
  | syTimeLRead | adDatlRead | lgTotalsSnapshot | evEntrySnapshot | tnFifoRead | dsFifoRead | orreryCountSnapshot
  | feLiveSnapshot | windowDataRead _ =>
    exact .of (State.hostRead_keeps ..).mono

/-- The state with the rest of the queue has the invariant where the state has it. -/
theorem State.inv_pending {s : State} (rest : List Instr) (h : s.Inv) : State.Inv { s with pending := rest } := h

/-- Settles O3: `exec_completes` without its invariant. -/
theorem everyCommandKeepsTheRest : Obligations.EveryCommandKeepsTheRest := by
  intro c s
  obtain ⟨t, ht, hsame, hserial, -⟩ := exec_completes c s
  exact ⟨t, ht, hsame, hserial⟩

/-- Settles O4: an idle step keeps the state, any other is a command's, which keeps the invariant by `exec_completes`. -/
theorem everyStepKeepsTheInvariant : Obligations.EveryStepKeepsTheInvariant := by
  intro s t hinv hstep
  cases hq : s.pending with
  | nil =>
    rw [emptyQueueIdles s hq] at hstep
    cases hstep
    exact hinv
  | cons c rest =>
    obtain ⟨u, hu, -, -, hkeeps⟩ := exec_completes c { s with pending := rest }
    rw [stepRunsTheFrontCommand c rest s hq, hu] at hstep
    cases hstep
    exact hkeeps (State.inv_pending rest hinv)

end Sys2Proof.Machine
end

section
/-! PROOF. What leads out of OFF and BACKUP, into DRAIN and into and out of HOLD (R3, R47, R48, R50, R52 to R54). -/

/- Proofs are elaborated one after the other: in parallel they outrun the kernel's checks of the text before them, and each that waits
holds a thread's memory. -/
set_option Elab.async false

open Sys2Proof

namespace Sys2Proof.Machine

/-! ## OFF and BACKUP -/

/-- Straps away from the band between the levels are sampled as they stand (R3). -/
theorem State.resetEnd_straps (s : State) (b1 b0 : Bool) (env : WakeEnv) :
    s.resetEnd (if b1 then .high else .low) (if b0 then .high else .low) env =
      State.tryWake { s with pins := { s.pins with role := roleOf b1 b0, rstnLow := false } } env := by
  cases b1 <;> cases b0 <;> rfl

theorem State.tryWake_backup {s : State} (env : WakeEnv) (hb : s.pw.st = .backup) (hon : s.onStands = true)
    (ht : s.aon.thermLatch = false) : s.tryWake env = s.enterWake env := by
  unfold State.tryWake
  rw [hb, hon, ht]
  rfl

theorem State.enterWake_st (s : State) (env : WakeEnv) : (s.enterWake env).pw.st = .wake := by rw [State.enterWake_pw]

theorem State.enterBackup_pins (s : State) : s.enterBackup.pins = { s.pins with vioExternal := false } := by
  unfold State.enterBackup State.coreStop
  dsimp only
  rw [(State.boostOff_keeps _).eqPins, (State.regStop_keeps _).eqPins]

/-- Settles O6: a reset's end through the sampled straps, and what each supply event enters from OFF. -/
theorem onAndBackup : Obligations.OnAndBackup := by
  unfold Obligations.OnAndBackup
  refine ⟨?sampled, ?resetWakes, ?supplyWakes, ?supplyOnly, ?vbakOnly⟩
  case sampled =>
    intro s b1 b0 env hoff
    refine ⟨{ s with pins := { s.pins with role := roleOf b1 b0, rstnLow := false } }, ?_, (Keeps.upd (Keeps.refl _ s)).left, rfl⟩
    refine State.when_next s (by simp [hoff]) ?_
    rw [State.resetEnd_straps]
    exact State.tryWake_of_ne_backup env (by simp [hoff])
  case resetWakes =>
    intro s env hb hsup hsoft htherm
    refine ⟨State.enterWake { s with pins := { s.pins with role := roleOf false false, rstnLow := false } } env, ?_,
      State.enterWake_st .., ?_, ?_⟩
    · refine State.when_next s (by simp [hb]) ?_
      rw [show s.resetEnd .low .low env = _ from s.resetEnd_straps false false env]
      exact State.tryWake_backup env hb (by simp [State.onStands, hsup, hsoft]) htherm
    · rw [State.enterWake_pins]
      rfl
    · rw [State.enterWake_pins]
  case supplyWakes =>
    intro s env hoff hrst hsoft
    have hwake : exec (.onRequest env) s = .next (State.enterWake { s with pins := { s.pins with supply := true } } env) :=
      State.when_next s (by simp [hrst, hsoft]) (if_pos (by simp [hoff]))
    obtain ⟨hrtc, hfrom, -⟩ := State.enterWake_aon { s with pins := { s.pins with supply := true } } env
    exact ⟨_, hwake, State.enterWake_st .., State.enterWake_pins .., by rw [State.enterWake_fe], by rw [State.enterWake_pw], hfrom, hrtc⟩
  case supplyOnly =>
    intro s hoff hrst
    have hkeeps := State.enterBackup_keeps { s with pins := { s.pins with supply := true } }
    refine ⟨State.enterBackup { s with pins := { s.pins with supply := true } }, ?_, State.enterBackup_st _, ?_, hkeeps.eqAon,
      hkeeps.eqFramAll⟩
    · exact State.when_next s (by simp [hrst]) (if_pos (by simp [hoff]))
    · rw [State.enterBackup_pins]
  case vbakOnly =>
    intro s vbak hoff hsup hv
    have hkeeps := State.enterBackup_keeps (s.takeVbak vbak)
    exact ⟨_, State.when_next _ (by simp [hoff, hsup, hv]) rfl, State.enterBackup_st _, hkeeps.eqAon, hkeeps.eqFramAll⟩

/-! ## OFF requests -/

/-- What an OFF request from RUN leaves (R48, R50, R52). -/
structure State.DrainsFromRun (s t : State) (cause : BitVec 3) : Prop where
  drain : t.pw.st = .drain
  fromRun : t.pw.drainRun = true
  last : t.fram.last = 5
  cause : t.fram.cause = cause
  loopDac : t.ad.daLoop = 0
  auxDac : t.ad.daAux = 0
  boost : t.xb.brun = false

theorem State.offRequest_run {s : State} (hr : s.pw.st = .run) (cause : BitVec 3) : s.offRequest cause = s.enterDrain cause := by
  unfold State.offRequest
  rw [hr]

theorem State.enterDrain_fromRun {s : State} (hr : s.pw.st = .run) (cause : BitVec 3) :
    s.DrainsFromRun (s.enterDrain cause) cause := by
  obtain ⟨hcause, hlast⟩ := s.enterDrain_cause cause
  obtain ⟨hloop, haux, hboost⟩ := s.enterDrain_dacs cause
  exact ⟨by rw [State.enterDrain_pw], by rw [State.enterDrain_pw, hr]; rfl, by rw [hlast, hr]; rfl, hcause, hloop, haux, hboost⟩

/-- A loss of the supply ends CORE's freeze, is seen at the pin and clears the soft-off latch (R48, R443). -/
def State.lossNoted (s : State) : State :=
  { s.freezeAbort with pins := { s.freezeAbort.pins with supply := false }, aon := { s.freezeAbort.aon with softLatch := false } }

/-- RSTN low ends CORE's freeze, is seen at the pin and clears the soft-off latch (R48, R443). -/
def State.resetNoted (s : State) : State :=
  { s.freezeAbort with pins := { s.freezeAbort.pins with rstnLow := true }, aon := { s.freezeAbort.aon with softLatch := false } }

theorem State.lossNoted_st (s : State) : s.lossNoted.pw.st = s.pw.st := congrArg Pw.st (State.freezeAbort_keeps s).eqPw

theorem State.resetNoted_st (s : State) : s.resetNoted.pw.st = s.pw.st := congrArg Pw.st (State.freezeAbort_keeps s).eqPw

theorem State.lossNoted_lossCause (s : State) : s.lossNoted.lossCause = if s.pins.role = .T then 1 else 2 := by
  unfold State.lossCause State.lossNoted
  rw [(State.freezeAbort_keeps s).eqPins]

theorem State.supplyLost_run {s : State} (hr : s.pw.st = .run) : s.supplyLost = s.lossNoted.enterDrain s.lossNoted.lossCause := by
  have hst : s.lossNoted.pw.st = .run := s.lossNoted_st.trans hr
  have hhold : (s.lossNoted.pw.st == .hold) = false := by rw [hst]; rfl
  rw [← State.offRequest_run hst]
  exact if_neg (Bool.eq_false_iff.1 hhold)

theorem State.resetLow_run {s : State} (hr : s.pw.st = .run) : s.resetLow = s.resetNoted.enterDrain 3 :=
  State.offRequest_run (s.resetNoted_st.trans hr) 3

/-- The soft-off with the unlock (R48): PW_STATE.REQ is bits 9 and 8 of the word. -/
theorem exec_softOff_armed {s : State} {hi lo : Byte} (hbus : s.busOn = true) (hlatch : s.hb.wlatch = some (0x0A, lo))
    (harm : s.sc.armHost = .armed) (hreq : hi.extractLsb' 0 2 = 2) :
    exec (.softOff hi) s = .next (s.unlatched.setArm .host .idle).softOff := by
  have hfld : fld (wordOf hi lo) 8 2 = 2 := by
    have h := congrArg BitVec.toNat hreq
    rw [BitVec.extractLsb'_toNat] at h
    exact (fld_wordOf_hi hi lo 0 2).trans h
  rw [hostCommit_row_armed s (.softOff hi) 0x0A 0x0A hi lo rfl hbus hlatch rfl (by decide) harm]
  refine congrArg Host.Outcome.next (if_pos ?_)
  rw [hfld]
  rfl

/-- What the soft-off has latched when its request is taken (R48). -/
def State.softNoted (s : State) : State :=
  { s.unlatched.setArm .host .idle with aon := { (s.unlatched.setArm .host .idle).aon with softLatch := true } }

/-- A cut key load leaves the host's unlock as it is. -/
theorem State.cutLoad_armHost (s : State) : s.cutLoad.sc.armHost = s.sc.armHost := by
  unfold State.cutLoad
  split <;> rfl

theorem State.enterDrain_armHost (s : State) (c : BitVec 3) : (s.enterDrain c).sc.armHost = s.sc.armHost := by
  unfold State.enterDrain
  dsimp only
  rw [State.ite_nextConv (fun u => u.sc) (fun u => (State.nextConv_keeps u).eqSc), (State.abortCeremony_keeps _ _).eqSc,
    State.cutLoad_armHost, (State.boostOff_keeps _).eqSc, (State.zeroDacs_keeps _ _).eqSc, (State.irq_keeps _ _).eqSc,
    (State.logEv_keeps _ _ _).eqSc]
  dsimp only
  split
  · rw [(State.leaveRun_keeps s).eqSc]
  · rfl

theorem State.startUp_of_states {s : State} (h : s.startUp = true) : s.pw.st = .wake ∨ s.pw.st = .rails ∨ s.pw.st = .calib := by
  simpa [State.startUp, or_assoc] using h

/-- In a step of the start-up the request waits, the first one's cause standing (R48, R50). -/
theorem State.offRequest_waits {s : State} (hs : s.startUp = true) (hp : s.pw.offPend = false) (hb : s.pw.stepBusy = true)
    (cause : BitVec 3) : s.offRequest cause = { s with pw := { s.pw with offPend := true, offCause := cause } } := by
  unfold State.offRequest
  rcases State.startUp_of_states hs with h | h | h <;> simp [h, hp, hb]

/-- Settles O7: each request comes to `State.enterDrain` of RUN, or waits. -/
theorem offRequests : Obligations.OffRequests := by
  unfold Obligations.OffRequests
  refine ⟨?loss, ?reset, ?soft, ?waits, ?stepDone⟩
  case loss =>
    intro s hr
    have hexec : exec .offLoss s = .next s.supplyLost := State.when_next s (by simp [hr]) rfl
    rw [State.supplyLost_run hr, State.lossNoted_lossCause] at hexec
    have hd := State.enterDrain_fromRun (s.lossNoted_st.trans hr) (if s.pins.role = .T then 1 else 2)
    have hk := State.enterDrain_keeps s.lossNoted (if s.pins.role = .T then 1 else 2)
    exact ⟨_, hexec, hd.drain, hd.fromRun, hd.last, hd.cause, congrArg Pins.supply hk.eqPins, congrArg Aon.softLatch hk.eqAon, hd.loopDac,
      hd.auxDac, hd.boost⟩
  case reset =>
    intro s hr
    have hexec : exec .offReset s = .next s.resetLow := rfl
    rw [State.resetLow_run hr] at hexec
    have hd := State.enterDrain_fromRun (s.resetNoted_st.trans hr) 3
    have hk := State.enterDrain_keeps s.resetNoted 3
    exact ⟨_, hexec, hd.drain, hd.last, hd.cause, congrArg Pins.rstnLow hk.eqPins, congrArg Aon.softLatch hk.eqAon⟩
  case soft =>
    intro s hi lo hr hbus hlatch harm hreq
    have hexec := exec_softOff_armed hbus hlatch harm hreq
    rw [show (s.unlatched.setArm .host .idle).softOff = s.softNoted.enterDrain 4 from State.offRequest_run (s := s.softNoted) hr 4] at hexec
    have hd := State.enterDrain_fromRun (s := s.softNoted) hr 4
    have hk := State.enterDrain_keeps s.softNoted 4
    exact ⟨_, hexec, hd.drain, hd.cause, congrArg Aon.softLatch hk.eqAon, State.enterDrain_armHost ..⟩
  case waits =>
    intro s _ hs hp hb
    have hpw : s.resetNoted.pw = s.pw := (State.freezeAbort_keeps s).eqPw
    have hwaits := State.offRequest_waits (s := s.resetNoted) (by unfold State.startUp; rw [hpw]; exact hs) (by rw [hpw, hp])
      (by rw [hpw, hb]) 3
    refine ⟨_, rfl, (congrArg State.pw hwaits).trans ?_⟩
    dsimp only
    rw [hpw]
  case stepDone =>
    intro s hc hs hp
    have hexec : exec .stepInProgressDone s = .next (s.enterDrain s.pw.offCause) :=
      State.when_next s (by simp [hc, hs]) (if_pos hp)
    have hnr : (s.pw.st == .run) = false := by rcases State.startUp_of_states hs with h | h | h <;> simp [h]
    exact ⟨_, hexec, by rw [State.enterDrain_pw], (s.enterDrain_cause _).1, by rw [State.enterDrain_pw, hnr]⟩

/-! ## HOLD -/

/-- HOLD as a powered CORE enters it: both DACs at zero scale, no coil half, the record and the latch (R53, R54). -/
theorem State.enterHold_powered {s : State} (hr : s.pw.st = .run) (inFlight : Bool) (rows : Nat) :
    (s.enterHold inFlight rows).pw.st = .hold ∧ (s.enterHold inFlight rows).aon.thermLatch = true ∧
    (s.enterHold inFlight rows).fram.cause = 5 ∧ (s.enterHold inFlight rows).fram.last = 5 ∧
    (s.enterHold inFlight rows).fram.therm.isSome = true ∧ (s.enterHold inFlight rows).ad.daLoop = 0 ∧
    (s.enterHold inFlight rows).ad.daAux = 0 ∧ (s.enterHold inFlight rows).xb.pol = 0 := by
  have hp : s.corePowered = true := by simp [State.corePowered, hr]
  unfold State.enterHold
  rw [if_pos hp, hr]
  exact ⟨rfl, rfl, rfl, rfl, rfl, rfl, rfl, rfl⟩

theorem State.enterHold_pins (s : State) (inFlight : Bool) (rows : Nat) : (s.enterHold inFlight rows).pins = s.pins :=
  (State.enterHold_keeps s inFlight rows).eqPins

/-- Settles O9: the shutdown enters HOLD and stays there while the supply stands; a cooled HOLD is left as the ON request says. -/
theorem thermalShutdown : Obligations.ThermalShutdown := by
  unfold Obligations.ThermalShutdown
  refine ⟨?shutdown, ?cooled⟩
  case shutdown =>
    intro s inFlight rows hr htherm hsup
    have hexec : exec (.thermalShutdown inFlight rows) s = .next (s.enterHold inFlight rows) :=
      State.when_next s (by simp [hr, htherm]) (if_pos (by rw [State.enterHold_pins, hsup]))
    exact ⟨_, hexec, State.enterHold_powered hr inFlight rows⟩
  case cooled =>
    intro s env hhold htherm
    have hexec : exec (.thermalCooled env) s = .next (s.cooled env) := State.when_next s (by simp [State.aonOn, hhold, htherm]) rfl
    refine ⟨_, hexec, ?_⟩
    unfold State.cooled
    dsimp only
    rw [if_pos (by rw [hhold]; rfl)]
    by_cases hon : (s.pins.supply && !s.pins.rstnLow && !s.aon.softLatch) = true
    · rw [if_pos hon, if_pos (by exact hon)]
      obtain ⟨-, -, hlatch⟩ := State.enterWake_aon { s with aon := { s.aon with thermLatch := false } } env
      exact ⟨hlatch, State.enterWake_st ..⟩
    · rw [if_neg hon, if_neg (by exact hon)]
      exact ⟨congrArg Aon.thermLatch (State.enterBackup_keeps _).eqAon, State.enterBackup_st _⟩

end Sys2Proof.Machine
end

section
/-! PROOF. The governor's tick, the level and the shed services, the VRES thresholds, the second and the debug freeze (R29 to R43, R102,
R442, R444). -/

/- Proofs are elaborated one after the other: in parallel they outrun the kernel's checks of the text before them, and each that waits
holds a thread's memory. -/
set_option Elab.async false

open Sys2Proof

namespace Sys2Proof.Machine

/-! ## The tick -/

theorem coreOn_aonOn {s : State} (h : s.coreOn = true) : s.aonOn = true := by
  unfold State.coreOn at h
  unfold State.aonOn
  cases hst : s.pw.st <;> simp_all

/-- What a command leaves is what `touches` says of it, whatever its next state. -/
theorem exec_keeps {c : Instr} {s t : State} (h : exec c s = .next t) : Keeps (touches c) s t := by
  obtain ⟨u, hu, hkeeps⟩ := exec_completes c s
  rw [h] at hu
  exact (Host.Outcome.next.inj hu) ▸ hkeeps

theorem exec_sameBut {c : Instr} {s t : State} (h : exec c s = .next t) : State.sameBut (touches c) s t := (exec_keeps h).left

theorem burstTick_ticks (s : State) : s.burstTick.pw.ticks = s.pw.ticks := by
  unfold State.burstTick State.burstBegin
  split
  · rfl
  · split_ifs <;> rfl

theorem onLineTick_ticks (s : State) : s.onLineTick.pw.ticks = s.pw.ticks := by
  have hsearch := (State.searchOnTick_keeps s.burstTick).eqPw
  unfold State.onLineTick
  dsimp only
  split <;> simp only [hsearch, burstTick_ticks]

/-- Every operation of a tick before the governor's leaves the counts of the power domain. -/
theorem coreTick_ticks (s : State) (e : TickEnv) : (s.coreTick e).pw.ticks = (s.takeEnv e).pw.ticks := by
  unfold State.coreTick
  dsimp only
  rw [(State.searchTick_keeps _).eqPw, onLineTick_ticks, (State.copiesTick_keeps _).eqPw, (State.shedRise_keeps _ _).eqPw, shedVres_ticks,
    govern_ticks, (State.loopTick_keeps _).eqPw, (State.policyTick_keeps _).eqPw]
  have hfaults : ∀ u : State, (u.when u.xbOn State.faultLevels).pw = u.pw := fun u => by
    unfold State.when
    split
    · exact (State.faultLevels_keeps u).eqPw
    · rfl
  rw [hfaults, (State.orrTick_keeps _).eqPw, (State.toneTick_keeps _).eqPw, (State.regTick_keeps _).eqPw, (State.mainsTick_keeps _).eqPw,
    (State.lineTick_keeps _).eqPw]

/-- After its inputs are taken a tick leaves the pins and the registers that show them. -/
theorem coreTick_rest (s : State) (e : TickEnv) :
    Keeps [.fram, .pw, .reg, .ck, .orr, .xb, .ad, .fe, .ev, .an, .lp, .tn, .dl, .dn, .pl, .irq] (s.takeEnv e) (s.coreTick e) := by
  have hfaults : ∀ u : State, Keeps [.xb, .ad, .fe, .ev, .irq] u (u.when u.xbOn State.faultLevels) := fun u =>
    Keeps.ite (fun _ => State.faultLevels_keeps u) fun _ => Keeps.refl _ u
  have h0 : Keeps [.reg, .ck, .orr, .ad, .tn] (s.takeEnv e) (s.takeEnv e).lineTick.mainsTick.regTick.toneTick.orrTick :=
    (State.orrTick_keeps _).after <| (State.toneTick_keeps _).after <| (State.regTick_keeps _).after <|
      (State.mainsTick_keeps _).after <| (State.lineTick_keeps _).mono
  exact (State.searchTick_keeps _).after <| (State.onLineTick_keeps _).after <| (State.copiesTick_keeps _).after <|
    (State.shedRise_keeps _ _).after <| (State.shedVres_keeps _).after <| (State.govern_keeps _).after <| (State.loopTick_keeps _).after <|
      (State.policyTick_keeps _).after <| (hfaults _).after h0.mono

theorem takeEnv_pins (s : State) (e : TickEnv) :
    (s.takeEnv e).pins = { s.pins with vres := e.vres, vaux := e.vaux, die := e.die, vbak := e.vbak, flt := e.flt } := by
  unfold State.takeEnv
  rw [(State.boostRestart_keeps _).eqPins, (State.chargeJudge_keeps _).eqPins]

theorem takeEnv_temp (s : State) (e : TickEnv) : (s.takeEnv e).hb.temp = tempCode e.die := by
  unfold State.takeEnv
  rw [(State.boostRestart_keeps _).eqHbAll, (State.chargeJudge_keeps _).eqHbAll]

theorem takeEnv_ticks (s : State) (e : TickEnv) : (s.takeEnv e).pw.ticks = s.pw.ticks + 1 := by
  unfold State.takeEnv
  rw [(State.boostRestart_keeps _).eqPw]
  rfl

/-- Settles O10: what `takeEnv` shows and counts stands through the rest of the tick; without CORE only `aonTick` runs. -/
theorem governorTickCounts : Obligations.GovernorTickCounts := by
  unfold Obligations.GovernorTickCounts
  refine ⟨?running, ?backup⟩
  case running =>
    intro s e hon
    have haon := State.aonTick_keeps s
    have hrest := coreTick_rest s.aonTick e
    have hexec : exec (.governorTick e) s = .next (s.aonTick.coreTick e) := State.when_next s (coreOn_aonOn hon) (if_pos hon)
    refine ⟨s.aonTick.coreTick e, hexec, exec_sameBut hexec, ?_, ?_, ?_⟩
    · rw [coreTick_ticks, takeEnv_ticks, haon.eqPw]
    · rw [hrest.eqPins, takeEnv_pins, haon.eqPins]
    · exact (congrArg Hb.temp hrest.eqHb).trans (takeEnv_temp _ _)
  case backup =>
    intro s e hst hdisc
    have haon : s.aonOn = true := by simp [State.aonOn, hst]
    have hcore : s.coreOn = false := by simp [State.coreOn, hst]
    refine ⟨s.aonTick, State.when_next s haon (if_neg (by simp [hcore])), ?_⟩
    unfold State.aonTick State.discTick
    rw [if_pos hdisc]
    rfl

/-! ## The level and the shed services -/

theorem State.restoreOne_tone {s : State} (h : s.pw.shedTone = true) :
    s.restoreOne = { s.toneShed false with pw := { (s.toneShed false).pw with fitCount := 0 } } := by
  unfold State.restoreOne
  rw [h]
  rfl

theorem State.restoreOne_rx1 {s : State} (h : s.pw.shedTone = false) (h1 : s.pw.shedRx1 = true) :
    s.restoreOne = { s.rxShed .A false with pw := { (s.rxShed .A false).pw with fitCount := 0 } } := by
  unfold State.restoreOne
  rw [h, h1]
  rfl

theorem State.restoreOne_rx2 {s : State} (h : s.pw.shedTone = false) (h1 : s.pw.shedRx1 = false) (h2 : s.pw.shedRx2 = true) :
    s.restoreOne = { s.rxShed .B false with pw := { (s.rxShed .B false).pw with fitCount := 0 } } := by
  unfold State.restoreOne
  rw [h, h1, h2]
  rfl

/-- The tone modem's end of shedding: its event, and a clear of its status that waited (R43). -/
theorem State.toneShed_end {s : State} (h : s.pw.shedTone = true) :
    s.toneShed false = ({ s with pw := { s.pw with shedTone := false } }.tnEvent 0x0A08 0).tnStatHeld := by
  unfold State.toneShed
  rw [h]
  rfl

theorem State.tnStatHeld_none {s : State} (h : s.tn.heldStat = none) : s.tnStatHeld = s := by
  unfold State.tnStatHeld
  rw [h]

theorem State.dsStatHeld_none {s : State} (h : s.dl.heldStat = none) : s.dsStatHeld = s := by
  unfold State.dsStatHeld
  rw [h]

/-- The power domain with a port's receive back (R43). -/
def Pw.rxBack (pw : Pw) (p : Port) : Pw := if p = .A then { pw with shedRx1 := false } else { pw with shedRx2 := false }

/-- The end of a port's shedding: an uplink is without lock, a clear of the status that waited is done, and the event (R43). -/
theorem State.rxShed_end {s : State} {p : Port} (h : (if p = .A then s.pw.shedRx1 else s.pw.shedRx2) = true) :
    ∃ u, Keeps [.pw, .ck] s u ∧ u.pw = s.pw.rxBack p ∧
      s.rxShed p false = u.dsStatHeld.dslEvent 0x0B0A (evData [(0, 0), (Port.code p, 8)]) := by
  refine ⟨if p = s.fram.upPort && !s.isHead then { s with pw := s.pw.rxBack p, ck := { s.ck with linelk := false } }
    else { s with pw := s.pw.rxBack p }, ?_, ?_, ?_⟩
  · split <;> exact Keeps.upd (Keeps.refl _ s)
  · split <;> rfl
  · unfold State.rxShed
    dsimp only
    rw [if_neg (by rw [h]; decide)]
    cases p <;> rfl

/-- What a restored port leaves (R43). -/
theorem State.rxShed_restored {s : State} {p : Port} (h : (if p = .A then s.pw.shedRx1 else s.pw.shedRx2) = true) :
    (s.rxShed p false).pw = s.pw.rxBack p ∧ (s.rxShed p false).hb.irq = s.hb.irq ||| 0x0800#16 ∧
      (s.dl.heldStat = none → (s.rxShed p false).dl = s.dl ∧ (s.rxShed p false).dn = s.dn) := by
  obtain ⟨u, hkeeps, hpw, hshed⟩ := State.rxShed_end h
  rw [hshed]
  refine ⟨?_, ?_, fun hheld => ?_⟩
  · rw [(State.dslEvent_keeps ..).eqPw, (State.dsStatHeld_keeps u).eqPw, hpw]
  · exact congrArg (· ||| 0x0800#16) (by rw [State.logEv_hb, (State.dsStatHeld_keeps u).eqIrq, hkeeps.eqIrq])
  · rw [State.dsStatHeld_none (by rw [hkeeps.eqDl, hheld]), (State.dslEvent_keeps ..).eqDl, (State.dslEvent_keeps ..).eqDn, hkeeps.eqDl,
      hkeeps.eqDn]
    exact ⟨rfl, rfl⟩

/-- Settles O11: the level's rise reads `lmaxNow`; `restoreOne` takes the first service that is shed. -/
theorem levelRiseAndRestore : Obligations.LevelRiseAndRestore := by
  unfold Obligations.LevelRiseAndRestore
  have hrestore : ∀ s : State, s.governs = true → 4 ≤ s.pw.fitCount → exec .serviceRestore s = .next s.restoreOne :=
    fun s hgov hfit => State.when_next s (by simp [hgov, hfit]) rfl
  refine ⟨?rises, ?stays, ?tone, ?first, ?second⟩
  case rises =>
    intro s hgov hup hlevel
    exact State.when_next s (by simp [hgov, hup, State.lmaxNow, hlevel]) rfl
  case stays =>
    intro s hno
    refine congrArg Host.Outcome.next (if_neg ?_)
    rcases hno with hfew | hdrain
    · simp [hfew]
    · simp [State.governs, hdrain]
  case tone =>
    intro s hgov hfit hshed
    refine ⟨_, hrestore s hgov hfit, ?_⟩
    rw [State.restoreOne_tone hshed, State.toneShed_end hshed]
    have hkeeps : Keeps [.pw, .tn, .ev, .irq] s ({ s with pw := { s.pw with shedTone := false } }.tnEvent 0x0A08 0).tnStatHeld :=
      (State.tnStatHeld_keeps _).after <| (State.tnEvent_keeps ..).after (Keeps.upd (Keeps.refl _ s))
    refine ⟨(Keeps.upd hkeeps).left, ?_, ?_, fun hheld => ?_⟩
    · rw [(State.tnStatHeld_keeps _).eqPw, (State.tnEvent_keeps ..).eqPw]
    · rw [(State.tnStatHeld_keeps _).eqIrq]
      exact congrArg (· ||| 0x0400#16) (by rw [State.logEv_hb])
    · have hheld' : ({ s with pw := { s.pw with shedTone := false } }.tnEvent 0x0A08 0).tn.heldStat = none := by
        rw [(State.tnEvent_keeps ..).eqTn, hheld]
      rw [State.tnStatHeld_none hheld', (State.tnEvent_keeps ..).eqTn]
  case first =>
    intro s hgov hfit htone hshed
    refine ⟨_, hrestore s hgov hfit, ?_⟩
    rw [State.restoreOne_rx1 htone hshed]
    obtain ⟨hpw, hirq, hheld⟩ := State.rxShed_restored (s := s) (p := .A) hshed
    exact ⟨(Keeps.upd (State.rxShed_keeps s .A false).mono).left, by rw [hpw]; rfl, hirq, hheld⟩
  case second =>
    intro s hgov hfit htone hfirst hshed
    refine ⟨_, hrestore s hgov hfit, ?_⟩
    rw [State.restoreOne_rx2 htone hfirst hshed]
    obtain ⟨hpw, hirq, hheld⟩ := State.rxShed_restored (s := s) (p := .B) hshed
    exact ⟨(Keeps.upd (State.rxShed_keeps s .B false).mono).left, by rw [hpw]; rfl, hirq, hheld⟩

/-! ## The thresholds of VRES -/

theorem State.shedVres_pw {s : State} (hrun : s.runOrDrain = true) (hline : s.pw.lineShed = 0) :
    s.shedVres.pw = { s.pw with shedBulk := decide (s.pins.vres < 1600), shedCoil := s.xbEn && decide (s.pins.vres < 1400),
                                shedProt := decide (s.pins.vres < 1200) } := by
  unfold State.shedVres
  rw [if_pos hrun, hline]
  simp

theorem State.boostRestart_not {s : State} (h : s.xb.bfull = false) : s.boostRestart = s := by
  unfold State.boostRestart
  rw [h]
  rfl

theorem running_runOrDrain {s : State} (h : s.running = true) : s.runOrDrain = true := by
  unfold State.running at h
  unfold State.runOrDrain
  simp_all

/-- A value of VRES seen, and the charging of VBAK judged by it (R36). -/
def State.vresSeen (s : State) (v : Nat) : State := { s with pins := { s.pins with vres := v } }.chargeJudge

theorem State.vresSeen_pw (s : State) (v : Nat) : (s.vresSeen v).pw =
    { s.pw with charging := s.running && decide (1600 ≤ v) && s.pw.baki != 0 && decide (s.pins.vbak < 330) } := rfl

theorem State.vresSeen_pins (s : State) (v : Nat) : (s.vresSeen v).pins = { s.pins with vres := v } := rfl

theorem State.takeVres_eq (s : State) (v : Nat) : s.takeVres v = (s.vresSeen v).boostRestart.shedVres.shedRise s.shedCode := rfl

/-- A value of VRES seen in RUN where the line sheds nothing (R36, R43). -/
theorem State.takeVres_pw {s : State} (v : Nat) (hrun : s.running = true) (hline : s.pw.lineShed = 0) :
    (s.takeVres v).pw = { s.pw with
      charging := decide (1600 ≤ v) && s.pw.baki != 0 && decide (s.pins.vbak < 330), shedBulk := decide (v < 1600),
      shedCoil := s.xbEn && decide (v < 1400), shedProt := decide (v < 1200) } := by
  have hboost := State.boostRestart_keeps (s.vresSeen v)
  have hrod : (s.vresSeen v).boostRestart.runOrDrain = true := by
    unfold State.runOrDrain
    rw [hboost.eqPw, hboost.eqHbAll]
    exact running_runOrDrain hrun
  have hen : (s.vresSeen v).boostRestart.xbEn = s.xbEn := by
    unfold State.xbEn State.nvReg
    rw [State.nv_congr (congrArg Hb.rows hboost.eqHbAll) hboost.eqNv]
    rfl
  rw [State.takeVres_eq, (State.shedRise_keeps ..).eqPw, State.shedVres_pw hrod (by rw [hboost.eqPw, State.vresSeen_pw, hline]), hen,
    hboost.eqPw, hboost.eqPins, State.vresSeen_pw, State.vresSeen_pins, hrun]
  rfl

theorem State.takeVres_xb {s : State} (v : Nat) (h : s.xb.bfull = false) : (s.takeVres v).xb = s.xb := by
  rw [State.takeVres_eq, (State.shedRise_keeps ..).eqXb, (State.shedVres_keeps _).eqXb, State.boostRestart_not (s := s.vresSeen v) h]
  rfl

theorem State.cutDmt_dl (s : State) : s.cutDmt.dl = { s.dl with onLine := none } := by
  unfold State.cutDmt
  split
  · rename_i h
    rw [← h]
  · rw [(State.cutEvent_keeps ..).eqDl, (State.unsent_keeps ..).eqDl]

theorem State.cutBurst_dl (s : State) : s.cutBurst.dl = { s.dl with burst := none } := by
  unfold State.cutBurst
  split
  · rename_i h
    rw [← h]
  · dsimp only
    split
    · rfl
    · rw [(State.cutEvent_keeps ..).eqDl, (State.unsent_keeps ..).eqDl]

/-- What waits for the line or is on it, but for a search frame, stands. -/
structure Dl.SameFrames (d e : Dl) : Prop where
  onLine : e.onLine = d.onLine
  burst : e.burst = d.burst
  queue : e.queue = d.queue
  squeue : e.squeue = d.squeue

theorem State.trainDone_frames (s : State) (p : Port) (peer : BitVec 6) :
    s.dl.SameFrames (s.trainDone p peer).dl ∧ (s.trainDone p peer).dl.searchOn = s.dl.searchOn := by
  unfold State.trainDone
  split
  · exact ⟨⟨rfl, rfl, rfl, rfl⟩, rfl⟩
  · rw [(State.dslEvent_keeps ..).eqDl]
    exact ⟨⟨rfl, rfl, rfl, rfl⟩, rfl⟩

theorem State.cutSearch_frames (s : State) : s.dl.SameFrames s.cutSearch.dl ∧ s.cutSearch.dl.searchOn = none := by
  unfold State.cutSearch
  split
  · rename_i h
    exact ⟨⟨rfl, rfl, rfl, rfl⟩, h⟩
  · rename_i f us h
    have hcut := (State.cutEvent_keeps { s with dl := { s.dl with searchOn := none } } (protectedKind f.kind)).eqDl
    dsimp only
    split
    · obtain ⟨⟨h1, h2, h3, h4⟩, h5⟩ := State.trainDone_frames
        ({ s with dl := { s.dl with searchOn := none } }.cutEvent (protectedKind f.kind)) f.port (idxByte (payAt f.payload 0))
      rw [hcut] at h1 h2 h3 h4 h5
      exact ⟨⟨h1, h2, h3, h4⟩, h5⟩
    · rw [hcut]
      exact ⟨⟨rfl, rfl, rfl, rfl⟩, rfl⟩

/-- Bulk transmission aborted: a protected frame on the line goes on (R34). -/
theorem State.cutBulk_dl (s : State) :
    s.cutBulk.dl.onLine = (match s.dl.onLine with
                           | some q => if q.1.prot then some q else none
                           | none => none) ∧
      (s.dl.searchOn = none → s.cutBulk.dl.searchOn = none) ∧ s.cutBulk.dl.burst = none ∧ s.cutBulk.dl.queue = s.dl.queue ∧
      s.cutBulk.dl.squeue = s.dl.squeue := by
  unfold State.cutBulk
  dsimp only
  generalize hu : (if s.dl.onLine.any (fun x => !x.1.prot) then s.cutDmt else s) = u
  have hdl : u.dl = { s.dl with onLine := s.dl.onLine.filter (fun x => x.1.prot) } := by
    rw [← hu]
    split
    · rename_i hbulk
      have hnone : s.dl.onLine.filter (fun x => x.1.prot) = none := by
        cases h : s.dl.onLine <;> simp_all [Option.filter]
      rw [State.cutDmt_dl, hnone]
    · rename_i hprot
      have hall : s.dl.onLine.filter (fun x => x.1.prot) = s.dl.onLine := by
        cases h : s.dl.onLine <;> simp_all [Option.filter]
      rw [hall]
  have hline : (match s.dl.onLine with
      | some q => if q.1.prot then some q else none
      | none => none) = s.dl.onLine.filter (fun x => x.1.prot) := by
    cases s.dl.onLine <;> rfl
  rw [State.cutBurst_dl, hline]
  split
  · obtain ⟨⟨honLine, -, hqueue, hsqueue⟩, hsearch⟩ := State.cutSearch_frames u
    rw [hdl] at honLine hqueue hsqueue
    exact ⟨honLine, fun _ => hsearch, rfl, hqueue, hsqueue⟩
  · rw [hdl]
    exact ⟨rfl, id, rfl, rfl, rfl⟩

/-- Every transmission aborted (R35). -/
theorem State.cutFrame_dl (s : State) : s.cutFrame.dl.onLine = none ∧ s.cutFrame.dl.searchOn = none ∧ s.cutFrame.dl.burst = none := by
  unfold State.cutFrame
  obtain ⟨hframes, hsearch⟩ := State.cutSearch_frames s.cutDmt
  rw [State.cutBurst_dl]
  exact ⟨by rw [hframes.onLine, State.cutDmt_dl], hsearch, rfl⟩

theorem State.cutCommit_not {s : State} (h : s.pw.st ≠ .drain) : s.cutCommit = s := by
  unfold State.cutCommit
  exact if_pos (by simp [h])

theorem State.cutCommit_drain {s : State} (h : s.pw.st = .drain) : s.cutCommit.lg.cur = none ∧ s.cutCommit.lg.waiting = [] := by
  unfold State.cutCommit
  rw [if_neg (by simp [h])]
  exact ⟨rfl, rfl⟩

theorem State.takeVres_st (s : State) (v : Nat) : (s.takeVres v).pw.st = s.pw.st := by
  rw [State.takeVres_eq, (State.shedRise_keeps ..).eqPw]
  have hst : (s.vresSeen v).boostRestart.pw.st = s.pw.st := by rw [(State.boostRestart_keeps _).eqPw, State.vresSeen_pw]
  unfold State.shedVres
  split <;> exact hst

theorem State.unsent_st (s : State) (us : Nat) : (s.unsent us).pw.st = s.pw.st := rfl

theorem State.cutFrame_st (s : State) : s.cutFrame.pw.st = s.pw.st := by
  have hdmt : s.cutDmt.pw.st = s.pw.st := by
    unfold State.cutDmt
    split
    · rfl
    · rw [(State.cutEvent_keeps ..).eqPw, State.unsent_st]
  unfold State.cutFrame
  rw [← hdmt, ← (State.cutSearch_keeps s.cutDmt).eqPw]
  unfold State.cutBurst
  split
  · rfl
  · dsimp only
    split
    · rfl
    · rw [(State.cutEvent_keeps ..).eqPw, State.unsent_st]

/-- VRES as it stands at the pin now. -/
def State.atVres (s : State) (v : Nat) : State := { s with pins := { s.pins with vres := v } }

/-- VRES full with the boost at rest: it may restart, and the sheds are judged again (R33, R36). -/
theorem exec_vresFull (s : State) (v : Nat) (hon : s.xbOn = true) :
    ∃ t, exec (.vresFull v) s = .next t ∧ State.sameBut [.pins, .pw, .xb, .ev, .irq] s t ∧ t.pins = { s.pins with vres := v } ∧
      t.xb = (s.atVres v).boostFull.xb := by
  have hexec := State.when_next s (f := fun t =>
    (((t.atVres v).boostFull.chargeJudge.shedVres).shedRise t.shedCode)) hon rfl
  refine ⟨_, hexec, exec_sameBut (c := .vresFull v) hexec, ?_, ?_⟩
  · rw [(State.shedRise_keeps ..).eqPins, (State.shedVres_keeps _).eqPins, (State.chargeJudge_keeps _).eqPins, (State.boostFull_keeps _).eqPins]
    rfl
  · rw [(State.shedRise_keeps ..).eqXb, (State.shedVres_keeps _).eqXb, (State.chargeJudge_keeps _).eqXb]

theorem boostMay_of {s : State} (hlost : s.ck.lost = false) (hfault : s.xb.fl.getLsbD 2 = false) : s.boostMay = true := by
  unfold State.boostMay
  rw [hlost, hfault]
  rfl

theorem State.boostFull_stops {s : State} (hrun : s.xb.brun = true) (hfull : 2350 ≤ s.pins.vres) :
    s.boostFull = { s with xb := { s.xb with brun := false, bfull := true, fullAt := s.pins.vres, fullSeen := true, cyc := 0 } } := by
  unfold State.boostFull
  exact if_pos (by simp [hrun, hfull])

theorem State.boostFull_rests {s : State} (hrun : s.xb.brun = false) : s.boostFull = s.boostRestart := by
  unfold State.boostFull
  exact if_neg (by simp [hrun])

theorem State.boostRestart_runs {s : State} (hfull : s.xb.bfull = true) (hfell : s.pins.vres + 50 ≤ s.xb.fullAt) :
    s.boostRestart =
      { s with xb := { s.xb with bfull := false, brun := s.boostMay && (s.xb.bstate == 1 || s.xb.bstate == 2), cyc := 0 } } := by
  unfold State.boostRestart
  exact if_pos (by simp [hfull, hfell])

theorem State.boostRestart_high {s : State} (hfell : s.xb.fullAt < s.pins.vres + 50) : s.boostRestart = s := by
  unfold State.boostRestart
  exact if_neg (by simp; omega)

/-- Settles O12: each threshold through what `takeVres` leaves, then the cuts of the line, of the coil and of the commit. -/
theorem vresThresholds : Obligations.VresThresholds := by
  unfold Obligations.VresThresholds
  refine ⟨?cross, ?fall, ?floor, ?stops, ?restarts, ?waits⟩
  case cross =>
    intro s v hrun hline
    have hexec : exec (.vresThresholdCross v) s = .next (s.takeVres v) := State.when_next s (running_core hrun) rfl
    have hpw := State.takeVres_pw v hrun hline
    refine ⟨_, hexec, exec_sameBut hexec, takeVres_pins s v, ?_, ?_, ?_, ?_, ?_, State.takeVres_xb v⟩ <;> rw [hpw]
  case fall =>
    intro s hrun
    have hexec : exec .vresFall10v s = .next s.fall10 := State.when_next s hrun rfl
    have hdl : s.fall10.dl = (s.takeVres (min 1000 s.pins.vres)).cutBulk.dl := (State.cutCoil_keeps _).eqDl
    have htaken := (State.takeVres_keeps s (min 1000 s.pins.vres)).eqDl
    have hcut := State.cutBulk_dl (s.takeVres (min 1000 s.pins.vres))
    rw [htaken, ← hdl] at hcut
    obtain ⟨honLine, hsearch, hburst, hqueue, hsqueue⟩ := hcut
    refine ⟨_, hexec, exec_sameBut hexec, ?_, cutCoil_pol _, honLine, hsearch, hburst, hqueue, hsqueue, ?_⟩
    · exact ((State.cutCoil_keeps _).eqPins.trans (State.cutBulk_keeps _).eqPins).trans (takeVres_pins s _)
    · unfold State.fall10 State.irq
      simp
  case floor =>
    intro s
    have hexec : exec .vresFloor s = .next s.floor8 := rfl
    have hst : (s.takeVres (min 800 s.pins.vres)).cutFrame.cutCoil.pw.st = s.pw.st := by
      rw [(State.cutCoil_keeps _).eqPw, State.cutFrame_st, State.takeVres_st]
    have hdl : s.floor8.dl = (s.takeVres (min 800 s.pins.vres)).cutFrame.dl :=
      ((State.cutCommit_keeps _).eqDl).trans (State.cutCoil_keeps _).eqDl
    obtain ⟨honLine, hsearch, hburst⟩ := State.cutFrame_dl (s.takeVres (min 800 s.pins.vres))
    rw [← hdl] at honLine hsearch hburst
    refine ⟨_, hexec, exec_sameBut hexec, ?_, ?_, honLine, hsearch, hburst, fun hnot => ?_, fun hdrain => ?_⟩
    · exact (((State.cutCommit_keeps _).eqPins.trans (State.cutCoil_keeps _).eqPins).trans (State.cutFrame_keeps _).eqPins).trans
        (takeVres_pins s _)
    · exact (congrArg Xb.pol (State.cutCommit_keeps _).eqXb).trans (cutCoil_pol _)
    · have hfloor : s.floor8 = _ := State.cutCommit_not (hst.trans_ne hnot)
      have hkeeps : Keeps [.pins, .pw, .xb, .ad, .fe, .ev, .dl, .irq] s (s.takeVres (min 800 s.pins.vres)).cutFrame.cutCoil :=
        (State.cutCoil_keeps _).after <| (State.cutFrame_keeps _).after (State.takeVres_keeps ..).mono
      rw [hfloor]
      exact ⟨hkeeps.eqLg, hkeeps.eqFramAll⟩
    · exact State.cutCommit_drain (hst.trans hdrain)
  case stops =>
    intro s v hon hrun hfull
    obtain ⟨t, hexec, hsame, hpins, hxb⟩ := exec_vresFull s v hon
    exact ⟨t, hexec, hsame, hpins, by rw [hxb, State.boostFull_stops (s := s.atVres v) hrun hfull]; rfl⟩
  case restarts =>
    intro s v hon hrun hfull hfell hstate hlost hfault
    obtain ⟨t, hexec, hsame, hpins, hxb⟩ := exec_vresFull s v hon
    refine ⟨t, hexec, hsame, hpins, ?_⟩
    rw [hxb, State.boostFull_rests (s := s.atVres v) hrun, State.boostRestart_runs (s := s.atVres v) hfull hfell]
    rw [show (s.atVres v).boostMay = true from boostMay_of hlost hfault]
    simp [State.atVres, hstate]
  case waits =>
    intro s v hon hrun hfull hhigh
    obtain ⟨t, hexec, hsame, hpins, hxb⟩ := exec_vresFull s v hon
    exact ⟨t, hexec, hsame, by rw [hxb, State.boostFull_rests (s := s.atVres v) hrun, State.boostRestart_high (s := s.atVres v) hhigh]; rfl⟩

/-! ## The second and the debug freeze -/

/-- RTC counted and the sub-second at 0, before what CORE does at the second (R102, R424). -/
def State.secondCounted (s : State) : State :=
  { s with aon := { s.aon with rtc := s.aon.rtc + 1#32, sub := 0 }, hb := { s.hb with secCodes := [] } }

/-- Settles O13: CORE's own seconds leave RTC and the second's violation codes. -/
theorem secondBoundary : Obligations.SecondBoundary := by
  unfold Obligations.SecondBoundary
  refine ⟨?counts, ?backup⟩
  case counts =>
    intro s hoff
    have hexec : exec .secondBoundary s = .next s.second := State.when_next s (by simp [State.aonOn, hoff]) rfl
    have hkeeps : Keeps [.pw, .orr, .ad, .fe, .lg, .ev, .dl, .pl, .irq] s.secondCounted s.second :=
      Keeps.ite (fun _ => State.coreSecond_keeps s.secondCounted) fun _ => Keeps.refl _ s.secondCounted
    exact ⟨_, hexec, exec_sameBut hexec, hkeeps.eqAon, (congrArg Hb.secCodes hkeeps.eqHb :)⟩
  case backup =>
    intro s hst
    exact State.when_next s (by simp [State.aonOn, hst]) (if_neg (by simp [State.coreOn, hst]))

/-- The freeze at its end, before its event (R444). -/
def State.unfrozen (s : State) (test : Bool) : State :=
  { s with hb := { s.hb with frzTs := false, frzTest := false, frzd := true, fsrc := test, frzClosed := false } }

/-- The end of a freeze in the event log (R444). -/
def State.unfreezeLogged (s : State) (test : Bool) (ms : Nat) : State := (s.unfrozen test).logEv 0x0E01 (evData [(b2n test, 0), (ms, 8)])

theorem State.unfreezeLogged_ev {s : State} (test : Bool) (ms : Nat) (hroom : s.ev.buf.length < 32) :
    (s.unfreezeLogged test ms).ev = { s.ev with buf := s.ev.buf ++ [s.eventOf 0x0E01 (b2n test + ms * 256)] } := by
  unfold State.unfreezeLogged
  rw [State.logEv_room (s.unfrozen test) _ _ hroom, evData_two]
  rfl

theorem State.releaseTrips_none {s : State} (h : s.xb.frozenTrip = 0) : s.releaseTrips.ev = s.ev := by
  unfold State.releaseTrips
  rw [h]
  rfl

theorem State.freezeDone_keepsHost (s : State) (test : Bool) (ms : Nat) :
    Keeps [.xb, .ad, .fe, .ev, .irq] (s.unfrozen test) (s.freezeDone test ms) :=
  (State.releaseTrips_keeps _).after <| Keeps.ite
    (fun _ => (State.irq_keeps _ _).after <| (State.logEv_keeps _ _ _).after (State.logEv_keeps _ _ _).mono)
    fun _ => (State.logEv_keeps (s.unfrozen test) _ _).mono

theorem State.freezeDone_open {s : State} (test : Bool) (ms : Nat) (hclosed : s.hb.frzClosed = false) (htrip : s.xb.frozenTrip = 0) :
    (s.freezeDone test ms).ev = (s.unfreezeLogged test ms).ev := by
  have hdone : s.freezeDone test ms = (s.unfreezeLogged test ms).releaseTrips := by
    unfold State.freezeDone
    rw [hclosed]
    rfl
  have hxb : (s.unfreezeLogged test ms).xb = s.xb := State.logEv_xb (s.unfrozen test) _ _
  rw [hdone, State.releaseTrips_none (by rw [hxb, htrip])]

/-- TEST low, and its freeze ended (R442). -/
def State.pinFreed (s : State) : State :=
  { s with pins := { s.pins with test := false }, hb := { s.hb with frzTest := false } }

theorem exec_pinFreezeEnd {s : State} (ms : Nat) (htest : s.hb.frzTest = true) :
    exec (.freezeEnd true ms) s = .next (if s.hb.frzTs then s.pinFreed else s.pinFreed.freezeDone true ms) := by
  refine congrArg Host.Outcome.next ?_
  unfold State.freezeEnd State.frozen State.pinFreed
  cases hts : s.hb.frzTs <;> simp [htest, hts]

/-- Settles O14: TEST's freeze from RUN, and the end of a freeze by its last source. -/
theorem debugFreeze : Obligations.DebugFreeze := by
  unfold Obligations.DebugFreeze
  refine ⟨?freezes, ?unpowered, ?ends, ?goesOn⟩
  case freezes =>
    intro s hst hrst
    refine congrArg Host.Outcome.next ?_
    unfold State.testFreeze State.corePowered State.vioOn State.freezeBy
    simp [hst, hrst]
  case unpowered =>
    intro s hst
    refine congrArg Host.Outcome.next ?_
    unfold State.testFreeze State.corePowered
    simp [hst]
  case ends =>
    intro s ms htest hts
    have hexec : exec (.freezeEnd true ms) s = .next (s.pinFreed.freezeDone true ms) := by
      rw [exec_pinFreezeEnd ms htest, hts]
      rfl
    have hkeeps := State.freezeDone_keepsHost s.pinFreed true ms
    refine ⟨_, hexec, (exec_keeps hexec).mono.left, hkeeps.eqPins, ?_, fun hroom hclosed htrip => ?_⟩
    · rw [hkeeps.eqHb]
      simp [State.unfrozen, State.pinFreed, hts]
    · rw [State.freezeDone_open true ms (s := s.pinFreed) hclosed htrip, State.unfreezeLogged_ev true ms (s := s.pinFreed) hroom]
      rfl
  case goesOn =>
    intro s ms htest hts
    rw [exec_pinFreezeEnd ms htest, hts]
    rfl

end Sys2Proof.Machine
end

section
/-! PROOF. The auxiliary regulator: soft start, stops, latches, target and SYNC (R64 to R73, R77 to R79). -/

/- Proofs are elaborated one after the other: in parallel they outrun the kernel's checks of the text before them, and each that waits
holds a thread's memory. -/
set_option Elab.async false

open Sys2Proof

namespace Sys2Proof.Machine

/-! ## Soft start, stops and retry -/

theorem State.hostKept_faultRecord (s : State) (c : Nat) (l : Bool) (e : RegEnv) : s.hostKept (s.faultRecord c l e) :=
  State.hostKept_nvPutAll s _

/-- After its record a stop touches the regulator and what it logs. -/
theorem State.regFail_recorded (s : State) (c : Nat) (e : RegEnv) :
    Keeps [.reg, .ev, .irq] (s.faultRecord c (decide (fld (s.lgw 0xF803) 4 3 ≤ s.reg.att.toNat)) e) (s.regFail c e) :=
  Keeps.ite (fun _ => (State.irq_keeps _ 1).after <| (State.logEv_keeps _ _ _).after (Keeps.upd (Keeps.refl _ _)))
    fun _ => (State.irq_keeps _ 1).after <| (State.logEv_keeps _ _ _).after (Keeps.upd (Keeps.refl _ _))

theorem State.hostKept_regFail (s : State) (c : Nat) (e : RegEnv) : s.hostKept (s.regFail c e) :=
  State.hostKept_trans (s.hostKept_faultRecord ..) (s.regFail_recorded c e).hostKept

/-- Outside the fault record a stop leaves every word. -/
theorem regFail_nv_outside {s : State} (h : s.Inv) (c : Nat) (e : RegEnv) {k : Nat}
    (hk : k < Config.key 3 0xF810 ∨ Config.key 3 0xF81F < k) : (s.regFail c e).nv k = s.nv k := by
  rw [regFail_nv, faultRecord_nv s h.1 _ _ _ k hk]

/-- The internal target at a ramp's end (R66). -/
def State.ramped (s : State) : State := { s with reg := { s.reg with target := s.reg.aim * 100, rampUs := s.regTss } }

theorem State.regRampEnd_eq (s : State) (e : RegEnv) : s.regRampEnd e =
    if e.vaux * 10 < s.reg.aim * 3 then s.ramped.regFail 1 e
    else { s.ramped with reg := { s.ramped.reg with state := 2, stepEnded := true } } := rfl

theorem State.regStart_open {s : State} (vaux : Nat) (h : s.aon.ovl = false) : s.regStart vaux =
    State.regBoundary { s with reg := { s.reg with state := 1, target := vaux * 100, aim := s.regAim, rampFrom := vaux * 100,
                                                   rampUs := 0 } } := by
  unfold State.regStart
  rw [h]
  rfl

/-- What a soft start takes into the regulator (R66, R71, R72). -/
theorem State.regStart_reg {s : State} (vaux : Nat) (h : s.aon.ovl = false) : (s.regStart vaux).reg =
    { s.reg with state := 1, target := vaux * 100, aim := s.regAim, rampFrom := vaux * 100, rampUs := 0,
                 fsw := clampNat 250 1000 (fld (s.lgw 0xF800) 0 11), phase := min 71 (fld (s.lgw 0xF801) 0 7) } := by
  rw [State.regStart_open vaux h]
  rfl

/-- What the next soft start aims at does not depend on this one (R66). -/
theorem State.regStart_regAim {s : State} (vaux : Nat) (h : s.aon.ovl = false) : (s.regStart vaux).regAim = s.regAim := by
  rw [State.regStart_open vaux h]
  rfl

/-- Settles O15: the ramp's end and the under-voltage through `regFail`, the retry through `regStart`. -/
theorem regulatorSoftStart : Obligations.RegulatorSoftStart := by
  unfold Obligations.RegulatorSoftStart
  refine ⟨?regulates, ?fails, ?under, ?retry, ?counts⟩
  case regulates =>
    intro s e hon hst hv
    refine State.when_next s (by simp [hon, hst]) ?_
    rw [State.regRampEnd_eq, if_neg (by omega)]
    rfl
  case fails =>
    intro s e hinv hon hst hv hroom
    have hexec : exec (.regRampEnd e) s = .next (s.ramped.regFail 1 e) := State.when_next s (by simp [hon, hst]) (if_pos hv)
    obtain ⟨hirq, hreg, hev⟩ := regFail_spec s.ramped 1 e hroom (by decide)
    refine ⟨_, hexec, exec_sameBut hexec, s.ramped.hostKept_regFail 1 e, hirq, hreg, hev, fun k hk => ?_⟩
    exact (regFail_nv_outside (s := s.ramped) hinv 1 e hk).trans (State.nv_congr rfl rfl k)
  case under =>
    intro s e hinv hon hst hv hroom
    have hexec : exec (.regUndervoltage e) s = .next (s.regFail 2 e) := State.when_next s (by simp [hon, hst]) (if_pos hv)
    obtain ⟨hirq, hreg, hev⟩ := regFail_spec s 2 e hroom (by decide)
    exact ⟨_, hexec, exec_sameBut hexec, s.hostKept_regFail 2 e, hirq, hreg, hev, fun k hk => regFail_nv_outside hinv 2 e hk⟩
  case retry =>
    intro s vaux hon hst hovl
    have hexec : exec (.regRetryTimeout vaux) s = .next (s.regRetry vaux) := State.when_next s (by simp [hon, hst]) rfl
    refine ⟨_, hexec, exec_sameBut hexec, ?_⟩
    unfold State.regRetry
    rw [State.regStart_open vaux (by exact hovl)]
    exact ⟨rfl, rfl⟩
  case counts =>
    intro s hon hst
    exact State.when_next s (by simp [hon, hst]) rfl

/-! ## The latches -/

/-- A logged event stands at the end of the buffer, stamped with a clock that stands (R232). -/
theorem State.logEv_ev {s t : State} (c : Word) (d : Nat) (hev : t.ev = s.ev) (htv : t.aon.tv = s.aon.tv) (hrtc : t.aon.rtc = s.aon.rtc)
    (hroom : s.ev.buf.length < 32) : (t.logEv c d).ev = { s.ev with buf := s.ev.buf ++ [s.eventOf c d] } := by
  rw [State.logEv_room t c d (by rw [hev]; exact hroom)]
  unfold State.eventOf State.stamp
  simp only [hev, htv, hrtc]

/-- The regulator stopped and OVL set (R77). -/
def State.overStopped (u : State) : State :=
  { u with reg := { u.reg with state := 0, stepEnded := true }, aon := { u.aon with ovl := true } }

theorem State.regOver_latched {s : State} (e : RegEnv) (h : s.aon.ovl = true) : s.regOver e = s := by
  unfold State.regOver
  exact if_pos (by simp [h])

theorem State.regOver_trips {s : State} (e : RegEnv) (h : s.aon.ovl = false)
    (hv : (110 + fld (s.lgw 0xF803) 8 4) * s.ovRef < e.vaux * 10000) : s.regOver e = ((s.faultRecord 3 true e).overStopped.logEv 0x0203 e.vaux).irq 1 := by
  unfold State.regOver
  exact if_neg (by simp [h]; omega)

/-- Both latches and the attempt count clear (R70, R78). -/
def State.latchesDropped (s : State) : State :=
  { s with reg := { s.reg with scl := false, att := 0 }, aon := { s.aon with ovl := false } }

/-- The keyed clear of PW_VSET before the soft start it begins (R70, R78). -/
def State.latchesCleared (s : State) : State := s.latchesDropped.logEv 0x0204 (evData [(b2n s.aon.ovl, 0), (b2n s.reg.scl, 1)])

theorem regOn_keeps {L : List Part} {s t : State} (h : Keeps L s t) (hpins : L.contains .pins = false := by with_unfolding_all rfl)
    (hpw : L.contains .pw = false := by with_unfolding_all rfl) (hhb : L.contains .hb = false := by with_unfolding_all rfl) :
    t.regOn = s.regOn := by
  have hts : t.hb.frzTs = s.hb.frzTs := (congrArg Hb.frzTs (h.eqHb hhb) :)
  have htest : t.hb.frzTest = s.hb.frzTest := (congrArg Hb.frzTest (h.eqHb hhb) :)
  unfold State.regOn State.lineRole State.coreOn
  rw [h.eqPins hpins, h.eqPw hpw, hts, htest]

theorem State.latchesCleared_keeps (s : State) : Keeps [.aon, .reg, .ev] s s.latchesCleared :=
  (State.logEv_keeps _ _ _).after (Keeps.upd (Keeps.refl _ s))

theorem State.regClear_starts {s : State} (hlatch : (s.aon.ovl || s.reg.scl) = true) (hon : s.regOn = true) :
    s.regClear = s.latchesCleared.regStart s.pins.vaux := by
  have hon' : s.latchesCleared.regOn = true := (regOn_keeps s.latchesCleared_keeps).trans hon
  have hpins : s.latchesCleared.pins = s.pins := s.latchesCleared_keeps.eqPins
  unfold State.regClear
  rw [if_neg (by revert hlatch; cases s.aon.ovl <;> cases s.reg.scl <;> decide)]
  exact (if_pos hon').trans (congrArg s.latchesCleared.regStart (congrArg Pins.vaux hpins))

/-- The host's word at PW_VSET taken, with its unlock (R62, R63). -/
def State.setpointTaken (s : State) (v : Word) : State :=
  { s with reg := { s.reg with code := v.extractLsb' 0 12, src := v.extractLsb' 12 2 }, sc := { s.sc with armHost := .idle },
           hb := { s.hb with wlatch := none } }

theorem State.setpointTaken_keeps (s : State) (v : Word) : Keeps [.reg, .sc, .hb] s (s.setpointTaken v) := Keeps.upd (Keeps.refl _ s)

/-- PW_VSET with the clear bit and the unlock, its code in range (R62, R63, R78). -/
theorem State.writePwVset_clears {s : State} {v : Word} (hcode : setpointBad (fld v 0 12) = false) (hbit : bitAt v 14 = true) :
    (s.unlatched.setArm .host .idle).writePwVset true v = (s.setpointTaken v).regClear := by
  unfold State.writePwVset State.regClamped
  rw [hcode, hbit]
  rfl

/-- Settles O16: the latch through `overStopped`; the keyed clear through `latchesCleared` and the soft start. -/
theorem regulatorLatches : Obligations.RegulatorLatches := by
  unfold Obligations.RegulatorLatches
  refine ⟨?trips, ?latched, ?cleared⟩
  case trips =>
    intro s e hinv hon hovl hroom hv
    have hexec : exec (.regOvervoltage e) s = .next (((s.faultRecord 3 true e).overStopped.logEv 0x0203 e.vaux).irq 1) :=
      State.when_next s hon (State.regOver_trips e hovl hv)
    have hsame := exec_sameBut hexec
    obtain ⟨hreg, hev, haon, hirq⟩ := faultRecord_fields s 3 true e
    have hhost := s.hostKept_faultRecord 3 true e
    have hnv := fun k => faultRecord_nv s hinv.1 3 true e k
    generalize s.faultRecord 3 true e = u at *
    have hlog : Keeps [.ev, .irq] u.overStopped ((u.overStopped.logEv 0x0203 e.vaux).irq 1) :=
      (State.irq_keeps _ 1).after (State.logEv_keeps _ _ _).mono
    refine ⟨_, hexec, hsame, State.hostKept_trans hhost hlog.hostKept, ?_, ?_, ?_, ?_, fun k hk => ?_⟩
    · rw [hlog.eqAon, State.overStopped, haon]
    · rw [hlog.eqReg, State.overStopped, hreg]
    · exact State.logEv_ev 0x0203 e.vaux hev (congrArg Aon.tv haon :) (congrArg Aon.rtc haon :) hroom
    · exact congrArg (· ||| 0x0002#16) ((State.logEv_keeps u.overStopped 0x0203 e.vaux).eqIrq.trans hirq)
    · rw [State.nv_irq, State.nv_logEv]
      exact (State.nv_congr rfl rfl k).trans (hnv k hk)
  case latched =>
    intro s e hovl
    refine congrArg Host.Outcome.next ?_
    unfold State.when
    split
    · exact State.regOver_latched e hovl
    · rfl
  case cleared =>
    intro s hi lo hbus hlatch harm hbit hon hlatches hcode hroom
    have hexec : exec (.regLatchClear hi) s = .next ((s.setpointTaken (wordOf hi lo)).regClear) :=
      (hostCommit_row_armed s (.regLatchClear hi) 0x0E 0x0E hi lo rfl hbus hlatch rfl (by decide) harm).trans (congrArg Host.Outcome.next (State.writePwVset_clears hcode hbit))
    rw [State.regClear_starts (s := s.setpointTaken (wordOf hi lo)) hlatches hon] at hexec
    have hlog : Keeps [.ev] (s.setpointTaken (wordOf hi lo)).latchesDropped (s.setpointTaken (wordOf hi lo)).latchesCleared :=
      State.logEv_keeps _ _ _
    have hev : (s.setpointTaken (wordOf hi lo)).latchesCleared.ev =
        { s.ev with buf := s.ev.buf ++ [s.eventOf 0x0204 (b2n s.aon.ovl + b2n s.reg.scl * 2)] } := by
      refine (State.logEv_ev (s := s) (t := (s.setpointTaken (wordOf hi lo)).latchesDropped) 0x0204 _ rfl rfl rfl hroom).trans ?_
      rw [evData_two]
      rfl
    have hlgw : ∀ a, (s.setpointTaken (wordOf hi lo)).latchesCleared.lgw a = s.lgw a := fun a =>
      (State.nv_logEv _ _ _ _).trans (State.nv_congr rfl rfl _)
    have hovl : (s.setpointTaken (wordOf hi lo)).latchesCleared.aon.ovl = false := (congrArg Aon.ovl hlog.eqAon :)
    have hstart := State.regStart_keeps (s.setpointTaken (wordOf hi lo)).latchesCleared (s.setpointTaken (wordOf hi lo)).pins.vaux
    have hkeeps : Keeps [.aon, .reg, .ck, .ev, .sc, .hb] s _ :=
      hstart.after <| (State.latchesCleared_keeps _).after (s.setpointTaken_keeps (wordOf hi lo)).mono
    refine ⟨_, hexec, hkeeps.left, hstart.eqHb.trans hlog.eqHb, hstart.eqAon.trans hlog.eqAon, hstart.eqSc.trans hlog.eqSc, ?_,
      hstart.eqEv.trans hev⟩
    rw [State.regStart_reg _ hovl, State.regStart_regAim _ hovl, hlgw, hlgw, hlog.eqReg]
    rfl

/-! ## Target, VSEL and SYNC -/

/-- The ramp's line above its start, in whole 0.1 mV (R66). -/
theorem State.regRampAt_rising {s : State} {us : Nat} (hus : us ≤ s.regTss) (hrise : s.reg.rampFrom ≤ s.reg.aim * 100) :
    s.regRampAt us = s.reg.rampFrom + (s.reg.aim * 100 - s.reg.rampFrom) * us / s.regTss := by
  unfold State.regRampAt
  rw [min_eq_left hus]
  have hsub : ((s.reg.aim * 100 : Nat) : Int) - (s.reg.rampFrom : Int) = ((s.reg.aim * 100 - s.reg.rampFrom : Nat) : Int) := by omega
  dsimp only
  rw [hsub]
  norm_cast

/-- SYNC seen in range with SYNCEN set (R72). -/
theorem exec_syncLock {s : State} {hz : Nat} (hon : s.regOn = true) (hen : bitAt (s.lgw 0xF801) 7 = true) (hlk : s.reg.synclk = false)
    (hlo : 200000 ≤ hz) (hhi : hz ≤ 1200000) {t : State}
    (ht : (if s.reg.syncLost then State.logEv { s with reg := { s.reg with synclk := true, syncHz := hz, syncLost := false } } 0x0206 1
      else { s with reg := { s.reg with synclk := true, syncHz := hz, syncLost := false } }) = t) :
    exec (.syncLock hz) s = .next t :=
  State.when_next s (by simp [hon, hen, hlk, syncInRange, hlo, hhi]) ht

theorem exec_setpointChange {s : State} (us : Nat) (hon : s.regOn = true) : exec (.setpointChange us) s = .next (s.regSlewed us) :=
  State.when_next s hon rfl

/-- Settles O18: the target's two movements, the roles that read VSEL, and SYNC's lock and loss. -/
theorem setpointAndSync : Obligations.SetpointAndSync := by
  unfold Obligations.SetpointAndSync
  refine ⟨?slews, ?ramps, ?vsel, ?vselT, ?locks, ?range, ?relocks, ?loss⟩
  case slews =>
    intro s us hon hst
    rw [exec_setpointChange us hon]
    unfold State.regSlewed
    rw [if_neg (by rw [hst]; decide), if_pos hst]
    rfl
  case ramps =>
    intro s us hon hst hus hrise
    rw [exec_setpointChange us hon]
    unfold State.regSlewed
    rw [if_pos hst, min_eq_right hus, State.regRampAt_rising hus hrise]
  case vsel =>
    intro s v hrole hoff
    exact State.when_next s (by simp [State.lineRole, State.aonOn, hrole, hoff]) rfl
  case vselT =>
    intro s v hrole
    exact congrArg Host.Outcome.next (if_neg (by simp [State.lineRole, hrole]))
  case locks =>
    intro s hz hon hen hlk hlost hlo hhi
    exact exec_syncLock hon hen hlk hlo hhi (by simp [hlost])
  case range =>
    intro s hz hout
    refine congrArg Host.Outcome.next (if_neg ?_)
    simp only [syncInRange, Bool.and_eq_true, decide_eq_true_eq]
    omega
  case relocks =>
    intro s hz hon hen hlk hlost hlo hhi hroom
    refine exec_syncLock hon hen hlk hlo hhi ?_
    rw [hlost, State.logEv_room _ _ _ (by exact hroom)]
    rfl
  case loss =>
    intro s hon hlk hroom
    refine State.when_next s (by simp [hon, hlk]) ?_
    rw [State.logEv_room _ _ _ (by exact hroom)]
    rfl

end Sys2Proof.Machine
end

section
/-! PROOF. The crystal, the PLLs, RTC's registers and its discipline (R85 to R94, R102, R104). -/

/- Proofs are elaborated one after the other: in parallel they outrun the kernel's checks of the text before them, and each that waits
holds a thread's memory. -/
set_option Elab.async false

open Sys2Proof

namespace Sys2Proof.Machine

/-! ## Crystal and PLLs -/

/-- An event with its interrupt while the buffer has room (R232, R427). -/
theorem State.logIrq_room (s : State) (c : Word) (d n : Nat) (h : s.ev.buf.length < 32) :
    (s.logEv c d).irq n =
      { s with ev := { s.ev with buf := s.ev.buf ++ [s.eventOf c d] }, hb := { s.hb with irq := s.hb.irq ||| BitVec.ofNat 16 (2 ^ n) } } := by
  rw [State.logEv_room s c d h]
  rfl

/-- Settles O19: `xtalFail` in its two branches. -/
theorem crystalFailure : Obligations.CrystalFailure := by
  unfold Obligations.CrystalFailure
  refine ⟨?running, ?stopped, ?returns⟩
  case running =>
    intro s hon hok hroom
    refine State.when_next s (by simp [coreOn_aonOn hon, hok]) ((if_pos hon).trans ?_)
    rw [State.logIrq_room _ _ _ _ (by exact hroom)]
    rfl
  case stopped =>
    intro s hoff hst hok
    exact State.when_next s (by simp [State.aonOn, hst, hok]) (if_neg (by simp [hoff]))
  case returns =>
    intro s hst hfail
    exact State.when_next s (by simp [State.aonOn, hst, hfail]) rfl

/-- CALF set: SY_IRQ[0] when it was clear (R60). -/
theorem State.setCalf_eq (s : State) : s.setCalf =
    { s with pw := { s.pw with calf := true }, hb := { s.hb with irq := if s.pw.calf then s.hb.irq else s.hb.irq ||| 0x0001#16 } } := by
  cases h : s.pw.calf
  · exact if_neg (by simp [h])
  · exact (if_pos h).trans (congrArg (fun b => { s with pw := { s.pw with calf := b } }) h)

/-- The SWITCH PLL's lock lost: HFO timing in every channel, the boost idle (R89, R90). -/
def State.switchLost (s : State) : State :=
  { s with ck := { s.ck with swlk := false, lost := true, onHfo := true, hfoBoost := true, hfoReg := true, swMissed := true },
           xb := { s.xb with brun := false } }

/-- Settles O20: each lock, time-out and loss by its own branch. -/
theorem switchAndMeasPlls : Obligations.SwitchAndMeasPlls := by
  unfold Obligations.SwitchAndMeasPlls
  refine ⟨?meas, ?locks, ?relocks, ?timeout, ?loss, ?taps⟩
  case meas =>
    intro s hon hst hcalf
    refine State.when_next s (by simp [hon, hst]) ?_
    exact if_neg (by simp [hcalf])
  case locks =>
    intro s hon hlk hmissed
    refine State.when_next s (by simp [hon, hlk]) ?_
    unfold State.switchLock
    simp [hmissed]
  case relocks =>
    intro s hon hlk hmissed hroom
    refine State.when_next s (by simp [hon, hlk]) ((if_pos hmissed).trans ?_)
    rw [State.logIrq_room _ _ _ _ (by exact hroom)]
    rfl
  case timeout =>
    intro s hon hst hlk hroom
    refine State.when_next s (by simp [hon, hst, hlk]) ?_
    rw [State.setCalf_eq, State.logIrq_room _ _ _ _ (by exact hroom)]
    cases s.pw.calf
    · simp [BitVec.or_assoc, State.eventOf, State.stamp]
    · rfl
  case loss =>
    intro s hon hlk
    have hexec : exec .switchPllLoss s = .next s.switchLoss := State.when_next s (by simp [hon, hlk]) rfl
    have hcut := State.cutHalf_keeps s
    have hlog : Keeps [.ev] s.cutHalf.switchLost (s.cutHalf.switchLost.logEv 0x010A 0) := State.logEv_keeps _ _ _
    refine ⟨_, hexec, exec_sameBut hexec, hlog.eqCk.trans ?_, (congrArg Xb.brun hlog.eqXb :), (congrArg Xb.pol hlog.eqXb).trans ?_,
      congrArg (· ||| 0x0001#16) (hlog.eqIrq.trans hcut.eqIrq), fun hroom => ?_⟩
    · unfold State.switchLost
      rw [hcut.eqCk]
    · exact cutHalf_pol s
    · exact State.logEv_ev 0x010A 0 hcut.eqEv (congrArg Aon.tv hcut.eqAon :) (congrArg Aon.rtc hcut.eqAon :) hroom
  case taps =>
    intro s hon hst hlk
    refine State.when_next s (by simp [hon, hst, hlk]) ?_
    unfold State.tapCalibrate State.lineRole
    cases s.pins.role <;> rfl

/-- Settles O21: lock and absence log through `logIrq_room`; MAINSFR closes both conditions. -/
theorem mainsPll : Obligations.MainsPll := by
  unfold Obligations.MainsPll
  refine ⟨?locks, ?absent, ?returns, ?forced⟩
  case locks =>
    intro s freq hon hen hfr hlk hpull hroom
    refine State.when_next s ?_ ?_
    · rcases hpull with h | h <;> simp [hon, hen, hfr, hlk, h]
    · rw [State.logIrq_room _ _ _ _ (by exact hroom), evData_two]
      rfl
  case absent =>
    intro s freq hon hen hpull hroom
    refine State.when_next s ?_ ?_
    · rcases hpull with h | h <;> simp [hon, hen, h]
    · unfold State.mainsLost
      rw [State.logIrq_room _ _ _ _ (by exact hroom), evData_two, Nat.zero_add]
      rfl
  case returns =>
    intro s freq hon hen hfr hfree
    exact State.when_next s (by simp [hon, hen, hfr, hfree]) rfl
  case forced =>
    intro s freq hfr
    exact ⟨congrArg Host.Outcome.next (if_neg (by simp [hfr])), congrArg Host.Outcome.next (if_neg (by simp [hfr]))⟩

/-! ## RTC -/

/-- A change while the audit log has room waits for its row (R234). -/
theorem State.audited_room {s : State} (what : Nat) (c : Change) (hstart : s.startUp = false) (hroom : s.lg.acount < 2048) :
    s.audited what c = s.queueChange c := by
  unfold State.audited
  rw [hstart, auditFull_room s hroom]
  rfl

theorem State.audited_early {s : State} (what : Nat) (c : Change) (hstart : s.startUp = true) : s.audited what c = s.logEv 0x070B what := by
  unfold State.audited
  exact if_pos hstart

/-- The queue after its front change has gone. -/
def State.queueLeft (s : State) (rest : List Change) : State := { s with lg := { s.lg with queue := rest } }

/-- The row of the change in front is written, and the change takes effect (R234). -/
theorem State.auditRow_takes {s : State} {c : Change} {rest : List Change} (hq : s.lg.queue = c :: rest)
    (hlive : (s.queueLeft rest).overtaken c = false) (hrow : (s.queueLeft rest).lacksRow c = false) :
    s.auditRow = ((s.queueLeft rest).auditEntry ((s.queueLeft rest).auditOf c).1 ((s.queueLeft rest).auditOf c).2).applyChange c := by
  unfold State.auditRow
  rw [hq]
  exact (if_neg (Bool.eq_false_iff.1 hlive)).trans (if_neg (Bool.eq_false_iff.1 hrow))

/-- A row away from the 1,984th logs nothing beside it (R234). -/
theorem State.auditEntry_plain {s : State} (code : Word) (data : Nat) (h : s.lg.acount < 1983) :
    (s.auditEntry code data).ev = s.ev ∧ (s.auditEntry code data).lg.queue = s.lg.queue ∧
      (s.auditEntry code data).lg.acount = s.lg.acount + 1 ∧ (s.auditEntry code data).hb = s.hb := by
  unfold State.auditEntry
  dsimp only
  rw [if_neg (by omega)]
  exact ⟨rfl, rfl, rfl, rfl⟩

theorem State.auditEntry_joined (s : State) (code : Word) (data : Nat) : (s.auditEntry code data).fram.joined = s.fram.joined := by
  unfold State.auditEntry
  dsimp only
  split
  · simp only [State.irq_fram, State.logEv_fram]
  · rfl

theorem State.auditEntry_isHead (s : State) (code : Word) (data : Nat) : (s.auditEntry code data).isHead = s.isHead := by
  unfold State.isHead
  rw [State.auditEntry_joined, (State.auditEntry_keeps s code data).eqPins, (State.auditEntry_keeps s code data).eqDn]

/-- RTC at its new value, before its event (R102). -/
def State.rtcSet (s : State) (v : Word32) : State :=
  { s with aon := { s.aon with rtc := v, sub := 0, tv := true }, ck := { s.ck with disc := 0, discPhase := 0, tickPos := 0 } }

theorem State.setRtc_node {s : State} (v : Word32) (h : s.isHead = false) :
    s.setRtc v = ((s.rtcSet v).logEv 0x010B (s.rtcStep v).toNat).irq 0 :=
  if_neg (by simp [h])

theorem startUp_of_runOrDrain {s : State} (h : s.runOrDrain = true) : s.startUp = false := by
  unfold State.runOrDrain at h
  unfold State.startUp
  cases hst : s.pw.st <;> simp_all

/-- A word on the bus: its low byte driven, its high byte latched (R422). -/
def State.driven (s : State) (a : Nat) (v : Word) : State :=
  { s with hb := { s.hb with adout := loByte v, rlatch := some (BitVec.ofNat 8 a, hiByte v) } }

theorem State.driven_keeps (s : State) (a : Nat) (v : Word) : Keeps [.hb] s (s.driven a v) := Keeps.upd (Keeps.refl _ s)

/-- Settles O22: the writes through `audited`, the row through `setRtc`, the reads through `hostRead_eq`. -/
theorem timeRegisters : Obligations.TimeRegisters := by
  unfold Obligations.TimeRegisters
  refine ⟨?low, ?high, ?row, ?early, ?readTime, ?readResult⟩
  case low =>
    intro s hi lo hbus hlatch harm
    exact hostCommit_row s (.syTimeLWrite hi) 0x76 0x76 hi lo rfl hbus hlatch rfl (by decide) harm
  case high =>
    intro s hi lo low hbus hlatch harm hheld hstart hroom htv
    refine (hostCommit_row s (.syTimeHWrite hi) 0x78 0x78 hi lo rfl hbus hlatch rfl (by decide) harm).trans (congrArg Host.Outcome.next ?_)
    refine (State.audited_room (s := s.unlatched.holdTime .host none) 0x78 (.rtc (s.unlatched.timeHeld .host) (wordOf hi lo)) hstart hroom).trans ?_
    rw [show s.unlatched.timeHeld .host = some low from hheld]
    rfl
  case row =>
    intro s low hi rest hrod hq hfew hroom hhead
    have hexec : exec .auditRowWritten s = .next s.auditRow := State.when_next s hrod rfl
    have hfull := auditFull_room (s.queueLeft rest) (show s.lg.acount < 2048 by omega)
    obtain ⟨hev, hqueue, hcount, -⟩ := State.auditEntry_plain (s := s.queueLeft rest) 0x010B (s.rtcStep (hi ++ low)).toNat hfew
    have hentry := State.auditEntry_keeps (s.queueLeft rest) 0x010B (s.rtcStep (hi ++ low)).toNat
    have hhead' := (State.auditEntry_isHead (s.queueLeft rest) 0x010B (s.rtcStep (hi ++ low)).toNat).trans hhead
    have hleft : Keeps [.lg] s (s.queueLeft rest) := Keeps.upd (Keeps.refl _ s)
    have htake : s.auditRow = ((s.queueLeft rest).auditEntry 0x010B (s.rtcStep (hi ++ low)).toNat).setRtc (hi ++ low) :=
      State.auditRow_takes hq rfl hfull
    rw [htake] at hexec
    generalize (s.queueLeft rest).auditEntry 0x010B (s.rtcStep (hi ++ low)).toNat = u at *
    have hu : Keeps [.fram, .lg, .ev, .irq] s u := hentry.after hleft.mono
    have hset : Keeps [.aon, .ck] u (u.rtcSet (hi ++ low)) := Keeps.upd (Keeps.refl _ u)
    have hlog : Keeps [.ev, .irq] (u.rtcSet (hi ++ low)) (((u.rtcSet (hi ++ low)).logEv 0x010B (u.rtcStep (hi ++ low)).toNat).irq 0) :=
      (State.irq_keeps _ 0).after (State.logEv_keeps _ _ _).mono
    have haon : (u.rtcSet (hi ++ low)).aon = { s.aon with rtc := hi ++ low, sub := 0, tv := true } := by
      unfold State.rtcSet
      rw [hu.eqAon]
    have hstep : u.rtcStep (hi ++ low) = s.rtcStep (hi ++ low) := by
      unfold State.rtcStep
      rw [hu.eqAon]
    rw [State.setRtc_node _ hhead'] at hexec
    refine ⟨_, hexec, (hlog.after <| hset.after hu.mono).left, ?_, ?_, ?_, ?_, ?_⟩
    · rw [hlog.eqAon, haon]
    · rw [hlog.eqLg, hset.eqLg, hqueue]
      rfl
    · rw [hlog.eqLg, hset.eqLg, hcount]
      rfl
    · have hstamp : (((u.rtcSet (hi ++ low)).logEv 0x010B (u.rtcStep (hi ++ low)).toNat).irq 0).stamp = (u.rtcSet (hi ++ low)).stamp := by
        unfold State.stamp
        rw [hlog.eqAon]
      have hset' : (u.rtcSet (hi ++ low)).ev = s.ev := hev
      rw [hstamp, hstep]
      exact (State.logEv_ev (s := u.rtcSet (hi ++ low)) _ _ rfl rfl rfl (by rw [hset']; exact hroom)).trans (by rw [hset']; rfl)
    · unfold State.irq
      simp
  case early =>
    intro s hi lo hbus hlatch harm hstart hroom
    refine (hostCommit_row s (.syTimeHWrite hi) 0x78 0x78 hi lo rfl hbus hlatch rfl (by decide) harm).trans (congrArg Host.Outcome.next ?_)
    refine (State.audited_early (s := s.unlatched.holdTime .host none) 0x78 _ hstart).trans ?_
    rw [State.logEv_room _ _ _ (by exact hroom)]
    rfl
  case readTime =>
    intro s hbus
    exact congrArg Host.Outcome.next (hostRead_eq s hbus 0x76)
  case readResult =>
    intro s hbus
    have hkeeps : Keeps [.ad, .hb] s (s.readResult.driven 0x2E (s.readReg 0x2E)) :=
      (State.driven_keeps ..).after (State.readResult_keeps s).mono
    exact ⟨_, congrArg Host.Outcome.next (hostRead_eq s hbus 0x2E), hkeeps.left, rfl, rfl⟩

/-- Settles O23: `discipline` slews a lead of at most half a second and steps any other. -/
theorem rtcDiscipline : Obligations.RtcDiscipline := by
  unfold Obligations.RtcDiscipline
  have hexec : ∀ s : State, s.runOrDrain = true → s.pins.role ≠ .H → s.ck.ltv = true → s.ck.ctl.getLsbD 2 = true →
      exec .rtcDiscipline s = .next s.discipline :=
    fun s hrod hrole hltv hen => State.when_next s (by rw [hrod, hltv, hen]; simp [hrole]) rfl
  have hstep : ∀ s : State, s.runOrDrain = true → s.lg.acount < 2048 → (!s.aon.tv || decide (16384 < s.rtcLead.natAbs)) = true →
      s.discipline = s.queueChange (.rtc (some (loWord s.ck.lsec)) (hiWord s.ck.lsec)) :=
    fun s hrod hroom hfar => (if_pos hfar).trans (State.audited_room 0x78 _ (startUp_of_runOrDrain hrod) hroom)
  refine ⟨?slews, ?steps, ?invalid⟩
  case slews =>
    intro s hrod hrole hltv hen htv hlead
    have hnear : s.rtcLead.natAbs ≤ 16384 := hlead
    refine (hexec s hrod hrole hltv hen).trans (congrArg Host.Outcome.next (if_neg ?_))
    simp [htv, hnear]
  case steps =>
    intro s hrod hrole hltv hen hroom htv hlead
    have hfar : 16384 < s.rtcLead.natAbs := hlead
    exact (hexec s hrod hrole hltv hen).trans (congrArg Host.Outcome.next (hstep s hrod hroom (by simp [hfar])))
  case invalid =>
    intro s hrod hrole hltv hen hroom htv
    exact (hexec s hrod hrole hltv hen).trans (congrArg Host.Outcome.next (hstep s hrod hroom (by simp [htv])))

end Sys2Proof.Machine
end

section
/-! PROOF. The Orrery: teeth, standstill, entries that fire, its window and the learning of the map (R107 to R132, R150, R167). -/

/- Proofs are elaborated one after the other: in parallel they outrun the kernel's checks of the text before them, and each that waits
holds a thread's memory. -/
set_option Elab.async false

open Sys2Proof

namespace Sys2Proof.Machine

/-! ## Teeth -/

theorem exec_toothEdge {s : State} (now : Nat) (rising bHigh : Bool) (hrun : s.running = true) :
    exec (.toothEdge now rising bHigh) s = .next ((s.edge now rising bHigh).seenAt now) := State.when_next s hrun rfl

/-- The edge that is a tooth of a ROTOR or VORTEX source (R108, R109). -/
theorem State.edge_tooth {s : State} (now : Nat) {rising bHigh : Bool} (h : s.orSrc = 1 ∧ bHigh = false ∨ s.orSrc = 2 ∧ rising = true) :
    s.edge now rising bHigh = s.tooth now (s.orSrc == 1 && !rising) := by
  unfold State.edge
  rcases h with ⟨hsrc, hb⟩ | ⟨hsrc, hr⟩
  · rw [hsrc, hb]
    rfl
  · rw [hsrc, hr]
    rfl

/-- The first tooth since standstill has no prediction and nothing to resolve (R113, R132). -/
theorem State.tooth_first {s : State} (now : Nat) (rev : Bool) (hlast : s.orr.hasLast = false) (hdir : s.orr.hasDir = false)
    (hpend : s.orr.pend = []) (hwin : s.orr.window = []) : s.tooth now rev = s.acceptReal rev false now (now - s.orr.tLast) none := by
  have hagainst : s.against rev = false := by
    unfold State.against
    rw [hdir, hpend]
    rfl
  have hpredict : s.predict rev = none := by
    unfold State.predict
    rw [hwin]
    rfl
  unfold State.tooth
  rw [hlast, hpend, hagainst]
  dsimp only
  rw [hpredict, confirmAll_nil s hpend]
  rfl

/-- An edge nearer than TMIN to the last accepted one is noise (R113). -/
theorem State.tooth_near {s : State} (now : Nat) (rev : Bool) (hlast : s.orr.hasLast = true) (hmin : (s.orw 0x304).toNat ≠ 0)
    (hnear : now - s.orr.tLast < (s.orw 0x304).toNat * 16) : s.tooth now rev = s.reject :=
  if_pos (by simp [hlast, hmin, hnear])

theorem State.mainsTooth_orr {s : State} (now : Nat) (hrun : s.ck.mainsRun = true) :
    (s.mainsTooth now).orr = (s.acceptReal false false now (now - s.orr.tLast) none).confirmAll.orr := by
  unfold State.mainsTooth
  rw [hrun]
  dsimp only
  rw [if_neg (by decide)]
  split <;> rfl

/-- Settles O25: what `acceptReal` leaves, for a first tooth and for a MAINS step; a near edge through `reject`. -/
theorem teethAreAccepted : Obligations.TeethAreAccepted := by
  unfold Obligations.TeethAreAccepted
  refine ⟨?first, ?mains, ?near, ?others, ?stopped⟩
  case first =>
    intro s now rising bHigh hrun hsrc hlast hdir hpend hwin
    have hexec := exec_toothEdge (s := s) now rising bHigh hrun
    obtain ⟨htlast, hhas, hlen, htcnt, hstill⟩ :=
      acceptReal_spec s (s.orSrc == 1 && !rising) false now (now - s.orr.tLast) none
    have hedge : s.edge now rising bHigh = s.acceptReal (s.orSrc == 1 && !rising) false now (now - s.orr.tLast) none :=
      (State.edge_tooth now hsrc).trans (State.tooth_first now _ hlast hdir hpend hwin)
    refine ⟨_, hexec, exec_sameBut hexec, ?_⟩
    rw [hedge]
    exact ⟨htlast, hhas, by rw [hpend] at hlen; exact hlen, htcnt, hstill⟩
  case mains =>
    intro s now rising bHigh hrun hsrc hdomain hpend
    have hedge : s.edge now rising bHigh = s.mainsTooth now := by
      unfold State.edge
      rw [hsrc]
      rfl
    obtain ⟨htlast, -, hlen, htcnt, -⟩ := acceptReal_spec s false false now (now - s.orr.tLast) none
    rw [hpend] at hlen
    obtain ⟨hnone, hcount, hkept⟩ := confirmAll_one _ hlen
    refine ⟨_, exec_toothEdge now rising bHigh hrun, ?_⟩
    have horr := State.mainsTooth_orr (s := s) now hdomain
    rw [hedge]
    exact ⟨(congrArg Orr.tLast horr).trans (hkept.trans htlast), (congrArg Orr.pend horr).trans hnone,
      (congrArg Orr.tcnt horr).trans (hcount.trans (congrArg (· + 1#48) htcnt))⟩
  case near =>
    intro s now hrun hsrc hlast hmin hnear hfew
    obtain ⟨hinc, hnot⟩ := satInc_lt hfew
    rw [exec_toothEdge now true false hrun, State.edge_tooth now (.inr ⟨hsrc, rfl⟩), State.tooth_near now _ hlast hmin hnear]
    unfold State.reject
    dsimp only
    rw [State.pinned_not _ _ _ _ hnot, hinc]
    rfl
  case others =>
    intro s now rising bHigh hrun hno
    have hedge : s.edge now rising bHigh = s := by
      unfold State.edge
      rcases hno with hsrc | ⟨hsrc, hb⟩ | ⟨hsrc, hr⟩ | ⟨hsrc, hdomain⟩
      · rw [hsrc]
        rfl
      · rw [hsrc, hb]
        rfl
      · rw [hsrc, hr]
        rfl
      · rw [hsrc]
        unfold State.mainsTooth
        rw [hdomain]
        rfl
    rw [exec_toothEdge now rising bHigh hrun, hedge]
    rfl
  case stopped =>
    intro s now rising bHigh hrun
    exact congrArg Host.Outcome.next (if_neg (by simp [hrun]))

/-! ## Made-up teeth, standstill and restart -/

theorem confirmAll_still (s : State) : s.confirmAll.orr.still = s.orr.still := by
  unfold State.confirmAll
  suffices h : ∀ (l : List Pending) (t : State), (l.foldl State.confirmTooth t).orr.still = t.orr.still from h _ _
  intro l
  induction l with
  | nil => exact fun t => rfl
  | cons p l ih => exact fun t => (ih _).trans (confirmTooth_orr t p).2

/-- What stands before a made-up tooth: a real tooth that pends is confirmed (R114). -/
def State.beforeSynthetic (s : State) : State :=
  match s.orr.pend with
  | p :: _ => if p.synthetic then s else s.confirmAll
  | [] => s

theorem State.beforeSynthetic_still (s : State) : s.beforeSynthetic.orr.still = s.orr.still := by
  unfold State.beforeSynthetic
  split
  · split
    · rfl
    · exact confirmAll_still s
  · rfl

/-- A tooth is made up only while the Orrery moves (R113, R132). -/
theorem synthDue_moves {s : State} {now : Nat} (h : s.synthDue now = true) : s.orr.still = false := by
  unfold State.synthDue at h
  split at h
  · exact absurd h (by decide)
  · simp only [Bool.and_eq_true, Bool.not_eq_true'] at h
    exact h.1.1.2

/-- The counts of synthetic teeth as one is made up (R115). -/
def State.synthCounted (s : State) : State :=
  { s.beforeSynthetic with orr := { s.beforeSynthetic.orr with
      synrun := s.orr.synrun + 1, synt := true, synCnt := satInc s.orr.synCnt, secSyn := s.orr.secSyn + 1 } }

/-- The tooth made up stands at its prediction (R113). -/
def State.synthPlaced (s : State) (q : Nat × Nat) : State :=
  ((s.synthCounted.pinned 3 0x319 (satInc s.orr.synCnt)).learnAbort 3).place true s.moving false
    (s.orr.tLast + (divRne (q.1 : Int) q.2).toNat) (divRne (q.1 : Int) q.2).toNat (some q)

theorem State.insertSynthetic_eq {s : State} {q : Nat × Nat} (h : s.predict s.moving = some q) :
    s.insertSynthetic = if s.orr.synrun + 1 = 3 then (s.synthPlaced q).sensorFault else s.synthPlaced q := by
  unfold State.insertSynthetic
  rw [h]
  rfl

/-- Settles O26: the tooth placed at the prediction, after what pended is resolved. -/
theorem syntheticTeeth : Obligations.SyntheticTeeth := by
  unfold Obligations.SyntheticTeeth
  intro s now q hrun hdue hpredict
  have hexec : exec (.syntheticTooth now) s = .next (s.insertSynthetic.seenAt now) := State.when_next s (by simp [hrun, hdue]) rfl
  obtain ⟨hsynt, hsynrun, hcount, htlast, hfault⟩ := synthPlace_spec s.beforeSynthetic (s.orr.synrun + 1) (s.orr.synrun + 1)
    (s.orr.secSyn + 1) (satInc s.orr.synCnt) s.moving (s.orr.tLast + (divRne (q.1 : Int) q.2).toNat) (divRne (q.1 : Int) q.2).toNat (some q)
    (s.synthPlaced q) (s.beforeSynthetic_still.trans (synthDue_moves hdue)) rfl
  rw [← State.insertSynthetic_eq hpredict] at hsynt hsynrun hcount htlast hfault
  exact ⟨_, hexec, exec_sameBut hexec, hsynt, hsynrun, hcount, htlast, fun h => hfault (by omega)⟩

theorem restartQueued_tpr {s : State} {v : Word} {rest : List Change} (hq : s.lg.queue = .word (Config.key 1 0x300) v :: rest) :
    s.restartQueued = true := by
  unfold State.restartQueued
  rw [hq]
  rfl

/-- TPR as its row takes it: the Orrery starts afresh, the map to be checked (05, Edges; R127). -/
theorem State.applyWord_tpr (s : State) (v : Word) : s.applyWord (Config.key 1 0x300) v =
    State.orClamp { s.orrRestart.nvPut (Config.key 1 0x300) v with
      orr := { (s.orrRestart.nvPut (Config.key 1 0x300) v).orr with mapv := false, mapDirty := true } } 0x300 v := rfl

theorem State.orrRestart_still {s : State} (h : s.orr.still = true) : s.orrRestart =
    { s with orr := { s.orr with sync := false, idxNext := false, idxFirst := false, tidx := 0, lastint := 0, hasInt := false, hasDir := false } } := by
  unfold State.orrRestart
  rw [if_pos h]

theorem State.auditEntry_acount (s : State) (code : Word) (data : Nat) : (s.auditEntry code data).lg.acount = s.lg.acount + 1 := by
  unfold State.auditEntry
  dsimp only
  split
  · rw [(State.irq_keeps _ 6).eqLg, (State.logEv_keeps ..).eqLg]
  · rfl

/-- Settles O27: `standstill_orr` for the standstill; TPR's row applied at standstill for the restart. -/
theorem standstillAndRestart : Obligations.StandstillAndRestart := by
  unfold Obligations.StandstillAndRestart
  refine ⟨?mainsRuns, ?stands, ?restarts⟩
  case mainsRuns =>
    intro s hrun hsrc hdomain
    exact congrArg Host.Outcome.next (if_neg (by simp [hsrc, hdomain]))
  case stands =>
    intro s hrun hstill hdomain
    have hexec : exec .standstill s = .next s.standstill := by
      refine State.when_next s ?_ rfl
      by_cases hsrc : s.orSrc = 3
      · simp [hrun, hstill, hdomain hsrc]
      · simp [hrun, hstill, hsrc]
    refine ⟨_, hexec, exec_sameBut hexec, ?_⟩
    rw [standstill_orr]
    exact ⟨rfl, rfl, rfl, rfl, (learnAbort_pend _ 6).trans (settle_pend s), rfl, rfl⟩
  case restarts =>
    intro s v rest hrod hq hroom hstill
    have hexec : exec .orreryRestart s = .next s.auditRow := State.when_next s (by simp [hrod, restartQueued_tpr hq]) rfl
    have htake := State.auditRow_takes hq rfl (auditFull_room (s.queueLeft rest) hroom)
    have hcount := State.auditEntry_acount (s.queueLeft rest) ((s.queueLeft rest).auditOf (.word (Config.key 1 0x300) v)).1
      ((s.queueLeft rest).auditOf (.word (Config.key 1 0x300) v)).2
    have hentry := State.auditEntry_keeps (s.queueLeft rest) ((s.queueLeft rest).auditOf (.word (Config.key 1 0x300) v)).1
      ((s.queueLeft rest).auditOf (.word (Config.key 1 0x300) v)).2
    rw [htake] at hexec
    generalize (s.queueLeft rest).auditEntry ((s.queueLeft rest).auditOf (.word (Config.key 1 0x300) v)).1
      ((s.queueLeft rest).auditOf (.word (Config.key 1 0x300) v)).2 = u at *
    have hu : u.orr.still = true := (congrArg Orr.still hentry.eqOrr).trans hstill
    refine ⟨_, hexec, ?_⟩
    rw [show u.applyChange (.word (Config.key 1 0x300) v) = u.applyWord (Config.key 1 0x300) v from rfl, State.applyWord_tpr,
      State.orrRestart_still hu, (State.orClamp_keeps ..).eqOrr, (State.orClamp_keeps ..).eqLg]
    exact ⟨hu, rfl, rfl, rfl, hcount⟩

/-! ## Entries that fire -/

/-- Entry n marked as fired in its revolution, at a time (R121). -/
def State.firedAt (s : State) (n : BitVec 6) (now : Nat) : State := (s.markFired n.toNat (revOf (s.thetaHeld now))).seenAt now

theorem State.firedAt_keeps (s : State) (n : BitVec 6) (now : Nat) : Keeps [.orr] s (s.firedAt n now) :=
  (State.seenAt_keeps ..).after (State.markFired_keeps ..)

theorem State.onTime_due {s : State} {n : BitVec 6} {now : Nat} {action : Nat → Bool} (f : State → Entry → State)
    (hdue : s.dueAt n.toNat now action = true) : s.onTime n now action f = f (s.firedAt n now) (s.entry n.toNat) := by
  unfold State.onTime State.when
  rw [hdue]
  rfl

/-- The converter's channel for its next start (R124, R167). -/
def State.channelSet (s : State) (ch : BitVec 4) : State := { s with ad := { s.ad with ch := ch } }

theorem State.setChannel_known {s : State} {ch : BitVec 4} (n : Nat) (h : ch ≠ 15#4) : s.setChannel ch n = s.channelSet ch := if_neg h

theorem dueAt_running {s : State} {n now : Nat} {action : Nat → Bool} (h : s.dueAt n now action = true) : s.running = true := by
  unfold State.dueAt at h
  simp only [Bool.and_eq_true] at h
  exact h.1.1.1

/-- A mark on an entry leaves the position (R118). -/
theorem State.firedAt_position (s : State) (n : BitVec 6) (now : Nat) : (s.firedAt n now).position = s.position := by
  have hmoving : (s.firedAt n now).moving = s.moving := by
    unfold State.moving State.firedAt State.seenAt State.markFired
    cases s.orr.pend <;> rfl
  unfold State.position
  rw [hmoving]
  rfl

/-- Where the flow update stands that an entry asks for (R207). -/
def State.updatePlaced (s : State) : State := { s with fe := { s.fe with updPos := s.position, updT := s.orr.tLast } }

/-- A reserved action is noted for its entry (R124). -/
def State.reservedNoted (s : State) (n : Nat) : State := { s with orr := { s.orr with resLogged := n :: s.orr.resLogged } }

/-- What a commutation's new mask does to the coil's half and pair (R146, R150). -/
theorem State.commute_halves {s : State} {m : BitVec 2} (hrun : s.running = true) :
    (s.commute m).xb.mask = maskOf m ∧
      ((s.commute m).xb.mask = s.xb.mask → (s.commute m).xb = s.xb ∧ (s.commute m).ad = s.ad ∧ (s.commute m).pw = s.pw) ∧
      ((s.commute m).xb.mask = 1 → s.xb.mask ≠ 1 → s.pairGranted = true → (s.commute m).xb.pol = 1 ∧ (s.commute m).xb.pair = true) ∧
      ((s.commute m).xb.mask = 1 → s.xb.mask ≠ 1 → s.pairGranted = false → (s.commute m).xb.pol = 0 ∧ (s.commute m).xb.pair = false) ∧
      ((s.commute m).xb.mask = 2 → s.xb.mask ≠ 2 → s.xb.pair = true → (s.commute m).xb.pol = 2 ∧ (s.commute m).xb.pairOpen = true) ∧
      ((s.commute m).xb.mask = 2 → s.xb.mask ≠ 2 → s.xb.pair = false → (s.commute m).xb.pol = 0) ∧
      ((s.commute m).xb.mask = 0 → s.xb.mask ≠ 0 → (s.commute m).xb.pol = 0) := by
  by_cases hsame : maskOf m = s.xb.mask
  · have hcommute : s.commute m = s := if_pos hsame
    rw [hcommute]
    exact ⟨hsame.symm, fun _ => ⟨rfl, rfl, rfl⟩, fun h k => absurd h k, fun h k => absurd h k, fun h k => absurd h k, fun h k => absurd h k,
      fun h k => absurd h k⟩
  · have hcommute : s.commute m = { s.applyMask (maskOf m) with xb := { (s.applyMask (maskOf m)).xb with mask := maskOf m } } :=
      if_neg hsame
    have hmask : (s.commute m).xb.mask = maskOf m := by rw [hcommute]
    refine ⟨hmask, fun h => absurd (hmask.symm.trans h) hsame, ?_, ?_, ?_, ?_, ?_⟩ <;> rw [hmask, hcommute] <;> intro hm _
    · intro hgrant
      rw [hm]
      unfold State.applyMask State.commutePos
      rw [if_pos rfl, if_pos hgrant]
      exact ⟨rfl, rfl⟩
    · intro hgrant
      rw [hm]
      unfold State.applyMask State.commutePos
      rw [if_pos rfl, if_neg (by simp [hgrant])]
      dsimp only
      split <;> exact ⟨rfl, rfl⟩
    · intro hpair
      rw [hm]
      unfold State.applyMask
      rw [if_neg (by decide), if_pos rfl, hpair, hrun]
      exact ⟨rfl, rfl⟩
    · intro hpair
      rw [hm]
      unfold State.applyMask
      rw [if_neg (by decide), if_pos rfl, hpair]
      rfl
    · rw [hm]
      unfold State.applyMask
      rw [if_neg (by decide), if_neg (by decide)]
      rfl

/-- The host's low byte of a register stands in the latch: the high byte's commit takes the word (R422). -/
theorem State.hostWord_held {s : State} {r lo : Byte} {a : Nat} (hi : Byte) (f : State → Word → State) (hbus : s.busOn = true)
    (hlatch : s.hb.wlatch = some (r, lo)) (hr : r.toNat = a) : s.hostWord a hi f = f s.unlatched (wordOf hi lo) := by
  have hheld : s.lowHeld a = true := by
    unfold State.lowHeld
    rw [hlatch]
    simp [hr]
  have hlow : s.lowOf a = lo := by
    unfold State.lowOf
    rw [hlatch]
    exact if_pos hr
  unfold State.hostWord
  rw [hbus, hheld, hlow]
  rfl

/-- A word that the row buffer takes touches nothing else (R423). -/
theorem State.nvWrite_roomKeeps {s : State} (hnvr : s.hb.nvr = true) (hrows : s.hb.rows.length < 2) (reg word k : Nat) (w : Word) :
    Keeps [.hb] s (s.nvWrite reg word k w) := by
  obtain ⟨out, hrow, hwrite⟩ := State.nvWrite_room s reg word k w hnvr hrows
  rw [hwrite]
  exact Keeps.upd (Keeps.refl _ s) (h7 := fun h => State.bufferRow_ok hrow h)

theorem State.unlatched_keeps (s : State) : Keeps [.hb] s s.unlatched := Keeps.upd (Keeps.refl _ s)

/-- DRIE and OVIE as AD_CTL writes them (07, Registers). -/
def State.adInterrupts (s : State) (v : Word) : State := { s with ad := { s.ad with drie := bitAt v 9, ovie := bitAt v 10 } }

theorem State.adInterrupts_keeps (s : State) (v : Word) : Keeps [.ad] s (s.adInterrupts v) := Keeps.upd (Keeps.refl _ s)

/-- AD_CTL beside an entry, its word taken by the row buffer and the converter running (R163, R167). -/
theorem State.writeAdCtl_beside {s u : State} {v w : Word} (hw : merge 0x01F0 (s.nvReg 0x2C) v = w)
    (hu : s.nvWrite 0x2C 0 (Config.key 0 0x2C) w = u) (hback : (u.adInterrupts v).nvReg 0x2C = w) (hruns : (u.adInterrupts v).ad.runs = true)
    (hrate : fld v 4 4 < 12) : s.writeAdCtl v true = u.adInterrupts v := by
  unfold State.writeAdCtl
  extract_lets w' t adBefore u' adAfter y x
  have hu' : u' = u.adInterrupts v := by
    subst hw hu
    rfl
  have hx : x = u' := if_neg (by omega)
  have hw' : w' = w := hw
  rw [hx, hu', hw', if_neg (by simpa using hback), if_neg (by simp [hruns])]

/-- AD_CTL's commit beside an entry that sets the channel, with the converter running: the entry's channel stands (R167). -/
theorem State.adCommitBeside_row {s : State} {lo : Byte} (hi : Byte) (hok : s.hb.ok) (hbus : s.busOn = true)
    (hlatch : s.hb.wlatch = some (0x2C, lo)) (harm : s.sc.armHost ≠ .armed) (hnvr : s.hb.nvr = true) (hrows : s.hb.rows.length < 2)
    (hruns : s.ad.runs = true) (hrate : fld (wordOf hi lo) 4 4 < 12) :
    Keeps [.ad, .hb] s (s.adCommitBeside hi) ∧
      (s.adCommitBeside hi).ad = { s.ad with drie := bitAt (wordOf hi lo) 9, ovie := bitAt (wordOf hi lo) 10 } ∧
      s.wordStored (s.adCommitBeside hi) (Config.key 0 0x2C) (merge 0x01F0 (s.nvReg 0x2C) (wordOf hi lo)) := by
  have hstored := State.nvWrite_stored hok hnvr hrows (x := s.unlatched) rfl rfl 0x2C 0 (Config.key 0 0x2C)
    (merge 0x01F0 (s.nvReg 0x2C) (wordOf hi lo))
  have hkeeps := State.nvWrite_roomKeeps (s := s.unlatched) hnvr hrows 0x2C 0 (Config.key 0 0x2C) (merge 0x01F0 (s.nvReg 0x2C) (wordOf hi lo))
  have hbeside : s.adCommitBeside hi = s.unlatched.writeAdCtl (wordOf hi lo) true :=
    (State.hostWord_held hi _ hbus hlatch rfl).trans (congrArg (fun t : State => t.writeAdCtl (wordOf hi lo) true) (if_neg harm))
  have hback := (hstored.2 (Config.key 0 0x2C)).trans (if_pos rfl)
  have hwrite := State.writeAdCtl_beside (s := s.unlatched) (v := wordOf hi lo) rfl rfl hback
    ((congrArg Ad.runs hkeeps.eqAd).trans hruns) hrate
  rw [hbeside, hwrite]
  refine ⟨(State.adInterrupts_keeps ..).after <| hkeeps.after s.unlatched_keeps.mono, ?_, hstored⟩
  exact congrArg (fun a : Ad => { a with drie := bitAt (wordOf hi lo) 9, ovie := bitAt (wordOf hi lo) 10 }) hkeeps.eqAd

/-- Settles O28: each action on the entry's mark. -/
theorem entriesFire : Obligations.EntriesFire := by
  unfold Obligations.EntriesFire
  refine ⟨?channel, ?beside, ?commutes, ?drain, ?tag, ?nco, ?update, ?interrupt, ?reserved⟩
  case channel =>
    intro s n now hdue hch
    have hset := (State.onTime_due (fun t e => t.setChannel (e.arg.extractLsb' 0 4) n.toNat) hdue).trans
      (State.setChannel_known (s := s.firedAt n now) n.toNat hch)
    exact ⟨_, congrArg Host.Outcome.next hset, (Keeps.upd (s.firedAt_keeps n now).mono).left, rfl, rfl⟩
  case beside =>
    intro s n now hi lo hinv hdue hch hbus hlatch harm hnvr hrows hruns hrate
    have hset := (State.onTime_due (fun t e => t.setChannel (e.arg.extractLsb' 0 4) n.toNat) hdue).trans
      (State.setChannel_known (s := s.firedAt n now) n.toNat hch)
    have hexec : exec (.orrSetChannel n now (some hi)) s =
        .next ((s.firedAt n now).channelSet ((s.entry n.toNat).arg.extractLsb' 0 4) |>.adCommitBeside hi) := by
      refine congrArg Host.Outcome.next ((if_pos hdue).trans ?_)
      rw [hset]
    obtain ⟨hkeeps, had, hstored⟩ := State.adCommitBeside_row (s := (s.firedAt n now).channelSet ((s.entry n.toNat).arg.extractLsb' 0 4)) hi
      (by obtain ⟨-, -, hok, -⟩ := hinv; exact hok) hbus hlatch harm hnvr hrows hruns hrate
    have hset' : Keeps [.ad] (s.firedAt n now) ((s.firedAt n now).channelSet ((s.entry n.toNat).arg.extractLsb' 0 4)) :=
      Keeps.upd (Keeps.refl _ _)
    exact ⟨_, hexec, (hkeeps.after <| hset'.after (s.firedAt_keeps n now).mono).left, had, hstored⟩
  case commutes =>
    intro s n now hdue
    have hrun := dueAt_running hdue
    have hexec : exec (.orrCommuteBridge n now) s = .next ((s.firedAt n now).commute ((s.entry n.toNat).arg.extractLsb' 0 2)) := by
      refine congrArg Host.Outcome.next ((if_neg (by simp [hrun])).trans ?_)
      exact State.onTime_due (fun t e => t.commute (e.arg.extractLsb' 0 2)) hdue
    obtain ⟨hmask, hsame, hgrant, hrefuse, hneg, hnopair, hidle⟩ :=
      State.commute_halves (s := s.firedAt n now) (m := (s.entry n.toNat).arg.extractLsb' 0 2) hrun
    exact ⟨_, hexec, exec_sameBut hexec, hmask, hsame, hgrant, hrefuse, hneg, hnopair, hidle,
      congrArg Orr.fired (State.commute_keeps (s.firedAt n now) _).eqOrr⟩
  case drain =>
    intro s n now hrod hrun hpol haction hmask
    have hexec : exec (.orrCommuteBridge n now) s = .next (s.commuteDrain (s.entry n.toNat)) := by
      exact congrArg Host.Outcome.next ((if_pos (by simp [hrod, hrun])).trans (if_pos (by simpa using hpol)))
    have hdrain : s.commuteDrain (s.entry n.toNat) = { s.endHalf with xb := { s.endHalf.xb with
        mask := maskOf ((s.entry n.toNat).arg.extractLsb' 0 2), pair := false, negDone := false } } :=
      if_neg (by simp [haction, hmask])
    rw [hdrain] at hexec
    exact ⟨_, hexec, (Keeps.upd (State.endHalf_keeps s)).left, rfl, rfl, rfl⟩
  case tag =>
    intro s n now hdue hruns
    have htag : (s.firedAt n now).sampleTag (loWord (s.entry n.toNat).arg) =
        { s.firedAt n now with ad := { s.ad with tag := some (loWord (s.entry n.toNat).arg) } } := if_pos hruns
    exact ⟨_, congrArg Host.Outcome.next ((State.onTime_due (fun t e => t.sampleTag (loWord e.arg)) hdue).trans htag),
      (Keeps.upd (s.firedAt_keeps n now).mono).left, rfl, rfl⟩
  case nco =>
    intro s n now hdue htaken hfw
    have hset : (s.firedAt n now).setFw ((s.entry n.toNat).arg.extractLsb' 0 24) =
        { s.firedAt n now with ad := s.ad.tune ((s.entry n.toNat).arg.extractLsb' 0 24) } := if_neg (Bool.eq_false_iff.1 htaken)
    exact ⟨_, congrArg Host.Outcome.next ((State.onTime_due (fun t e => t.setFw (e.arg.extractLsb' 0 24)) hdue).trans hset),
      (Keeps.upd (s.firedAt_keeps n now).mono).left, if_neg hfw, rfl⟩
  case update =>
    intro s n now hdue
    have hexec : exec (.orrFeUpdate n now) s = .next (s.firedAt n now).orrUpdate :=
      congrArg Host.Outcome.next (State.onTime_due (fun t _ => t.orrUpdate) hdue)
    obtain ⟨hpos, htime⟩ := feUpdateNow_sameUpdate (s.firedAt n now).updatePlaced
    exact ⟨_, hexec, exec_sameBut hexec, hpos.trans (State.firedAt_position s n now), htime,
      congrArg Orr.fired (State.orrUpdate_keeps (s.firedAt n now)).eqOrr⟩
  case interrupt =>
    intro s n now hdue
    have hexec : exec (.orrInterrupt n now) s = .next ((s.firedAt n now).orrInterrupt n.toNat (s.entry n.toNat).arg) :=
      congrArg Host.Outcome.next (State.onTime_due (fun t e => t.orrInterrupt n.toNat e.arg) hdue)
    exact ⟨_, hexec, exec_sameBut hexec, rfl, by simp [State.orrInterrupt], rfl, rfl, rfl⟩
  case reserved =>
    intro s n now hdue hlogged hroom
    have hexec : exec (.orrReservedAction n now) s = .next ((s.firedAt n now).reservedAction n.toNat (s.entry n.toNat).action) :=
      congrArg Host.Outcome.next (State.onTime_due (fun t e => t.reservedAction n.toNat e.action) hdue)
    have hact : (s.firedAt n now).reservedAction n.toNat (s.entry n.toNat).action = _ := if_neg hlogged
    have hlog := State.logEv_keeps ((s.firedAt n now).reservedNoted n.toNat) 0x030A (evData [(n.toNat, 0), ((s.entry n.toNat).action, 8)])
    refine ⟨_, hexec, exec_sameBut hexec, ?_, ?_, ?_⟩ <;> rw [hact]
    · exact (congrArg Orr.resLogged hlog.eqOrr)
    · rw [State.logEv_room _ _ _ (by exact hroom), evData_two]
      rfl
    · exact (congrArg Orr.fired hlog.eqOrr)

/-! ## The window's writes and the learning of the map -/

theorem orMask_low {a : Nat} (h : a < 0x300) : orMask a = 0xFFFF#16 := if_pos h

/-- A map word through the window (R127). -/
theorem State.writeOr_map {s : State} {a : Nat} {v : Word} (hnvr : s.hb.nvr = true) (hstart : s.startUp = false)
    (hseal : s.aon.sealOpen = true) (hroom : s.lg.acount < 2048) (hlo : 0x100 ≤ a) (hhi : a < 0x300) (hnew : s.orw a ≠ v) :
    s.writeOr a v = s.queueChange (.word (Config.key 1 a) v) := by
  have hmask : v &&& orMask a = v := by
    rw [orMask_low hhi, show 0xFFFF#16 = BitVec.allOnes 16 from rfl, BitVec.and_allOnes]
  unfold State.writeOr
  rw [hmask, if_neg (by rw [orMask_low hhi]; decide), if_neg (by omega), State.early_nvr s _ _ hnvr]
  unfold State.sealedWrite
  rw [State.gate_open s _ _ hstart hseal, State.propose_room s _ _ _ (by simpa [State.orw] using hnew) hroom]
  rfl

/-- Word 3 of an event entry takes the three words held before it (R125). -/
theorem State.writeOr_entry {s : State} {a : Nat} {v w0 w1 w2 : Word} (hnvr : s.hb.nvr = true) (hstart : s.startUp = false)
    (hseal : s.aon.sealOpen = true) (hroom : s.lg.acount < 2048) (ha : a < 0x100) (hlast : a % 4 = 3)
    (h0 : s.hb.held.lookup (Config.key 1 (a - 3)) = some w0) (h1 : s.hb.held.lookup (Config.key 1 (a - 2)) = some w1)
    (h2 : s.hb.held.lookup (Config.key 1 (a - 1)) = some w2) (hnew : s.orw a ≠ v) :
    s.writeOr a v = (s.unhold (Config.key 1 (a - 3)) 4).queueChange (.entry (a / 4) [w0, w1, w2, v]) := by
  have hmask : v &&& orMask a = v := by
    rw [orMask_low (by omega), show 0xFFFF#16 = BitVec.allOnes 16 from rfl, BitVec.and_allOnes]
  have hkey : Config.key 1 a % 4 = 3 := by unfold Config.key; omega
  have hbase : Config.key 1 a - 3 = Config.key 1 (a - 3) := by unfold Config.key; omega
  have hwords : (List.range 3).map (fun i => s.heldWord (Config.key 1 (a - 3) + i)) ++ [v] = [w0, w1, w2, v] := by
    have e1 : Config.key 1 (a - 3) + 1 = Config.key 1 (a - 2) := by unfold Config.key; omega
    have e2 : Config.key 1 (a - 3) + 2 = Config.key 1 (a - 1) := by unfold Config.key; omega
    simp [List.range_succ, State.heldWord, e1, e2, h0, h1, h2]
  have hchanged : ([w0, w1, w2, v] != (List.range 4).map (fun i => s.nv (Config.key 1 (a - 3) + i))) = true := by
    have e3 : Config.key 1 (a - 3) + 3 = Config.key 1 a := by unfold Config.key; omega
    have hv : v ≠ s.nv (Config.key 1 (a - 3) + 3) := by rw [e3]; exact fun h => hnew h.symm
    simp [List.range_succ, hv]
  unfold State.writeOr
  rw [hmask, if_neg (by rw [orMask_low (by omega)]; decide), if_pos ha, State.early_nvr s _ _ hnvr, State.gate_open s _ _ hstart hseal]
  unfold State.writeGroup
  dsimp only
  rw [if_neg (by omega), hkey, hbase, hwords]
  exact State.propose_room _ _ _ _ hchanged hroom

/-- OR_PTR moves on with AINC (R138). -/
theorem State.orNext_ptr (s : State) : s.orNext = { s with orr := { s.orr with ptr := if s.orr.ainc then s.orr.ptr + 1 else s.orr.ptr } } := by
  unfold State.orNext
  split <;> rfl

/-- Settles O29: the map word through `sealedWrite`, the entry through its group of four words, the index edge as it stands. -/
theorem orreryWindowWrites : Obligations.OrreryWindowWrites := by
  unfold Obligations.OrreryWindowWrites
  refine ⟨?map, ?entry, ?index⟩
  case map =>
    intro s hi lo hbus hlatch harm hnvr hstart hseal hroom hlo hhi hnew
    refine (hostCommit_row s (.mapWordWrite hi) 0x20 0x20 hi lo rfl hbus hlatch rfl (by decide) harm).trans (congrArg Host.Outcome.next ?_)
    change (s.unlatched.writeOr s.orr.ptr.toNat (wordOf hi lo)).orNext = _
    rw [State.writeOr_map (s := s.unlatched) hnvr hstart hseal hroom hlo hhi hnew, State.orNext_ptr]
    rfl
  case entry =>
    intro s hi lo w0 w1 w2 hbus hlatch harm hnvr hstart hseal hroom ha hlast h0 h1 h2 hnew
    have hexec := hostCommit_row s (.eventEntryCommit hi) 0x20 0x20 hi lo rfl hbus hlatch rfl (by decide) harm
    have hwrite : s.unlatched.writeReg .host false 0x20 (wordOf hi lo) =
        ((s.unlatched.unhold (Config.key 1 (s.orr.ptr.toNat - 3)) 4).queueChange
          (.entry (s.orr.ptr.toNat / 4) [w0, w1, w2, wordOf hi lo])).orNext :=
      congrArg State.orNext (State.writeOr_entry (s := s.unlatched) hnvr hstart hseal hroom ha hlast h0 h1 h2 hnew)
    rw [hwrite] at hexec
    refine ⟨_, hexec, Keeps.left ((State.orNext_keeps _).after <| (State.queueChange_keeps _ _).after <|
      (State.unhold_keeps _ _ _).after s.unlatched_keeps.mono), ?_⟩
    rw [State.orNext_ptr]
    exact ⟨rfl, rfl, rfl⟩
  case index =>
    intro s hrun hsrc htpr hmoving
    exact State.when_next s (by simp [hrun, hsrc, htpr, hmoving]) rfl

/-- OR_CTL with LEARN, the event table already live: its own bits go to the row buffer, LEARN in line for its row (R128). -/
theorem State.writeOrCtl_learn {s u : State} {v : Word} (hu : s.nvField 0x18 0x0304 v = u) (hlive : s.orRun = true) (hstart : u.startUp = false)
    (hseal : u.aon.sealOpen = true) (hroom : u.lg.acount < 2048) (hbit : bitAt v 3 = true) (hmay : u.mayLearn = true)
    (hidle : u.orr.learn = false) : s.writeOrCtl v = u.queueChange (.word (Config.key 0 0x18) v) := by
  unfold State.writeOrCtl
  dsimp only
  rw [hu, hlive, if_neg (by simp)]
  unfold State.sealedWrite
  rw [State.gate_open _ _ _ hstart hseal, State.propose_room _ _ _ _ (by simp [hbit, hmay, hidle]) hroom]
  rfl

/-- Settles O30: LEARN's write, the learned map's place in line, and the end of learning. -/
theorem mapLearning : Obligations.MapLearning := by
  unfold Obligations.MapLearning
  refine ⟨?start, ?complete, ?abort⟩
  case start =>
    intro s hi lo hinv hbus hlatch harm hnvr hrun hseal hroom hrows hlive hbit hmay hidle
    obtain ⟨-, -, hok, -⟩ := hinv
    have hexec := hostCommit_row s (.learnStart hi) 0x18 0x18 hi lo rfl hbus hlatch rfl (by decide) harm
    have hstored := State.nvWrite_stored hok hnvr hrows (x := s.unlatched) rfl rfl 0x18 0 (Config.key 0 0x18)
      (merge 0x0304 (s.nvReg 0x18) (wordOf hi lo))
    have hkeeps := State.nvWrite_roomKeeps (s := s.unlatched) hnvr hrows 0x18 0 (Config.key 0 0x18)
      (merge 0x0304 (s.nvReg 0x18) (wordOf hi lo))
    have hfield : s.unlatched.nvField 0x18 0x0304 (wordOf hi lo) =
        s.unlatched.nvWrite 0x18 0 (Config.key 0 0x18) (merge 0x0304 (s.nvReg 0x18) (wordOf hi lo)) := rfl
    generalize s.unlatched.nvWrite 0x18 0 (Config.key 0 0x18) (merge 0x0304 (s.nvReg 0x18) (wordOf hi lo)) = u at *
    have hctl : u.nvReg 0x18 = merge 0x0304 (s.nvReg 0x18) (wordOf hi lo) := (hstored.2 _).trans (if_pos rfl)
    have hsrc : u.orSrc = s.orSrc := by
      unfold State.orSrc
      rw [hctl, fld_merge_flow]
    have htpr : u.tpr = s.tpr := by
      have hword : u.orw 0x300 = s.orw 0x300 := (hstored.2 _).trans (if_neg (by decide))
      unfold State.tpr
      rw [hsrc, hword]
    have hu : Keeps [.hb] s u := hkeeps.after s.unlatched_keeps
    have hmay' : u.mayLearn = true := by
      unfold State.mayLearn at hmay ⊢
      rw [hsrc, htpr, hu.eqOrr, hu.eqAon, hmay]
    have hstart : u.startUp = false := by
      unfold State.startUp
      rw [hu.eqPw]
      exact startUp_run s hrun
    have hwrite : s.unlatched.writeReg .host false 0x18 (wordOf hi lo) = u.queueChange (.word (Config.key 0 0x18) (wordOf hi lo)) :=
      State.writeOrCtl_learn hfield hlive hstart (by rw [hu.eqAon, hseal]) (by rw [hu.eqLg]; exact hroom) hbit hmay'
        (by rw [hu.eqOrr, hidle])
    rw [hwrite] at hexec
    have hqueue := State.queueChange_keeps u (.word (Config.key 0 0x18) (wordOf hi lo))
    refine ⟨_, hexec, (hqueue.after hu.mono).left, ?_, State.wordStored_after hstored hqueue⟩
    unfold State.queueChange
    rw [hu.eqLg]
  case complete =>
    intro s hrun hlrn hrevs hroom
    refine State.when_next s (by simp [hrun, hlrn, hrevs]) ?_
    exact (if_neg (by rw [auditFull_room s hroom]; decide)).trans rfl
  case abort =>
    intro s hrun hlearn hroom
    refine State.when_next s hrun ?_
    unfold State.learnAbort
    rw [if_pos hlearn, State.logEv_room _ _ _ (by exact hroom)]
    rfl

end Sys2Proof.Machine
end

section
/-! PROOF. The bridge's carrier and regulation, the boost and the fault inputs (R140 to R162). -/

/- Proofs are elaborated one after the other: in parallel they outrun the kernel's checks of the text before them, and each that waits
holds a thread's memory. -/
set_option Elab.async false

open Sys2Proof

namespace Sys2Proof.Machine

/-! ## Carrier and regulation -/

/-- The bridge's part of a valley: the 100 % count and, without HOLD, the shadows (R142, R144, R148). -/
def State.valleyXb (s : State) : Xb :=
  if s.xb.hold then { s.xb with full := if s.fullDuty then s.xb.full + 1 else 0 }
  else { s.xb with full := if s.fullDuty then s.xb.full + 1 else 0, per := s.nvReg 0x24, duty := s.nvReg 0x26, dt := s.nvReg 0x28,
                   d := s.xb.dNext }

theorem State.carrierValley_eq (s : State) : s.carrierValley =
    { s with xb := s.valleyXb,
             ck := { s.ck with onHfo := s.ck.onHfo && !s.ck.swlk, tapPend := false,
                               tapCount := if s.ck.tapPend then s.ck.tapCount + 1 else s.ck.tapCount } } := by
  unfold State.carrierValley State.valleyXb
  cases hhold : s.xb.hold <;> cases htap : s.ck.tapPend <;> simp [htap]

/-- What a peak with an on-window and IREG leaves (R147 to R149). -/
theorem State.carrierPeak_regulates {s : State} (ics : BitVec 10) (hireg : s.xbIreg = true) (hpol : s.xb.pol ≠ 0) (hwin : s.window ≠ 0) :
    (s.carrierPeak ics).xb.ics = ics ∧ (s.carrierPeak ics).xb.icsSum = s.xb.icsSum + ics.toNat ∧
      (s.carrierPeak ics).xb.icsN = s.xb.icsN + 1 ∧ (s.carrierPeak ics).xb.ePrev = (s.iset : Int) - ics.toNat ∧
      (s.carrierPeak ics).xb.d = s.xb.d ∧ (s.carrierPeak ics).xb.refNow = false ∧ (s.carrierPeak ics).xb.dNext = s.nextD ics.toNat := by
  have hon : (s.window != 0) = true := by simpa using hwin
  have hhalf : (s.xbIreg && s.xb.pol != 0) = true := by
    rw [hireg]
    simpa using hpol
  unfold State.carrierPeak
  rw [hon, hhalf]
  exact ⟨rfl, rfl, rfl, rfl, rfl, rfl, rfl⟩

theorem State.carrierPeak_idle {s : State} (ics : BitVec 10) (hireg : s.xbIreg = false) (hwin : s.window = 0) :
    s.carrierPeak ics = { s with xb := { s.xb with refNow := false, dNext := (s.xb.duty.toNat * 16 : Nat) } } := by
  unfold State.carrierPeak
  simp [hwin, hireg]

/-- The pair ended by an open coil (R149). -/
def State.coilOpened (s : State) : State :=
  { s.endHalf with xb := { s.endHalf.xb with pair := false, negDone := false, openCoil := true } }

/-- Settles O31: valleys, peaks, refreshes and the open coil, each by its branch. -/
theorem carrierAndRegulation : Obligations.CarrierAndRegulation := by
  unfold Obligations.CarrierAndRegulation
  refine ⟨?valley, ?held, ?regulates, ?idle, ?refresh, ?noRefresh, ?opens⟩
  case valley =>
    intro s hrod hhold
    refine State.when_next s hrod ?_
    rw [State.carrierValley_eq, State.valleyXb, hhold]
    rfl
  case held =>
    intro s hrod hhold
    refine State.when_next s hrod ?_
    rw [State.carrierValley_eq, State.valleyXb, hhold]
    rfl
  case regulates =>
    intro s ics hrod hireg hpol hwin
    have hexec : exec (.carrierPeak ics) s = .next (s.carrierPeak ics) := State.when_next s hrod rfl
    obtain ⟨hics, hsum, hn, heprev, hd, href, hnext⟩ := State.carrierPeak_regulates ics hireg hpol hwin
    exact ⟨_, hexec, exec_sameBut hexec, hics, hsum, hn, heprev, hd, href, hnext⟩
  case idle =>
    intro s ics hrod hireg hwin
    exact State.when_next s hrod (State.carrierPeak_idle ics hireg hwin)
  case refresh =>
    intro s hrod hpol hn hfull hfew
    obtain ⟨hinc, hnot⟩ := satInc_lt hfew
    refine State.when_next s hrod ((if_neg ?_).trans ?_)
    · rintro (h | h | h)
      exacts [hn h, absurd h (by omega), hpol h]
    · dsimp only
      rw [State.pinned_not _ _ _ _ hnot, hinc]
  case noRefresh =>
    intro s hno
    have hskip : s.refresh = s := if_pos (by tauto)
    refine congrArg Host.Outcome.next ?_
    unfold State.when
    split
    · exact hskip
    · rfl
  case opens =>
    intro s hrod hrun hroom
    have hexec : exec .coilOpen s = .next ((s.coilOpened.logEv 0x0406 (evData [(s.xb.ics.toNat, 0), (s.dNow.toNat / 16, 16)])).irq 3) :=
      State.when_next s hrod (if_neg (by omega))
    have hsame := exec_sameBut hexec
    rw [State.logIrq_room s.coilOpened _ _ _ hroom, evData_two] at hexec
    rw [State.logIrq_room s.coilOpened _ _ _ hroom, evData_two] at hsame
    exact ⟨_, hexec, hsame, rfl, rfl, rfl, rfl, rfl⟩

/-! ## The boost -/

theorem exec_boostCycleStart {s t : State} (e : BoostEnv) (hon : s.xbOn = true) (ht : s.boostCycle e = t) :
    exec (.boostCycleStart e) s = .next t := State.when_next s hon ht

theorem State.boostResume_runs {s : State} (h : s.xb.brun = true) : s.boostResume = s := if_neg (by simp [h])

/-- The cycle in progress once it is complete, judged; and the next one when it may begin (R153 to R156). -/
theorem State.boostCycle_judged {s : State} {e : BoostEnv} (hrun : s.xb.brun = true) (hton : s.ton ≠ 0) (hcyc : s.xb.cyc = 1)
    (hend : s.cycleEnd e ≤ e.elapsed) : s.boostCycle e =
      if (s.judgeCycle (s.limited e)).xb.cyc = 2 && (s.judgeCycle (s.limited e)).cycleReady e && (s.judgeCycle (s.limited e)).boostGrant e
      then (s.judgeCycle (s.limited e)).turnOn else s.judgeCycle (s.limited e) := by
  unfold State.boostCycle
  rw [State.boostResume_runs hrun]
  dsimp only
  have hdone : (decide (s.xb.cyc = 1) && decide (s.cycleEnd e ≤ e.elapsed)) = true := by simp [hcyc, hend]
  rw [if_neg (by simp [hrun, hton]), if_neg (by rw [hcyc]; decide)]
  simp only [hdone, if_true]

/-- A cycle that is not limited, judged (R156). -/
def State.judgedFree (s : State) : State := { s with xb := { s.xb with cyc := 2, last8 := (false :: s.xb.last8).take 8, limRun := 0 } }

/-- A limited cycle, judged and counted (R156). -/
def State.judgedLimited (s : State) : State :=
  { s with xb := { s.xb with cyc := 2, last8 := (true :: s.xb.last8).take 8, limRun := s.xb.limRun + 1, limCnt := s.xb.limCnt + 1#16 } }

theorem State.judgeCycle_free (s : State) : s.judgeCycle false = s.judgedFree := rfl

theorem State.judgeCycle_limited {s : State} (hfew : s.xb.limCnt.toNat < 0xFFFE) : s.judgeCycle true = s.judgedLimited := by
  obtain ⟨hinc, hnot⟩ := satInc_lt hfew
  unfold State.judgeCycle
  dsimp only
  rw [if_pos rfl, if_pos rfl, State.pinned_not _ _ _ _ hnot, hinc]
  rfl

theorem State.boostMay_masked (s : State) : (!s.ck.lost && !(s.xb.fl &&& 0b101#3).getLsbD 2) = (!s.ck.lost && !s.xb.fl.getLsbD 2) := by
  simp

/-- A boost start without an active FLT1 (R156, R157). -/
theorem State.boostStart_quiet {s : State} (hlvl : s.xb.lvl.getLsbD 1 = false) : s.boostStart =
    { s with xb := { s.xb with
        fl := s.xb.fl &&& 0b101#3, limRun := 0, last8 := [], bfull := false, fullSeen := false, cyc := 0,
        bstate := if s.lgw 0xF826 = 0 then 0 else 1, brun := if s.lgw 0xF826 = 0 then false else !s.ck.lost && !s.xb.fl.getLsbD 2 } } := by
  unfold State.boostStart
  by_cases hton : s.lgw 0xF826 = 0
  · simp only [hton, if_true]
  · simp only [hton, if_false]
    rw [if_neg (by simpa using hlvl)]
    unfold State.boostMay
    dsimp only
    rw [State.boostMay_masked]

/-- A boost start without an active FLT1 touches the boost alone (R156). -/
theorem State.boostStart_onlyXb {s : State} (hlvl : s.xb.lvl.getLsbD 1 = false) : Keeps [.xb] s s.boostStart := by
  rw [State.boostStart_quiet hlvl]
  exact Keeps.upd (Keeps.refl _ s)

theorem State.limited_crm (s : State) (e : BoostEnv) (hmode : s.bmode = false) :
    s.limited e = true ↔ (∃ n, e.blimAt = some n ∧ n < s.ton) ∨ ∀ n, e.lowAt = some n → 32768 < n := by
  unfold State.limited
  rw [hmode, if_neg (by decide), Bool.or_eq_true]
  refine or_congr ?_ ?_
  · cases hblim : e.blimAt <;> simp
  · cases hlow : e.lowAt with
    | none => simp
    | some n => exact decide_eq_true_iff.trans ⟨fun h m hm => Option.some.inj hm ▸ h, fun h => h n rfl⟩

theorem State.boostGrant_iff (s : State) (e : BoostEnv) :
    s.boostGrant e = true ↔ (s.pins.role = .T → ((e.area * 10000 : Nat) : Int) ≤ s.pw.surplus * (e.elapsed * s.brs : Nat)) := by
  unfold State.boostGrant
  cases hrole : s.pins.role <;> simp

/-- The check window is passed by a cycle that was not limited, or by the stop voltage reached in it (R156). -/
theorem State.boostCheck_passes {s : State} (hst : s.xb.bstate = 1)
    (hpass : false ∈ s.xb.last8 ∨ s.xb.bfull = true ∨ s.xb.fullSeen = true) : s.boostCheck = { s with xb := { s.xb with bstate := 2 } } := by
  unfold State.boostCheck
  rw [hst, if_neg (by decide)]
  by_cases hfull : (s.xb.bfull || s.xb.fullSeen) = true
  · exact if_pos hfull
  · rw [if_neg hfull, if_neg ?_]
    have hfree : false ∈ s.xb.last8 := by
      rcases hpass with h | h | h
      · exact h
      · exact absurd (by simp [h]) hfull
      · exact absurd (by simp [h]) hfull
    have hall : s.xb.last8.all id = false := by
      simp only [List.all_eq_false]
      exact ⟨false, hfree, by decide⟩
    have hsome : s.xb.last8.isEmpty = false := by
      cases hl : s.xb.last8 <;> simp_all
    simp [hall, hsome]

theorem State.boostCheck_fails {s : State} (hst : s.xb.bstate = 1) (hfull : s.xb.bfull = false) (hseen : s.xb.fullSeen = false)
    (hnone : s.xb.last8 = []) : s.boostCheck = s.boostStop 1 := by
  unfold State.boostCheck
  rw [hst, hfull, hseen, hnone]
  rfl

/-- The sheds judged after XB_CTL's word, as they are where nothing is shed anew (R43). -/
theorem State.shedVres_sheds (s : State) :
    s.shedVres.pw = { s.pw with shedBulk := s.shedVres.pw.shedBulk, shedCoil := s.shedVres.pw.shedCoil, shedProt := s.shedVres.pw.shedProt } := by
  unfold State.shedVres
  split <;> rfl

theorem State.shedRise_quiet {s : State} {before : Nat} (h : 4 ≤ before ∨ s.shedCode < 4) : s.shedRise before = s := by
  refine if_neg ?_
  simp only [Bool.and_eq_true, decide_eq_true_eq]
  omega

/-- HOLD and OPEN as XB_CTL writes them (06, Registers). -/
def State.xbCtlTaken (s : State) (v : Word) : State := { s with xb := { s.xb with hold := bitAt v 2, openCoil := s.xb.openCoil && !bitAt v 8 } }

theorem State.xbCtlTaken_keeps (s : State) (v : Word) : Keeps [.xb] s (s.xbCtlTaken v) := Keeps.upd (Keeps.refl _ s)

/-- BSCL and the attempt count clear (R157). -/
def State.bsclDropped (s : State) : State := { s with xb := { s.xb with bscl := false, batt := 0 } }

theorem State.bsclDropped_keeps (s : State) : Keeps [.xb] s s.bsclDropped := Keeps.upd (Keeps.refl _ s)

theorem State.writeXbCtl_clears {s n : State} {v : Word} (hn : s.nvField 0x22 3 v = n) (hbit : bitAt v 3 = true)
    (hscl : (n.shedVres.shedRise s.shedCode).xb.bscl = true) :
    s.writeXbCtl true v = (((n.shedVres.shedRise s.shedCode).xbCtlTaken v).bsclDropped.logEv 0x0405 0).boostStart := by
  unfold State.writeXbCtl
  dsimp only
  rw [hn]
  exact (if_pos (by simp [hbit])).trans (if_neg (by simp [hscl]))

theorem shedCode_congr {s t : State} (hpw : t.pw = s.pw) (hpl : t.pl = s.pl) (hnv : t.fram.nv = s.fram.nv) (hrows : t.hb.rows = s.hb.rows) :
    t.shedCode = s.shedCode := by
  have haction : ∀ a, t.actionOn a = s.actionOn a := fun a => by
    unfold State.actionOn State.ruleAction
    simp only [plw_congr hrows hnv, hpl]
  unfold State.shedCode
  rw [hpw, haction]

/-- Settles O32: the cycle by `boostCycle_judged`, the stops by `boostStop_spec`, the starts by `boostStart_quiet`. -/
theorem boostAttempts : Obligations.BoostAttempts := by
  unfold Obligations.BoostAttempts
  refine ⟨?turnsOn, ?goesOn, ?free, ?limited, ?crm, ?offTime, ?grant, ?passes, ?fails, ?run, ?retry, ?reset, ?clear⟩
  case turnsOn =>
    intro s e hon hton hmay hfull hstart
    refine exec_boostCycleStart e hon ?_
    rcases hstart with ⟨hrun, hcyc⟩ | ⟨hrun, hst⟩
    · unfold State.boostCycle
      rw [State.boostResume_runs hrun]
      dsimp only
      rw [if_neg (by simp [hrun, hton]), if_pos hcyc]
      unfold State.turnOn
      rw [← hrun]
    · have hresume : s.boostResume = { s with xb := { s.xb with brun := true, cyc := 0 } } :=
        if_pos (by rcases hst with h | h <;> simp [hrun, hfull, hmay, h])
      unfold State.boostCycle
      rw [hresume]
      exact (if_neg (show ¬(!true || s.ton == 0) = true by simpa using hton)).trans (if_pos rfl)
  case goesOn =>
    intro s e hon hrun hcyc hearly
    refine exec_boostCycleStart e hon ?_
    unfold State.boostCycle
    rw [State.boostResume_runs hrun]
    dsimp only
    have hnot : (decide (s.xb.cyc = 1) && decide (s.cycleEnd e ≤ e.elapsed)) = false := by simp [hearly]
    split
    · rfl
    · rw [if_neg (by rw [hcyc]; decide)]
      simp only [hnot, Bool.false_eq_true, if_false]
      exact if_neg (by rw [hcyc]; simp)
  case free =>
    intro s e hon hrun hton hcyc hend hfree hwait
    refine exec_boostCycleStart e hon ?_
    rw [State.boostCycle_judged hrun hton hcyc hend, hfree, State.judgeCycle_free]
    exact if_neg (by rw [show s.judgedFree.cycleReady e = s.cycleReady e from rfl, show s.judgedFree.boostGrant e = s.boostGrant e from rfl,
      Bool.and_assoc, hwait, Bool.and_false]; decide)
  case limited =>
    intro s e hon hrun hton hcyc hend hlim hready hgrant hfew
    refine exec_boostCycleStart e hon ?_
    rw [State.boostCycle_judged hrun hton hcyc hend, hlim, State.judgeCycle_limited hfew]
    exact if_pos (by rw [show s.judgedLimited.cycleReady e = s.cycleReady e from rfl,
      show s.judgedLimited.boostGrant e = s.boostGrant e from rfl, hready, hgrant]; rfl)
  case crm => exact fun s e hmode => s.limited_crm e hmode
  case offTime =>
    intro s e hmode
    unfold State.limited
    rw [hmode]
    simp
  case grant => exact State.boostGrant_iff
  case passes =>
    intro s hon hst hpass
    exact State.when_next s hon (State.boostCheck_passes hst hpass)
  case fails =>
    intro s hon hst hfull hseen hnone hroom
    have hexec : exec .boostCheckWindowEnd s = .next (s.boostStop 1) := State.when_next s hon (State.boostCheck_fails hst hfull hseen hnone)
    exact ⟨_, hexec, exec_sameBut hexec, boostStop_spec s 1 hroom⟩
  case run =>
    intro s hon hst hlong hroom
    have hexec : exec .boostLimitedRun s = .next (s.boostStop 2) := State.when_next s (by simp [hon, hst, hlong]) rfl
    obtain ⟨hrun, hstate, -, hev, -⟩ := boostStop_spec s 2 hroom
    exact ⟨_, hexec, exec_sameBut hexec, hrun, hstate, hev⟩
  case retry =>
    intro s hon hst hton hlvl
    refine State.when_next s (by simp [hon, hst]) ((State.boostStart_quiet hlvl).trans ?_)
    simp only [hton, if_false]
  case reset =>
    intro s hon hst hrun
    exact State.when_next s (by simp [hon, hst, hrun]) rfl
  case clear =>
    intro s hi lo hinv hbus hlatch harm hnvr hrows hbit hscl hlvl hroom
    obtain ⟨-, -, hok, -⟩ := hinv
    have hexec := hostCommit_row_armed s (.boostLatchClear hi) 0x22 0x22 hi lo rfl hbus hlatch rfl (by decide) harm
    have hstored := State.nvWrite_stored hok hnvr hrows (x := s.unlatched.setArm .host .idle) rfl rfl 0x22 0 (Config.key 0 0x22)
      (merge 3 (s.nvReg 0x22) (wordOf hi lo))
    have hnv := State.nvWrite_roomKeeps (s := s.unlatched.setArm .host .idle) hnvr hrows 0x22 0 (Config.key 0 0x22)
      (merge 3 (s.nvReg 0x22) (wordOf hi lo))
    have hfield : (s.unlatched.setArm .host .idle).nvField 0x22 3 (wordOf hi lo) =
        (s.unlatched.setArm .host .idle).nvWrite 0x22 0 (Config.key 0 0x22) (merge 3 (s.nvReg 0x22) (wordOf hi lo)) := rfl
    generalize (s.unlatched.setArm .host .idle).nvWrite 0x22 0 (Config.key 0 0x22) (merge 3 (s.nvReg 0x22) (wordOf hi lo)) = n at *
    have hbefore : (s.unlatched.setArm .host .idle).shedCode = s.shedCode := shedCode_congr rfl rfl rfl rfl
    have hrise := (State.shedRise_keeps n.shedVres s.shedCode).after (State.shedVres_keeps n).mono (L := [.pw, .ev, .irq])
    have hwrite : (s.unlatched.setArm .host .idle).writeReg .host true 0x22 (wordOf hi lo) =
        (((n.shedVres.shedRise s.shedCode).xbCtlTaken (wordOf hi lo)).bsclDropped.logEv 0x0405 0).boostStart := by
      refine (State.writeXbCtl_clears hfield hbit ?_).trans (by rw [hbefore])
      rw [hbefore, hrise.eqXb, hnv.eqXb]
      exact hscl
    rw [hwrite] at hexec
    have hpw : (n.shedVres.shedRise s.shedCode).pw = n.shedVres.pw := (State.shedRise_keeps ..).eqPw
    have hquiet : (4 ≤ s.shedCode ∨ n.shedVres.shedCode < 4) → n.shedVres.shedRise s.shedCode = n.shedVres := State.shedRise_quiet
    have hshed := State.shedVres_keeps n
    generalize n.shedVres.shedRise s.shedCode = r at *
    have hctl : Keeps [.xb] r (r.xbCtlTaken (wordOf hi lo)).bsclDropped := (State.bsclDropped_keeps _).after (State.xbCtlTaken_keeps ..)
    have hlog := State.logEv_keeps (r.xbCtlTaken (wordOf hi lo)).bsclDropped 0x0405 0
    have hxb : ((r.xbCtlTaken (wordOf hi lo)).bsclDropped.logEv 0x0405 0).xb =
        { s.xb with hold := bitAt (wordOf hi lo) 2, openCoil := s.xb.openCoil && !bitAt (wordOf hi lo) 8, bscl := false, batt := 0 } := by
      rw [hlog.eqXb, State.bsclDropped, State.xbCtlTaken, hrise.eqXb, hnv.eqXb]
      rfl
    have hlvl' : ((r.xbCtlTaken (wordOf hi lo)).bsclDropped.logEv 0x0405 0).xb.lvl.getLsbD 1 = false := by rw [hxb]; exact hlvl
    have hstart := State.boostStart_onlyXb hlvl'
    have hlast : Keeps [.xb, .ev] r ((r.xbCtlTaken (wordOf hi lo)).bsclDropped.logEv 0x0405 0).boostStart :=
      hstart.after <| hlog.after hctl.mono
    have hxb' := congrArg State.xb (State.boostStart_quiet hlvl')
    have hlgw : ((r.xbCtlTaken (wordOf hi lo)).bsclDropped.logEv 0x0405 0).boostStart.lgw 0xF826 =
        ((r.xbCtlTaken (wordOf hi lo)).bsclDropped.logEv 0x0405 0).lgw 0xF826 := State.nv_congr (hstart.rows) hstart.eqNv _
    have hev : ((r.xbCtlTaken (wordOf hi lo)).bsclDropped.logEv 0x0405 0).boostStart.ev =
        ((r.xbCtlTaken (wordOf hi lo)).bsclDropped.logEv 0x0405 0).ev := hstart.eqEv
    rw [hxb] at hxb'
    generalize ((r.xbCtlTaken (wordOf hi lo)).bsclDropped.logEv 0x0405 0).boostStart = t at *
    have harmed : Keeps [.sc, .hb] s (s.unlatched.setArm .host .idle) := (State.setArm_keeps ..).after s.unlatched_keeps.mono
    have hall : Keeps [.pw, .xb, .ev, .irq] n t := hlast.after hrise.mono
    refine ⟨t, hexec, (hall.after <| hnv.after harmed.mono).left, ?_, ?_, ?_, ?_, ?_, ?_, fun hq => ?_,
      State.wordStored_after hstored hall⟩
    · rw [hxb']
    · rw [hxb']
    · rw [hxb']
    · rw [hall.eqSc, hnv.eqSc]
      rfl
    · rw [hxb', hlgw]
    · have hn : n.pw = s.pw := hnv.eqPw
      rw [hlast.eqPw, hpw, State.shedVres_sheds, hn]
    · have hcode : t.shedCode = n.shedVres.shedCode :=
        shedCode_congr (hlast.eqPw.trans hpw) (by rw [hall.eqPl, hshed.eqPl]) (by rw [hall.eqNv, hshed.eqNv]) (by rw [hall.rows, hshed.rows])
      have hr : r = n.shedVres := hquiet (by rw [← hcode]; exact hq)
      have hplain : Keeps [.pw, .xb, .sc, .hb] s n.shedVres := hshed.after (hnv.after harmed.mono)
      have hcleared : Keeps [.pw, .xb, .sc, .hb] s (r.xbCtlTaken (wordOf hi lo)).bsclDropped := hctl.after (hr ▸ hplain)
      exact ⟨hev.trans (State.logEv_ev _ _ hcleared.eqEv (congrArg Aon.tv hcleared.eqAon :) (congrArg Aon.rtc hcleared.eqAon :) hroom),
        by rw [hlast.eqIrq, hr]; exact hplain.eqIrq⟩

/-! ## The fault inputs -/

/-- The level FPOL calls active, driven on one of the three inputs, is what that input reads (R159). -/
theorem fltLevel_read : ∀ (flt pol : BitVec 3) (n : Fin 3) (active : Bool),
    (~~~((if active == pol.getLsbD n then flt ||| BitVec.ofNat 3 (2 ^ (n : Nat)) else flt &&& ~~~(BitVec.ofNat 3 (2 ^ (n : Nat)))) ^^^ pol)).getLsbD n =
      active := by decide

theorem State.fltPin_reads (s : State) (n : Fin 3) (active : Bool) : (s.fltPin n active).faultActive.getLsbD n = active :=
  fltLevel_read s.pins.flt s.fpol n active

/-- Which inputs are active hangs on the pins and on FRAM's word of FPOL alone. -/
theorem faultActive_congr {L : List Part} {s t : State} (h : Keeps L s t) (hp : L.contains .pins = false := by with_unfolding_all rfl)
    (hn : L.contains .nv = false := by with_unfolding_all rfl) (hb : L.contains .hb = false := by with_unfolding_all rfl) :
    t.faultActive = s.faultActive := by
  unfold State.faultActive State.fpol
  rw [h.eqPins hp, show t.lgw 0xF824 = s.lgw 0xF824 from State.nv_congr (h.rows hb) (h.eqNv hn) _]

/-- What a half cut short leaves of the fault state and the boost (R151). -/
theorem State.cutHalf_faults (s : State) : s.cutHalf.xb.fl = s.xb.fl ∧ s.cutHalf.xb.lvl = s.xb.lvl ∧ s.cutHalf.xb.mask = s.xb.mask ∧
    s.cutHalf.xb.brun = s.xb.brun ∧ s.cutHalf.xb.pair = false := by
  unfold State.cutHalf
  split
  · rename_i hidle
    exact ⟨rfl, rfl, rfl, rfl, by simp_all⟩
  · exact ⟨rfl, rfl, rfl, rfl, rfl⟩

/-- The boost stopped by a fault input leaves the bridge and the fault state as they were (R156). -/
theorem State.boostStop_faults (s : State) (cause : Nat) : (s.boostStop cause).xb.fl = s.xb.fl ∧ (s.boostStop cause).xb.mask = s.xb.mask ∧
    (s.boostStop cause).xb.pol = s.xb.pol := by
  unfold State.boostStop
  dsimp only
  split <;> simp

/-- A tripped input's flag and level (R159). -/
def State.flagTripped (u : State) (n : Nat) : State :=
  { u with xb := { u.xb with fl := u.xb.fl ||| BitVec.ofNat 3 (2 ^ n), lvl := u.xb.lvl ||| BitVec.ofNat 3 (2 ^ n) } }

/-- What a trip's flag, event and interrupt make of the state (R159). -/
theorem State.tripFlag_room (u : State) (n : Nat) (hroom : u.ev.buf.length < 32) :
    (u.tripFlag n).xb = { u.xb with fl := u.xb.fl ||| BitVec.ofNat 3 (2 ^ n), lvl := u.xb.lvl ||| BitVec.ofNat 3 (2 ^ n) } ∧
      (u.tripFlag n).ev = { u.ev with buf := u.ev.buf ++ [u.eventOf 0x0401 (n + u.xb.mask.toNat * 256)] } ∧
      (u.tripFlag n).hb.irq = u.hb.irq ||| 0x0008#16 := by
  have htrip : u.tripFlag n = ((u.flagTripped n).logEv 0x0401 (n + u.xb.mask.toNat * 256)).irq 3 := by
    unfold State.tripFlag
    rw [evData_two]
    rfl
  rw [htrip, State.logIrq_room (u.flagTripped n) _ _ _ hroom]
  exact ⟨rfl, rfl, rfl⟩

/-- A trip that does not follow an automatic restart within 1 s (R159, R161). -/
theorem State.faultTrip_plain {s : State} {n : Nat} (h : s.soonAfterAuto n = false) : s.faultTrip n = (s.groupLow n).tripFlag n :=
  if_neg (Bool.eq_false_iff.1 h)

theorem exec_faultInputTrip {s : State} {n : BitVec 2} {k : Nat} (hk : n.toNat = k) (hn : n ≠ 3) (hon : s.xbOn = true)
    (hfrz : (s.hb.frzTs || s.hb.frzTest) = false) : exec (.faultInputTrip n) s = .next ((s.fltPin k true).faultTrip k) :=
  hk ▸ congrArg Host.Outcome.next ((if_neg hn).trans ((if_neg (by simp [hfrz])).trans (if_pos hon)))

theorem exec_faultInputTrip_frozen {s : State} {n : BitVec 2} (hn : n ≠ 3) (hfrz : (s.hb.frzTs || s.hb.frzTest) = true) :
    exec (.faultInputTrip n) s = .next ((s.fltPin n.toNat true).frozenFault n.toNat) :=
  congrArg Host.Outcome.next ((if_neg hn).trans (if_pos hfrz))

/-- One flag after XB_FLT's word: its bit and an inactive input clear it (R160). -/
def flagAfter (bits lvl fl : BitVec 3) (n : Nat) : BitVec 3 :=
  if bits.getLsbD n && fl.getLsbD n && !lvl.getLsbD n then fl &&& ~~~(BitVec.ofNat 3 (2 ^ n)) else fl

theorem flagAfter_all : ∀ bits lvl fl : BitVec 3,
    flagAfter bits lvl (flagAfter bits lvl (flagAfter bits lvl fl 0) 1) 2 = fl &&& ~~~(bits &&& ~~~lvl) := by decide

/-- The restart of one group by XB_FLT's word (R160). -/
def State.flagCleared (s : State) (bits : BitVec 3) (n : Nat) : State :=
  if bits.getLsbD n && s.xb.fl.getLsbD n && !s.xb.lvl.getLsbD n then s.groupRestart n true else s

theorem State.groupRestart_faults (s : State) (n : Nat) (host : Bool) :
    (s.groupRestart n host).xb.fl = s.xb.fl &&& ~~~(BitVec.ofNat 3 (2 ^ n)) ∧ (s.groupRestart n host).xb.lvl = s.xb.lvl := by
  unfold State.groupRestart
  dsimp only
  split
  · exact ⟨rfl, rfl⟩
  · split <;> simp

theorem State.flagCleared_faults (s : State) (bits : BitVec 3) (n : Nat) :
    (s.flagCleared bits n).xb.fl = flagAfter bits s.xb.lvl s.xb.fl n ∧ (s.flagCleared bits n).xb.lvl = s.xb.lvl := by
  unfold State.flagCleared flagAfter
  split
  · exact s.groupRestart_faults n true
  · exact ⟨rfl, rfl⟩

theorem State.clearFlags_faults (s : State) (bits : BitVec 3) :
    (s.clearFlags bits).xb.fl = s.xb.fl &&& ~~~(bits &&& ~~~s.xb.lvl) ∧ (s.clearFlags bits).xb.lvl = s.xb.lvl := by
  have hthree : s.clearFlags bits = ((s.flagCleared bits 0).flagCleared bits 1).flagCleared bits 2 := rfl
  obtain ⟨hfl, hlvl⟩ := s.flagCleared_faults bits 0
  obtain ⟨hfl', hlvl'⟩ := (s.flagCleared bits 0).flagCleared_faults bits 1
  obtain ⟨hfl'', hlvl''⟩ := ((s.flagCleared bits 0).flagCleared bits 1).flagCleared_faults bits 2
  rw [hthree, hfl'', hlvl'', hfl', hlvl', hfl, hlvl, flagAfter_all]
  exact ⟨rfl, rfl⟩

/-- The automatic restart of FLT0 where AR0 is set (R161). -/
theorem State.autoRestart_restarts {s : State} (har : bitAt (s.nvReg 0x2A) 8 = true) (hfl : s.xb.fl.getLsbD 0 = true)
    (hkept : s.xb.kept.getLsbD 0 = false) :
    (s.autoRestart 0).xb.fl = s.xb.fl &&& 0b110#3 ∧ (s.autoRestart 0).xb.lvl = s.xb.lvl &&& 0b110#3 := by
  unfold State.autoRestart
  dsimp only
  rw [if_pos (by rw [har, hfl, hkept]; rfl)]
  exact State.groupRestart_faults _ 0 false

/-- Without AR0 only the level goes (R161). -/
theorem State.autoRestart_barred {s : State} (har : bitAt (s.nvReg 0x2A) 8 = false) :
    s.autoRestart 0 = { s with xb := { s.xb with lvl := s.xb.lvl &&& 0b110#3 } } := by
  unfold State.autoRestart
  exact if_neg (by simp [har])

theorem exec_faultAutoRestart {s : State} {n : BitVec 2} {k : Nat} (hk : n.toNat = k) (hn : n ≠ 3) (hon : s.xbOn = true) :
    exec (.faultAutoRestart n) s = .next ((s.fltPin k false).autoRestart k) :=
  hk ▸ congrArg Host.Outcome.next ((if_neg hn).trans (if_pos hon))

/-- The three inputs' levels as the host's cycle finds them (R160). -/
def State.inputsAt (s : State) (lvl : BitVec 3) : State :=
  { s with pins := { s.pins with flt := ~~~(lvl ^^^ s.fpol) }, xb := { s.xb with lvl := lvl } }

theorem State.inputsAt_keeps (s : State) (lvl : BitVec 3) : Keeps [.pins, .xb] s (s.inputsAt lvl) := Keeps.upd (Keeps.refl _ s)

theorem State.inputsAt_active (s : State) (lvl : BitVec 3) : (s.inputsAt lvl).faultActive = lvl := by
  have hback : ∀ l p : BitVec 3, ~~~(~~~(l ^^^ p) ^^^ p) = l := by decide
  exact hback lvl s.fpol

theorem frozen_bridgeGates {s : State} (h : (s.xb.frozenTrip.getLsbD 0 || s.xb.frozenTrip.getLsbD 2) = true) (tap since : Nat) :
    s.bridgeGates tap since = Gates.low := by
  have hheld : s.bridgeHeld = true := by
    unfold State.bridgeHeld
    rw [Bool.or_assoc, h, Bool.or_true]
  exact if_pos (.inr (.inr (.inr (.inl hheld))))

theorem frozen_boostGate {s : State} (h : (s.xb.frozenTrip.getLsbD 1 || s.xb.frozenTrip.getLsbD 2) = true) (since peak : Nat) :
    s.boostGate since peak = false := by
  unfold State.boostGate
  rcases Bool.or_eq_true_iff.1 h with h | h <;> simp [h]

/-- A word taken by the row buffer leaves every other pending word as it was (R433). -/
theorem pendWord_bufferRow_ne {rows out : List RowWrite} {k j : Nat} {w : Word} (hb : bufferRow rows k w = some out) (hj : j ≠ k) :
    pendWord out j = pendWord rows j := by
  have hend : ∀ l : List RowWrite, pendWord (l ++ [{ row := k / 16, words := [(k, w)] }]) j = pendWord l j := by
    have hne : (j == k) = false := by simp [hj]
    intro l
    induction l with
    | nil => simp [pendWord, List.lookup, hne]
    | cons r l ih => rw [List.cons_append, pendWord, ih, pendWord]
  unfold bufferRow at hb
  split at hb
  · cases hb
    exact pendWord_add_ne w hj rows
  · split at hb
    · cases hb
      exact hend rows
    · cases hb

/-- A word written through the buffer, or refused by it, leaves every other word as it stands (R433). -/
theorem State.nv_nvWrite_ne (s : State) (reg word : Nat) {k j : Nat} (w : Word) (hj : j ≠ k) : (s.nvWrite reg word k w).nv j = s.nv j := by
  have hrefused : ∀ c f d, (s.busViolation c f d).nv j = s.nv j := fun c f d =>
    State.nv_congr (s.busViolation_hb_rows c f d) (State.busViolation_keeps ..).eqNv j
  unfold State.nvWrite
  split
  · split
    · rename_i rows hb
      unfold State.nv
      dsimp only
      rw [pendWord_bufferRow_ne hb hj]
    · exact hrefused ..
  · exact hrefused ..

theorem eventOf_congr {L : List Part} {s t : State} (h : Keeps L s t) (ha : L.contains .aon = false := by with_unfolding_all rfl)
    (c : Word) (d : Nat) : t.eventOf c d = s.eventOf c d := by
  unfold State.eventOf State.stamp
  rw [h.eqAon ha]

/-- FLT2's group idled: the half cut and the boost stopped (R159). -/
def State.bothLow (s : State) : State := { s.cutHalf with xb := { s.cutHalf.xb with brun := false, cyc := 0 } }

theorem State.bothLow_keeps (s : State) : Keeps [.xb, .ad, .fe] s s.bothLow := Keeps.upd (State.cutHalf_keeps s)

/-- Settles O33: trips by `tripFlag_room` after the group's stop, the pins by `fltPin_reads`. -/
theorem faultInputs : Obligations.FaultInputs := by
  unfold Obligations.FaultInputs
  have hlive : ∀ s : State, s.xbOn = true → (s.hb.frzTs || s.hb.frzTest) = false := fun s hon => by
    unfold State.xbOn State.coreOn at hon
    simp_all
  refine ⟨?bridge, ?boost, ?both, ?frozen, ?clear, ?restart, ?barred⟩
  case bridge =>
    intro s hon hsoon hroom
    have hexec := exec_faultInputTrip (n := 0) (k := 0) rfl (by decide) hon (hlive s hon)
    have hsame := exec_sameBut hexec
    have htrip : (s.fltPin 0 true).faultTrip 0 = (s.fltPin 0 true).cutHalf.tripFlag 0 := State.faultTrip_plain hsoon
    have hcut := State.cutHalf_keeps (s.fltPin 0 true)
    obtain ⟨hfl, hlvl, hmask, hbrun, hpair⟩ := State.cutHalf_faults (s.fltPin 0 true)
    have hpol := cutHalf_pol (s.fltPin 0 true)
    obtain ⟨hxb, hev, hirq⟩ := State.tripFlag_room (s.fltPin 0 true).cutHalf 0 (by rw [hcut.eqEv]; exact hroom)
    have hall : Keeps [.xb, .ad, .fe, .ev, .irq] (s.fltPin 0 true) ((s.fltPin 0 true).cutHalf.tripFlag 0) :=
      (State.tripFlag_keeps ..).after hcut.mono
    refine ⟨_, hexec, hsame, ?_⟩
    rw [htrip, hxb, hfl, hlvl, hpol, hpair, hbrun, hall.eqPins, faultActive_congr hall, hev, hcut.eqEv, hmask, eventOf_congr hcut, hirq, hcut.eqIrq]
    exact ⟨rfl, rfl, rfl, rfl, rfl, rfl, s.fltPin_reads 0 true, by rw [Nat.zero_add]; rfl, rfl⟩
  case boost =>
    intro s hon hsoon hst hroom
    have hexec := exec_faultInputTrip (n := 1) (k := 1) rfl (by decide) hon (hlive s hon)
    have hlow : (s.fltPin 1 true).groupLow 1 = (s.fltPin 1 true).boostStop 3 := by
      have hstate : (s.xb.bstate == 1 || s.xb.bstate == 2) = true := by simpa using hst
      exact (if_neg (by decide)).trans ((if_pos rfl).trans (if_pos hstate))
    have htrip : (s.fltPin 1 true).faultTrip 1 = ((s.fltPin 1 true).boostStop 3).tripFlag 1 := by
      rw [State.faultTrip_plain (s := s.fltPin 1 true) hsoon, hlow]
    rw [htrip] at hexec
    have hstop := State.boostStop_keeps (s.fltPin 1 true) 3
    have hframe : Keeps [.pins, .xb, .ev, .irq] s (((s.fltPin 1 true).boostStop 3).tripFlag 1) :=
      (State.tripFlag_keeps ..).after <| hstop.after (State.fltPin_keeps ..).mono
    obtain ⟨hbrun, -, -, hevS, hirqS⟩ := boostStop_spec (s.fltPin 1 true) 3 (show s.ev.buf.length < 32 by omega)
    obtain ⟨hfl, hmask, hpol⟩ := State.boostStop_faults (s.fltPin 1 true) 3
    obtain ⟨hxb, hev, hirq⟩ := State.tripFlag_room ((s.fltPin 1 true).boostStop 3) 1
      (by rw [hevS, List.length_append]; exact Nat.succ_lt_succ hroom)
    refine ⟨_, hexec, hframe.left, ?_⟩
    rw [hxb, hfl, hbrun, hpol, hev, hevS, hmask, eventOf_congr hstop, hirq, hirqS, BitVec.or_assoc, BitVec.or_self]
    exact ⟨rfl, rfl, rfl, by rw [List.append_assoc]; rfl, rfl⟩
  case both =>
    intro s hon hsoon hroom
    have hexec := exec_faultInputTrip (n := 2) (k := 2) rfl (by decide) hon (hlive s hon)
    have htrip : (s.fltPin 2 true).faultTrip 2 = (s.fltPin 2 true).bothLow.tripFlag 2 := State.faultTrip_plain hsoon
    rw [htrip] at hexec
    have hlow := State.bothLow_keeps (s.fltPin 2 true)
    obtain ⟨hfl, -, hmask, -, -⟩ := State.cutHalf_faults (s.fltPin 2 true)
    have hpol := cutHalf_pol (s.fltPin 2 true)
    obtain ⟨hxb, hev, hirq⟩ := State.tripFlag_room (s.fltPin 2 true).bothLow 2 (by rw [hlow.eqEv]; exact hroom)
    refine ⟨_, hexec, ?_⟩
    rw [hxb, hev, hlow.eqEv, eventOf_congr hlow]
    unfold State.bothLow
    exact ⟨congrArg (· ||| 0b100#3) hfl, hpol, rfl, by rw [hmask]; rfl⟩
  case frozen =>
    intro s hfrz
    have hpin : ∀ n : Fin 3, ((s.fltPin n true).frozenFault n).faultActive.getLsbD n = true := fun n => by
      rw [faultActive_congr (State.frozenFault_keeps ..)]
      exact s.fltPin_reads n true
    have hframe : ∀ n : Nat, State.sameBut [.pins, .xb] s ((s.fltPin n true).frozenFault n) := fun n =>
      ((State.frozenFault_keeps ..).after (State.fltPin_keeps s n true).mono : Keeps [.pins, .xb] s _).left
    have hset : ∀ (x : BitVec 3) (n : Fin 3), (x ||| BitVec.ofNat 3 (2 ^ (n : Nat))).getLsbD n = true := by decide
    refine ⟨⟨_, exec_faultInputTrip_frozen (by decide) hfrz, hframe 0, hpin 0, rfl, frozen_bridgeGates ?_⟩,
      ⟨_, exec_faultInputTrip_frozen (by decide) hfrz, hframe 1, hpin 1, rfl, frozen_boostGate ?_⟩,
      ⟨_, exec_faultInputTrip_frozen (by decide) hfrz, hframe 2, hpin 2, rfl, frozen_bridgeGates ?_, frozen_boostGate ?_⟩⟩
    · exact Bool.or_eq_true_iff.2 (.inl (hset s.xb.frozenTrip 0))
    · exact Bool.or_eq_true_iff.2 (.inl (hset s.xb.frozenTrip 1))
    · exact Bool.or_eq_true_iff.2 (.inr (hset s.xb.frozenTrip 2))
    · exact Bool.or_eq_true_iff.2 (.inr (hset s.xb.frozenTrip 2))
  case clear =>
    intro s hi lo lvl hbus hlatch harm
    have hexec : exec (.faultFlagClear hi lvl) s = .next ((s.inputsAt lvl).hostCommit 0x2A hi true) := State.when_next s hbus rfl
    have hplain : (s.inputsAt lvl).hostCommit 0x2A hi true = (s.inputsAt lvl).unlatched.writeXbFlt (wordOf hi lo) :=
      State.hostCommit_plain (s.inputsAt lvl) 0x2A lo hi 0x2A true hbus hlatch rfl (by decide) harm
    rw [hplain] at hexec
    have hat : Keeps [.pins, .xb, .hb] s (s.inputsAt lvl).unlatched := (State.unlatched_keeps _).after (s.inputsAt_keeps lvl).mono
    have hfield := State.nvField_keeps (s.inputsAt lvl).unlatched 0x2A 0x0500 (wordOf hi lo)
    have hclear := State.clearFlags_keeps ((s.inputsAt lvl).unlatched.nvField 0x2A 0x0500 (wordOf hi lo)) ((wordOf hi lo).extractLsb' 0 3)
    obtain ⟨hfl, hlvl⟩ := State.clearFlags_faults ((s.inputsAt lvl).unlatched.nvField 0x2A 0x0500 (wordOf hi lo))
      ((wordOf hi lo).extractLsb' 0 3)
    rw [hfield.eqXb] at hfl hlvl
    refine ⟨_, hexec, (hclear.after <| hfield.after hat.mono : Keeps [.pins, .xb, .ev, .hb] s _).left, hlvl, ?_, hfl, fun hinv hnvr hrows => ?_⟩
    · have hlgw : ((s.inputsAt lvl).unlatched.nvField 0x2A 0x0500 (wordOf hi lo)).lgw 0xF824 = (s.inputsAt lvl).lgw 0xF824 :=
        (State.nv_nvWrite_ne _ 0x2A 0 _ (by decide)).trans (State.nv_congr rfl rfl _)
      refine (faultActive_congr hclear).trans ?_
      unfold State.faultActive State.fpol
      rw [hfield.eqPins, hlgw]
      exact s.inputsAt_active lvl
    · obtain ⟨-, -, hok, -⟩ := hinv
      have hstored := State.nvWrite_stored hok hnvr hrows (x := (s.inputsAt lvl).unlatched) rfl rfl 0x2A 0 (Config.key 0 0x2A)
        (merge 0x0500 (s.nvReg 0x2A) (wordOf hi lo))
      exact State.wordStored_after hstored hclear
  case restart =>
    intro s hon har hfl hkept
    have hexec := exec_faultAutoRestart (n := 0) (k := 0) rfl (by decide) hon
    have hrestart := State.autoRestart_restarts (s := s.fltPin 0 false) har hfl hkept
    exact ⟨_, hexec, exec_sameBut hexec, hrestart.1, hrestart.2,
      (congrArg (BitVec.getLsbD · 0) (faultActive_congr (State.autoRestart_keeps ..))).trans (s.fltPin_reads 0 false)⟩
  case barred =>
    intro s hon har
    have hexec := exec_faultAutoRestart (n := 0) (k := 0) rfl (by decide) hon
    rw [State.autoRestart_barred (s := s.fltPin 0 false) har] at hexec
    refine ⟨_, hexec, ?_, rfl, s.fltPin_reads 0 false⟩
    exact (Keeps.upd (L := [.pins, .xb]) (State.fltPin_keeps s 0 false).mono).left

end Sys2Proof.Machine
end

section
/-! PROOF. The converter, the DACs and the NCO, and magnetic pairs (R152, R163 to R196). -/

/- Proofs are elaborated one after the other: in parallel they outrun the kernel's checks of the text before them, and each that waits
holds a thread's memory. -/
set_option Elab.async false

open Sys2Proof

namespace Sys2Proof.Machine

/-! ## Conversions -/

theorem ite_channel {c : Prop} [Decidable c] {s t u : State} (ht : t.ad.ch = s.ad.ch) (hu : u.ad.ch = s.ad.ch) :
    (if c then t else u).ad.ch = s.ad.ch := by
  split
  exacts [ht, hu]

theorem takeResult_ch (s : State) (env : ConvEnv) (code : BitVec 24) (ovr : Bool) : (s.takeResult env code ovr).ad.ch = s.ad.ch := by
  unfold State.takeResult
  refine ite_channel rfl <| ite_channel rfl <| ite_channel (congrArg Ad.ch (State.emptyByCommon_keeps ..).eqAd) <| ite_channel rfl <|
    ite_channel rfl <| ite_channel rfl <| ite_channel (ite_channel (congrArg Ad.ch (State.loopBTotalise_keeps ..).eqAd) rfl) <|
    ite_channel rfl rfl

/-- What a conversion's end outside CALIB leaves before the next one starts (R163, R174). -/
def State.resultTaken (s : State) (env : ConvEnv) : State :=
  let s1 := s.showResult (s.codeOf env).1 (s.codeOf env).2
  let s2 := if (s.codeOf env).2 then s1.overrange else s1
  let s3 := if s2.ad.drie then s2.irq 4 else s2
  (s3.keepResult env (s.codeOf env).1 (s.codeOf env).2).takeResult env (s.codeOf env).1 (s.codeOf env).2

theorem State.convEnd_next {s : State} (env : ConvEnv) (hst : s.pw.st ≠ .calib) : s.convEnd env = (s.resultTaken env).nextConv := by
  unfold State.convEnd State.resultTaken
  dsimp only
  rw [if_neg (by simpa using hst)]

theorem State.resultTaken_keeps (s : State) (env : ConvEnv) : Keeps [.ad, .fe, .lg, .ev, .lp, .pl, .irq] s (s.resultTaken env) := by
  unfold State.resultTaken
  refine (State.takeResult_keeps ..).after <| (State.keepResult_keeps ..).after ?_
  refine Keeps.ite (fun _ => (State.irq_keeps ..).after ?_) (fun _ => ?_) <;>
  refine Keeps.ite (fun _ => (State.overrange_keeps ..).after ?_) (fun _ => ?_) <;>
  exact (State.showResult_keeps ..).mono

theorem State.resultTaken_ch (s : State) (env : ConvEnv) : (s.resultTaken env).ad.ch = s.ad.ch := by
  have hirq : ∀ (b : Bool) (t : State), (if b then t.irq 4 else t).ad.ch = t.ad.ch := fun b t => by cases b <;> rfl
  have hover : ∀ (b : Bool) (t : State), (if b then t.overrange else t).ad.ch = t.ad.ch := fun b t => by
    cases b
    · rfl
    · exact overrange_ch t
  unfold State.resultTaken
  rw [takeResult_ch]
  exact (hirq _ _).trans (hover _ _)

/-- The next conversion starts with the channel as it stands (R165). -/
theorem State.nextConv_starts {s : State} (hst : s.pw.st ≠ .calib) (hrod : s.runOrDrain = true) (hen : s.adEn = true) :
    s.nextConv = s.startConv s.ad.ch (BitVec.ofNat 4 (fld (s.nvReg 0x2C) 4 4)) := by
  unfold State.nextConv
  rw [if_neg (by simpa using hst), if_pos (by rw [hrod, hen]; rfl)]

theorem runOrDrain_notCalib {s : State} (h : s.runOrDrain = true) : s.pw.st ≠ .calib := by
  intro hst
  simp [State.runOrDrain, hst] at h

theorem runOrDrain_congr {s t : State} (hpw : t.pw = s.pw) (hts : t.hb.frzTs = s.hb.frzTs) (htest : t.hb.frzTest = s.hb.frzTest) :
    t.runOrDrain = s.runOrDrain := by
  unfold State.runOrDrain
  rw [hpw, hts, htest]

/-- AD_CTL written with EN, the channel known and the rate in range, starts a conversion (R163 to R165). -/
theorem State.writeAdCtl_conversion {s u : State} {v w : Word} (hw : merge 0x01FF (s.nvReg 0x2C) v = w)
    (hu : s.nvWrite 0x2C 0 (Config.key 0 0x2C) w = u) (hback : u.nvReg 0x2C = w) (hrate : fld v 4 4 < 12)
    (hch : v.extractLsb' 0 4 ≠ 15#4) (hrod : u.runOrDrain = true) (hruns : u.ad.runs = false) (hen : bitAt v 8 = true) :
    s.writeAdCtl v false =
      ((u.adInterrupts v).channelSet (v.extractLsb' 0 4)).startConv (v.extractLsb' 0 4) (BitVec.ofNat 4 (fld v 4 4)) := by
  have hen' : bitAt w 8 = true := by rw [← hw, bitAt_merge_new (by decide), hen]
  have hrate' : fld w 4 4 = fld v 4 4 := by rw [← hw]; exact fld_merge_new (by decide) _ _
  have hnext : ((u.adInterrupts v).channelSet (v.extractLsb' 0 4)).nextConv =
      ((u.adInterrupts v).channelSet (v.extractLsb' 0 4)).startConv (v.extractLsb' 0 4) (BitVec.ofNat 4 (fld v 4 4)) := by
    rw [State.nextConv_starts (s := (u.adInterrupts v).channelSet (v.extractLsb' 0 4)) (runOrDrain_notCalib hrod) hrod
      (by unfold State.adEn; exact (congrArg (bitAt · 8) hback).trans hen')]
    rw [show ((u.adInterrupts v).channelSet (v.extractLsb' 0 4)).nvReg 0x2C = w from hback, hrate']
    rfl
  unfold State.writeAdCtl
  extract_lets w' t adBefore u' adAfter y x
  have hu' : u' = u.adInterrupts v := by
    subst hw hu
    rfl
  have hw' : w' = w := hw
  have hy : y = (u.adInterrupts v).channelSet (v.extractLsb' 0 4) := (if_neg hch).trans (congrArg (State.channelSet · (v.extractLsb' 0 4)) hu')
  have hx : x = y := if_neg (by omega)
  have hstored : (u.adInterrupts v).nvReg 0x2C = w := hback
  have hstart : (((u.adInterrupts v).channelSet (v.extractLsb' 0 4)).runOrDrain &&
      !((u.adInterrupts v).channelSet (v.extractLsb' 0 4)).ad.runs) = true := by
    rw [show ((u.adInterrupts v).channelSet (v.extractLsb' 0 4)).runOrDrain = true from hrod,
      show ((u.adInterrupts v).channelSet (v.extractLsb' 0 4)).ad.runs = false from hruns]
    rfl
  rw [hu', hw', hstored, if_neg (by simp), hx, hy, if_pos hstart, hnext]

/-- Settles O34: the end's result by `convEnd_spec`, the next start by `nextConv_starts`. -/
theorem conversions : Obligations.Conversions := by
  unfold Obligations.Conversions
  refine ⟨?shows, ?code, ?next, ?enable, ?calib⟩
  case shows =>
    intro s env hon hruns
    have hexec : exec (.conversionEnd env) s = .next (s.convEnd env) := State.when_next s (by simp [hon, hruns]) rfl
    exact ⟨_, hexec, exec_sameBut hexec, convEnd_spec s env⟩
  case code =>
    intro s env hch hint
    unfold State.codeOf
    simp only [hch, hint, if_true, Bool.false_eq_true, if_false]
    rfl
  case next =>
    intro s env hrun hruns hen
    have hexec : exec (.conversionEnd env) s = .next (s.convEnd env) := State.when_next s (by simp [running_core hrun, hruns]) rfl
    have hrod := running_runOrDrain hrun
    have hk := s.resultTaken_keeps env
    have hst : (s.resultTaken env).pw.st ≠ .calib := by rw [hk.eqPw]; exact runOrDrain_notCalib hrod
    have hrod' : (s.resultTaken env).runOrDrain = true :=
      (runOrDrain_congr hk.eqPw (congrArg Hb.frzTs hk.eqHb :) (congrArg Hb.frzTest hk.eqHb :)).trans hrod
    have hen' : (s.resultTaken env).adEn = true := by
      unfold State.adEn State.nvReg
      rw [State.nv_congr hk.rows hk.eqNv]
      exact hen
    rw [State.convEnd_next env (runOrDrain_notCalib hrod), State.nextConv_starts hst hrod' hen'] at hexec
    exact ⟨_, hexec, rfl, s.resultTaken_ch env, rfl⟩
  case enable =>
    intro s hi lo hinv hbus hlatch harm hnvr hrows hrod hruns hen hrate hch
    obtain ⟨-, -, hok, -⟩ := hinv
    have hplain := hostCommit_row s (.adcEnable hi) 0x2C 0x2C hi lo rfl hbus hlatch rfl (by decide) harm
    have hstored := State.nvWrite_stored hok hnvr hrows (x := s.unlatched) rfl rfl 0x2C 0 (Config.key 0 0x2C)
      (merge 0x01FF (s.nvReg 0x2C) (wordOf hi lo))
    have hnv := State.nvWrite_roomKeeps (s := s.unlatched) hnvr hrows 0x2C 0 (Config.key 0 0x2C) (merge 0x01FF (s.nvReg 0x2C) (wordOf hi lo))
    have hback := (hstored.2 (Config.key 0 0x2C)).trans (if_pos rfl)
    generalize hu : s.unlatched.nvWrite 0x2C 0 (Config.key 0 0x2C) (merge 0x01FF (s.nvReg 0x2C) (wordOf hi lo)) = u at *
    have hwrite := State.writeAdCtl_conversion (s := s.unlatched) (v := wordOf hi lo) rfl hu hback hrate hch
      ((runOrDrain_congr hnv.eqPw (congrArg Hb.frzTs hstored.1 :) (congrArg Hb.frzTest hstored.1 :)).trans hrod)
      ((congrArg Ad.runs hnv.eqAd).trans hruns) hen
    have hcommit : s.unlatched.writeReg .host false 0x2C (wordOf hi lo) = s.unlatched.writeAdCtl (wordOf hi lo) false :=
      if_neg (by simpa [State.unlatched] using runOrDrain_notCalib hrod)
    rw [hcommit, hwrite] at hplain
    have hchannel : Keeps [.ad] u ((u.adInterrupts (wordOf hi lo)).channelSet ((wordOf hi lo).extractLsb' 0 4)) :=
      Keeps.upd (State.adInterrupts_keeps ..)
    have hstart : Keeps [.ad] u (((u.adInterrupts (wordOf hi lo)).channelSet ((wordOf hi lo).extractLsb' 0 4)).startConv
      ((wordOf hi lo).extractLsb' 0 4) (BitVec.ofNat 4 (fld (wordOf hi lo) 4 4))) := (State.startConv_keeps ..).after hchannel
    refine ⟨_, hplain, (hstart.after <| hnv.after s.unlatched_keeps.mono : Keeps [.ad, .hb] s _).left, ?_, State.wordStored_after hstored hstart⟩
    have had : u.ad = s.ad := hnv.eqAd
    have hxb : u.xb = s.xb := hnv.eqXb
    unfold State.startConv State.channelSet State.adInterrupts
    dsimp only
    rw [had, hxb]
  case calib =>
    intro s hi lo hbus hlatch harm hst
    have hplain := hostCommit_row s (.adcEnable hi) 0x2C 0x2C hi lo rfl hbus hlatch rfl (by decide) harm
    exact hplain.trans (congrArg Host.Outcome.next (if_pos (by simpa [State.unlatched] using hst)))

/-! ## The DACs and the NCO -/

/-- A word the row buffer takes is followed by what the write does beside it (R433). -/
theorem State.nvThen_room {s : State} (hnvr : s.hb.nvr = true) (hrows : s.hb.rows.length < 2) (reg word k : Nat) (w : Word) (f : State → State) :
    s.nvThen reg word k w f = f (s.nvWrite reg word k w) := by
  obtain ⟨rows, hrow⟩ := bufferRow_some hrows k w
  exact if_pos (by rw [hnvr, hrow]; rfl)

/-- The auxiliary output's mode word through LG_DATA (R184, R187). -/
theorem State.writeLg_auxMode {s : State} (hnvr : s.hb.nvr = true) (hrows : s.hb.rows.length < 2) (v : Word) :
    s.writeLg 0xF840 v = (s.nvWrite 0x60 0xF840 (Config.key 3 0xF840) (v &&& 0x0003)).auxMode (s.lgw 0xF840) :=
  State.nvThen_room hnvr hrows 0x60 0xF840 (Config.key 3 0xF840) (v &&& 0x0003) (State.auxMode · (s.lgw 0xF840))

theorem State.auxMode_ad (s : State) (before : Word) :
    (s.auxMode before).ad = { s.ad with daAux := if fld before 0 2 = fld (s.lgw 0xF840) 0 2 then s.ad.daAux else 0 } := by
  unfold State.auxMode
  split <;> rfl

theorem State.lgNext_lg (s : State) : s.lgNext.lg = { s.lg with ptr := if s.lg.ainc then s.lg.ptr + 1 else s.lg.ptr } := by
  unfold State.lgNext
  split <;> rfl

/-- DA_LOOP's word as a target under ASRC 1, the loop driven and no alarm (R286). -/
theorem State.writeDaLoop_driven {s : State} (hasrc : s.asrc = 1) (hraw : s.lp.traw = false) (hdriving : s.lp.driving = true)
    (halarm : s.lp.alarm = 0) (v : Word) : s.writeDaLoop v = { s with
      lp := { s.lp with hostTarget := clampNat 3400000 23000000 (v.toNat * 375), hostRaw := none,
                        target := clampNat 3400000 23000000 (v.toNat * 375) },
      ad := { s.ad with daLoop := s.trimCode (clampNat 3400000 23000000 (v.toNat * 375)) } } := by
  have hdriven : (s.lp.driving && s.lp.alarm == 0) = true := by simp [hdriving, halarm]
  exact (if_neg (by simp [hasrc])).trans ((if_neg (Bool.eq_false_iff.1 hraw)).trans (if_pos hdriven))

theorem State.setFw_free {s : State} (h : s.ncoTaken = false) (fw : BitVec 24) : s.setFw fw = { s with ad := s.ad.tune fw } :=
  if_neg (Bool.eq_false_iff.1 h)

/-- DA_NCO's word, kept as the register reads (07, Tone NCO). -/
def State.ncoWord (s : State) (v : Word) : State := { s with ad := { s.ad with nco := v &&& 0x8FFF#16 } }

theorem State.writeNco_low {v : Word} (h : bitAt v 15 = false) (s : State) : s.writeNco v =
    { s.ncoWord v with ad := { (s.ncoWord v).ad with ncoLow := (v &&& 0x8FFF#16).extractLsb' 0 12 } } := if_neg (Bool.eq_false_iff.1 h)

theorem State.writeNco_high {s : State} {v : Word} {a : Ad} (h : bitAt v 15 = true) (hfree : s.ncoTaken = false)
    (htune : (s.ncoWord v).ad.tune ((v &&& 0x8FFF#16).extractLsb' 0 12 ++ s.ad.ncoLow) = a) : s.writeNco v = { s.ncoWord v with ad := a } :=
  htune ▸ (if_pos h).trans (State.setFw_free (s := s.ncoWord v) hfree _)

theorem nextZero_halves (p : BitVec 24) : nextZero p = 0 ∨ nextZero p = 0x800000#24 := by
  have hhalf : p.toNat / 0x800000 = 0 ∨ p.toNat / 0x800000 = 1 := by omega
  unfold nextZero
  rcases hhalf with h | h <;> rw [h]
  · exact .inr rfl
  · exact .inl rfl

/-- The compliance flag set (R185). -/
def State.complSet (s : State) : State := { s with ad := { s.ad with compl := true } }

/-- The open-loop flag set (R186). -/
def State.dopenSet (s : State) : State := { s with ad := { s.ad with dopen := true } }

theorem State.openLoop_room {s : State} {mv : Nat} (hdao : s.daoMode = true) (hmv : 2850 ≤ mv) (hroom : s.ev.buf.length < 31) :
    s.openLoop mv = { s with
      ad := { s.ad with dopen := true, daAux := 0 },
      ev := { s.ev with buf := s.ev.buf ++ [s.eventOf 0x0504 s.ad.daAux.toNat, s.eventOf 0x0506 (1 + 4 * 256)] },
      hb := { s.hb with irq := s.hb.irq ||| 0x0010#16 } } := by
  have hopen : s.openLoop mv = ((s.dopenSet.logEv 0x0504 s.ad.daAux.toNat).irq 4).zeroDac true 4 := if_pos (by simp [hdao, hmv])
  rw [hopen, State.logIrq_room s.dopenSet _ _ _ (show s.ev.buf.length < 32 by omega)]
  unfold State.zeroDac
  rw [evData_two]
  refine (State.logEv_room _ _ _ ?_).trans ?_
  · rw [if_pos rfl, List.length_append]
    exact Nat.succ_lt_succ hroom
  · simp only [if_true, List.append_assoc]
    rfl

/-- Settles O35: each register's write at its row, by the shape its conditions give. -/
theorem dacsAndNco : Obligations.DacsAndNco := by
  unfold Obligations.DacsAndNco
  refine ⟨?aux, ?mode, ?compliance, ?cleared, ?opened, ?loop, ?low, ?tuned, ?ramp, ?zero⟩
  case aux =>
    intro s hi lo hbus hlatch harm
    exact hostCommit_row s (.daAuxWrite hi) 0x34 0x34 hi lo rfl hbus hlatch rfl (by decide) harm
  case mode =>
    intro s hi lo hinv hbus hlatch harm hnvr hrows hptr
    obtain ⟨-, -, hok, -⟩ := hinv
    have hplain := hostCommit_row s (.auxModeChange hi) 0x60 0x60 hi lo rfl hbus hlatch rfl (by decide) harm
    have hstored := State.nvWrite_stored hok hnvr hrows (x := s.unlatched) rfl rfl 0x60 0xF840 (Config.key 3 0xF840)
      (wordOf hi lo &&& 0x0003)
    have hnv := State.nvWrite_roomKeeps (s := s.unlatched) hnvr hrows 0x60 0xF840 (Config.key 3 0xF840) (wordOf hi lo &&& 0x0003)
    have hwrite : s.unlatched.writeReg .host false 0x60 (wordOf hi lo) =
        ((s.unlatched.nvWrite 0x60 0xF840 (Config.key 3 0xF840) (wordOf hi lo &&& 0x0003)).auxMode (s.lgw 0xF840)).lgNext := by
      refine congrArg State.lgNext ?_
      rw [show s.unlatched.lg.ptr.toNat = 0xF840 from congrArg BitVec.toNat hptr]
      exact State.writeLg_auxMode (s := s.unlatched) hnvr hrows (wordOf hi lo)
    rw [hwrite] at hplain
    generalize s.unlatched.nvWrite 0x60 0xF840 (Config.key 3 0xF840) (wordOf hi lo &&& 0x0003) = u at *
    have haux := State.auxMode_keeps u (s.lgw 0xF840)
    have hnext : Keeps [.ad, .lg] u (u.auxMode (s.lgw 0xF840)).lgNext := (State.lgNext_keeps _).after haux.mono
    have hlgw : u.lgw 0xF840 = wordOf hi lo &&& 0x0003 := (hstored.2 _).trans (if_pos rfl)
    refine ⟨_, hplain, (hnext.after <| hnv.after s.unlatched_keeps.mono).left, State.wordStored_after hstored hnext, ?_, ?_⟩
    · rw [State.lgNext_lg, haux.eqLg, hnv.eqLg]
      rfl
    · rw [(State.lgNext_keeps _).eqAd, State.auxMode_ad, hlgw, hnv.eqAd]
      rfl
  case compliance =>
    intro s mv hon hdao hcompl hmv hroom
    refine State.when_next s hon ((if_pos (by simp [hdao, hcompl, hmv])).trans ?_)
    exact State.logIrq_room s.complSet 0x0503 mv 4 hroom
  case cleared => exact fun s hon => State.when_next s hon rfl
  case opened =>
    intro s mv hon hdao hmv hroom
    exact State.when_next s hon (State.openLoop_room hdao hmv hroom)
  case loop =>
    intro s hi lo hbus hlatch harm hasrc hraw hdriving halarm
    have hplain := hostCommit_row s (.daLoopWrite hi) 0x32 0x32 hi lo rfl hbus hlatch rfl (by decide) harm
    exact hplain.trans (congrArg Host.Outcome.next (State.writeDaLoop_driven (s := s.unlatched) hasrc hraw hdriving halarm _))
  case low =>
    intro s hi lo hbus hlatch harm hbit
    have hplain := hostCommit_row s (.daNcoWrite hi) 0x36 0x36 hi lo rfl hbus hlatch rfl (by decide) harm
    exact hplain.trans (congrArg Host.Outcome.next (s.unlatched.writeNco_low hbit))
  case tuned =>
    intro s hi lo hbus hlatch harm hbit hfree hfw
    have hplain := hostCommit_row s (.daNcoWrite hi) 0x36 0x36 hi lo rfl hbus hlatch rfl (by decide) harm
    exact hplain.trans (congrArg Host.Outcome.next (State.writeNco_high (s := s.unlatched) hbit hfree (if_neg hfw)))
  case ramp =>
    intro s hi lo hbus hlatch harm hbit hfree hfw
    have hplain := hostCommit_row s (.daNcoWrite hi) 0x36 0x36 hi lo rfl hbus hlatch rfl (by decide) harm
    exact hplain.trans (congrArg Host.Outcome.next (State.writeNco_high (s := s.unlatched) hbit hfree (if_pos hfw)))
  case zero =>
    intro s hon hramp
    have hexec : exec .ncoZeroStop s = .next { s with ad := s.ad.atZero } := State.when_next s (by simp [hon, hramp]) rfl
    have hphase := nextZero_halves s.ad.phase
    refine ⟨_, hexec, exec_sameBut hexec, rfl, hphase, ?_⟩
    show sineTable ((nextZero s.ad.phase).extractLsb' 16 8).toNat = 0
    rcases hphase with h | h <;> rw [h] <;> decide

/-! ## Magnetic pairs -/

theorem State.emptyPipe_qAt (s : State) : s.emptyPipe.fe.qAt = s.fe.qAt := by
  unfold State.emptyPipe State.emptyEnter
  split <;> split_ifs <;> simp

/-- What a complete pair leaves of the time before it: totalised, and the empty-pipe test made (R152, R195). -/
def State.pairTotalised (s : State) (elapsed : Nat) : State :=
  { s.totaliseQ s.fe.q elapsed 3 with fe := { (s.totaliseQ s.fe.q elapsed 3).fe with qAt := s.pw.ticks } }.emptyPipe

/-- Half the difference of the two halves' means (R195). -/
def State.pairDu (s : State) : F32 := F32.div (F32.sub (meanCode (s.halfResults 1)) (meanCode (s.halfResults 2))) (F32.ofInt 2)

/-- Q of a complete pair (R195). -/
def State.pairQ (s : State) : F32 :=
  F32.div (F32.mul (F32.mul (s.fef 0x002) s.pairDu) (F32.ofInt s.iset)) (F32.ofRatio s.xb.icsSum s.xb.icsN)

/-- The pair's figures taken (R195). -/
def State.pairTaken (s t : State) : State :=
  { t with fe := { t.fe with du := s.pairDu, q := s.pairQ, qvp := { t with fe := { t.fe with du := s.pairDu } }.qCut s.pairQ } }

theorem State.pairEnd_complete {s : State} (elapsed : Nat) (hcut : s.fe.cutPair = false) (hpos : 2 ≤ (s.halfResults 1).length)
    (hneg : 2 ≤ (s.halfResults 2).length) (hk : F32.eq (s.fef 0x002) 0 = false) (hfinite : F32.isFinite s.pairQ = true) :
    s.pairEnd elapsed = ((s.pairTaken (s.pairTotalised elapsed)).setFlows 3 (s.pairTaken (s.pairTotalised elapsed)).fe.qvp).clearPair := by
  have hgiven : (F32.isFinite s.pairQ && !F32.eq (s.fef 0x002) 0) = true := by rw [hfinite, hk]; rfl
  unfold State.pairEnd
  extract_lets pos neg s0 fe1 s1 du icsm q fe2 s2 qc fe3 s3
  have hfull : ¬(s.fe.cutPair || decide ((s.halfResults 1).length < 2) || decide ((s.halfResults 2).length < 2)) = true := by
    simp only [hcut, Bool.false_or, Bool.or_eq_true, decide_eq_true_eq]
    omega
  have hs1 : s1 = s.pairTotalised elapsed := rfl
  clear_value s1
  have hs3 : s3 = (s.pairTaken s1).setFlows 3 (s.pairTaken s1).fe.qvp := if_pos hgiven
  rw [if_neg hfull, hs3, hs1]

theorem State.pairTaken_fe (s t : State) : (s.pairTaken t).fe.du = s.pairDu ∧ (s.pairTaken t).fe.q = s.pairQ ∧
    (s.pairTaken t).fe.qAt = t.fe.qAt := ⟨rfl, rfl, rfl⟩

/-- Settles O36: the truncated pair by `truncPair`, the complete one by `setFlows_fe`. -/
theorem magneticPairs : Obligations.MagneticPairs := by
  unfold Obligations.MagneticPairs
  have hexec : ∀ (s : State) (elapsed : Nat), s.running = true → s.feMag = true → s.xb.pairOpen = true →
      exec (.magPairEnd elapsed) s = .next { s.pairEnd elapsed with xb := { (s.pairEnd elapsed).xb with pairOpen := false } } :=
    fun s elapsed hrun hmag hopen => State.when_next s (by simp [hrun, hmag, hopen]) rfl
  refine ⟨?truncated, ?complete⟩
  case truncated =>
    intro s elapsed hrun hmag hopen hfew
    have htrunc : s.pairEnd elapsed = s.truncPair := if_pos (by
      simp only [Bool.or_eq_true, decide_eq_true_eq]
      exact .inl (.inr hfew))
    have hnext := hexec s elapsed hrun hmag hopen
    rw [htrunc] at hnext
    exact ⟨_, hnext, (Keeps.upd (State.truncPair_keeps s)).left, rfl, rfl, rfl⟩
  case complete =>
    intro s elapsed hrun hmag hopen hcut hpos hneg hk hfinite
    have hnext := hexec s elapsed hrun hmag hopen
    refine ⟨_, hnext, exec_sameBut hnext, ?_⟩
    rw [State.pairEnd_complete elapsed hcut hpos hneg hk hfinite]
    obtain ⟨hdu, hq, hat⟩ := s.pairTaken_fe (s.pairTotalised elapsed)
    have hticks : (s.pairTotalised elapsed).fe.qAt = s.pw.ticks := State.emptyPipe_qAt _
    rw [hticks] at hat
    generalize s.pairTaken (s.pairTotalised elapsed) = u at *
    obtain ⟨hdu', hq', hat', -⟩ := setFlows_fe u 3 u.fe.qvp
    rw [hdu] at hdu'
    rw [hq] at hq'
    rw [hat] at hat'
    generalize u.setFlows 3 u.fe.qvp = w at *
    have hflow : w.clearPair.fe.q = F32.div (F32.mul (F32.mul (s.fef 0x002) w.clearPair.fe.du) (F32.ofInt s.iset))
        (F32.ofRatio s.xb.icsSum s.xb.icsN) := by
      rw [show w.clearPair.fe.q = w.fe.q from rfl, show w.clearPair.fe.du = w.fe.du from rfl, hq', hdu']
      rfl
    exact ⟨hdu', hflow, hat', rfl, rfl⟩

end Sys2Proof.Machine
end

section
/-! PROOF. Inputs, words and noise blocks of the flow engine (R201, R203, R215, R365). -/

/- Proofs are elaborated one after the other: in parallel they outrun the kernel's checks of the text before them, and each that waits
holds a thread's memory. -/
set_option Elab.async false

open Sys2Proof

namespace Sys2Proof.Machine

/-- A stale pressure input's flags (R201). -/
def State.pressureStale (s : State) : State := { s with fe := { s.fe with pStale := true, stale := true } }

/-- A stale temperature input's flags (R201). -/
def State.temperatureStale (s : State) : State := { s with fe := { s.fe with tStale := true, stale := true } }

/-- Loop B stale while it is the source: no flow (R203). -/
def State.loopBStale (s : State) : State := { s with fe := { s.fe with bStale := true, stale := true, qvp := 0 } }

theorem exec_inputStale {s : State} {k : InputKind} (hrun : s.running = true) (hen : s.feEn = true)
    (hlive : (k != .loopB || s.fe.srcLive) = true) : exec (.inputStale k) s = .next (s.inputStale k) :=
  State.when_next s (by rw [hrun, hen, hlive]; rfl) rfl

/-- A change of the flow engine put in line at once (R215). -/
theorem State.feChange_queued {s : State} {c : Change} (a : Nat) (hhold : s.fe.phold = false) (hnew : s.feSame c = false)
    (hroom : s.lg.acount < 2048) : s.feChange a c = s.queueChange c :=
  (if_neg (Bool.eq_false_iff.1 hhold)).trans (State.propose_room s a _ c (by rw [hnew]; rfl) hroom)

/-- A one-word setting of the flow engine (R215). -/
theorem State.writeFe_word {s : State} {a : Nat} (ha : a < 2 ∨ a = 0x38) (hnvr : s.hb.nvr = true) (hstart : s.startUp = false)
    (hseal : s.aon.sealOpen = true) (v : Word) : s.writeFe a v = s.feChange a (.word (Config.key 2 a) (v &&& feMask a)) := by
  have hmask : feMask a ≠ 0 := by
    rcases ha with h | h
    · have h01 : a = 0 ∨ a = 1 := by omega
      rcases h01 with rfl | rfl <;> decide
    · rw [h]
      decide
  unfold State.writeFe
  dsimp only
  rw [if_neg (by omega), State.early_nvr s _ _ hnvr, State.gate_open s _ _ hstart hseal, if_neg hmask, if_pos ha]

/-- The second word of a binary32 setting, its first held before (R215, R432). -/
theorem State.writeFe_pair {s : State} {a : Nat} (ha : a < 0x38) (hodd : a % 2 = 1) (h2 : 2 ≤ a) (hnvr : s.hb.nvr = true)
    (hstart : s.startUp = false) (hseal : s.aon.sealOpen = true) (v : Word) :
    s.writeFe a v = (s.unhold (Config.key 2 a - 1) 1).feChange a (.pair (Config.key 2 a - 1) (s.heldWord (Config.key 2 a - 1)) v) := by
  have hmask : feMask a = 0xFFFF#16 := (if_neg (by omega)).trans ((if_neg (by omega)).trans (if_pos ha))
  unfold State.writeFe
  dsimp only
  rw [if_neg (by omega), State.early_nvr s _ _ hnvr, State.gate_open s _ _ hstart hseal, hmask, if_neg (by decide), if_neg (by omega),
    if_neg (by omega), show 0xFFFF#16 = BitVec.allOnes 16 from rfl, BitVec.and_allOnes]

/-- The two blocks of the converter are of different models (R212, R214). -/
theorem takesVor_notIdle {s : State} (h : s.takesVor = true) : s.takesIdle = false := by
  unfold State.takesVor at h
  unfold State.takesIdle State.feMag
  simp only [Bool.and_eq_true, beq_iff_eq] at h
  simp [h.2]

/-- The candidates' powers taken from a block of idle results (R212). -/
def State.powersTaken (s : State) : State :=
  { s with fe := { s.fe with powers := [2, 4, 8, 16, 32, 64].map s.candidatePower,
                             present := s.candidatePower (2 ^ fld (s.nvReg 0x18) 4 3), idle := [] } }

theorem State.converterBlock_idle {s : State} (hidle : s.takesIdle = true) (hfull : s.fe.idle.length = 256) :
    s.converterBlock = s.powersTaken := by
  have hvor : s.powersTaken.takesVor = false := by
    by_contra hv
    have hnot : s.powersTaken.takesIdle = false := takesVor_notIdle (by simpa using hv)
    exact absurd (hnot.symm.trans hidle) (by decide)
  unfold State.converterBlock
  extract_lets fe1 u fe2
  have hu : u = s.powersTaken := if_pos (by rw [hidle, hfull]; rfl)
  rw [hu, if_neg (by rw [hvor]; simp)]

theorem State.converterBlock_vor {s : State} (hvor : s.takesVor = true) (hfull : s.fe.vor.length = 256) : s.converterBlock =
    { s with fe := { s.fe with rms := some (Config.noiseRms s.fe.vor s.ad.curRate (F32.abs s.toothHz)), vor := [] } } := by
  unfold State.converterBlock
  extract_lets fe1 u fe2
  have hu : u = s := if_neg (by rw [takesVor_notIdle hvor]; simp)
  have hready : (u.takesVor && u.fe.vor.length == 256) = true := by rw [hu, hvor, hfull]; rfl
  rw [if_pos hready]
  unfold fe2
  rw [hu]

theorem State.converterBlock_none {s : State} (hidle : s.fe.idle.length ≠ 256) (hvor : s.fe.vor.length ≠ 256) : s.converterBlock = s := by
  unfold State.converterBlock
  extract_lets fe1 u fe2
  have hu : u = s := if_neg (by simp [hidle])
  rw [hu, if_neg (by simp [hvor])]

theorem State.feNext_eq (s : State) : s.feNext = { s with fe := { s.fe with ptr := if s.fe.ainc then s.fe.ptr + 1 else s.fe.ptr } } := by
  unfold State.feNext
  split <;> rfl

/-- Settles O37: stale inputs through `logIrq_room`, words through `writeFe_word` and `writeFe_pair`, blocks by their model. -/
theorem flowInputsAndWords : Obligations.FlowInputsAndWords := by
  unfold Obligations.FlowInputsAndWords
  refine ⟨?stale, ?notSource, ?source, ?word, ?held, ?idle, ?vor, ?none, ?port⟩
  case stale =>
    intro s hrun hen hroom
    exact ⟨(exec_inputStale hrun hen rfl).trans (congrArg Host.Outcome.next (State.logIrq_room s.pressureStale 0x0604 1 5 hroom)),
      (exec_inputStale hrun hen rfl).trans (congrArg Host.Outcome.next (State.logIrq_room s.temperatureStale 0x0604 2 5 hroom))⟩
  case notSource =>
    intro s hrun hen hlive
    exact congrArg Host.Outcome.next (if_neg (by rw [hrun, hen, hlive]; decide))
  case source =>
    intro s hrun hen hlive
    have hexec : exec (.inputStale .loopB) s = .next (s.inputStale .loopB) := exec_inputStale hrun hen (by rw [hlive]; rfl)
    have hlog : Keeps [.ev, .irq] (s.loopBStale.setFlows 4 0) (s.inputStale .loopB) :=
      (State.irq_keeps ..).after (State.logEv_keeps ..).mono
    obtain ⟨-, -, -, hqvp, hqvc, hb, hst⟩ := setFlows_fe s.loopBStale 4 0
    refine ⟨_, hexec, exec_sameBut hexec, ?_⟩
    rw [hlog.eqFe, hb, hst, hqvp, hqvc]
    exact ⟨rfl, rfl, rfl, rfl⟩
  case word =>
    intro s hi lo hbus hlatch harm hnvr hstart hseal hroom hhold hptr hnew
    have hplain := hostCommit_row s (.feWordCommit hi) 0x5A 0x5A hi lo rfl hbus hlatch rfl (by decide) harm
    have hwrite : s.unlatched.writeFe 0 (wordOf hi lo) = s.unlatched.queueChange (.word (Config.key 2 0) (wordOf hi lo &&& 0x007F)) :=
      (State.writeFe_word (s := s.unlatched) (.inl (by decide)) hnvr hstart hseal _).trans
        (State.feChange_queued 0 hhold (beq_eq_false_iff_ne.2 hnew) hroom)
    rw [show s.unlatched.writeReg .host false 0x5A (wordOf hi lo) = (s.unlatched.writeFe s.unlatched.fe.ptr.toNat (wordOf hi lo)).feNext from rfl,
      show s.unlatched.fe.ptr.toNat = 0 from congrArg BitVec.toNat hptr, hwrite, State.feNext_eq] at hplain
    rw [hplain, show (s.unlatched.queueChange (.word (Config.key 2 0) (wordOf hi lo &&& 0x007F))).fe.ptr = 0 from hptr]
    rfl
  case held =>
    intro s hi lo low hbus hlatch harm hnvr hstart hseal hhold hptr hlow
    have hplain := hostCommit_row s (.feWordCommit hi) 0x5A 0x5A hi lo rfl hbus hlatch rfl (by decide) harm
    have hheld : s.unlatched.heldWord (Config.key 2 2) = low := by
      unfold State.heldWord
      rw [show s.unlatched.hb.held.lookup (Config.key 2 2) = some low from hlow]
      rfl
    have hwrite : s.unlatched.writeFe 3 (wordOf hi lo) =
        (s.unlatched.unhold (Config.key 2 2) 1).feChange 3 (.pair (Config.key 2 2) low (wordOf hi lo)) :=
      (State.writeFe_pair (s := s.unlatched) (by decide) (by decide) (by decide) hnvr hstart hseal _).trans
        (congrArg (fun w => State.feChange _ 3 (.pair (Config.key 2 2) w (wordOf hi lo))) hheld)
    have hkept : (s.unlatched.unhold (Config.key 2 2) 1).feChange 3 (.pair (Config.key 2 2) low (wordOf hi lo)) =
        { s.unlatched.unhold (Config.key 2 2) 1 with fe := { s.fe with
            heldWrites := s.fe.heldWrites.filter (fun h => h.feKey != Config.key 2 2) ++ [.pair (Config.key 2 2) low (wordOf hi lo)] } } :=
      if_pos hhold
    rw [show s.unlatched.writeReg .host false 0x5A (wordOf hi lo) = (s.unlatched.writeFe s.unlatched.fe.ptr.toNat (wordOf hi lo)).feNext from rfl,
      show s.unlatched.fe.ptr.toNat = 3 from congrArg BitVec.toNat hptr, hwrite, hkept, State.feNext_eq] at hplain
    refine ⟨_, hplain, (Keeps.upd (Keeps.upd ?_)).left, ?_, rfl⟩
    · exact (State.unhold_keeps ..).after s.unlatched_keeps.mono
    · rw [hptr]
      rfl
  case idle =>
    intro s hrod hidle hfull
    exact State.when_next s hrod (State.converterBlock_idle hidle hfull)
  case vor =>
    intro s hrod hvor hfull
    exact ⟨_, State.when_next s hrod (State.converterBlock_vor hvor hfull)⟩
  case none =>
    intro s hrod hidle hvor
    exact State.when_next s hrod (State.converterBlock_none hidle hvor)
  case port =>
    intro s noise hrod hrx
    exact State.when_next s hrod (if_pos hrx)

end Sys2Proof.Machine
end

section
/-! PROOF. The ledger's commits and rows, the seal, the unlock and the keys (R56, R222 to R251). -/

/- Proofs are elaborated one after the other: in parallel they outrun the kernel's checks of the text before them, and each that waits
holds a thread's memory. -/
set_option Elab.async false

open Sys2Proof

namespace Sys2Proof.Machine

/-! ## Commits -/

/-- LG_CTL's bits as a word writes them (09, Registers). -/
def State.lgCtlTaken (s : State) (v : Word) : State :=
  { s with lg := { s.lg with ainc := bitAt v 1, cie := bitAt v 8, torn := s.lg.torn && !bitAt v 5, disc := s.lg.disc && !bitAt v 6,
                             snap := s.lg.snap && !bitAt v 7 } }

theorem State.lgCtlTaken_keeps (s : State) (v : Word) : Keeps [.lg] s (s.lgCtlTaken v) := Keeps.upd (Keeps.refl _ s)

theorem State.writeLgCtl_commit {s : State} {v : Word} (hbit : bitAt v 0 = true) (hrod : s.runOrDrain = true) :
    s.writeLgCtl false v = (s.lgCtlTaken v).trigger 0x08 false [] := by
  have hgiven : (bitAt v 0 && s.runOrDrain) = true := by rw [hbit, hrod]; rfl
  unfold State.writeLgCtl
  extract_lets lg t u
  have hu : u = (s.lgCtlTaken v).trigger 0x08 false [] := if_pos hgiven
  rw [hu, if_neg (by simp)]

theorem State.writeLgCtl_init {s : State} {v : Word} (hbit0 : bitAt v 0 = false) (hbit2 : bitAt v 2 = true) (hstart : s.startUp = false)
    (hseal : s.aon.sealOpen = true) (hroom : s.lg.acount < 2048) :
    s.writeLgCtl true v = (s.lgCtlTaken v).queueChange (.ledgerInit s.lg.seq) := by
  have hnot : ¬(bitAt v 0 && (s.lgCtlTaken v).runOrDrain) = true := by simp [hbit0]
  unfold State.writeLgCtl
  extract_lets lg t u
  have hu : u = s.lgCtlTaken v := if_neg hnot
  rw [hu, if_pos (by rw [hbit2]; rfl)]
  exact (State.gate_open (s.lgCtlTaken v) _ _ hstart hseal).trans (State.propose_room (s.lgCtlTaken v) _ _ _ rfl hroom)

/-- What a trigger asks the ledger to write (R223). -/
def State.commitAsked (s : State) (reason : Byte) : Waiting := { data := s.bankData reason false 0, sweeps := [] }

theorem State.trigger_begins {s : State} (hlbad : s.lg.lbad = false) (hcur : s.lg.cur = none) (reason : Byte) :
    s.trigger reason false [] = s.beginCommit (s.commitAsked reason) := by
  unfold State.trigger
  dsimp only
  rw [if_neg (Bool.eq_false_iff.1 hlbad), hcur]
  rfl

theorem State.trigger_waits {s : State} {c : Commit} (hlbad : s.lg.lbad = false) (hcur : s.lg.cur = some c) (reason : Byte) :
    s.trigger reason false [] = { s with lg := { s.lg with waiting := s.lg.waiting ++ [s.commitAsked reason] } } := by
  unfold State.trigger
  dsimp only
  rw [if_neg (Bool.eq_false_iff.1 hlbad), hcur]
  rfl

/-- A commit begun with the next SEQ (R222, R224). -/
def State.commitBegun (s : State) (w : Waiting) : State :=
  { s with lg := { s.lg with seq := s.lg.seq + 1#32, cur := some (s.bankCommit { w.data with seq := s.lg.seq + 1#32 } w.sweeps) } }

theorem State.commitBegun_keeps (s : State) (w : Waiting) : Keeps [.lg] s (s.commitBegun w) := Keeps.upd (Keeps.refl _ s)

theorem State.beginCommit_room {s : State} (w : Waiting) (h : s.lg.seq.toNat < 0xFFFFFFFE) : s.beginCommit w = s.commitBegun w := by
  have hnot : s.lg.seq ≠ 0xFFFFFFFF#32 := fun he => by
    rw [he] at h
    exact absurd h (by decide)
  have hnext : s.lg.seq + 1#32 ≠ 0xFFFFFFFF#32 := by bv_omega
  exact (if_neg hnot).trans (if_neg hnext)

theorem State.beginCommit_last {s : State} (w : Waiting) (h : s.lg.seq = 0xFFFFFFFE#32) : s.beginCommit w = (s.commitBegun w).exhaust := by
  unfold State.beginCommit
  dsimp only
  rw [if_neg (by rw [h]; decide), if_pos (by rw [h]; decide)]
  rfl

/-- The ledger bad at its last SEQ (R237). -/
def State.ledgerBad (s : State) : State := { s with lg := { s.lg with lbad := true } }

theorem State.ledgerBad_keeps (s : State) : Keeps [.lg] s s.ledgerBad := Keeps.upd (Keeps.refl _ s)

/-! ## A commit's completion -/

/-- What the snapshots of a commit leave as it was: all but SNAP, their slots and their count (R406). -/
def SnapKept (s t : State) : Prop :=
  t.lg = { s.lg with snap := t.lg.snap } ∧ t.fram = { s.fram with snaps := t.fram.snaps, snapCount := t.fram.snapCount }

theorem State.writeSnaps_kept (d : BankData) (sweeps : List (Word32 × Word32)) : ∀ s : State, SnapKept s (s.writeSnaps d sweeps) := by
  induction sweeps with
  | nil => exact fun s => ⟨rfl, rfl⟩
  | cons sw sweeps ih =>
    intro s
    obtain ⟨hlg, hfram⟩ := ih (s.writeSnap d sw)
    exact ⟨hlg, hfram⟩

/-- The bank in force after a commit's rows (R225). -/
def State.bankInForce (s : State) (c : Commit) : State :=
  { s with
    fram := if c.toB then { s.fram with bankB := c.bytes } else { s.fram with bankA := c.bytes },
    lg := { s.lg with
      cur := none, bank := c.toB, seqDone := c.data.seq, timeDone := c.data.time, totalsDone := c.data.totals,
      past := (({ time := c.data.time, fwd := (c.data.totals.take 4).map (fun x => x / 2 ^ 32) } : Past) :: s.lg.past).take 16 } }

/-- The commit's interrupt (R225). -/
def State.commitIrq (s : State) (c : Commit) : State := if s.lg.cie then (s.bankInForce c).irq 6 else s.bankInForce c

theorem State.commitDone_eq (s : State) (c : Commit) : s.commitDone c = (s.commitIrq c).writeSnaps c.data c.sweeps := rfl

theorem State.sendRestoreAck_none {s : State} (h : s.an.restoreAck = none) : s.sendRestoreAck = s := by
  unfold State.sendRestoreAck
  rw [h]

theorem exec_commitComplete {s : State} {c : Commit} (hrod : s.runOrDrain = true) (hcur : s.lg.cur = some c) (hack : s.an.restoreAck = none)
    {t : State} (ht : (s.commitDone c).nextCommit = t) (han : t.an = s.an) : exec .commitComplete s = .next t := by
  refine State.when_next s hrod ?_
  unfold State.commitComplete
  rw [hcur]
  dsimp only
  rw [ht, State.sendRestoreAck_none (by rw [han]; exact hack)]

theorem State.nextCommit_none {s : State} (h : s.lg.waiting = []) : s.nextCommit = s := by
  unfold State.nextCommit
  rw [h]

/-- The waiting commits without the oldest (R225). -/
def State.waitingLeft (s : State) (rest : List Waiting) : State := { s with lg := { s.lg with waiting := rest } }

theorem State.nextCommit_begins {s : State} {w : Waiting} {rest : List Waiting} (h : s.lg.waiting = w :: rest) (hlbad : s.lg.lbad = false) :
    s.nextCommit = (s.waitingLeft rest).beginCommit w := by
  unfold State.nextCommit
  rw [h]
  exact if_neg (Bool.eq_false_iff.1 hlbad)

theorem State.commitIrq_irq (s : State) (c : Commit) :
    (s.commitIrq c).hb.irq = if s.lg.cie then s.hb.irq ||| 0x0040#16 else s.hb.irq := by
  unfold State.commitIrq
  split <;> rfl

theorem State.commitIrq_parts (s : State) (c : Commit) : (s.commitIrq c).fram = (s.bankInForce c).fram ∧
    (s.commitIrq c).lg = (s.bankInForce c).lg := by
  unfold State.commitIrq
  split <;> exact ⟨rfl, rfl⟩

theorem State.bankInForce_fram (s : State) (c : Commit) : (s.bankInForce c).fram.key0 = s.fram.key0 ∧
    (s.bankInForce c).fram.serial = s.fram.serial ∧ (s.bankInForce c).fram.snaps = s.fram.snaps ∧
    (s.bankInForce c).fram.snapCount = s.fram.snapCount := by
  unfold State.bankInForce
  cases c.toB <;> exact ⟨rfl, rfl, rfl, rfl⟩

/-- Settles O39: the start through `beginCommit_room` and `beginCommit_last`, the completion through `nextCommit`. -/
theorem commits : Obligations.Commits := by
  unfold Obligations.Commits
  refine ⟨?begins, ?lastSeq, ?waits, ?completes, ?sweep, ?oldest, ?init⟩
  case begins =>
    intro s hi lo hbus hlatch harm hrod hbit hlbad hcur hseq
    have hplain := hostCommit_row s (.commitRequest hi) 0x5C 0x5C hi lo rfl hbus hlatch rfl (by decide) harm
    have hwrite : s.unlatched.writeReg .host false 0x5C (wordOf hi lo) =
        (s.unlatched.lgCtlTaken (wordOf hi lo)).commitBegun ((s.unlatched.lgCtlTaken (wordOf hi lo)).commitAsked 0x08) :=
      (State.writeLgCtl_commit (s := s.unlatched) hbit hrod).trans
        ((State.trigger_begins (s := s.unlatched.lgCtlTaken (wordOf hi lo)) hlbad hcur 0x08).trans (State.beginCommit_room _ hseq))
    rw [hwrite] at hplain
    exact ⟨_, hplain, ((State.commitBegun_keeps ..).after <| (State.lgCtlTaken_keeps ..).after s.unlatched_keeps.mono).left, rfl, rfl⟩
  case lastSeq =>
    intro s hi lo hbus hlatch harm hrod hbit hlbad hcur hseq hroom
    have hplain := hostCommit_row s (.commitRequest hi) 0x5C 0x5C hi lo rfl hbus hlatch rfl (by decide) harm
    have hwrite : s.unlatched.writeReg .host false 0x5C (wordOf hi lo) =
        ((s.unlatched.lgCtlTaken (wordOf hi lo)).commitBegun ((s.unlatched.lgCtlTaken (wordOf hi lo)).commitAsked 0x08)).ledgerBad.logEv 0x070A 0 :=
      (State.writeLgCtl_commit (s := s.unlatched) hbit hrod).trans
        ((State.trigger_begins (s := s.unlatched.lgCtlTaken (wordOf hi lo)) hlbad hcur 0x08).trans (State.beginCommit_last _ hseq))
    rw [hwrite] at hplain
    have hbegun : Keeps [.lg, .hb] s
        ((s.unlatched.lgCtlTaken (wordOf hi lo)).commitBegun ((s.unlatched.lgCtlTaken (wordOf hi lo)).commitAsked 0x08)).ledgerBad :=
      (State.ledgerBad_keeps _).after <| (State.commitBegun_keeps ..).after <| (State.lgCtlTaken_keeps ..).after s.unlatched_keeps.mono
    have hlog := State.logEv_keeps
      ((s.unlatched.lgCtlTaken (wordOf hi lo)).commitBegun ((s.unlatched.lgCtlTaken (wordOf hi lo)).commitAsked 0x08)).ledgerBad 0x070A 0
    refine ⟨_, hplain, (hlog.after hbegun.mono).left, ?_, ?_, ?_, State.logEv_ev _ _ rfl rfl rfl hroom⟩
    · rw [hlog.eqLg]
      exact (congrArg (· + 1#32) hseq).trans (by decide)
    · rw [hlog.eqLg]
      rfl
    · rw [hlog.eqLg]
      rfl
  case waits =>
    intro s hi lo c hbus hlatch harm hrod hbit hlbad hcur
    have hplain := hostCommit_row s (.commitRequest hi) 0x5C 0x5C hi lo rfl hbus hlatch rfl (by decide) harm
    have hwrite : s.unlatched.writeReg .host false 0x5C (wordOf hi lo) = { s.unlatched.lgCtlTaken (wordOf hi lo) with
        lg := { (s.unlatched.lgCtlTaken (wordOf hi lo)).lg with
          waiting := s.lg.waiting ++ [(s.unlatched.lgCtlTaken (wordOf hi lo)).commitAsked 0x08] } } :=
      (State.writeLgCtl_commit (s := s.unlatched) hbit hrod).trans (State.trigger_waits (s := s.unlatched.lgCtlTaken (wordOf hi lo)) hlbad hcur 0x08)
    rw [hwrite] at hplain
    exact ⟨_, hplain, (Keeps.upd (L := [.lg, .hb]) ((State.lgCtlTaken_keeps ..).after s.unlatched_keeps.mono)).left, hcur, rfl, rfl⟩
  case completes =>
    intro s c hrod hcur hwait hsweeps hack
    have hdone : s.commitDone c = s.commitIrq c := by rw [State.commitDone_eq, hsweeps]; rfl
    obtain ⟨hfram, hlg⟩ := s.commitIrq_parts c
    have hkeeps := State.commitDone_keeps s c
    have hnone : (s.commitDone c).nextCommit = s.commitIrq c := by
      rw [hdone]
      exact State.nextCommit_none (by rw [hlg]; exact hwait)
    rw [hdone] at hkeeps
    refine ⟨_, exec_commitComplete hrod hcur hack hnone hkeeps.eqAn, hkeeps.left, ?_, ?_, ?_, ?_, ?_, s.commitIrq_irq c⟩
    · rw [hlg]; rfl
    · rw [hlg]; rfl
    · rw [hlg]; rfl
    · rw [hlg]; rfl
    · rw [hfram]; rfl
  case sweep =>
    intro s c sw hrod hcur hwait hsweeps hack
    have hdone : s.commitDone c = (s.commitIrq c).writeSnap c.data sw := by rw [State.commitDone_eq, hsweeps]; rfl
    obtain ⟨hfram, hlg⟩ := s.commitIrq_parts c
    obtain ⟨hkey, hserial, hsnaps, hcount⟩ := s.bankInForce_fram c
    have hkeeps := State.commitDone_keeps s c
    rw [hdone] at hkeeps
    have hnone : (s.commitDone c).nextCommit = (s.commitIrq c).writeSnap c.data sw := by
      rw [hdone]
      refine State.nextCommit_none ?_
      exact (congrArg Lg.waiting hlg).trans hwait
    refine ⟨_, exec_commitComplete hrod hcur hack hnone hkeeps.eqAn, hkeeps.left, congrArg Lg.cur hlg, rfl, ?_, ?_, ?_⟩
    · show (s.commitIrq c).fram.snapCount + 1 = _
      rw [hfram, hcount]
    · unfold State.writeSnap State.snapSlot State.ledgerKey
      dsimp only
      rw [State.irq_fram, hfram, hkey, hserial, hsnaps, hcount]
    · show (s.commitIrq c).hb.irq ||| 0x0040#16 = _
      rw [State.commitIrq_irq]
      split
      · rw [BitVec.or_assoc, BitVec.or_self]
      · rfl
  case oldest =>
    intro s c w rest hrod hcur hwait hlbad hseq hack
    obtain ⟨hlg, hfram⟩ := (s.commitIrq c).writeSnaps_kept c.data c.sweeps
    obtain ⟨hfram', hlg'⟩ := s.commitIrq_parts c
    obtain ⟨hkey, hserial, -, -⟩ := s.bankInForce_fram c
    have hkeeps := State.commitDone_keeps s c
    rw [← State.commitDone_eq, hlg'] at hlg
    rw [← State.commitDone_eq, hfram'] at hfram
    generalize hu : s.commitDone c = u at *
    have hseq' : (u.waitingLeft rest).lg.seq = s.lg.seq := (congrArg Lg.seq hlg :)
    have hbegins : u.nextCommit = (u.waitingLeft rest).commitBegun w :=
      (State.nextCommit_begins ((congrArg Lg.waiting hlg :).trans hwait) ((congrArg Lg.lbad hlg :).trans hlbad)).trans
        (State.beginCommit_room w (by rw [hseq']; exact hseq))
    have hframe : Keeps [.fram, .lg, .irq] s ((u.waitingLeft rest).commitBegun w) :=
      (State.commitBegun_keeps ..).after (Keeps.upd hkeeps)
    have hserial' : u.fram.serial = s.fram.serial := (congrArg Fram.serial hfram :).trans hserial
    have hkey' : u.ledgerKey = s.ledgerKey := congrArg (Option.getD · []) ((congrArg Fram.key0 hfram :).trans hkey)
    refine ⟨_, exec_commitComplete hrod hcur hack (hu ▸ hbegins) hframe.eqAn, hframe.left, rfl, congrArg (· + 1#32) hseq',
      (congrArg Lg.seqDone hlg :), congrArg some ?_⟩
    rw [hseq']
    unfold State.bankCommit
    rw [show (u.waitingLeft rest).ledgerKey = s.ledgerKey from hkey', show (u.waitingLeft rest).fram.serial = s.fram.serial from hserial']
  case init =>
    intro s hi lo hbus hlatch harm hstart hseal hroom hbit0 hbit2
    have hexec := hostCommit_row_armed s (.ledgerInit hi) 0x5C 0x5C hi lo rfl hbus hlatch rfl (by decide) harm
    have hwrite : (s.unlatched.setArm .host .idle).writeReg .host true 0x5C (wordOf hi lo) =
        ((s.unlatched.setArm .host .idle).lgCtlTaken (wordOf hi lo)).queueChange (.ledgerInit s.lg.seq) :=
      State.writeLgCtl_init hbit0 hbit2 hstart hseal hroom
    rw [hwrite] at hexec
    refine ⟨_, hexec, ?_, rfl, rfl, rfl⟩
    exact ((State.queueChange_keeps ..).after <| (State.lgCtlTaken_keeps ..).after <| (State.setArm_keeps ..).after s.unlatched_keeps.mono).left

/-! ## Event and audit rows -/

/-- Every key of the LG table from 0xF884 on is written as it stands: no register, no map word, no clamp (R234). -/
theorem State.applyWord_plain (s : State) {k : Nat} (hk : Config.key 3 0xF884 ≤ k) (v : Word) : s.applyWord k v = s.nvPut k v := by
  unfold Config.key at hk
  unfold State.applyWord State.sealedClamp Config.key
  rw [if_neg (by omega), if_neg (by omega), if_neg (by omega), if_neg (by omega), if_neg (by omega)]

theorem State.auditEntry_audit (s : State) (code : Word) (data : Nat) : (s.auditEntry code data).fram.audit = s.fram.audit ++
    [(s.lg.acount, { time := s.stamp, seq := BitVec.ofNat 32 (s.lg.acount + 1), code := code, data := BitVec.ofNat 48 data })] := by
  unfold State.auditEntry
  dsimp only
  split
  · rw [State.irq_fram, State.logEv_fram]
  · rfl

theorem State.auditEntry_quiet {s : State} (code : Word) (data : Nat) (h : s.lg.acount < 1983) :
    Keeps [.fram, .lg] s (s.auditEntry code data) := by
  unfold State.auditEntry
  dsimp only
  rw [if_neg (by omega)]
  exact Keeps.upd (Keeps.refl _ s)

theorem State.queueLeft_keeps (s : State) (rest : List Change) : Keeps [.lg] s (s.queueLeft rest) := Keeps.upd (Keeps.refl _ s)

/-- The oldest event written to the ring (R231, R232). -/
def State.eventWritten (s : State) (e : LogEntry) (rest : List LogEntry) : State :=
  { s with
    fram := { s.fram with
      events := ({ e with seq := s.fram.eventSeq + 1#32 } :: s.fram.events).take 1024, eventSeq := s.fram.eventSeq + 1#32,
      eventWrap := s.fram.eventWrap || s.fram.events.length == 1024 },
    ev := { s.ev with buf := rest } }

theorem State.writeEvent_first {s : State} {e : LogEntry} {rest : List LogEntry} (hbuf : s.ev.buf = e :: rest) (hdrops : s.ev.drops = 0) :
    s.writeEvent = (s.eventWritten e rest).irq 7 := by
  unfold State.writeEvent
  rw [hbuf]
  exact if_pos hdrops

/-- A full log refuses a word's row (R236). -/
theorem State.auditRow_refuses {s : State} {k : Nat} {v : Word} {rest : List Change} (hq : s.lg.queue = .word k v :: rest)
    (hfull : 2048 ≤ s.lg.acount) : s.auditRow = (s.queueLeft rest).refuseFull (Change.word k v).item := by
  have hlacks : (s.queueLeft rest).lacksRow (.word k v) = true := decide_eq_true hfull
  unfold State.auditRow
  rw [hq]
  exact (if_neg Bool.false_ne_true).trans (if_pos hlacks)

/-- Settles O40: an event row by `writeEvent`, an audit row by `auditRow_takes` or `auditRow_refuses`. -/
theorem eventAndAuditRows : Obligations.EventAndAuditRows := by
  unfold Obligations.EventAndAuditRows
  refine ⟨?event, ?row, ?refused⟩
  case event =>
    intro s e rest hrod hbuf hdrops
    have hexec : exec .eventEntryWrite s = .next s.writeEvent := State.when_next s hrod rfl
    have hkeeps := State.writeEvent_keeps s
    rw [State.writeEvent_first hbuf hdrops] at hexec hkeeps
    exact ⟨_, hexec, hkeeps.left, rfl, rfl, rfl⟩
  case row =>
    intro s k v rest hinv hrod hq hfew hk
    have hexec : exec .auditRowWritten s = .next s.auditRow := State.when_next s hrod rfl
    have hfull := auditFull_room (s.queueLeft rest) (show s.lg.acount < 2048 by omega)
    have htake : s.auditRow = ((s.queueLeft rest).auditEntry (s.auditOf (.word k v)).1 (s.auditOf (.word k v)).2).applyWord k v :=
      State.auditRow_takes hq rfl hfull
    rw [htake, State.applyWord_plain _ hk] at hexec
    have hquiet : Keeps [.fram, .lg] s ((s.queueLeft rest).auditEntry (s.auditOf (.word k v)).1 (s.auditOf (.word k v)).2) :=
      (State.auditEntry_quiet (s := s.queueLeft rest) _ _ hfew).after (s.queueLeft_keeps rest).mono
    have haudit := State.auditEntry_audit (s.queueLeft rest) (s.auditOf (.word k v)).1 (s.auditOf (.word k v)).2
    obtain ⟨-, hqueue, hcount, -⟩ := State.auditEntry_plain (s := s.queueLeft rest) (s.auditOf (.word k v)).1 (s.auditOf (.word k v)).2 hfew
    generalize (s.queueLeft rest).auditEntry (s.auditOf (.word k v)).1 (s.auditOf (.word k v)).2 = u at *
    obtain ⟨hfram, -⟩ := hquiet.2.2 hinv
    have hput := State.nvPut_keeps u k v
    have hread := State.nv_nvPut u hfram k v
    refine ⟨_, hexec, (hput.after hquiet.mono).left, ?_, ?_, fun j hj => ?_, ?_, ?_, ?_⟩
    · exact State.hostKept_trans hquiet.hostKept (rfl : u.hostKept (u.nvPut k v))
    · rw [hread, if_pos rfl]
    · rw [hread, if_neg hj, State.nv_congr hquiet.rows hquiet.eqNv]
    · rw [hput.eqLg, hqueue]
      rfl
    · rw [hput.eqLg, hcount]
      rfl
    · exact haudit
  case refused =>
    intro s k v rest hrod hq hfull
    have hexec : exec .auditRowWritten s = .next s.auditRow := State.when_next s hrod rfl
    rw [State.auditRow_refuses hq hfull] at hexec
    have hrefuse := State.refuseFull_keeps (s.queueLeft rest) (Change.word k v).item
    refine ⟨_, hexec, (hrefuse.after (s.queueLeft_keeps rest).mono).left, hrefuse.eqLg, fun hroom => ?_⟩
    exact (State.irq_keeps _ 6).eqEv.trans (State.logEv_ev _ _ rfl rfl rfl hroom)

/-! ## The seal -/

theorem exec_sealChange {s t : State} {isOpen : Bool} (hnew : s.aon.sealLevel ≠ isOpen)
    (ht : (if ((s.sealFrozen isOpen).pw.st == .run || (s.sealFrozen isOpen).pw.st == .drain) = true then (s.sealFrozen isOpen).sealEdge isOpen
      else if (s.sealFrozen isOpen).aonOn = true then (s.sealFrozen isOpen).sealHeld isOpen
      else { s.sealFrozen isOpen with aon := { (s.sealFrozen isOpen).aon with sealLevel := isOpen } }) = t) :
    exec (.sealChange isOpen) s = .next t :=
  State.when_next s (by simpa using fun h => hnew h.symm) ht

theorem State.sealFrozen_running {s : State} (hts : s.hb.frzTs = false) (htest : s.hb.frzTest = false) (isOpen : Bool) :
    s.sealFrozen isOpen = s := if_neg (by simp [hts, htest])

/-- A closing seal remembered by a frozen chip (R444). -/
def State.closingNoted (s : State) (isOpen : Bool) : State := { s with hb := { s.hb with frzClosed := s.hb.frzClosed || !isOpen } }

theorem State.sealFrozen_frozen {s : State} (hfrz : (s.hb.frzTs || s.hb.frzTest) = true) (isOpen : Bool) :
    s.sealFrozen isOpen = s.closingNoted isOpen := by
  unfold State.sealFrozen State.closingNoted
  cases isOpen
  · rw [if_pos (by rw [hfrz]; rfl), Bool.not_false, Bool.or_true]
  · rw [if_neg (by simp), Bool.not_true, Bool.or_false]

/-- The seal's level as it stands at the pin (R239). -/
def State.sealAt (s : State) (isOpen : Bool) : State := { s with aon := { s.aon with sealLevel := isOpen } }

theorem State.sealEdge_room {s : State} (hroom : s.lg.acount < 2048) (isOpen : Bool) :
    s.sealEdge isOpen = (s.sealAt isOpen).queueChange (.seal isOpen) := if_neg (Bool.eq_false_iff.1 (auditFull_room s hroom))

theorem State.sealEdge_full {s : State} (hfull : 2048 ≤ s.lg.acount) (isOpen : Bool) :
    s.sealEdge isOpen = (s.sealAt isOpen).sealUnaudited isOpen 1 := if_pos (decide_eq_true hfull)

/-- The unaudited opening of the seal counted (R236). -/
def State.sealCounted (s : State) : State := { s with lg := { s.lg with unaud := satAdd s.lg.unaud 1 } }

theorem State.sealCounted_keeps (s : State) : Keeps [.lg] s s.sealCounted := Keeps.upd (Keeps.refl _ s)

/-- The seal open in the always-on domain, its change noted (R239). -/
def State.sealOpened (s : State) : State := { s with aon := { s.aon with sealOpen := true }, sc := { s.sc with sealch := true } }

theorem State.sealOpened_keeps (s : State) : Keeps [.aon, .sc] s s.sealOpened := Keeps.upd (Keeps.refl _ s)

theorem State.sealUnaudited_open (s : State) : s.sealUnaudited true 1 = (s.sealCounted.logEv 0x0F02 0).sealOpened.irq 15 := rfl

theorem runOrDrain_st {s : State} (h : s.runOrDrain = true) : (s.pw.st == .run || s.pw.st == .drain) = true ∧ s.hb.frzTs = false ∧
    s.hb.frzTest = false := by
  unfold State.runOrDrain at h
  simp_all

/-- Settles O41: the edge in RUN and DRAIN, frozen or not; elsewhere the held count. -/
theorem sealChanges : Obligations.SealChanges := by
  unfold Obligations.SealChanges
  refine ⟨?same, ?audited, ?full, ?frozen, ?held⟩
  case same =>
    intro s isOpen hsame
    exact congrArg Host.Outcome.next (if_neg (by simp [hsame]))
  case audited =>
    intro s isOpen hnew hrod hroom
    obtain ⟨hst, hts, htest⟩ := runOrDrain_st hrod
    refine exec_sealChange hnew ?_
    rw [State.sealFrozen_running hts htest, if_pos hst, State.sealEdge_room hroom]
    rfl
  case full =>
    intro s hlevel hrod hfull hroom
    obtain ⟨hst, hts, htest⟩ := runOrDrain_st hrod
    have hexec : exec (.sealChange true) s = .next (((s.sealAt true).sealCounted.logEv 0x0F02 0).sealOpened.irq 15) := by
      refine exec_sealChange (by rw [hlevel]; decide) ?_
      rw [State.sealFrozen_running hts htest, if_pos hst, State.sealEdge_full hfull, State.sealUnaudited_open]
    have hcount : Keeps [.aon, .lg] s (s.sealAt true).sealCounted := (State.sealCounted_keeps _).after (Keeps.upd (Keeps.refl _ s))
    have hlog := State.logEv_keeps (s.sealAt true).sealCounted 0x0F02 0
    have hopened := State.sealOpened_keeps ((s.sealAt true).sealCounted.logEv 0x0F02 0)
    have hend : Keeps [.aon, .lg, .ev, .sc, .irq] s (((s.sealAt true).sealCounted.logEv 0x0F02 0).sealOpened.irq 15) :=
      (State.irq_keeps ..).after <| hopened.after <| hlog.after hcount.mono
    refine ⟨_, hexec, hend.left, ?_, ?_, ?_, ?_, ?_⟩
    · exact congrArg (fun a : Aon => { a with sealOpen := true }) hlog.eqAon
    · exact hlog.eqLg
    · exact congrArg (fun c : Sc => { c with sealch := true }) hlog.eqSc
    · exact hopened.eqEv.trans (State.logEv_ev _ _ rfl rfl rfl hroom)
    · exact congrArg (· ||| 0x8000#16) hlog.eqIrq
  case frozen =>
    intro s isOpen hnew hst hfrz hroom
    refine exec_sealChange hnew ?_
    have hrun : ((s.closingNoted isOpen).pw.st == .run || (s.closingNoted isOpen).pw.st == .drain) = true := by
      simpa [State.closingNoted] using hst
    rw [State.sealFrozen_frozen hfrz, if_pos hrun]
    exact State.sealEdge_room (s := s.closingNoted isOpen) hroom isOpen
  case held =>
    intro s isOpen hnew hrun hdrain hoff hts htest
    refine exec_sealChange hnew ?_
    rw [State.sealFrozen_running hts htest, if_neg (by simp [hrun, hdrain]), if_pos (by simpa [State.aonOn] using hoff)]
    rfl

/-! ## The unlock and the keys -/

/-- A commit of SY_KEY steps the unlock (R244). -/
theorem State.hostCommit_key {s : State} {hi lo : Byte} (inTime : Bool) (hbus : s.busOn = true) (hlatch : s.hb.wlatch = some (0x7A, lo)) :
    s.hostCommit 0x7A hi inTime = s.unlatched.keyStep .host (wordOf hi lo) inTime := by
  rw [State.hostCommit_held s 0x7A lo hi 0x7A inTime hbus hlatch rfl]
  exact if_pos rfl

/-- Any other word, or a late second one, ends the unlock (R244). -/
theorem State.keyStep_fails {s : State} {v : Word} {inTime : Bool} (hfirst : v ≠ 0x005A#16) (hlate : v ≠ 0x00A5#16 ∨ inTime = false)
    (hroom : s.ev.buf.length < 32) : s.keyStep .host v inTime = { s with
      sc := { s.sc with armHost := .idle }, ev := { s.ev with buf := s.ev.buf ++ [s.eventOf 0x0F04 v.toNat] },
      hb := { s.hb with irq := s.hb.irq ||| 0x8000#16 } } := by
  have hnot : ¬(v = 0x00A5#16 ∧ s.armOf .host = .first ∧ inTime = true) := by
    rintro ⟨hv, -, ht⟩
    rcases hlate with h | h
    · exact h hv
    · exact absurd (h.symm.trans ht) (by decide)
  unfold State.keyStep
  rw [if_neg hfirst, if_neg hnot]
  exact State.logIrq_room (s.setArm .host .idle) 0x0F04 v.toNat 15 hroom

/-- Settles O42: each word of SY_KEY by `keyStep`. -/
theorem unlockSteps : Obligations.UnlockSteps := by
  unfold Obligations.UnlockSteps
  refine ⟨?first, ?second, ?late, ?other, ?lapse⟩
  case first =>
    intro s hbus hlatch
    exact congrArg Host.Outcome.next ((State.hostCommit_key true hbus hlatch).trans (if_pos rfl))
  case second =>
    intro s cycles hbus hlatch hfirst hready hcycles
    have htime : s.keyInTime cycles = true := by simpa [State.keyInTime, hready] using hcycles
    have hstep : s.unlatched.keyStep .host (wordOf 0x00 0xA5) true = s.unlatched.setArm .host .armed :=
      (if_neg (by decide)).trans (if_pos ⟨rfl, hfirst, rfl⟩)
    refine congrArg Host.Outcome.next ((State.hostCommit_key _ hbus hlatch).trans ?_)
    rw [htime, hstep]
    rfl
  case late =>
    intro s cycles hbus hlatch hready hcycles hroom
    have htime : s.keyInTime cycles = false := by simpa [State.keyInTime, hready] using hcycles
    refine congrArg Host.Outcome.next ((State.hostCommit_key _ hbus hlatch).trans ?_)
    rw [htime]
    exact State.keyStep_fails (s := s.unlatched) (by decide) (.inr rfl) hroom
  case other =>
    intro s hi lo cycles hbus hlatch hroom hfirst hsecond
    exact congrArg Host.Outcome.next ((State.hostCommit_key _ hbus hlatch).trans
      (State.keyStep_fails (s := s.unlatched) hfirst (.inl hsecond) hroom))
  case lapse =>
    intro s hon harm
    exact State.when_next s (by simp [hon, harm]) rfl

/-- The load ended, its words dropped (R245). -/
def State.loadEnded (s : State) : State := { s with sc := { s.sc with ldg := false, words := [] } }

/-- SC_CTL's word as it stands beside its commands (09, Registers). -/
def State.scCtlTaken (s : State) (v : Word) : State :=
  { s with sc := { s.sc with slot := v.extractLsb' 0 2, sealch := s.sc.sealch && !bitAt v 10 } }

theorem State.keyWord_joins {s : State} {w : Word} (hldg : s.sc.ldg = true) (hfew : s.sc.words.length < 7) :
    s.keyWord w = { s with sc := { s.sc with words := s.sc.words ++ [w] } } := by
  unfold State.keyWord
  rw [if_neg (by simp [hldg])]
  exact if_pos (by rw [List.length_append]; exact Nat.succ_lt_succ hfew)

/-- The eighth word ends the load (R245). -/
theorem State.keyWord_last {s : State} {w : Word} (hldg : s.sc.ldg = true) (hseven : s.sc.words.length = 7) : s.keyWord w =
    if (s.sc.words ++ [w]).all (fun x => x == 0#16) then s.loadEnded.logEv 0x0F05 (evData [(s.sc.ldSlot.toNat, 0), (3, 8)])
    else if s.auditFull then s.loadEnded.refuseFull 0x6A
    else s.loadEnded.queueChange (.key (s.sc.ldSlot == 1) (keyBytes (s.sc.words ++ [w]))) := by
  unfold State.keyWord
  rw [if_neg (by simp [hldg])]
  exact if_neg (by rw [List.length_append, hseven]; exact Nat.lt_irrefl 8)

theorem State.startLoad_idle {s : State} (hldg : s.sc.ldg = false) (hslot : s.sc.slot.toNat < 2) :
    s.startLoad = { s with sc := { s.sc with ldg := true, ldSlot := s.sc.slot, words := [] } } := by
  have habort : s.abortLoad 6 = s := if_neg (Bool.eq_false_iff.1 hldg)
  unfold State.startLoad
  rw [habort]
  exact if_neg (by omega)

/-- Settles O43: the start by `startLoad_idle`, the words by `keyWord_joins` and `keyWord_last`. -/
theorem keyLoading : Obligations.KeyLoading := by
  unfold Obligations.KeyLoading
  refine ⟨?start, ?joins, ?key, ?zero, ?timeout⟩
  case start =>
    intro s hi lo hbus hlatch harm hstart hseal hldg hload hslot
    have hexec := hostCommit_row_armed s (.keyLoadStart hi) 0x68 0x68 hi lo rfl hbus hlatch rfl (by decide) harm
    have hwrite : (s.unlatched.setArm .host .idle).writeReg .host true 0x68 (wordOf hi lo) =
        ((s.unlatched.setArm .host .idle).scCtlTaken (wordOf hi lo)).startLoad :=
      (if_pos (by rw [hload]; rfl)).trans (State.gate_open ((s.unlatched.setArm .host .idle).scCtlTaken (wordOf hi lo)) _ _ hstart hseal)
    have hslot' : ((wordOf hi lo).extractLsb' 0 2).toNat < 2 := by
      simpa [fld, BitVec.extractLsb'_toNat] using hslot
    rw [hexec, hwrite, State.startLoad_idle (s := (s.unlatched.setArm .host .idle).scCtlTaken (wordOf hi lo)) hldg hslot']
    rfl
  case joins =>
    intro s hi lo hbus hlatch harm hldg hfew
    exact (hostCommit_row s (.keyWord hi) 0x6A 0x6A hi lo rfl hbus hlatch rfl (by decide) harm).trans
      (congrArg Host.Outcome.next (State.keyWord_joins (s := s.unlatched) hldg hfew))
  case key =>
    intro s hi lo hbus hlatch harm hldg hseven hnew hroom
    refine (hostCommit_row s (.keyWord hi) 0x6A 0x6A hi lo rfl hbus hlatch rfl (by decide) harm).trans
      (congrArg Host.Outcome.next ((State.keyWord_last (s := s.unlatched) hldg hseven).trans ?_))
    have hsome : ¬(s.unlatched.sc.words ++ [wordOf hi lo]).all (fun x => x == 0#16) = true := by
      rw [List.all_append, Bool.and_eq_true]
      rintro ⟨-, hz⟩
      exact hnew (by simpa using hz)
    rw [if_neg hsome, if_neg (Bool.eq_false_iff.1 (auditFull_room s.unlatched hroom))]
    rfl
  case zero =>
    intro s hi lo hbus hlatch harm hldg hwords hzero hroom
    refine (hostCommit_row s (.keyWord hi) 0x6A 0x6A hi lo rfl hbus hlatch rfl (by decide) harm).trans
      (congrArg Host.Outcome.next ((State.keyWord_last (s := s.unlatched) hldg (by rw [show s.unlatched.sc.words = _ from hwords]; rfl)).trans ?_))
    rw [if_pos (by rw [show s.unlatched.sc.words = _ from hwords, hzero]; decide), evData_two]
    exact State.logEv_room s.unlatched.loadEnded 0x0F05 _ hroom
  case timeout =>
    intro s hon hldg hroom
    refine State.when_next s hon ((if_pos hldg).trans ?_)
    rw [evData_two]
    exact State.logEv_room s.loadEnded 0x0F05 _ hroom

/-! ## Snapshots -/

/-- The snapshot of the totals (R251). -/
def State.totalsTaken (s : State) : State := { s with lg := { s.lg with snapTotals := some s.totalsLive } }

/-- The snapshot of an event entry (R428). -/
def State.entryTaken (s : State) : State := { s with ev := { s.ev with snap := some (s.evEntry, s.evLive) } }

/-- Settles O44: the two reads by `hostRead_eq`. -/
theorem ledgerSnapshots : Obligations.LedgerSnapshots := by
  unfold Obligations.LedgerSnapshots
  refine ⟨?totals, ?entry⟩
  case totals =>
    intro s hbus hptr
    have hread : s.readLg = (s.totalsTaken).lgNext := congrArg State.lgNext (if_pos (by rw [hptr]; rfl))
    have hkeeps : Keeps [.lg, .hb] s (s.readLg.driven 0x60 (s.readReg 0x60)) := (State.driven_keeps ..).after (State.readLg_keeps s).mono
    refine ⟨_, congrArg Host.Outcome.next (hostRead_eq s hbus 0x60), hkeeps.left, ?_, ?_⟩
    · refine (congrArg State.lg hread).trans ((State.lgNext_lg _).trans ?_)
      rw [show s.totalsTaken.lg.ptr = 0xF600 from hptr]
      rfl
    · rw [show (s.readEffect 0x60).hb = s.hb from (State.readLg_keeps s).eqHbAll]
      rfl
  case entry =>
    intro s hbus hfirst hstays
    have hread : s.readEv = s.entryTaken := by
      unfold State.readEv
      rw [if_pos hfirst]
      exact if_neg (Bool.eq_false_iff.1 hstays)
    have hkeeps : Keeps [.ev, .hb] s (s.readEv.driven 0x66 (s.readReg 0x66)) := (State.driven_keeps ..).after (State.readEv_keeps s).mono
    refine ⟨_, congrArg Host.Outcome.next (hostRead_eq s hbus 0x66), hkeeps.left, congrArg State.ev hread, ?_⟩
    rw [show (s.readEffect 0x66).hb = s.hb from (State.readEv_keeps s).eqHbAll]
    rfl

end Sys2Proof.Machine
end

section
/-! PROOF. The mirrored pair: ceremony, exchanges, settings, retractions and notices (R252 to R282). -/

/- Proofs are elaborated one after the other: in parallel they outrun the kernel's checks of the text before them, and each that waits
holds a thread's memory. -/
set_option Elab.async false

open Sys2Proof

namespace Sys2Proof.Machine

/-! ## Writes of AN_CTL -/

/-- AN_CTL's word taken beside its commands: its row in the buffer, RST, what STATE is and which messages wait then (R254, R257, R261). -/
def State.anCtlTaken (s : State) (rows : List RowWrite) (st : BitVec 3) (q : List QFrame) (v : Word) : State :=
  { s with hb := { s.hb with rows := rows }, fram := { s.fram with anState := st }, dl := { s.dl with queue := q },
           an := { s.an with rst := bitAt v 8 } }

theorem State.anCtlTaken_keeps {s : State} {rows : List RowWrite} {k : Nat} {w : Word} (hrow : bufferRow s.hb.rows k w = some rows)
    (st : BitVec 3) (q : List QFrame) (v : Word) : Keeps [.fram, .an, .dl, .hb] s (s.anCtlTaken rows st q v) :=
  Keeps.upd (Keeps.refl _ s) (h7 := fun h => State.bufferRow_ok hrow h)

/-- AN_CTL's commands, which need the unlock (R254, R256, R272). -/
def State.anCommands (s : State) (armed : Bool) (v : Word) : State :=
  if !armed then s
  else
    let z := if bitAt v 10 then s.askUnpair else s
    let z := if bitAt v 9 then z.askDref else z
    if bitAt v 7 then z.armCeremony else z

/-- A write of AN_CTL with the seal open: its word is taken, a changed PERIOD is put in line, then come the commands (R254, R261). -/
theorem exec_anCtl {s : State} {c : Instr} {a : Arm} {armed : Bool} {v : Word}
    (hexec : exec c s = .next ((s.unlatched.setArm .host a).writeReg .host armed 0x52 v)) (hok : s.hb.ok) (hnvr : s.hb.nvr = true)
    (hrows : s.hb.rows.length < 2) (hstart : s.startUp = false) (hseal : s.aon.sealOpen = true) :
    ∃ rows st q, exec c s = .next ((((s.unlatched.setArm .host a).anCtlTaken rows st q v).propose 0x52
        ((s.nvReg 0x52).extractLsb' 1 6 != v.extractLsb' 1 6)
        (.period ((s.nvReg 0x52).extractLsb' 1 6) (v.extractLsb' 1 6))).anCommands armed v) ∧
      (q = s.dl.queue ∨ q = (s.dropAntiphon pairKinds).dl.queue) ∧ (s.fram.anState = 0 → st = 0) ∧
      ((s.fram.anState = 2 ∨ s.fram.anState = 3 ∨ s.fram.anState = 4) → (st = 2 ∨ st = 3 ∨ st = 4)) ∧
      s.wordStored ((s.unlatched.setArm .host a).anCtlTaken rows st q v) (Config.key 0 0x52) (merge 1 (s.nvReg 0x52) v) ∧
      Keeps [.fram, .an, .dl, .hb] (s.unlatched.setArm .host a) ((s.unlatched.setArm .host a).anCtlTaken rows st q v) := by
  obtain ⟨rows, st, q, u, rfl, hq, hrow, hstay, hzero, hperiod, hwrite⟩ :=
    anCtl_eq (s.unlatched.setArm .host a) armed v hok hnvr hrows hstart hseal
  refine ⟨rows, st, q, ?_, hq, hzero, hstay, State.wordStored_of hok hrow rfl rfl, ?_⟩
  · refine hexec.trans (congrArg Host.Outcome.next (hwrite.trans ?_))
    rw [hperiod]
    rfl
  · exact State.anCtlTaken_keeps hrow st q v

/-- The unlock used up, the latch empty. -/
theorem State.unlockUsed_keeps (s : State) : Keeps [.sc, .hb] s (s.unlatched.setArm .host .idle) :=
  (State.setArm_keeps ..).after s.unlatched_keeps.mono

/-- A word that leaves PERIOD as it is puts no change in line (R261). -/
theorem State.propose_samePeriod (s : State) {old new : BitVec 6} (h : new = old) : s.propose 0x52 (old != new) (.period old new) = s :=
  propose_same _ _ _ _ (by rw [h, bne_self_eq_false])

/-! ## The ceremony -/

/-- A ceremony begun (R254). -/
def State.ceremonyBegun (s : State) : State :=
  { s with
    dl := (s.dropAntiphon pairKinds).dl,
    an := { s.an with
      before := if s.fram.anState = 1 then s.an.before else s.fram.anState,
      peer := 0, hasPeer := false, sentConfirm := false, gotConfirm := none, peerIntent := 0, wantRestore := s.an.rst,
      restoreWait := none, awaiting := false },
    fram := { s.fram with anState := 1 } }

theorem State.ceremonyBegun_keeps (s : State) : Keeps [.fram, .an, .dl] s s.ceremonyBegun := Keeps.upd (Keeps.refl _ s)

theorem State.armCeremony_begins {s : State} (hrun : s.running = true) (hroom : s.lg.acount < 2048) (hrst : s.an.rst = false ∨ s.lg.lbad = true) :
    s.armCeremony = s.ceremonyBegun := by
  have hfree : ¬(s.an.rst && !s.lg.lbad && s.lg.totalsDone.any (fun t => t != 0)) = true := by
    rcases hrst with h | h <;> simp [h]
  unfold State.armCeremony
  rw [if_neg (Bool.eq_false_iff.1 (startUp_run s hrun)), if_neg (Bool.eq_false_iff.1 (auditFull_room s hroom)), if_neg hfree,
    if_neg (by simp [hrun])]
  rfl

/-- Dropping messages that are already dropped changes nothing. -/
theorem State.dropAntiphon_twice (s : State) (kinds : List Byte) :
    ((s.dropAntiphon kinds).dropAntiphon kinds).dl = (s.dropAntiphon kinds).dl := by
  unfold State.dropAntiphon
  dsimp only
  rw [List.filter_filter]
  congr 1
  exact List.filter_congr fun q _ => Bool.and_self _

/-- A queued frame to one node (R370). -/
theorem State.anSend_queued {s : State} (haseq : s.fram.aseq ≠ 0xFFFFFFFF#32) (type : Byte) (dest : BitVec 12) (p : List Byte) :
    s.anSend type dest p = { s with
      dn := { s.dn with seq := s.dn.seq + 1#16 },
      dl := { s.dl with queue := s.dl.queue ++ (s.portsFor dest).map (s.queued (s.ownFrame dest type 0 p)) } } :=
  (if_neg haseq).trans (State.originate_to ..)

/-- A HELLO's sender noted as the peer, its CONFIRM queued (R254). -/
def State.helloTaken (s : State) (f : RxFrame) : State :=
  { s with
    an := { s.an with peer := anSender f.frame.payload, hasPeer := true, peerIntent := payAt f.frame.payload 2, peerSeq := f.frame.seq,
                      sentConfirm := true },
    dn := { s.dn with seq := s.dn.seq + 1#16 },
    dl := { s.dl with queue := s.dl.queue ++
      (s.portsFor s.paddr).map (s.queued (s.ownFrame s.paddr 0x08 0 (s.anHello 0x04 (anSender f.frame.payload)))) } }

theorem State.takeHello_taken {s : State} {f : RxFrame} (hst : s.fram.anState = 1) (hother : anSender f.frame.payload ≠ s.fram.serial)
    (hsrc : f.frame.src = s.paddr) (htag : s.anTagOk f.frame.payload 0 = true) (haseq : s.fram.aseq ≠ 0xFFFFFFFF#32) :
    s.takeHello f = (s.helloTaken f).ceremonyDone := by
  unfold State.takeHello
  rw [if_neg (not_not.2 hst), if_neg hother, if_neg (by rw [htag]; simp [hsrc])]
  extract_lets an t u anSent
  have hsent : u = _ := State.anSend_queued (s := t) haseq 0x08 t.paddr (t.anHello 0x04 t.an.peer)
  have hleft : (u.fram.aseq != 0xFFFFFFFF#32) = true := by
    rw [(State.anSend_keeps ..).eqFramAll]
    exact bne_iff_ne.2 haseq
  have han : anSent = t.an := (State.anSend_keeps ..).eqAn
  rw [hleft, han, hsent]
  rfl

/-- The peer's CONFIRM noted (R254). -/
def State.confirmTaken (s : State) (f : RxFrame) : State :=
  { s with an := { s.an with gotConfirm := some (anSender f.frame.payload), peerIntent := payAt f.frame.payload 2, peerSeq := f.frame.seq } }

/-- Settles O45: the writes of AN_CTL by `exec_anCtl`, the messages by `anFrame_hears`. -/
theorem ceremony : Obligations.Ceremony := by
  unfold Obligations.Ceremony
  refine ⟨?arm, ?hello, ?heard, ?confirm, ?timeout, ?unpair⟩
  case arm =>
    intro s hi lo hinv hbus hlatch harm hrun hseal hnvr hrows hroom hidle hper hb7 hb9 hb10 hrst
    have hrow := hostCommit_row_armed s (.ceremonyArm hi) 0x52 0x52 hi lo rfl hbus hlatch rfl (by decide) harm
    obtain ⟨rows, st, q, hexec, hq, hzero, -, hstored, hkeeps⟩ := exec_anCtl hrow hinv.2.2.1 hnvr hrows (startUp_run s hrun) hseal
    obtain rfl := hzero hidle
    rw [State.propose_samePeriod _ hper] at hexec
    have hcmd : ((s.unlatched.setArm .host .idle).anCtlTaken rows 0 q (wordOf hi lo)).anCommands true (wordOf hi lo) =
        ((s.unlatched.setArm .host .idle).anCtlTaken rows 0 q (wordOf hi lo)).ceremonyBegun := by
      unfold State.anCommands
      rw [hb7, hb9, hb10]
      exact State.armCeremony_begins (s := (s.unlatched.setArm .host .idle).anCtlTaken rows 0 q (wordOf hi lo)) hrun hroom hrst
    rw [hcmd] at hexec
    have hbegun := State.ceremonyBegun_keeps ((s.unlatched.setArm .host .idle).anCtlTaken rows 0 q (wordOf hi lo))
    refine ⟨_, hexec, (hbegun.after <| hkeeps.after s.unlockUsed_keeps.mono).left, rfl, ?_, rfl, rfl, State.wordStored_after hstored hbegun⟩
    rcases hq with rfl | rfl
    · rfl
    · exact State.dropAntiphon_twice s pairKinds
  case hello =>
    intro s hrun hst haseq
    exact State.when_next s (by simp [hrun, hst]) (State.anSend_queued haseq ..)
  case heard =>
    intro s u f hhears hu hst hother hsrc htag haseq hpair
    refine congrArg Host.Outcome.next ((anFrame_hears s f 0x08 0x03 (.inl rfl) hhears _).trans ?_)
    rw [← hu]
    refine (State.takeHello_taken hst hother hsrc htag haseq).trans ?_
    by_cases hgot : u.an.gotConfirm = some (anSender f.frame.payload)
    · obtain ⟨hroom, hline⟩ := hpair hgot
      rw [if_pos hgot]
      exact ceremonyDone_done (u.helloTaken f) true true rfl rfl hgot hroom hline
    · have hnot : ((u.helloTaken f).an.gotConfirm == some (u.helloTaken f).an.peer) = false := beq_eq_false_iff_ne.2 hgot
      rw [if_neg hgot, List.append_nil]
      exact if_neg (by rw [hnot]; simp)
  case confirm =>
    intro s u f hhears hu hst hsrc htag hserial hpeer hsent hsender hroom hline
    refine congrArg Host.Outcome.next ((anFrame_hears s f 0x08 0x04 (.inl rfl) hhears _).trans ?_)
    rw [← hu]
    have htake : u.takeConfirm f = (u.confirmTaken f).ceremonyDone :=
      (if_neg (not_not.2 hst)).trans (if_neg (by simp [hsrc, htag, hserial]))
    refine htake.trans ((ceremonyDone_done (u.confirmTaken f) true true hpeer hsent ?_ hroom hline).trans ?_)
    · exact congrArg some hsender.symm
    · rw [show (u.confirmTaken f).an.peer = _ from hsender]
      rfl
  case timeout =>
    intro s hon hst hroom
    refine State.when_next s hon ((if_pos hst).trans ?_)
    exact State.logIrq_room _ 0x0802 1 8 hroom
  case unpair =>
    intro s hi lo hinv hbus hlatch harm hstart hseal hnvr hrows hroom hper hb7 hb9 hb10
    have hrow := hostCommit_row_armed s (.unpair hi) 0x52 0x52 hi lo rfl hbus hlatch rfl (by decide) harm
    obtain ⟨rows, st, q, hexec, hq, -, -, hstored, hkeeps⟩ := exec_anCtl hrow hinv.2.2.1 hnvr hrows hstart hseal
    rw [State.propose_samePeriod _ hper] at hexec
    have hcmd : ((s.unlatched.setArm .host .idle).anCtlTaken rows st q (wordOf hi lo)).anCommands true (wordOf hi lo) =
        ((s.unlatched.setArm .host .idle).anCtlTaken rows st q (wordOf hi lo)).queueChange (.dissolve 1) := by
      unfold State.anCommands
      rw [hb7, hb9, hb10]
      exact State.audited_room (s := (s.unlatched.setArm .host .idle).anCtlTaken rows st q (wordOf hi lo)) 0x52 _ hstart hroom
    rw [hcmd] at hexec
    have hqueued := State.queueChange_keeps ((s.unlatched.setArm .host .idle).anCtlTaken rows st q (wordOf hi lo)) (.dissolve 1)
    refine ⟨_, hexec, (hqueued.after <| hkeeps.after s.unlockUsed_keeps.mono).left, ?_, rfl, rfl, rfl, rfl, State.wordStored_after hstored hqueued⟩
    exact hq.imp (congrArg fun q => { s.dl with queue := q }) (congrArg fun q => { s.dl with queue := q })

/-! ## Exchanges -/

theorem exchOk_aseq {s : State} (h : s.exchOk = true) : s.fram.aseq ≠ 0xFFFFFFFF#32 := by
  unfold State.exchOk at h
  simp only [Bool.and_eq_true, bne_iff_ne] at h
  exact h.1.2

/-- Without a RETRACT of its own in the queue a node finds none to drop there (R269). -/
theorem State.retracts_none {s : State} (h : ∀ q ∈ s.dl.queue, s.ownAntiphon q = true → payAt q.frame.payload 1 ≠ 0x07) :
    s.dl.queue.filter (fun q => s.ownAntiphon q && payAt q.frame.payload 1 == 0x07#8) = [] := by
  rw [List.filter_eq_nil_iff]
  intro q hq hret
  rw [Bool.and_eq_true, beq_iff_eq] at hret
  exact h q hq hret.1 hret.2

theorem State.dropRetract_none {s : State} (h : ∀ q ∈ s.dl.queue, s.ownAntiphon q = true → payAt q.frame.payload 1 ≠ 0x07)
    (hcount : s.an.wdCount = 0) : s.dropRetract = s := by
  unfold State.dropRetract
  rw [State.retracts_none h]
  exact if_pos hcount

/-- The withdrawn figures no longer to be sent (R269). -/
def State.withdrawnGone (s : State) : State := { s with an := { s.an with wd := [0, 0, 0, 0], wdCount := 0 } }

theorem State.dropRetract_some {s : State} (h : ∀ q ∈ s.dl.queue, s.ownAntiphon q = true → payAt q.frame.payload 1 ≠ 0x07)
    (hcount : s.an.wdCount ≠ 0) : s.dropRetract = s.withdrawnGone.anEvent 0x080C s.an.wdCount := by
  have hkept : s.withdrawnGone.dropAntiphon [0x07] = s.withdrawnGone := by
    unfold State.dropAntiphon
    rw [List.filter_eq_self.2]
    intro q hq
    rw [Bool.not_eq_true', Bool.and_eq_false_iff]
    rcases Bool.eq_false_or_eq_true (s.ownAntiphon q) with hown | hother
    · exact .inr (by simpa using h q hq hown)
    · exact .inl hother
  unfold State.dropRetract
  rw [State.retracts_none h]
  exact (if_neg hcount).trans (congrArg (fun t : State => t.anEvent 0x080C s.an.wdCount) hkept)

/-- The exchange waits for its partner (R260). -/
def State.waits (s : State) : State := { s with an := { s.an with awaiting := true } }

theorem State.exchange_eq {s t : State} (h : s.dropRetract = t) : s.exchange =
    if t.waits.caller then t.waits.anExchange t.waits.paddr 0x01 t.waits.fram.rxaseq t.waits.fram.rxcseq t.waits.ck.lsec else t.waits := by
  subst h
  rfl

/-- A message of the pair that the running pair takes (R257, R268). -/
theorem exec_fromPartner {s u : State} {c : Instr} {f : RxFrame} {ty k : Byte} {g : State → State}
    (hexec : exec c s = .next (s.anFrame f k (fun _ t => t.fromPartner f g))) (hty : ty = 8 ∨ ty = 9)
    (hhears : s.hearsAntiphon f ty k) (hu : u = s.heard f) (hpart : u.partners f) :
    exec c s = .next (g { u with an := { u.an with tagFails := 0 } }) := by
  rw [hexec, anFrame_hears s f ty k hty hhears, ← hu, partners_from u f hpart]

/-- A valid tag from the partner ends the run of failures (R279). -/
def State.tagHeld (s : State) : State := { s with an := { s.an with tagFails := 0 } }

theorem State.tagHeld_keeps (s : State) : Keeps [.an] s s.tagHeld := Keeps.upd (Keeps.refl _ s)

/-- The exchange no longer waits (R259). -/
def State.waitsNot (s : State) : State := { s with an := { s.an with awaiting := false } }

theorem State.waitsNot_keeps (s : State) : Keeps [.an] s s.waitsNot := Keeps.upd (Keeps.refl _ s)

theorem State.waitsNot_fram (s : State) : s.waitsNot.fram = s.fram := rfl

theorem State.waitsNot_dn (s : State) : s.waitsNot.dn = s.dn := rfl

theorem State.waitsNot_restoreWait (s : State) : s.waitsNot.an.restoreWait = s.an.restoreWait := rfl

theorem State.waitsNot_holds {s : State} {p : List Byte} (h : s.holdsMessage p) : s.waitsNot.holdsMessage p := h

/-- A fresh CALL mirrored: the exchange waits no more and PERIOD is compared (R259, R261). -/
def State.callMirrored (s : State) (p : List Byte) : State := (s.takeMirror p).waitsNot.seePeriod p

theorem State.callMirrored_keeps (s : State) (p : List Byte) : Keeps [.fram, .ev, .an, .pl, .irq] s (s.callMirrored p) :=
  (State.seePeriod_keeps ..).after <| (State.waitsNot_keeps _).after <| (State.takeMirror_keeps s p).mono

theorem State.callMirrored_exch (s : State) (p : List Byte) : SameExchange (s.takeMirror p).waitsNot (s.callMirrored p) :=
  SameExchange.seePeriod _ p

/-- Exchanges go on after a CALL is mirrored (R257). -/
theorem State.callMirrored_exchOk {s : State} (p : List Byte) (hst : s.fram.anState = 3 ∨ s.fram.anState = 4) (h : s.exchOk = true) :
    (s.callMirrored p).exchOk = true := by
  obtain ⟨-, haseq, -, -, -, hrun, hrest, -⟩ := takeMirror_spec s p
  obtain ⟨hrest', hfram, -⟩ := s.callMirrored_exch p
  have hkeeps := s.callMirrored_keeps p
  refine exchOk_congr s (s.callMirrored p) hkeeps.eqPw (congrArg Hb.frzTs hkeeps.hostKept :) (congrArg Hb.frzTest hkeeps.hostKept :)
    hkeeps.rows hkeeps.eqNv hkeeps.eqCk ?_ ?_ ?_ h
  · rw [hfram, State.waitsNot_fram, haseq]
  · rw [hfram, State.waitsNot_fram, hrun hst]
    exact .inl rfl
  · rw [hrest', State.waitsNot_restoreWait, hrest]

/-- A fresh CALL at the answerer (R259). -/
theorem State.takeCall_fresh {s : State} {f : RxFrame} {spacing : Nat} (hok : s.exchOk = true) (hcaller : s.caller = false)
    (hfresh : s.fresh f.frame.payload) (hspaced : 200 ≤ spacing ∨ s.fram.rxaseq = 0) : s.takeCall f spacing =
      (((s.callMirrored f.frame.payload).anAnswer f (s.callMirrored f.frame.payload).fram.rxaseq
        (s.callMirrored f.frame.payload).fram.rxcseq).takeRef f.frame.payload).diverge f.frame.payload := by
  have hapart : ¬(decide (spacing < 200) && s.fram.rxaseq != 0#32) = true := by
    rcases hspaced with h | h <;> simp [h]
  unfold State.takeCall
  rw [if_neg (by simp [hok, hcaller]), anSequence_fresh s f.frame.payload hfresh _ _ _ _ (if_neg hapart)]
  unfold State.callMirrored State.waitsNot
  rfl

/-- The ANSWER counts as sent again (R259). -/
def State.answeredAgain (s : State) : State := { s with an := { s.an with resent := true } }

/-- The last CALL again: the stored ANSWER goes out once more (R259). -/
theorem State.takeCall_again {s : State} {f : RxFrame} {spacing : Nat} (hok : s.exchOk = true) (hcaller : s.caller = false)
    (hsame : beAt f.frame.payload 0x0C 4 = s.fram.rxaseq.toNat) (hlast : s.an.lastAnswer ≠ []) (hresent : s.an.resent = false) :
    s.takeCall f spacing = s.answeredAgain.anSend 0x08 f.frame.src s.an.lastAnswer := by
  unfold State.takeCall State.anSequence
  rw [if_neg (by simp [hok, hcaller])]
  exact (if_pos hsame).trans (if_neg (by simp [hresent, hlast]))

/-- A fresh ANSWER to the last CALL (R259). -/
theorem State.takeAnswerMsg_fresh {s : State} {f : RxFrame} (hrun : s.running = true) (hltv : s.ck.ltv = true) (hcaller : s.caller = true)
    (hrest : s.an.restoreWait = none) (hack : BitVec.ofNat 32 (beAt f.frame.payload 0x10 4) = s.an.lastCall) (hfresh : s.fresh f.frame.payload) :
    s.takeAnswerMsg f = (((s.takeMirror f.frame.payload).waitsNot.takeRef f.frame.payload).diverge f.frame.payload) := by
  have hother : s.an.restoreWait.any (fun r => r.1 == BitVec.ofNat 32 (beAt f.frame.payload 0x10 4)) = false := by rw [hrest]; rfl
  have hmine : (false || (s.caller && BitVec.ofNat 32 (beAt f.frame.payload 0x10 4) == s.an.lastCall)) = true := by simp [hcaller, hack]
  unfold State.takeAnswerMsg
  dsimp only
  rw [hother, if_neg (by simp [hrun, hltv]), anSequence_fresh s _ hfresh _ _ _ _ (if_pos hmine)]
  exact if_neg Bool.false_ne_true

/-- A missed exchange counted, its unsent CALL dropped (R258, R260). -/
def State.missCounted (s : State) : State :=
  { s with
    an := { s.an with awaiting := false, missCnt := s.an.missCnt + 1, miss := true, misses := s.an.misses + 1 },
    dl := (s.dropAntiphon [0x01]).dl }

theorem State.missCounted_keeps (s : State) : Keeps [.an, .dl] s s.missCounted := Keeps.upd (Keeps.refl _ s)

/-- A missed exchange that does not declare the partner lost (R260). -/
theorem State.miss_counted {s : State} (hfew : s.an.missCnt.toNat < 0xFFFE) (hkept : s.fram.anState = 4 ∨ s.an.misses + 1 < s.lossn) :
    s.miss = s.missCounted := by
  obtain ⟨hinc, hmax⟩ := satInc_lt hfew
  unfold State.miss
  extract_lets an t u
  have ht : t = s.missCounted := by
    show State.dropAntiphon { s with an := { s.an with awaiting := false, missCnt := satInc s.an.missCnt, miss := true, misses := s.an.misses + 1 } } [0x01] = _
    rw [hinc]
    rfl
  have hu : u = s.missCounted := by
    show State.pinned t _ _ t.an.missCnt = _
    rw [ht]
    exact State.pinned_not _ _ _ _ (fun h => hmax (hinc.trans h))
  refine (if_neg ?_).trans hu
  rw [hu]
  rintro ⟨hst, hloss⟩
  rcases hkept with h | h
  · exact absurd (h.symm.trans hst) (by decide)
  · exact absurd (h.trans_le hloss) (Nat.lt_irrefl _)

/-- An ANSWER queued (R259). -/
theorem State.anAnswer_queued {s : State} (f : RxFrame) (ack ackc : Word32) (hok : s.exchOk = true) : s.anAnswer f ack ackc =
    s.anExchange f.frame.src 0x02 ack ackc (BitVec.ofNat 32 (beAt f.frame.payload 0x20 4)) := if_pos hok

/-- What an ANSWER in the queue leaves of the mirror. -/
theorem State.anExchange_mirror (s : State) (d : BitVec 12) (k : Byte) (a c l : Word32) (haseq : s.fram.aseq ≠ 0xFFFFFFFF#32) :
    (s.anExchange d k a c l).fram = s.fram ∧ (s.anExchange d k a c l).an = s.an ∧ (s.anExchange d k a c l).dn.seq = s.dn.seq + 1#16 := by
  rw [anExchange_spec s d k a c l haseq]
  exact ⟨rfl, rfl, rfl⟩

/-- What a message mirrored says goes by the FRAM words and the book-keeping of the exchange alone. -/
theorem holdsMessage_congr {s t : State} {p : List Byte} (hfram : t.fram = s.fram) (han : t.an = s.an) (h : s.holdsMessage p) :
    t.holdsMessage p := by
  unfold State.holdsMessage
  rw [hfram, han]
  exact h

/-- The partner lost (R260, R274). -/
def State.partnerLost (s : State) (m0 m1 : List Byte) : State :=
  { s with
    an := { s.an with awaiting := false, missCnt := s.an.missCnt + 1, miss := true, misses := s.an.misses + 1 },
    dl := (s.dropAntiphon [0x01]).dl,
    fram := { s.fram with anState := 4, stale := true, mirror0 := m0, mirror1 := m1 },
    ev := { s.ev with buf := s.ev.buf ++ [s.eventOf 0x0803 s.fram.rxaseq.toNat] }, hb := { s.hb with irq := s.hb.irq ||| 0x0100#16 } }

theorem State.partnerLost_keeps {s : State} {m0 m1 : List Byte} (hroom : s.ev.buf.length < 32) :
    Keeps [.fram, .an, .dl, .ev, .irq] s (s.partnerLost m0 m1) :=
  Keeps.upd (Keeps.refl _ s) (i_ev := fun _ => show (s.ev.buf ++ [_]).length ≤ 32 from List.length_append.le.trans hroom)

/-- Settles O46: the instant by `exchange_eq`, messages by `exec_fromPartner`, a miss by `anMiss_lost`. -/
theorem exchanges : Obligations.Exchanges := by
  unfold Obligations.Exchanges
  refine ⟨?calls, ?waits, ?logged, ?stamp, ?fresh, ?again, ?answer, ?miss, ?lost⟩
  case calls =>
    intro s hok hcaller hcount hnone
    refine State.when_next s hok ((State.exchange_eq (State.dropRetract_none hnone hcount)).trans ?_)
    refine (if_pos hcaller).trans ((anExchange_spec s.waits _ _ _ _ _ (exchOk_aseq hok)).trans ?_)
    rfl
  case waits =>
    intro s hok hcaller hcount hnone
    refine State.when_next s hok ((State.exchange_eq (State.dropRetract_none hnone hcount)).trans ?_)
    exact if_neg (Bool.eq_false_iff.1 hcaller)
  case logged =>
    intro s hok hcaller hcount hroom hnone
    refine State.when_next s hok ((State.exchange_eq ((State.dropRetract_some hnone hcount).trans
      (State.logIrq_room s.withdrawnGone 0x080C s.an.wdCount 8 hroom))).trans ?_)
    exact if_neg (Bool.eq_false_iff.1 hcaller)
  case stamp =>
    intro s q _ _
    exact ⟨rfl, rfl⟩
  case fresh =>
    intro s u f spacing hhears hu hpart hok hcaller hfresh hspaced
    have hexec : exec (.call f spacing) s = .next (u.tagHeld.takeCall f spacing) :=
      exec_fromPartner (g := fun v => v.takeCall f spacing) rfl (.inl rfl) hhears hu hpart
    rw [State.takeCall_fresh (s := u.tagHeld) hok hcaller hfresh hspaced] at hexec
    obtain ⟨hholds, haseq, -, hdn, -⟩ := takeMirror_spec u.tagHeld f.frame.payload
    have hmirrored := u.tagHeld.callMirrored_exch f.frame.payload
    have hgoes : (u.tagHeld.callMirrored f.frame.payload).exchOk = true := State.callMirrored_exchOk f.frame.payload hpart.1 hok
    have hkeeps : Keeps [.fram, .ev, .an, .pl, .irq] u (u.tagHeld.callMirrored f.frame.payload) :=
      (State.callMirrored_keeps ..).after u.tagHeld_keeps.mono
    have hheld := holds_fq (State.waitsNot_holds hholds) hmirrored.held
    obtain ⟨-, hfram, -, -, hwaits, hseq, -⟩ := hmirrored
    generalize u.tagHeld.callMirrored f.frame.payload = m at *
    rw [State.anAnswer_queued f _ _ hgoes] at hexec
    obtain ⟨hfram', han', hseq'⟩ := m.anExchange_mirror f.frame.src 0x02 m.fram.rxaseq m.fram.rxcseq
      (BitVec.ofNat 32 (beAt f.frame.payload 0x20 4)) (exchOk_aseq hgoes)
    have hsent := (State.anExchange_keeps m f.frame.src 0x02 m.fram.rxaseq m.fram.rxcseq
      (BitVec.ofNat 32 (beAt f.frame.payload 0x20 4))).after (L := [.fram, .ev, .an, .pl, .irq, .dl, .dn]) hkeeps.mono
    generalize m.anExchange f.frame.src 0x02 m.fram.rxaseq m.fram.rxcseq (BitVec.ofNat 32 (beAt f.frame.payload 0x20 4)) = w at *
    have hkept : SameHeld w ((w.takeRef f.frame.payload).diverge f.frame.payload) :=
      (SameHeld.takeRef w f.frame.payload).trans (SameExchange.diverge _ f.frame.payload).held
    have hends : Keeps [.fram, .lg, .ev, .an, .dl, .dn, .pl, .irq] u ((w.takeRef f.frame.payload).diverge f.frame.payload) :=
      (State.diverge_keeps ..).after <| (State.takeRef_keeps ..).after hsent.mono
    refine ⟨_, hexec, hends.left, holds_fq (holdsMessage_congr hfram' han' hheld) hkept, ?_, ?_, ?_⟩
    · obtain ⟨-, -, -, -, h, -⟩ := hkept
      rw [h, hfram', hfram, State.waitsNot_fram, haseq]
      rfl
    · obtain ⟨-, -, -, -, -, -, -, h, -⟩ := hkept
      rw [h, han', hwaits]
      rfl
    · obtain ⟨-, -, -, -, -, -, -, -, h, -⟩ := hkept
      rw [h, hseq', hseq, State.waitsNot_dn, hdn]
      rfl
  case again =>
    intro s u f spacing hhears hu hpart hok hcaller hsame hlast hresent
    refine (exec_fromPartner (c := .call f spacing) (g := fun v => v.takeCall f spacing) rfl (.inl rfl) hhears hu hpart).trans ?_
    refine congrArg Host.Outcome.next ((State.takeCall_again (s := u.tagHeld) hok hcaller hsame hlast hresent).trans ?_)
    exact State.anSend_queued (s := u.tagHeld.answeredAgain) (exchOk_aseq hok) ..
  case answer =>
    intro s u f hhears hu hpart hltv hcaller hrest hack hfresh
    have hexec : exec (.answer f) s = .next (u.tagHeld.takeAnswerMsg f) :=
      exec_fromPartner (g := fun v => v.takeAnswerMsg f) rfl (.inl rfl) hhears hu hpart
    have hrun : u.running = true := hu ▸ hhears.2.2.2.2
    rw [State.takeAnswerMsg_fresh (s := u.tagHeld) hrun hltv hcaller hrest hack hfresh] at hexec
    obtain ⟨hholds, haseq, -⟩ := takeMirror_spec u.tagHeld f.frame.payload
    have hkeeps : Keeps [.fram, .ev, .an, .irq] u (u.tagHeld.takeMirror f.frame.payload) :=
      (State.takeMirror_keeps ..).after u.tagHeld_keeps.mono
    generalize u.tagHeld.takeMirror f.frame.payload = m at *
    have hkept : SameHeld m.waitsNot ((m.waitsNot.takeRef f.frame.payload).diverge f.frame.payload) :=
      (SameHeld.takeRef m.waitsNot f.frame.payload).trans (SameExchange.diverge _ f.frame.payload).held
    have hends : Keeps [.fram, .lg, .ev, .an, .irq] u ((m.waitsNot.takeRef f.frame.payload).diverge f.frame.payload) :=
      (State.diverge_keeps ..).after <| (State.takeRef_keeps ..).after <| m.waitsNot_keeps.after hkeeps.mono
    refine ⟨_, hexec, hends.left, holds_fq (State.waitsNot_holds hholds) hkept, ?_, ?_⟩
    · obtain ⟨-, -, -, -, h, -⟩ := hkept
      exact h.trans haseq
    · obtain ⟨-, -, -, -, -, -, -, h, -⟩ := hkept
      exact h
  case miss =>
    intro s hok hwait hfew hkept
    exact ⟨_, State.when_next s (by simp [hok, hwait]) (State.miss_counted hfew hkept), s.missCounted_keeps.left, rfl, rfl⟩
  case lost =>
    intro s hok hwait hfew hst hloss hroom
    obtain ⟨m0, m1, hmiss⟩ := anMiss_lost s hfew hst hloss hroom
    have hkeeps := State.partnerLost_keeps (m0 := m0) (m1 := m1) hroom
    exact ⟨_, State.when_next s (by simp [hok, hwait]) hmiss, hkeeps.left, rfl, rfl, rfl, rfl, rfl⟩

/-! ## Settings of the pair -/

/-- The divergence reference asked for anew (R272). -/
def State.refAsked (s : State) : State := { s with fram := { s.fram with drefPend := some 2 } }

theorem State.refAsked_keeps (s : State) : Keeps [.fram] s s.refAsked := Keeps.upd (Keeps.refl _ s)

theorem State.takeRef_room {s : State} (hroom : s.lg.acount < 2048) (p : List Byte) :
    s.takeRef p = s ∨ ∃ c, s.takeRef p = s.queueChange c := by
  unfold State.takeRef
  split
  · exact .inl rfl
  · split
    · exact .inl rfl
    · split
      · exact .inl rfl
      · exact .inr ⟨_, if_neg (Bool.eq_false_iff.1 (auditFull_room s hroom))⟩

/-- The reference taken from the newest mirrored CALL or ANSWER (R272). -/
def State.refSought (s : State) : State :=
  match s.newestMirror with
  | some one =>
    if s.fram.rxaseq != 0#32 && (payAt (s.mirrored one) 1 == 0x01#8 || payAt (s.mirrored one) 1 == 0x02#8) then s.takeRef (s.mirrored one)
    else s
  | none => s

theorem State.refSought_room {s : State} (hroom : s.lg.acount < 2048) :
    s.refSought = s ∨ (s.fram.rxaseq ≠ 0 ∧ ∃ c, s.refSought = s.queueChange c) := by
  unfold State.refSought
  cases s.newestMirror with
  | none => exact .inl rfl
  | some one =>
    dsimp only
    split
    · rename_i hmirror
      rw [Bool.and_eq_true, bne_iff_ne] at hmirror
      exact (State.takeRef_room hroom (s.mirrored one)).imp id fun h => ⟨hmirror.1, h⟩
    · exact .inl rfl

/-- DRST of a paired node: the reference waits, or its setting is put in line at once (R272). -/
theorem State.askDref_waits {s : State} (hstart : s.startUp = false) (hroom : s.lg.acount < 2048)
    (hst : s.fram.anState = 2 ∨ s.fram.anState = 3 ∨ s.fram.anState = 4) :
    s.askDref = s.refAsked ∨ (s.fram.rxaseq ≠ 0 ∧ ∃ c, s.askDref = s.refAsked.queueChange c) := by
  have hask : s.askDref = s.refAsked.refSought :=
    (if_neg (Bool.eq_false_iff.1 hstart)).trans ((if_neg (Bool.eq_false_iff.1 (auditFull_room s hroom))).trans (if_pos hst))
  rw [hask]
  exact State.refSought_room (s := s.refAsked) hroom

/-- The end of the wait for a RESTORE's acknowledgement (R277). -/
def State.restoreWaitOver (s : State) : State := { s with an := { s.an with restoreWait := none } }

/-- VIOCNT one higher (R281). -/
def State.vioCounted (s : State) : State := { s with an := { s.an with vioCnt := s.an.vioCnt + 1 } }

theorem State.anCount_few {s : State} (hfew : s.an.vioCnt.toNat < 0xFFFE) : s.anCount = s.vioCounted := by
  obtain ⟨hinc, hmax⟩ := satInc_lt hfew
  unfold State.anCount
  rw [hinc]
  exact State.pinned_not s.vioCounted _ _ _ (hinc ▸ hmax)

/-- The first of a class in its second noted (R281). -/
def State.onceNoted (s : State) (code : Word) : State := { s with hb := { s.hb with secCodes := code :: s.hb.secCodes } }

theorem State.onceNoted_keeps (s : State) (code : Word) : Keeps [.hb] s (s.onceNoted code) := Keeps.upd (Keeps.refl _ s)

theorem State.logOnce_first {s : State} {code : Word} (data : Nat) (h : s.hb.secCodes.contains code = false) :
    s.logOnce code data = (s.onceNoted code).logEv code data := if_neg (by simpa using h)

/-- What VIOLIM makes of the violations in its time (R281). -/
def State.vioAged (s : State) : State :=
  { s with an := { s.an with
      vioAt := (stampIn s.pw.ticks s.an.vioAt).take 255,
      vio := s.an.vio || (s.violim != 0 && decide (s.violim ≤ (stampIn s.pw.ticks s.an.vioAt).length)) } }

/-- A violation of an escalated class (R281): VIOCNT rises, and the class is logged once in the second. -/
theorem State.anVio_logged {s : State} {code : Word} (data : Nat) (hfew : s.an.vioCnt.toNat < 0xFFFE)
    (hfirst : s.hb.secCodes.contains code = false) : s.anVio code data = (s.vioAged.vioCounted.onceNoted code).logEv code data := by
  show (s.vioAged.anCount).logOnce code data = _
  rw [State.anCount_few (s := s.vioAged) hfew]
  exact State.logOnce_first data hfirst

theorem State.vioAged_keeps (s : State) : Keeps [.an] s s.vioAged := Keeps.upd (Keeps.refl _ s)

theorem State.vioCounted_keeps (s : State) : Keeps [.an] s s.vioCounted := Keeps.upd (Keeps.refl _ s)

/-- Settles O47: the writes of AN_CTL by `exec_anCtl`, the RESTORE by `anFrame_hears`. -/
theorem pairSettings : Obligations.PairSettings := by
  unfold Obligations.PairSettings
  refine ⟨?period, ?reference, ?digest, ?restore, ?timeout⟩
  case period =>
    intro s hi lo hinv hbus hlatch harm hstart hseal hnvr hrows hroom hper
    have hrow := hostCommit_row s (.periodChange hi) 0x52 0x52 hi lo rfl hbus hlatch rfl (by decide) harm
    obtain ⟨rows, st, q, hexec, hq, -, -, hstored, hkeeps⟩ := exec_anCtl (a := s.sc.armHost) hrow hinv.2.2.1 hnvr hrows hstart hseal
    have hput : ((s.unlatched.setArm .host s.sc.armHost).anCtlTaken rows st q (wordOf hi lo)).propose 0x52
        ((s.nvReg 0x52).extractLsb' 1 6 != (wordOf hi lo).extractLsb' 1 6)
        (.period ((s.nvReg 0x52).extractLsb' 1 6) ((wordOf hi lo).extractLsb' 1 6)) = _ :=
      State.propose_room _ 0x52 _ _ (bne_iff_ne.2 (Ne.symm hper)) hroom
    rw [hput] at hexec
    have hqueued := State.queueChange_keeps ((s.unlatched.setArm .host s.sc.armHost).anCtlTaken rows st q (wordOf hi lo))
      (.period ((s.nvReg 0x52).extractLsb' 1 6) ((wordOf hi lo).extractLsb' 1 6))
    refine ⟨_, hexec, ?_, ?_, rfl, rfl, rfl, State.wordStored_after hstored hqueued⟩
    · exact (hqueued.after <| hkeeps.after (s.unlatched_keeps : Keeps [.hb] s (s.unlatched.setArm .host s.sc.armHost)).mono).left
    · exact hq.imp (congrArg fun q => { s.dl with queue := q }) (congrArg fun q => { s.dl with queue := q })
  case reference =>
    intro s hi lo hinv hbus hlatch harm hstart hseal hnvr hrows hroom hper hb7 hb9 hb10 hst
    have hrow := hostCommit_row_armed s (.divergenceReset hi) 0x52 0x52 hi lo rfl hbus hlatch rfl (by decide) harm
    obtain ⟨rows, st, q, hexec, hq, -, hstay, hstored, hkeeps⟩ := exec_anCtl hrow hinv.2.2.1 hnvr hrows hstart hseal
    rw [State.propose_samePeriod _ hper] at hexec
    have hcmd : ((s.unlatched.setArm .host .idle).anCtlTaken rows st q (wordOf hi lo)).anCommands true (wordOf hi lo) =
        ((s.unlatched.setArm .host .idle).anCtlTaken rows st q (wordOf hi lo)).askDref := by
      unfold State.anCommands
      rw [hb7, hb9, hb10]
      rfl
    rw [hcmd] at hexec
    have hdl : q = s.dl.queue ∨ q = (s.dropAntiphon pairKinds).dl.queue →
        ({ s.dl with queue := q } : Dl) = s.dl ∨ ({ s.dl with queue := q } : Dl) = (s.dropAntiphon pairKinds).dl :=
      Or.imp (congrArg fun q => { s.dl with queue := q }) (congrArg fun q => { s.dl with queue := q })
    have hasked := State.refAsked_keeps ((s.unlatched.setArm .host .idle).anCtlTaken rows st q (wordOf hi lo))
    rcases State.askDref_waits (s := (s.unlatched.setArm .host .idle).anCtlTaken rows st q (wordOf hi lo)) hstart hroom (hstay hst) with
      h | ⟨hseen, c, h⟩
    · rw [h] at hexec
      exact ⟨_, hexec, (hasked.after <| hkeeps.after s.unlockUsed_keeps.mono).left, hdl hq, rfl, rfl, rfl, rfl, fun _ => rfl,
        State.wordStored_after hstored hasked⟩
    · rw [h] at hexec
      have hqueued : Keeps [.fram, .lg] ((s.unlatched.setArm .host .idle).anCtlTaken rows st q (wordOf hi lo))
          (((s.unlatched.setArm .host .idle).anCtlTaken rows st q (wordOf hi lo)).refAsked.queueChange c) :=
        (State.queueChange_keeps ..).after hasked.mono
      exact ⟨_, hexec, (hqueued.after <| hkeeps.after s.unlockUsed_keeps.mono).left, hdl hq, rfl, rfl, rfl, rfl,
        fun h0 => absurd h0 hseen, State.wordStored_after hstored hqueued⟩
  case digest =>
    intro s hon hdirty
    exact State.when_next s (by simp [hon, hdirty]) rfl
  case restore =>
    intro s u f hhears hu htag hwant hst0 hst1 hempty hseal hroom
    refine congrArg Host.Outcome.next ((anFrame_hears s f 0x08 0x06 (.inl rfl) hhears _).trans ?_)
    rw [← hu]
    have hled : ¬(!u.lg.lbad && u.lg.totalsDone.any (fun t => t != 0)) = true := by
      rcases hempty with h | h <;> simp only [h] <;> simp
    unfold State.takeRestore
    dsimp only
    rw [if_neg (by simp [htag]), if_neg (by simpa [hwant] using ⟨hst0, hst1⟩), if_neg hled, if_neg (by simp [hseal]),
      if_neg (Bool.eq_false_iff.1 (auditFull_room u hroom))]
    rfl
  case timeout =>
    intro s a c hon hwait hfew hroom hfirst
    have hexec : exec .restoreAckTimeout s = .next (s.restoreWaitOver.anVio 0x081B c.toNat) :=
      State.when_next s hon (by rw [hwait]; rfl)
    rw [State.anVio_logged (s := s.restoreWaitOver) c.toNat hfew hfirst] at hexec
    have hcounted : Keeps [.an, .hb] s (s.restoreWaitOver.vioAged.vioCounted.onceNoted 0x081B) :=
      (State.onceNoted_keeps ..).after <| (State.vioCounted_keeps _).after <| (State.vioAged_keeps _).after <|
        (Keeps.upd (Keeps.refl _ s) : Keeps [.an] s s.restoreWaitOver).mono
    have hlog := State.logEv_keeps (s.restoreWaitOver.vioAged.vioCounted.onceNoted 0x081B) 0x081B c.toNat
    have hends : Keeps [.an, .ev, .hb] s _ := hlog.after hcounted.mono
    refine ⟨_, hexec, hends.left, ?_, ?_, ?_⟩
    · rw [hlog.eqAn]
      rfl
    · rw [hlog.eqHbAll]
      rfl
    · exact State.logEv_ev _ _ hcounted.eqEv (congrArg Aon.tv hcounted.eqAon) (congrArg Aon.rtc hcounted.eqAon) hroom

/-! ## Retractions and notices -/

/-- The withdrawn figures sent (R269). -/
def State.retractSent (s : State) : State := { s with an := { s.an with wd := [0, 0, 0, 0], wdCount := 0, retractAt := some s.pw.ticks } }

theorem State.retractSent_keeps (s : State) : Keeps [.an] s s.retractSent := Keeps.upd (Keeps.refl _ s)

/-- A RETRACT's payload (R263, R269). -/
def State.retractBody (s : State) : List Byte :=
  [0x01, 0x07] ++ bytesBE 2 (min 65535 s.an.wdCount) ++ bytesBE 8 s.fram.serial.toNat ++ bytesBE 4 0 ++ bytesBE 6 s.orr.tcnt.toNat ++
    [0, 0] ++ floatsBE s.an.wd ++ List.replicate 8 0

theorem State.sendRetract_eq (s : State) : s.sendRetract = (s.anSend 0x09 s.paddr s.retractBody).retractSent := rfl

/-- A NOTICE sent (R411). -/
def State.noticeSent (s : State) : State := { s with an := { s.an with noticeDue := false, noticeAt := some s.pw.ticks } }

theorem State.sendNotice_eq (s : State) :
    s.sendNotice = (s.anSend 0x08 s.paddr (s.anMessage 0x05 s.fram.rxaseq s.fram.rxcseq s.ck.lsec)).noticeSent := rfl

/-- A NOTICE noted for the host (R271). -/
def State.noticeNoted (s : State) : State := { s with an := { s.an with pnot := true } }

theorem State.noticeNoted_keeps (s : State) : Keeps [.an] s s.noticeNoted := Keeps.upd (Keeps.refl _ s)

/-- A message of the running pair that is no exchange of it, mirrored (R271). -/
theorem State.takeNotice_fresh {s : State} {f : RxFrame} (hrun : s.running = true) (hltv : s.ck.ltv = true) (hfresh : s.fresh f.frame.payload) :
    s.takeNotice f = (s.takeMirror f.frame.payload).noticeNoted.irq 8 := by
  unfold State.takeNotice
  rw [if_neg (by simp [hrun, hltv]), anSequence_fresh s f.frame.payload hfresh _ _ _ _ rfl]
  rfl

/-- Settles O48: the two messages as they are sent by `anSend`, as they are taken by `exec_fromPartner`. -/
theorem retractionsAndNotices : Obligations.RetractionsAndNotices := by
  unfold Obligations.RetractionsAndNotices
  refine ⟨?retractSend, ?retract, ?noticeSend, ?dropped, ?notice⟩
  case retractSend =>
    intro s hok hst hcount hspaced
    have hkeeps : Keeps [.an, .dl, .dn] s s.sendRetract := (State.retractSent_keeps _).after (State.anSend_keeps ..).mono
    have hsent := (s.sendRetract_eq).trans (congrArg State.retractSent (State.anSend_queued (exchOk_aseq hok) 0x09 s.paddr s.retractBody))
    rw [hsent] at hkeeps
    exact ⟨_, State.when_next s (by simp [hok, hst, hcount, hspaced]) hsent, hkeeps.left, rfl, rfl⟩
  case retract =>
    intro s u f hhears hu hpart hsome hfresh
    refine (exec_fromPartner (c := .retract f) (g := fun v => v.takeRetract f) rfl (.inr rfl) hhears hu hpart).trans ?_
    exact congrArg Host.Outcome.next ((if_neg hsome).trans (if_neg (Nat.not_le.2 hfresh)))
  case noticeSend =>
    intro s hdue hspaced hok hst
    refine State.when_next s (by simp [hdue, hspaced]) ((if_pos (by simp [hok, hst])).trans ((s.sendNotice_eq).trans ?_))
    rw [State.anSend_queued (exchOk_aseq hok)]
    rfl
  case dropped =>
    intro s hdue hspaced hst
    have hother : (s.exchOk && s.fram.anState == 3) = false := by rw [beq_eq_false_iff_ne.2 hst, Bool.and_false]
    exact State.when_next s (by simp [hdue, hspaced]) (if_neg (Bool.eq_false_iff.1 hother))
  case notice =>
    intro s u f hhears hu hpart hltv hfresh
    have hexec : exec (.notice f) s = .next (u.tagHeld.takeNotice f) :=
      exec_fromPartner (g := fun v => v.takeNotice f) rfl (.inl rfl) hhears hu hpart
    have hrun : u.running = true := hu ▸ hhears.2.2.2.2
    rw [State.takeNotice_fresh (s := u.tagHeld) hrun hltv hfresh] at hexec
    obtain ⟨hholds, haseq, -⟩ := takeMirror_spec u.tagHeld f.frame.payload
    have hkeeps : Keeps [.fram, .ev, .an, .irq] u (u.tagHeld.takeMirror f.frame.payload) :=
      (State.takeMirror_keeps ..).after u.tagHeld_keeps.mono
    generalize u.tagHeld.takeMirror f.frame.payload = m at *
    have hends : Keeps [.fram, .ev, .an, .irq] u (m.noticeNoted.irq 8) :=
      (State.irq_keeps ..).after <| m.noticeNoted_keeps.after hkeeps.mono
    refine ⟨_, hexec, hends.left, hholds, rfl, ?_, haseq⟩
    show (m.hb.irq ||| 0x0100#16).getLsbD 8 = true
    rw [BitVec.getLsbD_or]
    exact Bool.or_true _

end Sys2Proof.Machine
end

section
/-! PROOF. Loop A and loop B (R188, R283 to R309). -/

/- Proofs are elaborated one after the other: in parallel they outrun the kernel's checks of the text before them, and each that waits
holds a thread's memory. -/
set_option Elab.async false

open Sys2Proof

namespace Sys2Proof.Machine

/-! ## Alarm levels and the fallback -/

/-- The event of an alarm level left (R290). -/
def State.alarmLeft (s : State) : List LogEntry := if isAlarmMode s.lp.amode then [s.eventOf 0x0901 s.lp.amode.toNat] else []

/-- Loop A with the fallback, an alarm level's end logged (R290, R296, R297). -/
def State.fallbackTaken (s : State) : State :=
  { s with
    lp := { s.lp with driving := false, amode := 0, satIn := 0 }, ev := { s.ev with buf := s.ev.buf ++ s.alarmLeft },
    hb := { s.hb with irq := if isAlarmMode s.lp.amode then s.hb.irq ||| 0x0200#16 else s.hb.irq } }

theorem alarmMode_ne {m : BitVec 3} (h : isAlarmMode m = true) : m ≠ 0 := by
  rintro rfl
  exact absurd h (by decide)

/-- Loop A no longer driven (R296, R297). -/
def State.notDriven (s : State) : State := { s with lp := { s.lp with driving := false, amode := 0 } }

/-- No clamp stands (R284). -/
def State.unclamped (s : State) : State := { s with lp := { s.lp with satIn := 0 } }

theorem State.toFallback_room {s : State} (hroom : s.ev.buf.length < 32) : s.toFallback = s.fallbackTaken := by
  have hevents : s.toFallback =
      (if (s.lp.amode != 0 && (isAlarmMode s.lp.amode || isAlarmMode 0)) = true then
        (s.notDriven.logEv 0x0901 (evData [(s.lp.amode.toNat, 0), (0, 8)])).irq 9 else s.notDriven).unclamped := rfl
  unfold State.fallbackTaken State.alarmLeft
  by_cases h : isAlarmMode s.lp.amode = true
  · have hne : (s.lp.amode != 0) = true := bne_iff_ne.2 (alarmMode_ne h)
    rw [hevents, if_pos (by rw [hne, h]; rfl), evData_two, State.logIrq_room s.notDriven _ _ 9 hroom, h]
    rfl
  · have hnot : ¬(s.lp.amode != 0 && (isAlarmMode s.lp.amode || isAlarmMode 0)) = true := by
      rw [Bool.eq_false_iff.2 h]
      simp [isAlarmMode]
    rw [hevents, if_neg hnot, Bool.eq_false_iff.2 h]
    show _ = { s.notDriven.unclamped with ev := { s.ev with buf := s.ev.buf ++ [] }, hb := { s.hb with irq := s.hb.irq } }
    rw [List.append_nil]
    rfl

theorem State.alarmLeft_length (s : State) : s.alarmLeft.length ≤ 1 := by
  unfold State.alarmLeft
  split <;> simp

theorem State.fallbackTaken_room {s : State} {n : Nat} (hroom : s.ev.buf.length < n) : s.fallbackTaken.ev.buf.length < n + 1 := by
  show (s.ev.buf ++ s.alarmLeft).length < n + 1
  rw [List.length_append]
  have := s.alarmLeft_length
  omega

/-! ## Loop A -/

/-- The loop's fault noted, with the count of its faults (R296). -/
def State.faultNoted (s : State) (n : Word) : State :=
  { s with lp := { s.lp with lflt := true, faulted := true, filt := none, lfCnt := n } }

/-- DA_LOOP at zero scale (R188). -/
def State.loopZero (s : State) : State := { s with ad := { s.ad with daLoop := 0 } }

theorem State.zeroDac_loop (s : State) (cause : Nat) : s.zeroDac false cause = s.loopZero.logEv 0x0506 (evData [(0, 0), (cause, 8)]) := rfl

/-- A loop fault beside its last event (R296). -/
theorem State.loopFault_room {s : State} (hfew : s.lp.lfCnt.toNat < 0xFFFE) (hroom : s.ev.buf.length < 32) : s.loopFault =
    (((s.fallbackTaken.faultNoted (s.lp.lfCnt + 1)).loopZero.logEv 0x0506 (5 * 256)).logEv 0x0903
      ((s.lp.rbSum / ((s.lp.rbN * 1000 : Nat) : Int)).toNat % 65536 + s.lp.rbCmd / (s.lp.rbTicks * 1000) * 65536)).irq 9 := by
  obtain ⟨hinc, hmax⟩ := satInc_lt hfew
  have hsteps : s.loopFault =
      ((((s.toFallback.faultNoted (satInc s.toFallback.lp.lfCnt)).pinned 9 0xF8D4 (satInc s.toFallback.lp.lfCnt)).zeroDac false 5).logEv 0x0903
        (evData [((s.lp.rbSum / ((s.lp.rbN * 1000 : Nat) : Int)).toNat % 65536, 0), (s.lp.rbCmd / (s.lp.rbTicks * 1000), 16)])).irq 9 := rfl
  have hcount : satInc s.fallbackTaken.lp.lfCnt = s.lp.lfCnt + 1 := hinc
  rw [hsteps, State.toFallback_room hroom, hcount, State.pinned_not _ _ _ _ (hinc ▸ hmax), State.zeroDac_loop, evData_two, evData_two, Nat.zero_add]
  rfl

theorem State.fallbackTaken_keeps {s : State} (hroom : s.ev.buf.length < 32) : Keeps [.ev, .lp, .irq] s s.fallbackTaken := by
  rw [← State.toFallback_room hroom]
  exact s.toFallback_keeps

theorem State.faultNoted_keeps (s : State) (n : Word) : Keeps [.lp] s (s.faultNoted n) := Keeps.upd (Keeps.refl _ s)

theorem State.loopZero_keeps (s : State) : Keeps [.ad] s s.loopZero := Keeps.upd (Keeps.refl _ s)

/-- The fault's end, beside its two events (R188, R296). -/
def State.faultZero (s : State) : State := (s.fallbackTaken.faultNoted (s.lp.lfCnt + 1)).loopZero

theorem State.faultZero_keeps {s : State} (hroom : s.ev.buf.length < 32) : Keeps [.ad, .ev, .lp, .irq] s s.faultZero :=
  (State.loopZero_keeps _).after <| (State.faultNoted_keeps ..).after (State.fallbackTaken_keeps hroom).mono

/-- An alarm level left and the fault itself set one line (R290, R296). -/
theorem faultIrq (m : BitVec 3) (irq : Word) :
    (if isAlarmMode m then irq ||| 0x0200#16 else irq) ||| 0x0200#16 = irq ||| 0x0200#16 := by
  split
  · rw [BitVec.or_assoc, BitVec.or_self]
  · rfl

/-- Timer run out noted (R297). -/
def State.timerNoted (s : State) : State := { s with lp := { s.lp with timerOut := true } }

theorem State.timerNoted_keeps (s : State) : Keeps [.lp] s s.timerNoted := Keeps.upd (Keeps.refl _ s)

/-- Loop A to be driven again and checked afresh (R296). -/
def State.retried (s : State) : State :=
  { s with lp := { s.lp with faulted := false, rbSum := 0, rbN := 0, rbCmd := 0, rbTicks := 0 } }

theorem State.retried_keeps (s : State) : Keeps [.lp] s s.retried := Keeps.upd (Keeps.refl _ s)

/-- Loop A driven at the host's target (R283, R286). -/
def State.hostDriven (s : State) : State :=
  { s with
    lp := { s.lp with driving := true, timerOut := false, target := s.lp.hostTarget, amode := 1, filt := none,
                      apark := s.lp.alarm != 0 && s.asrc == 3,
                      rbCmd := s.lp.rbCmd + s.lp.hostTarget, rbTicks := s.lp.rbTicks + 1 },
    ad := { s.ad with daLoop := s.trimCode s.lp.hostTarget } }

/-- A tick of loop A under ASRC 1 with no alarm and no raw code (R283, R286). -/
theorem State.loopATick_host {s : State} (hrole : s.loopARole = true) (hfault : s.lp.faulted = false) (hasrc : s.asrc = 1)
    (halarm : s.lp.alarm = 0) (hraw : s.lp.traw = false) : s.loopATick = s.hostDriven.amodeEvents s.lp.amode 1 := by
  have hnow : s.loopTargetNow = ⟨s.lp.hostTarget, 1, none, none⟩ := by
    unfold State.loopTargetNow
    rw [hasrc, halarm, hraw]
    rfl
  unfold State.loopATick
  rw [if_neg (by simp [hrole]), if_neg (Bool.eq_false_iff.1 hfault), hnow]
  rfl

/-- The clamp as AMODE shows it, logged when it is new (R284). -/
def State.clampNoted (s : State) (mode : BitVec 3) : State :=
  if (mode == 2 || mode == 3) && mode != s.lp.satIn then { s with lp := { s.lp with satIn := mode } }.logEv 0x0902 mode.toNat
  else if mode == 2 || mode == 3 then s else s.unclamped

theorem State.clampNoted_lp (s : State) (mode : BitVec 3) :
    (s.clampNoted mode).lp = { s.lp with satIn := (s.clampNoted mode).lp.satIn } := by
  unfold State.clampNoted
  split
  · rw [State.logEv_lp]
  · split
    · rfl
    · rfl

/-- A change of AMODE from or to an alarm level logged (R290). -/
def State.alarmLogged (s : State) (before after : BitVec 3) : State :=
  if before != after && (isAlarmMode before || isAlarmMode after) then
    (s.logEv 0x0901 (evData [(before.toNat, 0), (after.toNat, 8)])).irq 9
  else s

theorem State.alarmLogged_lp (s : State) (before after : BitVec 3) : (s.alarmLogged before after).lp = s.lp := by
  unfold State.alarmLogged
  split
  · rw [State.irq_lp, State.logEv_lp]
  · rfl

/-- A change of AMODE leaves of loop A all but the clamp it has logged (R284, R290). -/
theorem State.amodeEvents_lp (s : State) (before after : BitVec 3) :
    (s.amodeEvents before after).lp = { s.lp with satIn := (s.amodeEvents before after).lp.satIn } := by
  show ((s.alarmLogged before after).clampNoted after).lp = { s.lp with satIn := ((s.alarmLogged before after).clampNoted after).lp.satIn }
  rw [← s.alarmLogged_lp before after]
  exact State.clampNoted_lp _ after

/-- The second word of M4 through LG_DATA (R294). -/
theorem State.writeReg_trim {s : State} (hptr : s.lg.ptr = 0xF8C7) (hnvr : s.hb.nvr = true)
    (hstart : s.startUp = false) (hseal : s.aon.sealOpen = true) (v : Word) :
    s.unlatched.writeReg .host false 0x60 v = (s.unlatched.writeTrim 0xF8C7 v).lgNext := by
  have hmask : lgMask 0xF8C7 = BitVec.allOnes 16 := by decide
  have hpair : s.unlatched.writeLg 0xF8C7 v = s.unlatched.writeTrim 0xF8C7 v := by
    unfold State.writeLg
    dsimp only
    rw [if_neg (by decide), if_neg (by decide), if_neg (by decide), if_neg (by decide), if_neg (by decide), if_pos (by decide),
      hmask, BitVec.and_allOnes, State.early_nvr s.unlatched _ _ hnvr]
    exact State.gate_open s.unlatched _ _ hstart hseal
  show (s.unlatched.writeLg s.lg.ptr.toNat v).lgNext = _
  rw [hptr]
  exact congrArg State.lgNext hpair

theorem State.lgNext_stays {s : State} (h : s.lg.ainc = false) : s.lgNext = s := if_neg (Bool.eq_false_iff.1 h)

/-- Settles O49: the fault and the fallback by `toFallback_room`, a tick that drives by `loopATick`, the trim by `writeTrim`. -/
theorem loopA : Obligations.LoopA := by
  unfold Obligations.LoopA
  refine ⟨?fault, ?agrees, ?retry, ?fallback, ?low, ?lowEnds, ?repeater, ?trim, ?trimBad⟩
  case fault =>
    intro s hrun hrole hctl hdriving hbad hfew hroom
    have hexec : exec .readbackCheck s = .next s.loopFault.clearReadback :=
      State.when_next s (by simp [hrun, hrole]) (if_pos (by simp [hctl, hdriving, hbad]))
    have hfew' : s.ev.buf.length < 32 := by omega
    have hzero := State.faultZero_keeps hfew'
    have hroom1 : s.faultZero.ev.buf.length < 31 := State.fallbackTaken_room hroom
    have hlog := State.logEv_keeps s.faultZero 0x0506 (5 * 256)
    have hev1 : (s.faultZero.logEv 0x0506 (5 * 256)).ev = _ := State.logEv_ev (s := s.faultZero) 0x0506 (5 * 256) rfl rfl rfl (by omega)
    rw [eventOf_congr hzero] at hev1
    have hroom2 : (s.faultZero.logEv 0x0506 (5 * 256)).ev.buf.length < 32 := by
      rw [hev1, List.length_append]
      exact Nat.succ_lt_succ hroom1
    rw [State.loopFault_room hfew hfew'] at hexec
    have hlog2 := State.logEv_keeps (s.faultZero.logEv 0x0506 (5 * 256)) 0x0903
      ((s.lp.rbSum / ((s.lp.rbN * 1000 : Nat) : Int)).toNat % 65536 + s.lp.rbCmd / (s.lp.rbTicks * 1000) * 65536)
    have hev2 := congrArg State.ev (State.logEv_room (s.faultZero.logEv 0x0506 (5 * 256)) 0x0903
      ((s.lp.rbSum / ((s.lp.rbN * 1000 : Nat) : Int)).toNat % 65536 + s.lp.rbCmd / (s.lp.rbTicks * 1000) * 65536) hroom2)
    have hboth : Keeps [.ad, .ev, .lp, .irq] s (s.faultZero.logEv 0x0506 (5 * 256)) := hlog.after hzero.mono
    rw [eventOf_congr hboth, hev1] at hev2
    change exec .readbackCheck s = .next (((s.faultZero.logEv 0x0506 (5 * 256)).logEv 0x0903
      ((s.lp.rbSum / ((s.lp.rbN * 1000 : Nat) : Int)).toNat % 65536 + s.lp.rbCmd / (s.lp.rbTicks * 1000) * 65536)).irq 9).clearReadback at hexec
    have had := hlog2.eqAd.trans hlog.eqAd
    have hirq := hlog2.eqIrq.trans hlog.eqIrq
    have hlp := hlog2.eqLp.trans hlog.eqLp
    have hkeeps : Keeps [.ad, .ev, .lp, .irq] s _ := hlog2.after hboth.mono
    generalize (s.faultZero.logEv 0x0506 (5 * 256)).logEv 0x0903
      ((s.lp.rbSum / ((s.lp.rbN * 1000 : Nat) : Int)).toNat % 65536 + s.lp.rbCmd / (s.lp.rbTicks * 1000) * 65536) = u at *
    have hends : Keeps [.ad, .ev, .lp, .irq] s (u.irq 9).clearReadback :=
      (State.clearReadback_keeps _).after <| (State.irq_keeps ..).after hkeeps.mono
    refine ⟨_, hexec, hends.left, had, ?_, ?_, ?_⟩
    · show u.hb.irq ||| 0x0200#16 = _
      rw [hirq]
      exact faultIrq s.lp.amode s.hb.irq
    · exact congrArg (fun l : Lp => { l with rbSum := 0, rbN := 0, rbCmd := 0, rbTicks := 0 }) hlp
    · exact hev2.trans (congrArg (fun b => { s.ev with buf := b }) (List.append_assoc (s.ev.buf ++ s.alarmLeft) [_] [_]))
  case agrees =>
    intro s hrun hrole hagrees
    refine State.when_next s (by simp [hrun, hrole]) (if_neg ?_)
    simp only [Bool.and_eq_true]
    rintro ⟨⟨h1, h2⟩, h3⟩
    rcases hagrees with h | h | h
    · exact absurd (h.symm.trans h1) (by decide)
    · exact absurd (h.symm.trans h2) (by decide)
    · exact absurd (h.symm.trans h3) (by decide)
  case retry =>
    intro s hrun hfaulted hrole hasrc halarm hraw
    have hexec : exec .loopFaultRetry s = .next s.retried.loopATick := State.when_next s (by simp [hrun, hfaulted]) rfl
    have hkeeps : Keeps [.ad, .ev, .lp, .irq] s s.retried.loopATick := (State.loopATick_keeps _).after s.retried_keeps.mono
    rw [State.loopATick_host (s := s.retried) hrole rfl hasrc halarm hraw] at hexec hkeeps
    have hlp := s.retried.hostDriven.amodeEvents_lp s.lp.amode 1
    have had := (State.amodeEvents_keeps s.retried.hostDriven s.lp.amode 1).eqAd
    refine ⟨_, hexec, hkeeps.left, ?_, ?_, ?_, ?_, had⟩
    · exact (congrArg Lp.faulted hlp :)
    · exact (congrArg Lp.driving hlp :)
    · exact (congrArg Lp.target hlp :)
    · exact (congrArg Lp.amode hlp :)
  case fallback =>
    intro s ms hrun hrole hroom
    have hexec : exec (.fallbackTimeout ms) s = .next (s.toFallback.timerNoted.logEv 0x0905 ms) :=
      State.when_next s (by simp [hrun, hrole]) rfl
    rw [State.toFallback_room (by omega)] at hexec
    have hlog := State.logEv_keeps s.fallbackTaken.timerNoted 0x0905 ms
    have hkeeps : Keeps [.ev, .lp, .irq] s s.fallbackTaken.timerNoted := (State.timerNoted_keeps _).after (State.fallbackTaken_keeps (by omega)).mono
    refine ⟨_, hexec, (hlog.after hkeeps.mono).left, hlog.eqLp, ?_, hlog.eqIrq⟩
    rw [State.logEv_room s.fallbackTaken.timerNoted _ _ (State.fallbackTaken_room hroom), eventOf_congr hkeeps]
    rfl
  case low =>
    intro s v hrun hrole hlow hv hroom
    refine State.when_next s (by simp [hrun, hrole]) ((if_pos (by simp [hlow, hv])).trans ?_)
    rw [evData_two, Nat.zero_add]
    exact State.logIrq_room _ 0x0906 _ 9 hroom
  case lowEnds =>
    intro s v hrun hrole hlow hv
    refine State.when_next s (by simp [hrun, hrole]) ((if_neg (by simp [hlow])).trans (if_pos ?_))
    simp [hlow, hv]
  case repeater =>
    intro s hrun hrole hasrc
    exact State.when_next s (by simp [hrun, hrole, hasrc]) rfl
  case trim =>
    intro s hi lo hbus hlatch harm hnvr hstart hseal hroom hptr hainc hmin hmax hnew
    have hplain := hostCommit_row s (.trimWrite hi) 0x60 0x60 hi lo rfl hbus hlatch rfl (by decide) harm
    have hgood : trimBad 0xF8C7 (dword (s.heldWord (Config.key 3 0xF8C6)) (wordOf hi lo)) = false := by
      simp only [trimBad, if_true, Bool.or_eq_false_iff, decide_eq_false_iff_not, Nat.not_lt]
      exact ⟨hmin, hmax⟩
    have hchanged : ((s.unlatched.unhold (Config.key 3 0xF8C6) 1).nv (Config.key 3 0xF8C6) != s.heldWord (Config.key 3 0xF8C6) ||
        (s.unlatched.unhold (Config.key 3 0xF8C6) 1).nv (Config.key 3 0xF8C7) != wordOf hi lo) = true := by
      rw [Bool.or_eq_true, bne_iff_ne, bne_iff_ne]
      exact hnew
    have htrim : s.unlatched.writeTrim 0xF8C7 (wordOf hi lo) = (s.unlatched.unhold (Config.key 3 0xF8C6) 1).queueChange
        (.trim (Config.key 3 0xF8C6) (s.heldWord (Config.key 3 0xF8C6)) (wordOf hi lo)) :=
      (if_neg (Bool.eq_false_iff.1 hgood)).trans (State.propose_room _ _ _ _ hchanged hroom)
    rw [State.writeReg_trim hptr hnvr hstart hseal, htrim, State.lgNext_stays (s := (s.unlatched.unhold (Config.key 3 0xF8C6) 1).queueChange _) hainc] at hplain
    refine ⟨_, hplain, ?_, rfl, rfl⟩
    exact ((State.queueChange_keeps ..).after <| (State.unhold_keeps ..).after s.unlatched_keeps.mono).left
  case trimBad =>
    intro s hi lo hbus hlatch harm hnvr hstart hseal hptr hainc hroom hbad
    have hplain := hostCommit_row s (.trimWrite hi) 0x60 0x60 hi lo rfl hbus hlatch rfl (by decide) harm
    have hrange : trimBad 0xF8C7 (dword (s.heldWord (Config.key 3 0xF8C6)) (wordOf hi lo)) = true := by
      simp only [trimBad, if_true, Bool.or_eq_true, decide_eq_true_eq]
      exact hbad
    have htrim : s.unlatched.writeTrim 0xF8C7 (wordOf hi lo) = (s.unlatched.unhold (Config.key 3 0xF8C6) 1).logEv 0x0904 0 := if_pos hrange
    have hkeeps : Keeps [.hb] s (s.unlatched.unhold (Config.key 3 0xF8C6) 1) := (State.unhold_keeps ..).after s.unlatched_keeps.mono
    have hlog := State.logEv_keeps (s.unlatched.unhold (Config.key 3 0xF8C6) 1) 0x0904 0
    rw [State.writeReg_trim hptr hnvr hstart hseal, htrim, State.lgNext_stays ((congrArg Lg.ainc hlog.eqLg :).trans hainc)] at hplain
    exact ⟨_, hplain, (hlog.after hkeeps.mono).left, State.logEv_ev _ _ rfl rfl rfl hroom, hlog.eqHbAll⟩

/-! ## Loop B -/

/-- What an interval of loop B says beside its event (R302, R303). -/
def State.decodedB (s : State) : State :=
  { s with lp := { s.lp with
      ib := (s.lp.bSum / (s.lp.bN : Int)).toNat, bAbsent := false, bSum := 0, bN := 0, bOvr := false,
      remb := rembOf (s.lp.bSum / (s.lp.bN : Int)).toNat s.lp.bOvr,
      openRun := if (s.lp.bSum / (s.lp.bN : Int)).toNat < 1000000 then s.lp.openRun + 1 else 0,
      lbopen := decide (5 ≤ if (s.lp.bSum / (s.lp.bN : Int)).toNat < 1000000 then s.lp.openRun + 1 else 0),
      lbsht := rembOf (s.lp.bSum / (s.lp.bN : Int)).toNat s.lp.bOvr == 3 && decide (500 ≤ s.lp.clRun) } }

theorem State.decodeB_lp {s : State} (hn : s.lp.bN ≠ 0) : s.decodeB.lp = s.decodedB.lp := by
  unfold State.decodeB
  rw [if_neg hn]
  extract_lets i remb run lbopen lbsht changed t
  show (if changed = true then (s.decodedB.logEv 0x0907 _).irq 9 else s.decodedB).lp = _
  split
  · rw [State.irq_lp, State.logEv_lp]
  · rfl

/-- The die warning set (R308). -/
def State.dieWarned (s : State) : State := { s with lp := { s.lp with dwarn := true } }

theorem State.foldNow_folded {s : State} (h : s.lp.fold = true) : s.foldNow = s := if_pos h

/-- The fold of loop B (R307). -/
def State.folded (s : State) : State := { s with lp := { s.lp with fold := true } }

theorem State.foldNow_room {s : State} (h : s.lp.fold = false) (hroom : s.ev.buf.length < 32) : s.foldNow = { s.folded with
    ev := { s.ev with buf := s.ev.buf ++ [s.eventOf 0x0908 (1 + dteOf s.lp.dT * 65536)] }, hb := { s.hb with irq := s.hb.irq ||| 0x4000#16 } } := by
  refine (if_neg (Bool.eq_false_iff.1 h)).trans ?_
  show (s.folded.logEv 0x0908 _).irq 14 = _
  rw [evData_two]
  exact State.logIrq_room s.folded _ _ 14 hroom

/-- The die warning logged (R308). -/
def State.warningLogged (s : State) (die : Int) : State :=
  { s.dieWarned with
    ev := { s.ev with buf := s.ev.buf ++ [s.eventOf 0x0909 (BitVec.ofInt 16 die).toNat] }, hb := { s.hb with irq := s.hb.irq ||| 0x4000#16 } }

/-- Settles O50: the interval by `decodeB_lp`, the warning by `foldNow_room`. -/
theorem loopB : Obligations.LoopB := by
  unfold Obligations.LoopB
  refine ⟨?absent, ?decode, ?limit, ?falls, ?release, ?warns, ?warned, ?switch⟩
  case absent =>
    intro s hon hloop hn
    exact State.when_next s (by simp [hon, hloop]) (if_pos hn)
  case decode =>
    intro s hon hloop hn
    have hexec : exec .loopBDecode s = .next s.decodeB := State.when_next s (by simp [hon, hloop]) rfl
    refine ⟨_, hexec, s.decodeB_keeps.left, ?_⟩
    rw [State.decodeB_lp hn]
    exact ⟨rfl, rfl, rfl, rfl, rfl, rfl, rfl⟩
  case limit =>
    intro s acts hon hloop
    exact State.when_next s (by simp [hon, hloop]) rfl
  case falls =>
    intro s hon hrun hlim
    exact State.when_next s (by simp [hon, hrun, hlim]) rfl
  case release =>
    intro s hon hfold hwarn hcool hroom
    refine State.when_next s (by simp [hon, hfold, hwarn, hcool]) ?_
    unfold State.foldEvent
    rw [evData_two, Nat.zero_add]
    exact State.logEv_room _ 0x0908 _ hroom
  case warns =>
    intro s die hon hwarn hdie hroom
    have hroom' : s.dieWarned.ev.buf.length < 32 := Nat.lt_succ_of_lt hroom
    refine State.when_next s hon ((if_pos (by simp [hwarn, hdie])).trans ?_)
    refine (congrArg (fun u : State => if u.loopBOn then u.foldNow else u) (State.logIrq_room s.dieWarned 0x0909 _ 14 hroom')).trans ?_
    change (if s.loopBOn then (s.warningLogged die).foldNow else s.warningLogged die) = _
    cases hloop : s.loopBOn with
    | false =>
      rw [Bool.or_false, Bool.false_and, if_neg Bool.false_ne_true, if_neg Bool.false_ne_true, List.append_nil]
      rfl
    | true =>
      rw [Bool.or_true, Bool.true_and, if_pos rfl]
      cases hfold : s.lp.fold with
      | true =>
        rw [Bool.not_true, if_neg Bool.false_ne_true, List.append_nil]
        refine (State.foldNow_folded (s := s.warningLogged die) hfold).trans ?_
        unfold State.warningLogged State.dieWarned
        rw [← hfold]
      | false =>
        have hroom2 : (s.warningLogged die).ev.buf.length < 32 := by
          show (s.ev.buf ++ [_]).length < 32
          rw [List.length_append]
          exact Nat.succ_lt_succ hroom
        refine (State.foldNow_room (s := s.warningLogged die) hfold hroom2).trans ?_
        have hirq : (s.warningLogged die).hb.irq ||| 0x4000#16 = s.hb.irq ||| 0x4000#16 := by
          show (s.hb.irq ||| 0x4000#16) ||| 0x4000#16 = _
          rw [BitVec.or_assoc, BitVec.or_self]
        rw [hirq]
        rfl
  case warned =>
    intro s die hon hwarn hdie
    refine State.when_next s hon ((if_neg (by simp [hwarn])).trans (if_pos ?_))
    simp [hwarn, hdie]
  case switch =>
    intro s hrun hrole hsel hidle hroom
    refine State.when_next s (by simp [hrun, hrole, hsel, hidle]) ?_
    unfold State.switchLoop State.tnEvent
    rw [evData_two]
    exact State.logIrq_room _ 0x0A06 _ 10 hroom

end Sys2Proof.Machine
end

section
/-! PROOF. The loop tone modem: a Cantus device, its pass-through and the Cantus master (R311 to R333). -/

/- Proofs are elaborated one after the other: in parallel they outrun the kernel's checks of the text before them, and each that waits
holds a thread's memory. -/
set_option Elab.async false

open Sys2Proof

namespace Sys2Proof.Machine

/-! ## Violations of the modem (R332) -/

/-- What TVIOLIM makes of the violations in its time, VIOCNT one higher (R332). -/
def State.tnVioAged (s : State) : State :=
  { s with tn := { s.tn with
      vioAt := (stampIn s.pw.ticks s.tn.vioAt).take 255,
      vio := s.tn.vio || (s.tviolim != 0 && decide (s.tviolim ≤ (stampIn s.pw.ticks s.tn.vioAt).length)) } }

theorem State.tnCount_few {s : State} (hfew : s.tn.vioCnt.toNat < 0xFFFE) :
    s.tnCount = { s with tn := { s.tn with vioCnt := s.tn.vioCnt + 1 } } := by
  obtain ⟨hinc, hmax⟩ := satInc_lt hfew
  unfold State.tnCount
  rw [hinc]
  exact State.pinned_not _ _ _ _ (hinc ▸ hmax)

theorem State.tnVio_logged {s : State} {code : Word} (data : Nat) (hfew : s.tn.vioCnt.toNat < 0xFFFE) (hroom : s.ev.buf.length < 32)
    (hfirst : s.hb.secCodes.contains code = false) : s.tnVio code data = s.toneViolated code data := by
  have hsteps : s.tnVio code data =
      if s.tnVioAged.tnCount.hb.secCodes.contains code then s.tnVioAged.tnCount else (s.tnVioAged.tnCount.logOnce code data).irq 10 := rfl
  rw [hsteps, State.tnCount_few (s := s.tnVioAged) hfew]
  refine (if_neg (Bool.eq_false_iff.1 hfirst)).trans ?_
  rw [State.logOnce_first data (s := { s.tnVioAged with tn := { s.tnVioAged.tn with vioCnt := s.tnVioAged.tn.vioCnt + 1 } }) hfirst]
  exact State.logIrq_room _ code data 10 hroom

/-! ## What a taken frame leaves -/

/-- A frame taken changes the modem's part alone. -/
theorem State.tnTaken_keeps (s : State) (f : CFrame) : Keeps [.tn] s (s.tnTaken f) := by
  obtain ⟨e, a, b, h⟩ := tnTaken_eq s f
  rw [h]
  exact Keeps.upd (Keeps.refl _ s)

/-- The parts of the modem that a frame taken leaves. -/
theorem State.tnTaken_tn (s : State) (f : CFrame) :
    (s.tnTaken f).tn.vioCnt = s.tn.vioCnt ∧ (s.tnTaken f).tn.rxf = s.tn.rxf ∧ (s.tnTaken f).tn.stored = s.tn.stored ∧
      (s.tnTaken f).tn.req = s.tn.req ∧ (s.tnTaken f).tn.reqWatch = s.tn.reqWatch ∧ (s.tnTaken f).tn.watch = s.tn.watch ∧
      (s.tnTaken f).tnDevice = s.tnDevice ∧ (s.tnTaken f).hostCmd = s.hostCmd ∧ (s.tnTaken f).identity = s.identity := by
  obtain ⟨e, a, b, h⟩ := tnTaken_eq s f
  rw [h]
  exact ⟨rfl, rfl, rfl, rfl, rfl, rfl, rfl, rfl, rfl⟩

/-- A request of a command that the device hears and has not answered lately (R325, R326). -/
theorem exec_tnRequest_new {s u : State} {c : Instr} {f : CFrame} {b : Bool} {g : State → State}
    (hexec : exec c s = .next (s.tnRequest f b (fun t => t.tnOnce f g))) (hb : b = true) (hhears : s.tnHears f) (hnew : s.tnNew f)
    (hu : u = s.tnTaken f) : exec c s = .next (g u) := by
  rw [hexec, tnRequest_hears s f b hb hhears, ← hu, tnOnce_new s u f hu hnew]

/-! ## The device -/

theorem State.cantusRead_fits {s : State} {f : CFrame} {a c : Byte} (hp : f.data = [a, c])
    (hfit : readFits a.toNat (c.getLsbD 7) (c.toNat % 128) = true) :
    s.cantusRead f = (s.remoteRead a.toNat (c.getLsbD 7) (c.toNat % 128)).2.tnReply f (s.remoteRead a.toNat (c.getLsbD 7) (c.toNat % 128)).1 := by
  have ha : payAt f.data 0 = a := by rw [hp]; rfl
  have hc : payAt f.data 1 = c := by rw [hp]; rfl
  have hlen : f.data.length = 2 := by rw [hp]; rfl
  unfold State.cantusRead
  simp only [ha, hc, hlen, hfit, decide_true, Bool.and_self, if_true]

theorem State.cantusWrite_fits {s : State} {f : CFrame} (hfit : triplesFit f.data = true) :
    s.cantusWrite f = (s.remoteWrite .cantus 0 f.data).2.tnReply f [BitVec.ofNat 8 (s.remoteWrite .cantus 0 f.data).1] := if_pos hfit

/-- A host command with room for its frame (R327). -/
theorem State.tnHostCommand_room {s : State} {f : CFrame} (hcmd : s.hostCmd = true) (hfits : s.tnFits f = true) : s.tnHostCommand f = { s with
    tn := { s.tn with rxf := s.tn.rxf ++ cantusWords f, hostSeq := some (f.seq, cantusCrc f) },
    hb := { s.hb with irq := s.hb.irq ||| 0x0400#16 } } := by
  unfold State.tnHostCommand State.tnPush
  rw [if_neg (by simp [hcmd]), if_pos hfits, if_pos hfits]
  rfl

/-! ## Pass-through -/
/-- How many bits are set is their sum. -/
theorem filter_bits (p : Nat → Bool) (l : List Nat) : (l.filter p).length = (l.map (fun i => b2n (p i))).sum := by
  induction l with
  | nil => rfl
  | cons i l ih =>
    rw [List.filter_cons, List.map_cons, List.sum_cons, ← ih]
    cases p i
    · exact (Nat.zero_add _).symm
    · exact Nat.add_comm _ _

theorem extract_bit (c : BitVec 11) {i : Nat} (h : i < 8) : (c.extractLsb' 1 8).getLsbD i = c.getLsbD (i + 1) := by
  rw [BitVec.getLsbD_extractLsb', Nat.add_comm 1 i]
  simp [h]

theorem charBits_extract (c : BitVec 11) : charBits (c.extractLsb' 1 8) =
    [0] ++ (List.range 8).map (fun i => b2n (c.getLsbD (i + 1))) ++ [(((List.range 8).map (fun i => b2n (c.getLsbD (i + 1)))).sum + 1) % 2, 1] := by
  have h : (List.range 8).map (fun i => b2n ((c.extractLsb' 1 8).getLsbD i)) = (List.range 8).map (fun i => b2n (c.getLsbD (i + 1))) :=
    List.map_congr_left fun i hi => congrArg b2n (extract_bit c (List.mem_range.1 hi))
  unfold charBits
  dsimp only
  rw [h]

/-- A received character is wrong by its start bit, its stop bit or its parity (R315, R331). -/
theorem charOf_wrong (c : BitVec 11) : (charOf c).2 = true ↔ c.getLsbD 0 = true ∨ c.getLsbD 10 = false ∨
    ((List.range 9).filter (fun i => c.getLsbD (i + 1))).length % 2 = 0 := by
  have hlist : (List.range 11).map (fun i => b2n (c.getLsbD i)) =
      [b2n (c.getLsbD 0)] ++ (List.range 8).map (fun i => b2n (c.getLsbD (i + 1))) ++ [b2n (c.getLsbD 9), b2n (c.getLsbD 10)] := rfl
  have hnine : ((List.range 9).map (fun i => b2n (c.getLsbD (i + 1)))).sum =
      ((List.range 8).map (fun i => b2n (c.getLsbD (i + 1)))).sum + b2n (c.getLsbD 9) := by
    rw [List.range_succ, List.map_append, List.sum_append]
    rfl
  unfold charOf
  dsimp only
  rw [filter_bits, hnine, charBits_extract, hlist, bne_iff_ne]
  generalize (List.range 8).map (fun i => b2n (c.getLsbD (i + 1))) = d
  generalize c.getLsbD 0 = p
  generalize c.getLsbD 9 = q
  generalize c.getLsbD 10 = r
  cases p <;> cases q <;> cases r <;> simp [b2n] <;> omega

/-- The first bit of a character is its start bit (R315). -/
theorem passWave_first {bs : List Byte} (h : bs ≠ []) (more : List Nat) :
    Wave.fwAt { fast := false, syms := waveSyms false bs ++ more, cyc := 0 } 0 = 0x075555 := by
  obtain ⟨b, rest, rfl⟩ := List.exists_cons_of_ne_nil h
  rfl

/-- Settles O51: a request by `exec_tnRequest_new`, its steps by `remoteRead_steps` and `applyTriples_steps`, a character by
`charOf_wrong`. -/
theorem toneDevice : Obligations.ToneDevice := by
  unfold Obligations.ToneDevice
  refine ⟨?identify, ?again, ?read, ?locked, ?write, ?host, ?unknown, ?reply, ?hostReply, ?passStart, ?passMore, ?passRx, ?fifo⟩
  case identify =>
    intro s f hhears hnew hcmd hdata
    refine (exec_tnRequest_new (c := .identify f) rfl (by rw [hcmd]; rfl) hhears hnew rfl).trans ?_
    have hkeeps := s.tnTaken_keeps f
    obtain ⟨-, -, -, -, -, -, -, -, hid⟩ := s.tnTaken_tn f
    rw [hdata]
    show Host.Outcome.next ((s.tnTaken f).tnReply f (s.tnTaken f).identity) = _
    unfold State.tnReply
    rw [hid, hcmd, show (s.tnTaken f).pw.ticks = s.pw.ticks from congrArg Pw.ticks hkeeps.eqPw]
  case again =>
    intro s f r since hhears hstored hlate hcmd hfew
    refine congrArg Host.Outcome.next ((tnRequest_hears s f _ (by rw [hcmd]; rfl) hhears _).trans ?_)
    have hkeeps := s.tnTaken_keeps f
    obtain ⟨hvio, -, hst, -⟩ := s.tnTaken_tn f
    have hrepeat : (decide (f.seq = f.seq) && decide (cantusCrc f = cantusCrc f) && (s.tnTaken f).within since 2000) = true := by
      unfold State.within at hlate ⊢
      rw [hkeeps.eqPw]
      simpa using hlate
    unfold State.tnOnce
    rw [hst, hstored]
    refine (if_pos hrepeat).trans ?_
    rw [State.tnCount_few (by rw [hvio]; exact hfew), hvio]
  case read =>
    intro s u f a c n step hhears hnew hu hcmd hdata hn hstep heven hle hend
    have hfit := readFits_of_end_le hstep heven hle hend
    obtain ⟨v, hv0, hsteps, hread⟩ := remoteRead_steps (c.getLsbD 7) step hstep n u a.toNat
    refine ⟨v, hv0, hsteps, (exec_tnRequest_new (c := .cantusRead f) rfl (by rw [hcmd]; rfl) hhears hnew hu).trans ?_⟩
    subst hn
    rw [State.cantusRead_fits hdata hfit, hread]
  case locked =>
    intro s u f hhears hnew hu hcmd hfit hlock hne hroom
    refine (exec_tnRequest_new (c := .cantusWrite f) rfl (by rw [hcmd]; rfl) hhears hnew hu).trans ?_
    have hkeeps : Keeps [.tn] s u := hu ▸ s.tnTaken_keeps f
    rw [State.cantusWrite_fits hfit, State.remoteWrite_locked hlock .cantus 0 hfit hne (by rw [hkeeps.eqEv]; exact hroom), Nat.zero_add,
      eventOf_congr hkeeps]
    unfold State.tnReply
    rw [hcmd, ← hkeeps.eqPw]
  case write =>
    intro s u f ts hhears hnew hu hcmd hdata hts hopen
    obtain ⟨v, hv0, hsteps, happly⟩ := applyTriples_steps .cantus ts (u.setArm .cantus .idle)
    refine ⟨v, hv0, hsteps, (exec_tnRequest_new (c := .cantusWrite f) rfl (by rw [hcmd]; rfl) hhears hnew hu).trans ?_⟩
    rw [State.cantusWrite_fits (by rw [hdata]; exact triplesFit_of ts hts), State.remoteWrite_unlocked hopen, hdata, triples_flatten ts hts,
      happly]
    rfl
  case host =>
    intro s u f hhears hnew hu hcmd hhost hfits
    refine (exec_tnRequest_new (c := .cantusHostCommand f) rfl (decide_eq_true hcmd) hhears hnew hu).trans ?_
    obtain ⟨-, hrxf, -, -, -, -, -, hcmd', -⟩ := s.tnTaken_tn f
    rw [State.tnHostCommand_room (by rw [hu, hcmd']; exact hhost) (by unfold State.tnFits; rw [hu, hrxf]; exact hfits)]
  case unknown =>
    intro s f hhears hmin hmax hfew hroom hfirst
    have hkeeps := s.tnTaken_keeps f
    obtain ⟨hvio, -⟩ := s.tnTaken_tn f
    refine congrArg Host.Outcome.next ((tnRequest_hears s f _ (by simp [hmin, hmax]) hhears _).trans ?_)
    rw [State.tnVio_logged f.cmd.toNat (by rw [hvio]; exact hfew) (by rw [hkeeps.eqEv]; exact hroom) (by rw [hkeeps.eqHbAll]; exact hfirst)]
    rfl
  case reply =>
    intro s r w hon hdev hreply hw
    refine State.when_next s (by simp [hon, hdev]) ?_
    unfold State.tnReplySend
    rw [hreply, hw]
    rfl
  case hostReply =>
    intro s seq crc w hon hdev hpt hready hseq hw
    refine State.when_next s (by simp [hon, hdev, hpt, hready]) ?_
    unfold State.tnHostReply
    rw [hseq, hw]
    rfl
  case passStart =>
    intro s hon hpt hne htx
    refine State.when_next s (by simp [hon, hpt, hne]) ?_
    unfold State.passTx
    rw [htx]
    dsimp only
    unfold State.waveStart
    rw [passWave_first hne]
    rfl
  case passMore =>
    intro s w hon hpt hne htx
    refine State.when_next s (by simp [hon, hpt, hne]) ?_
    unfold State.passTx
    rw [htx, List.append_assoc]
  case passRx =>
    intro s c bad hon hpt hroom hbad
    have hwrong : (charOf c).2 = bad := by rw [Bool.eq_iff_iff, charOf_wrong, hbad]
    refine State.when_next s (by simp [hon, hpt]) ((if_pos hroom).trans ?_)
    have hpack : pack [((charOf c).1.toNat, 0), (b2n bad, 8)] = BitVec.ofNat 16 ((c.extractLsb' 1 8).toNat + b2n bad * 256) :=
      congrArg (BitVec.ofNat 16) (evData_two _ _ 8)
    rw [hwrong, hpack]
  case fifo =>
    intro s hbus hrun
    refine congrArg Host.Outcome.next ((hostRead_eq s hbus 0x44).trans ?_)
    rw [show s.readEffect 0x44 = _ from if_pos hrun]
    rfl

/-! ## The master -/

/-- A round of watch polls (R330). -/
def State.watchRound (s : State) (addrs : List Nat) : State := { s with tn := { s.tn with watch := addrs } }

theorem State.watchRound_keeps (s : State) (addrs : List Nat) : Keeps [.tn] s (s.watchRound addrs) := Keeps.upd (Keeps.refl _ s)

/-- A request given up (R329). -/
def State.requestGone (s : State) : State :=
  { s with tn := { s.tn with req := none, tout := true, toCnt := s.tn.toCnt + 1 } }

/-- The count of frames with a bad CRC one higher (R323). -/
def State.crcCounted (s : State) : State := { s with tn := { s.tn with crcCnt := s.tn.crcCnt + 1 } }

/-- The episode of a jam noted (R332). -/
def State.jamNoted (s : State) : State := { s with tn := { s.tn with jam := true, cd := true, jamEpisode := true } }

/-- The request answered (R329). -/
def State.requestDone (s : State) : State := { s with tn := { s.tn with req := none } }

/-- The reply to the master's request (R329). -/
theorem State.tnMasterReply_mine {s : State} {f r : CFrame} (hreq : s.tn.req = some r) (hseq : r.seq = f.seq)
    (hfrom : f.addr.extractLsb' 0 4 = r.addr.extractLsb' 0 4) (hfits : s.tnFits f = true) (hwatch : s.tn.reqWatch = false)
    (hround : s.tn.watch = []) : s.tnMasterReply f = { s with
      tn := { s.tn with req := none, rxf := s.tn.rxf ++ cantusWords f }, hb := { s.hb with irq := s.hb.irq ||| 0x0400#16 } } := by
  have hmine : (decide (r.seq = f.seq) && f.addr.extractLsb' 0 4 == r.addr.extractLsb' 0 4) = true := by simp [hseq, hfrom]
  unfold State.tnMasterReply
  rw [hreq]
  refine (if_pos hmine).trans ((congrArg State.watchNext (if_neg (Bool.eq_false_iff.1 hwatch))).trans ?_)
  refine (congrArg State.watchNext (if_pos hfits : s.requestDone.tnPush f = _)).trans ?_
  exact watchNext_nil _ hround

/-- Settles O52: a request by `tnIssue`, a violation by `tnVio_logged`. -/
theorem toneMaster : Obligations.ToneMaster := by
  unfold Obligations.ToneMaster
  refine ⟨?request, ?reply, ?resend, ?givesUp, ?jam, ?watch, ?crc, ?carrier, ?parity⟩
  case request =>
    intro s w hon hdev hpt hready hreq hw
    refine State.when_next s (by simp [hon, hdev, hpt, hready, hreq]) ?_
    rw [hw]
    rfl
  case reply =>
    intro s f r hon hpt haddr hdev hreq hseq hfrom hfew hfits hwatch hround
    obtain ⟨-, hrxf, -, hreq', hwatch', hround', hdev', -⟩ := s.tnTaken_tn f
    refine State.when_next s (by simp [hon, hpt, haddr]) ((if_neg (Bool.eq_false_iff.1 hdev)).trans ?_)
    rw [tnHeard_eq s f hfew]
    refine (State.tnMasterReply_mine (hreq'.trans hreq) hseq hfrom ?_ (hwatch'.trans hwatch) (hround'.trans hround)).trans ?_
    · unfold State.tnFits
      rw [hrxf]
      exact hfits
    · rw [hrxf, (s.tnTaken_keeps f).eqHbAll]
  case resend =>
    intro s r w hon hdev hreq hleft hw
    refine State.when_next s (by simp [hon, hdev]) ?_
    unfold State.tnTimeout
    rw [hreq, hw]
    exact if_pos hleft
  case givesUp =>
    intro s r hon hdev hreq hlast hfew hwatch hround hroom
    obtain ⟨hinc, hmax⟩ := satInc_lt hfew
    refine State.when_next s (by simp [hon, hdev]) ?_
    unfold State.tnTimeout
    rw [hreq, hinc]
    refine (if_neg (Nat.not_le.2 hlast)).trans ?_
    show (if s.tn.reqWatch then _ else (s.requestGone.pinned 10 0xF90E (s.tn.toCnt + 1)).tnEvent 0x0A05 _).watchNext = _
    rw [if_neg (Bool.eq_false_iff.1 hwatch), State.pinned_not _ _ _ _ (hinc ▸ hmax), evData_two]
    refine (watchNext_nil _ ?_).trans ?_
    · exact (congrArg Tn.watch (State.tnEvent_keeps s.requestGone 0x0A05 _).eqTn :).trans hround
    · exact State.logIrq_room s.requestGone 0x0A05 _ 10 hroom
  case jam =>
    intro s hon hdev hpt hready hreq hfew hepisode hroom
    refine State.when_next s (by simp [hon, hdev, hpt, hready, hreq]) ?_
    show (if s.tn.jamEpisode then s.jamNoted.tnCount else s.jamNoted.tnCount.tnEvent 0x0A18 0) = _
    rw [if_neg (Bool.eq_false_iff.1 hepisode), State.tnCount_few (s := s.jamNoted) hfew]
    exact State.logIrq_room _ 0x0A18 0 10 hroom
  case watch =>
    intro s a rest f hon hdev hpt hint hmap hready hreq hf
    have hnext : (s.watchRound (a :: rest)).watchNext = (s.watchRound rest).tnIssue
        { addr := BitVec.ofNat 8 a, cmd := 0x00, seq := 0, data := [], rssi := 0, soft := [] } true :=
      if_neg (by simp [show (s.watchRound (a :: rest)).tnReady = false from hready, show (s.watchRound (a :: rest)).tn.req = none from hreq])
    have hexec : exec .watchPoll s = .next (s.watchRound s.plmap).watchNext := State.when_next s (by simp [hon, hdev, hpt, hint]) rfl
    rw [hmap, hnext] at hexec
    have hkeeps : Keeps [.ad, .tn] s _ := (State.tnIssue_keeps (s.watchRound rest)
      { addr := BitVec.ofNat 8 a, cmd := 0x00, seq := 0, data := [], rssi := 0, soft := [] } true).after (s.watchRound_keeps rest).mono
    subst hf
    exact ⟨_, hexec, hkeeps.left, rfl, rfl, rfl, rfl, rfl⟩
  case crc =>
    intro s hon hpt hfew hvio hroom hfirst
    obtain ⟨hinc, hmax⟩ := satInc_lt hfew
    refine State.when_next s (by simp [hon, hpt]) ?_
    show (State.pinned { s with tn := { s.tn with crcCnt := satInc s.tn.crcCnt } } 10 0xF90B (satInc s.tn.crcCnt)).tnVio 0x0A10
      (evData [(1, 0), ((satInc s.tn.crcCnt).toNat, 16)]) = _
    rw [hinc, State.pinned_not _ _ _ _ (hinc ▸ hmax), evData_two]
    exact State.tnVio_logged (s := s.crcCounted) _ hvio hroom hfirst
  case carrier =>
    intro s n hon hpt hvio hroom hfirst
    exact State.when_next s (by simp [hon, hpt]) (State.tnVio_logged n hvio hroom hfirst)
  case parity =>
    intro s n hon hpt hslow hvio hroom hfirst
    exact State.when_next s (by simp [hon, hpt]) ((if_pos (by simp [hslow])).trans (State.tnVio_logged n hvio hroom hfirst))

end Sys2Proof.Machine
end

section
/-! PROOF. The line: lock, frames, relay and mask (R334 to R354, R372, R380). -/

/- Proofs are elaborated one after the other: in parallel they outrun the kernel's checks of the text before them, and each that waits
holds a thread's memory. -/
set_option Elab.async false

open Sys2Proof

namespace Sys2Proof.Machine

/-! ## Events of the line (R366) -/

/-- With room in the buffer an event of the line is one entry and one interrupt. -/
theorem State.dslEvent_room (s : State) (code : Word) (data : Nat) (hroom : s.ev.buf.length < 32) :
    s.dslEvent code data =
      { s with ev := { s.ev with buf := s.ev.buf ++ [s.eventOf code data] }, hb := { s.hb with irq := s.hb.irq ||| 0x0800#16 } } :=
  s.logIrq_room code data 11 hroom

/-! ## The lock and its loss (R339) -/

/-- Locked, with the steering to come (R91). -/
def State.locked (s : State) (goal : Int) : State := { s with ck := { s.ck with linelk := true, steerGoal := goal } }

/-- The lock has gone; the steering stands (R91). -/
def State.unlocked (s : State) : State := { s with ck := { s.ck with linelk := false } }

/-- The loss of the lock is counted on the upstream port. -/
def State.lossCounted (s : State) : State :=
  s.unlocked.setLive s.fram.upPort (fun l => { l with lockLost := satInc l.lockLost })

theorem State.lossCounted_keeps (s : State) : Keeps [.ck, .dl] s s.lossCounted :=
  have hunlocked : Keeps [.ck, .dl] s s.unlocked := Keeps.upd (Keeps.refl _ s)
  (State.setLive_keeps ..).after hunlocked (by rfl)

theorem State.lossCounted_ck (s : State) : s.lossCounted.ck = { s.ck with linelk := false } :=
  (State.setLive_keeps s.unlocked _ _).eqCk

theorem exec_lineLockLost {s : State} (hnode : s.isHead = false) (hcore : s.coreOn = true) (hlock : s.ck.linelk = true)
    (hfew : (s.live s.fram.upPort).lockLost.toNat < 0xFFFE) :
    exec .lineLockLost s = .next (s.lossCounted.dslEvent 0x0B01 ((BitVec.ofInt 16 s.ck.steer).toNat * 65536)) := by
  have hlive := (setLive_live s.unlocked s.fram.upPort (fun l => { l with lockLost := satInc l.lockLost })).1
  have hmax : (s.lossCounted.live s.fram.upPort).lockLost ≠ 0xFFFF#16 := by
    exact ne_of_eq_of_ne (congrArg PortLive.lockLost hlive :) (satInc_lt hfew).2
  refine State.when_next (b := !s.isHead && s.coreOn && s.ck.linelk) s (by simp [hnode, hcore, hlock]) ?_
  refine (congrArg (State.dslEvent · 0x0B01 _) (State.pinned_not _ _ _ _ hmax)).trans ?_
  rw [evData_two, Nat.zero_add]
  rfl

/-! ## What a received frame leaves behind (R337, R373) -/

/-- Stamp and count of a received frame on its port. -/
def frameStamp (f : RxFrame) (l : PortLive) : PortLive := { l with s1sec := f.sec, s1cyc := f.cyc, frCnt := satInc l.frCnt }

theorem State.learnIdx_live (s : State) (p r : Port) (src : BitVec 12) (i : BitVec 6) : (s.learnIdx p src i).live r = s.live r := by
  cases p <;> rfl

/-- A leaf keeps of a robust frame its source's line index, and the port's stamp and count. -/
theorem State.heard_robust {s : State} {f : RxFrame} (hrobust : f.load = false) (hfew : (s.live f.port).frCnt.toNat < 0xFFFE)
    (hleaf : s.isBridge = false) : s.heard f = (s.learnIdx f.port f.frame.src f.txidx).setLive f.port (frameStamp f) := by
  have hgen : s.genCheck f = (true, s) := by unfold State.genCheck; rw [hrobust]; rfl
  have hlive := (setLive_live (s.learnIdx f.port f.frame.src f.txidx) f.port (frameStamp f)).1
  have hmax : (((s.learnIdx f.port f.frame.src f.txidx).setLive f.port (frameStamp f)).live f.port).frCnt ≠ 0xFFFF#16 :=
    ne_of_eq_of_ne (congrArg PortLive.frCnt hlive :) (satInc_lt (by rw [State.learnIdx_live]; exact hfew)).2
  unfold State.heard
  rw [hgen]
  refine (congrArg (State.heardFrom · _ _) (State.pinned_not _ _ _ _ hmax)).trans (State.heardFrom_leaf _ _ _ ?_)
  refine (?_ : _ = s.isBridge).trans hleaf
  generalize f.port = p
  cases p <;> rfl

theorem State.learnIdx_idxOf (s : State) (p : Port) (src : BitVec 12) (i : BitVec 6) : (s.learnIdx p src i).idxOf p src = some i := by
  cases p <;> simp [State.learnIdx, State.idxOf]

/-! ## The frame that takes the line (R346, R347) -/

/-- The frame f of the queue's entry q, on the line for n symbols, with the table of generation `load` if it has one. -/
def State.onLineNow (s : State) (p : Port) (q : QFrame) (f : DFrame) (n : Nat) (load : Option Nat) : State :=
  { s with
    dl := { s.dl with
      queue := s.dl.queue.erase q, onLine := some ({ q with frame := f }, n * 720, load.isSome, load.getD 0),
      shape := s.shapeOf p (q.peer.getD 0) (if load.isSome then q.peer.map (fun i => i.toNat) else none) },
    pw := { s.pw with txSymbols := if q.prot then s.pw.txSymbols else s.pw.txSymbols + n } }

theorem State.onLineNow_keeps (s : State) (p : Port) (q : QFrame) (f : DFrame) (n : Nat) (load : Option Nat) :
    Keeps [.dl, .pw] s (s.onLineNow p q f n load) := Keeps.upd (Keeps.refl _ s)

theorem State.startFrame_eq {s : State} {p : Port} {q : QFrame} (hnext : s.nextFrame p = some q) :
    s.startFrame p = (s.stampTime q.frame).2.onLineNow p q (s.stampTime q.frame).1 (s.symbolsOf q) (s.loadFor q) := by
  unfold State.startFrame
  rw [hnext]
  dsimp only
  cases s.loadFor q <;> rfl

/-- Only a TIME frame is changed at its start. -/
theorem State.startFrame_plain {s : State} {p : Port} {q : QFrame} (hnext : s.nextFrame p = some q) (htype : q.frame.type ≠ 0x0B) :
    s.startFrame p = s.onLineNow p q q.frame (s.symbolsOf q) (s.loadFor q) := by
  have hstamp : s.stampTime q.frame = (q.frame, s) := by unfold State.stampTime; exact if_pos htype
  rw [State.startFrame_eq hnext, hstamp]

/-- A request for line time starts: T1 is taken (R380). -/
def State.timeAsked (s : State) : State := { s with dn := { s.dn with timeT1 := some (s.ck.lsec, s.ck.lcyc) } }

theorem State.timeAsked_keeps (s : State) : Keeps [.dn] s s.timeAsked := Keeps.upd (Keeps.refl _ s)

/-- The line's being clear does not decide which frame is next. -/
theorem State.lineClear_nextFrame (s : State) (p r : Port) : (s.lineClear p).nextFrame r = s.nextFrame r := by cases p <;> rfl

theorem State.lineClear_unstamped (s : State) (p : Port) (q : QFrame) : (s.lineClear p).unstamped q = s.unstamped q := by cases p <;> rfl

theorem exec_dmtFrameStart {s : State} {p : Port} (hmay : s.mayDmt p = true) :
    exec (.dmtFrameStart p) s = .next ((s.lineClear p).frameGo p) := State.when_next s hmay rfl

/-- A frame that awaits no stamp of the pair starts at once. -/
theorem State.frameGo_stamped {s : State} {p : Port} {q : QFrame} (hnext : s.nextFrame p = some q) (hstamped : s.unstamped q = false) :
    s.frameGo p = s.startFrame p := by
  unfold State.frameGo
  rw [hnext]
  dsimp only
  rw [hstamped]
  rfl

/-- The first that fits, replaced by one that fits too, is found in its place. -/
theorem find?_replace_first {α : Type} [BEq α] [LawfulBEq α] {fits : α → Bool} {x y : α} (hy : fits y = true) :
    ∀ {l : List α}, l.find? fits = some x → (l.replace x y).find? fits = some y
  | [], h => nomatch h
  | a :: l, h => by
    rw [List.replace_cons]
    by_cases hax : a = x
    · simp [hax, hy]
    · have hmisfit : fits a = false := by
        by_contra hfits
        rw [List.find?_cons, (by simpa using hfits : fits a = true)] at h
        exact hax (Option.some.inj h)
      rw [List.find?_cons, hmisfit] at h
      rw [(beq_eq_false_iff_ne.2 (Ne.symm hax) : (x == a) = false)]
      dsimp only
      rw [List.find?_cons, hmisfit]
      exact find?_replace_first hy h

/-- The queue's entry q with the message of the pair stamped. -/
def State.stampedEntry (s : State) (q : QFrame) : QFrame := { q with frame := { q.frame with payload := s.anStamped q.frame.payload } }

/-- The stamped message is the next frame of its port. -/
theorem State.anStamp_nextFrame {s : State} {p : Port} {q : QFrame} (hnext : s.nextFrame p = some q) :
    (s.anStamp q).nextFrame p = some (s.stampedEntry q) :=
  find?_replace_first (x := q) (y := s.stampedEntry q) (List.find?_some hnext :) hnext

theorem State.unstamped_type {s : State} {q : QFrame} (hpair : s.unstamped q = true) : q.frame.type ≠ 0x0B := by
  intro htime
  have hother : s.unstamped q = false := by unfold State.unstamped State.ownAntiphon; rw [htime]; rfl
  exact absurd hpair (Bool.eq_false_iff.1 hother)

/-- A message of the pair takes its stamp and starts. -/
theorem State.frameGo_unstamped {s : State} {p : Port} {q : QFrame} (hnext : s.nextFrame p = some q) (hpair : s.unstamped q = true)
    (hlast : s.fram.aseq.toNat < 0xFFFFFFFE) :
    s.frameGo p = (s.anStamp q).onLineNow p (s.stampedEntry q) (s.stampedEntry q).frame ((s.anStamp q).symbolsOf (s.stampedEntry q))
      ((s.anStamp q).loadFor (s.stampedEntry q)) := by
  have hfull : s.fram.aseq ≠ 0xFFFFFFFF#32 := by
    intro h
    rw [h] at hlast
    exact absurd hlast (by decide)
  have hmore : (s.fram.aseq + 1#32) ≠ 0xFFFFFFFF#32 := by
    intro h
    have := congrArg BitVec.toNat h
    rw [BitVec.toNat_add] at this
    simp at this
    omega
  unfold State.frameGo
  rw [hnext]
  dsimp only
  rw [hpair, if_neg (by decide), if_neg hfull, State.startFrame_plain (State.anStamp_nextFrame hnext) (State.unstamped_type (q := q) hpair)]
  exact aseqEnd_id _ hmore

/-! ## The relay of a head or bridge (R372) -/

/-- What a node that relays notes of a frame's source. -/
def State.sourceNoted (s : State) (f : RxFrame) : State := (s.learnIdx f.port f.frame.src f.txidx).heardFrom f.port f.frame.src

/-- The frame as it goes on: marked as relayed. -/
def relayedFrame (f : RxFrame) : DFrame := { f.frame with flags := f.frame.flags ||| 0x02#5 }

/-- A JOIN reply that comes down at a bridge names a node below it. -/
def State.bringsDown (s : State) (f : RxFrame) : Bool :=
  f.frame.type == 0x05#8 && f.frame.flags.getLsbD 4 && f.port == s.fram.upPort && s.isBridge

/-- The address a JOIN reply gives, noted as one below this node. -/
def State.downNoted (s : State) (f : RxFrame) : State :=
  if s.bringsDown f && !s.dn.down.contains (BitVec.ofNat 12 (beAt f.frame.payload 8 2))
  then { s with dn := { s.dn with down := BitVec.ofNat 12 (beAt f.frame.payload 8 2) :: s.dn.down } } else s

theorem exec_frameRelay {s : State} {f : RxFrame} (hlisten : s.listens f.port) (hrun : s.running = true) (hrobust : f.load = false)
    (hrelay : (s.sourceNoted f).relays f = true) :
    exec (.frameRelay f) s = .next (((s.sourceNoted f).downNoted f).queueOn (otherPort f.port) (relayedFrame f)) := by
  have hgen : s.genCheck f = (true, s) := by unfold State.genCheck; rw [hrobust]; rfl
  obtain ⟨hrx, hquiet⟩ := hlisten
  refine State.when_next (b := s.rxOn f.port && !s.sendingOn f.port && s.running) s (by simp [hrx, hquiet, hrun]) ?_
  unfold State.relay
  rw [hgen]
  exact (if_neg (by decide)).trans (if_neg (fun hnot => absurd hrelay (Bool.eq_false_iff.1 ((Bool.not_eq_true' _).mp hnot))))

/-- A frame for the queue of a port is its last entry. -/
theorem State.downNoted_queueOn (s : State) (f : RxFrame) :
    ((s.downNoted f).queueOn (otherPort f.port) (relayedFrame f)).dl =
        { s.dl with queue := s.dl.queue ++ [s.queued (relayedFrame f) (otherPort f.port)] } ∧
      Keeps [.dl, .dn] s ((s.downNoted f).queueOn (otherPort f.port) (relayedFrame f)) := by
  unfold State.downNoted
  split
  · exact ⟨rfl, Keeps.upd (Keeps.refl _ s)⟩
  · exact ⟨rfl, Keeps.upd (Keeps.refl _ s)⟩

theorem State.downNoted_contains {s : State} {f : RxFrame} (hdown : s.bringsDown f = true) :
    (s.downNoted f).dn.down.contains (BitVec.ofNat 12 (beAt f.frame.payload 8 2)) = true := by
  unfold State.downNoted
  rw [hdown, Bool.true_and]
  split
  · exact List.contains_iff_mem.2 List.mem_cons_self
  · next hthere => simpa using hthere

/-! ## A mask word (R353, R354) -/

/-- The host's mask word reaches its commit. -/
theorem exec_maskWrite {s : State} {hi lo : Byte} {a : Nat} (hbus : s.busOn = true) (hlatch : s.hb.wlatch = some (0x50, lo))
    (harm : s.sc.armHost ≠ .armed) (hnvr : s.hb.nvr = true) (hrows : s.hb.rows.length < 2) (hptr : s.dn.ptr = BitVec.ofNat 16 a)
    (hmask : isMaskWord a = true) :
    exec (.maskWrite hi) s = .next (s.unlatched.maskWrite a (wordOf hi lo &&& 0x1F1F#16)
      (fun t => t.nvWrite 0x50 a (Config.key 4 a) (wordOf hi lo &&& 0x1F1F#16))) :=
  (hostCommit_row s (.maskWrite hi) 0x50 0x50 hi lo rfl hbus hlatch rfl (by decide) harm).trans
    (congrArg Host.Outcome.next (mask_commit s.unlatched a _ hnvr hrows hptr hmask))

theorem State.maskWrite_refused {s : State} {a : Nat} {w : Word} {write : State → State}
    (hfew : ((s.nvPut (Config.key 4 a) w).usable (dsPortOf a)).length < 50) : s.maskWrite a w write = s.dslClamp a w := if_pos hfew

theorem State.maskWrite_taken {s : State} {a : Nat} {w : Word} {write : State → State}
    (hmany : 50 ≤ ((s.nvPut (Config.key 4 a) w).usable (dsPortOf a)).length) :
    s.maskWrite a w write =
      if (s.nvPut (Config.key 4 a) w).usable (dsPortOf a) = s.usable (dsPortOf a) then write s else (write s).dropTables (dsPortOf a) :=
  if_neg (by omega)

/-- Settles O53: lock and loss from the event's rule, reception and relay from what they note, a frame's start from `startFrame_eq`, and a
mask word from `mask_commit`. -/
theorem lineFrames : Obligations.LineFrames := by
  unfold Obligations.LineFrames
  refine ⟨?lock, ?lost, ?heard, ?plain, ?time, ?pair, ?relay, ?joinReply, ?mask, ?refused⟩
  case lock =>
    intro s steer hnode hcore hline hlock hroom
    refine State.when_next (b := !s.isHead && s.coreOn && s.lineOn && !s.ck.linelk) s (by simp [hnode, hcore, hline, hlock]) ?_
    refine (State.dslEvent_room (s.locked (clampInt (-20000) 20000 steer)) _ _ hroom).trans ?_
    rw [evData_two]
    rfl
  case lost =>
    intro s hnode hcore hlock hfew hroom
    have hlive := setLive_live s.unlocked s.fram.upPort (fun l => { l with lockLost := satInc l.lockLost })
    have hkeeps := s.lossCounted_keeps
    refine ⟨_, exec_lineLockLost hnode hcore hlock hfew, ((State.dslEvent_keeps ..).after (hkeeps.mono (L := [.ck, .dl, .ev, .irq])) (by rfl)).left,
      ?_, ?_, ?_, ?_, ?_⟩
    · exact (State.dslEvent_keeps ..).eqCk.trans s.lossCounted_ck
    · exact (congrArg (fun d : Dl => if s.fram.upPort = .A then d.liveA else d.liveB) (State.dslEvent_keeps s.lossCounted ..).eqDl).trans
        (hlive.1.trans (congrArg (fun n => ({ s.live s.fram.upPort with lockLost := n } : PortLive)) (satInc_lt hfew).1))
    · exact (congrArg (fun d : Dl => if otherPort s.fram.upPort = .A then d.liveA else d.liveB)
        (State.dslEvent_keeps s.lossCounted ..).eqDl).trans hlive.2
    · exact State.logEv_ev _ _ hkeeps.eqEv (congrArg Aon.tv hkeeps.eqAon) (congrArg Aon.rtc hkeeps.eqAon) hroom
    · exact (dslEvent_irq ..).trans (congrArg (· ||| 0x0800#16) hkeeps.eqIrq)
  case heard =>
    intro s f hrobust hfew hleaf
    rw [State.heard_robust hrobust hfew hleaf]
    obtain ⟨_, hqueue, hsqueue, hidxA, hidxB, _⟩ := setLive_same (s.learnIdx f.port f.frame.src f.txidx) f.port (frameStamp f)
    have hlive := (setLive_live (s.learnIdx f.port f.frame.src f.txidx) f.port (frameStamp f)).1
    refine ⟨((State.setLive_keeps ..).after (State.learnIdx_keeps s f.port f.frame.src f.txidx)).left, ?_, ?_, ?_, ?_⟩
    · refine Eq.trans ?_ (s.learnIdx_idxOf f.port f.frame.src f.txidx)
      unfold State.idxOf
      rw [hidxA, hidxB]
    · rw [hlive, State.learnIdx_live, frameStamp, (satInc_lt hfew).1]; rfl
    · rw [hqueue]; cases f.port <;> rfl
    · rw [hsqueue]; cases f.port <;> rfl
  case plain =>
    intro s p q hmay hnext htype hstamped
    rw [exec_dmtFrameStart hmay, State.frameGo_stamped ((s.lineClear_nextFrame p p).trans hnext) ((s.lineClear_unstamped p q).trans hstamped),
      State.startFrame_plain ((s.lineClear_nextFrame p p).trans hnext) htype]
    cases p <;> rfl
  case time =>
    intro s p q hmay hnext htype hrequest
    have hclear := (s.lineClear_nextFrame p p).trans hnext
    have hother : (s.lineClear p).unstamped q = false := by unfold State.unstamped State.ownAntiphon; rw [htype]; rfl
    have hstamp : (s.lineClear p).stampTime q.frame =
        ({ q.frame with payload := timeBytes s.ck.lsec s.ck.lcyc },
          (s.lineClear p).timeAsked) := by
      unfold State.stampTime
      rw [if_neg (fun h => h htype), if_neg (by rw [hrequest]; decide)]
      cases p <;> rfl
    refine ⟨_, (exec_dmtFrameStart hmay).trans (congrArg _ (State.frameGo_stamped hclear hother)), ?_, ?_, ?_, ?_⟩
    all_goals rw [State.startFrame_eq hclear, hstamp]
    · have hasked : Keeps [.dl, .dn, .pw] s (s.lineClear p).timeAsked :=
        (State.timeAsked_keeps _).after (State.lineClear_keeps s p).mono (by rfl)
      exact ((State.onLineNow_keeps ..).after hasked (by rfl)).left
    · cases p <;> rfl
    · rfl
    · cases p <;> rfl
  case pair =>
    intro s p q hmay hnext hpair hlast
    have hclear := (s.lineClear_nextFrame p p).trans hnext
    have hfram : (s.lineClear p).fram = s.fram := by cases p <;> rfl
    refine ⟨_, (exec_dmtFrameStart hmay).trans (congrArg _ (State.frameGo_unstamped hclear ((s.lineClear_unstamped p q).trans hpair)
      (hfram ▸ hlast))), ?_, ?_, ?_⟩
    · have hstamp : Keeps [.fram, .an, .dl, .pw] s ((s.lineClear p).anStamp q) :=
        (State.anStamp_keeps ..).after (State.lineClear_keeps s p).mono (by rfl)
      exact ((State.onLineNow_keeps ..).after hstamp (by rfl)).left
    · cases p <;> rfl
    · cases p <;> rfl
  case relay =>
    intro s u f hlisten hrun hrobust hu hrelay hother
    subst hu
    refine (exec_frameRelay hlisten hrun hrobust hrelay).trans (congrArg Host.Outcome.next ?_)
    have hquiet : (s.sourceNoted f).bringsDown f = false := by
      unfold State.bringsDown
      rcases hother with htype | hflag
      · rw [(beq_eq_false_iff_ne.2 htype : (f.frame.type == 0x05#8) = false)]; rfl
      · rw [hflag, Bool.and_false]; rfl
    have hsame : (s.sourceNoted f).downNoted f = s.sourceNoted f := by unfold State.downNoted; rw [hquiet]; rfl
    rw [hsame]
    rfl
  case joinReply =>
    intro s u f hlisten hrun hrobust hu hrelay htype hflag
    subst hu
    obtain ⟨hdl, hkeeps⟩ := (s.sourceNoted f).downNoted_queueOn f
    refine ⟨_, exec_frameRelay hlisten hrun hrobust hrelay, hkeeps.left, congrArg Dl.queue hdl, fun hbridge hup => ?_⟩
    refine State.downNoted_contains (s := s.sourceNoted f) ?_
    unfold State.bringsDown
    simp only [Bool.and_eq_true, beq_iff_eq]
    exact ⟨⟨⟨htype, hflag⟩, hup⟩, hbridge⟩
  case mask =>
    intro s hi lo a hok hbus hlatch harm hnvr hrows hptr hmask hmany
    have hbuf : s.hb.ok := hok.2.2.1
    have hnv := State.nvWrite_roomKeeps (s := s.unlatched) hnvr hrows 0x50 a (Config.key 4 a) (wordOf hi lo &&& 0x1F1F#16)
    have hstored := State.nvWrite_stored hbuf hnvr hrows (x := s.unlatched) rfl rfl 0x50 a (Config.key 4 a) (wordOf hi lo &&& 0x1F1F#16)
    have hkeeps : Keeps [.hb] s (s.unlatched.nvWrite 0x50 a (Config.key 4 a) (wordOf hi lo &&& 0x1F1F#16)) :=
      hnv.after s.unlatched_keeps
    have hexec := (exec_maskWrite hbus hlatch harm hnvr hrows hptr hmask).trans (congrArg _ (State.maskWrite_taken hmany))
    by_cases hsame : (s.nvPut (Config.key 4 a) (wordOf hi lo &&& 0x1F1F#16)).usable (dsPortOf a) = s.usable (dsPortOf a)
    · refine ⟨_, hexec.trans (congrArg _ (if_pos hsame)), hkeeps.mono.left, hstored, ?_⟩
      rw [if_pos hsame, hkeeps.eqFramAll]
    · have hdrop := State.dropTables_keeps (s.unlatched.nvWrite 0x50 a (Config.key 4 a) (wordOf hi lo &&& 0x1F1F#16)) (dsPortOf a)
      refine ⟨_, hexec.trans (congrArg _ (if_neg hsame)), (hdrop.after hkeeps.mono (by rfl)).left, State.wordStored_after hstored hdrop, ?_⟩
      rw [if_neg hsame, ← hkeeps.eqFramAll]
      rfl
  case refused =>
    intro s hi lo a hbus hlatch harm hnvr hrows hptr hmask hroom hfew
    refine (exec_maskWrite hbus hlatch harm hnvr hrows hptr hmask).trans (congrArg _ ((State.maskWrite_refused (s := s.unlatched) hfew).trans ?_))
    rw [State.dslClamp, State.dslEvent_room s.unlatched _ _ hroom, evData_two]
    rfl

end Sys2Proof.Machine
end

section
/-! PROOF. Training, tables and retraining on the line (R350 to R352). -/

/- Proofs are elaborated one after the other: in parallel they outrun the kernel's checks of the text before them, and each that waits
holds a thread's memory. -/
set_option Elab.async false

open Sys2Proof

namespace Sys2Proof.Machine

/-! ## A search frame's level (R359) -/

theorem State.sameBut_trans {L : List Part} {s t u : State} (h : State.sameBut L s t) (k : State.sameBut L t u) : State.sameBut L s u :=
  ⟨k.1.trans h.1, fun p hp => Part.same_trans (h.2 p hp) (k.2 p hp)⟩

/-- The level latched is no part of what the node is. -/
theorem State.latchRssi_ownIdx (s : State) (r : RxSearch) (p : Port) : (s.latchRssi r).ownIdx p = s.ownIdx p := by
  obtain ⟨a, b, h⟩ := latchRssi_cases s r
  rw [h]
  rfl

theorem State.latchRssi_dl (s : State) (r : RxSearch) :
    (s.latchRssi r).dl.training = s.dl.training ∧ (s.latchRssi r).dl.squeue = s.dl.squeue ∧ (s.latchRssi r).dl.rxPend = s.dl.rxPend := by
  obtain ⟨a, b, h⟩ := latchRssi_cases s r
  rw [h]
  exact ⟨rfl, rfl, rfl⟩

/-- A search frame taken is an effect on the state with its level. -/
theorem State.takeSearch_next {s : State} {r : RxSearch} {effect : State → State} (hlisten : s.listens r.port) :
    (Host.Outcome.next (s.takeSearch r effect) : Host.Outcome State Fault Refusal) = .next (effect (s.latchRssi r)) :=
  congrArg Host.Outcome.next (takeSearch_on s r hlisten effect)

/-! ## Training symbols measured (R348, R350) -/

/-- The generation of the table that a training gives: one above the valid one. -/
def State.nextGen (s : State) (p : Port) (peer : BitVec 6) : Nat :=
  match s.genOf true p peer.toNat with | some g => (g + 1) % 16 | none => 1

/-- The bits of carriers 16 to 79 that measured levels give. -/
def State.measuredBits (s : State) (p : Port) (snr : List Byte) : List Nat :=
  (List.range 64).map (fun i => if i % 16 = 8 || s.notched p (16 + i) then 0 else s.loadBits p ((spread 0#8 snr).getD i 0).toNat)

/-- The training's measure noted: the pending table, the noise, and what the registers show of the levels. -/
def State.measured (s : State) (p : Port) (peer : BitVec 6) (snr : List Byte) : State :=
  { s with dl := { s.dl with
      rxTrain := none,
      trainNoise := (p, peer, s.noiseBytes p) :: s.dl.trainNoise.filter (fun r => !(r.1 == p && r.2.1 == peer)),
      rxPend := (p, peer, s.nextGen p peer, s.measuredBits p snr) :: s.dl.rxPend.filter (fun r => !(r.1 == p && r.2.1 == peer)),
      snrA := if p = .A then spread 0#8 snr else s.dl.snrA, peerA := if p = .A then peer else s.dl.peerA,
      snrB := if p = .A then s.dl.snrB else spread 0#8 snr, peerB := if p = .A then s.dl.peerB else peer } }

theorem State.measured_keeps (s : State) (p : Port) (peer : BitVec 6) (snr : List Byte) : Keeps [.dl] s (s.measured p peer snr) :=
  Keeps.upd (Keeps.refl _ s)

theorem State.trainingEnd_measured {s : State} {p : Port} {peer : BitVec 6} {n : Nat} (htrain : s.dl.rxTrain = some (p, peer, n))
    (snr : List Byte) :
    s.trainingEnd p snr = (s.measured p peer snr).sendSearch p 0x41
      ([byteOfIdx peer, byteOfIdx (s.ownIdx p), BitVec.ofNat 8 (s.nextGen p peer), BitVec.ofNat 8 (s.margin p)] ++
        tableBytes (s.measuredBits p snr)) := by
  unfold State.trainingEnd
  rw [htrain]
  refine (if_neg (fun h => h rfl)).trans ?_
  cases p <;> rfl

/-! ## Tables (R349, R350) -/

theorem storeTable_genOf (s : State) (rx : Bool) (p : Port) (slot gen : Nat) (bits : List Nat) :
    (s.storeTable rx p slot gen bits).genOf rx p slot = some gen := setGen_genOf _ _ _ _ _

/-- A carrier of a TABLE has at most 15 bits. -/
theorem tableOfBytes_lt (bytes : List Byte) (i : Nat) : (tableOfBytes bytes).getD i 0 % 16 = (tableOfBytes bytes).getD i 0 := by
  refine Nat.mod_eq_of_lt ?_
  rw [List.getD_eq_getElem?_getD]
  cases hbit : (tableOfBytes bytes)[i]? with
  | none => decide
  | some n =>
    have hmem := List.mem_of_getElem? hbit
    simp only [tableOfBytes, List.mem_flatten, List.mem_map] at hmem
    obtain ⟨_, ⟨b, -, rfl⟩, hn⟩ := hmem
    simp only [List.mem_cons, List.not_mem_nil, or_false] at hn
    obtain rfl | rfl := hn
    · exact BitVec.isLt _
    · exact BitVec.isLt _

/-- The training toward a peer has heard the generation of its table. -/
def tableHeard (p : Port) (peer : BitVec 6) (gen : Nat) (x : Training) : Training :=
  if x.port == p && x.peer == peer then { x with gen := some gen } else x

/-- Every training toward the peer notes the generation of the table heard. -/
def State.tableNoted (s : State) (p : Port) (peer : BitVec 6) (gen : Nat) : State :=
  { s with dl := { s.dl with training := s.dl.training.map (tableHeard p peer gen) } }

theorem State.tableNoted_keeps (s : State) (p : Port) (peer : BitVec 6) (gen : Nat) : Keeps [.dl] s (s.tableNoted p peer gen) :=
  Keeps.upd (Keeps.refl _ s)

theorem State.tableNoted_dl (s : State) (p : Port) (peer : BitVec 6) (gen : Nat) :
    (s.tableNoted p peer gen).dl = { s.dl with training := s.dl.training.map (tableHeard p peer gen) } := rfl

/-- The table stored, and its generation with the training. -/
def State.tableTaken (s : State) (p : Port) (peer : BitVec 6) (gen : Nat) (bits : List Nat) : State :=
  (s.storeTable false p peer.toNat gen bits).tableNoted p peer gen

theorem State.rxTable_taken {s : State} {r : RxSearch} (hme : idxByte (payAt r.payload 0) = s.ownIdx r.port)
    (htrains : s.dl.training.any (fun t => t.port == r.port && t.peer == idxByte (payAt r.payload 1)) = true) :
    s.rxTable r = (s.tableTaken r.port (idxByte (payAt r.payload 1)) ((payAt r.payload 2).toNat % 16)
      (tableOfBytes (slice r.payload 4 32))).sendSearch r.port 0x42
        [byteOfIdx (idxByte (payAt r.payload 1)), byteOfIdx (s.ownIdx r.port), payAt r.payload 2] :=
  if_pos (by rw [htrains, Bool.and_true, decide_eq_true_eq]; exact hme)

theorem State.tableTaken_keeps (s : State) (p : Port) (peer : BitVec 6) (gen : Nat) (bits : List Nat) :
    Keeps [.nv, .fram, .dl, .hb] s (s.tableTaken p peer gen bits) :=
  (State.tableNoted_keeps ..).after ((State.storeTable_keeps s false p peer.toNat gen bits).mono) (by rfl)

/-- What the taken table leaves in FRAM, in the host bus and in the training. -/
theorem State.tableTaken_spec (s : State) (hok : s.fram.ok) (p : Port) (peer : BitVec 6) (gen : Nat) (bits : List Nat) :
    s.hostKept (s.tableTaken p peer gen bits) ∧ (s.tableTaken p peer gen bits).genOf false p peer.toNat = some gen ∧
      (∀ k, 16 ≤ k → k < 80 → (s.tableTaken p peer gen bits).tableBits false p peer.toNat k = bits.getD (k - 16) 0 % 16 ∧
        (s.tableTaken p peer gen bits).tableBits true p peer.toNat k = s.tableBits true p peer.toNat k) ∧
      (∀ k, (k < Config.key 4 (slotBase p peer.toNat) ∨ Config.key 4 (slotBase p peer.toNat + 31) < k) →
        (s.tableTaken p peer gen bits).nv k = s.nv k) ∧
      (s.tableTaken p peer gen bits).dl.training = s.dl.training.map (tableHeard p peer gen) ∧
      (s.tableTaken p peer gen bits).dl.squeue = s.dl.squeue := by
  have hnoted := (s.storeTable false p peer.toNat gen bits).tableNoted_keeps p peer gen
  have hdl : (s.tableTaken p peer gen bits).dl = { s.dl with training := s.dl.training.map (tableHeard p peer gen) } :=
    (State.tableNoted_dl ..).trans (congrArg (fun d : Dl => { d with training := d.training.map (tableHeard p peer gen) })
      (State.storeTable_keeps s false p peer.toNat gen bits).eqDl)
  have hsame (k : Nat) : (s.tableTaken p peer gen bits).nv k = (s.storeTable false p peer.toNat gen bits).nv k :=
    State.nv_congr hnoted.rows hnoted.eqNv k
  refine ⟨State.hostKept_trans (storeTable_hostKept ..) hnoted.hostKept,
    (genOf_congr _ _ (congrArg Fram.gens hnoted.eqFramAll) ..).trans (storeTable_genOf s false p peer.toNat gen bits), fun k hlow hhigh => ?_,
    fun k hk => (hsame k).trans (storeTable_nv s hok false p peer.toNat gen bits k hk), (congrArg Dl.training hdl :), (congrArg Dl.squeue hdl :)⟩
  obtain ⟨hnew, hold⟩ := storeTable_bits s hok false p peer.toNat gen bits k hlow hhigh
  exact ⟨(tableBits_congr hsame ..).trans hnew, (tableBits_congr hsame ..).trans hold⟩

/-! ## The end of a training (R350) -/

theorem State.trainDone_only {s : State} {p : Port} {peer : BitVec 6} {x : Training} {g : Nat} (htraining : s.dl.training = [x])
    (hport : x.port = p) (hpeer : x.peer = peer) (hgen : x.gen = some g) :
    s.trainDone p peer = State.dslEvent
      { s with dl := { s.dl with training := [], failed := s.dl.failed.erase (p, peer), robust := s.dl.robust.erase (p, peer) } } 0x0B03
      (evData [(Port.code p, 0), (peer.toNat, 8), (s.tableB false p peer.toNat, 16), (g, 32)]) := by
  have hfind : s.dl.training.find? (fun t => t.port == p && t.peer == peer && t.gen.isSome) = some x := by
    rw [htraining]
    simp [hport, hpeer, hgen]
  unfold State.trainDone
  rw [hfind]
  dsimp only
  rw [htraining, hgen, List.erase_cons_head]
  rfl

/-! ## Retraining (R352) -/

/-- What answering the trigger's condition leaves. -/
theorem State.retrainTaken_dl (s : State) (p : Port) (peer : BitVec 6) (cause : Nat) :
    (s.retrainTaken p peer cause).dl.retrainAt = s.dl.retrainAt ∧ (s.retrainTaken p peer cause).dl.squeue = s.dl.squeue ∧
      (s.retrainTaken p peer cause).dl.robust = s.dl.robust ∧ (s.retrainTaken p peer cause).live p = s.live p ∧
      (s.retrainTaken p peer cause).ownIdx p = s.ownIdx p := by
  unfold State.retrainTaken
  split
  · exact ⟨rfl, rfl, rfl, rfl, rfl⟩
  · split <;> exact ⟨rfl, rfl, rfl, rfl, rfl⟩

theorem State.failsOf_congr {s t : State} (hfails : t.dl.fails = s.dl.fails) (p : Port) (peer : BitVec 6) : t.failsOf p peer = s.failsOf p peer := by
  unfold State.failsOf
  rw [hfails]

/-- Answered failures are none. -/
theorem State.setFails_zero (s : State) (p : Port) (peer : BitVec 6) : (s.setFails p peer 0).failsOf p peer = 0 := by
  have hnone : (s.dl.fails.filter (fun x => !(x.1 == p && x.2.1 == peer))).find? (fun x => x.1 == p && x.2.1 == peer) = none := by
    rw [List.find?_eq_none]
    intro x hx
    exact Bool.eq_false_iff.1 (by simpa only [Bool.not_eq_true'] using (List.mem_filter.1 hx).2)
  exact congrArg (fun o : Option (Port × BitVec 6 × Nat) => (o.map (fun x => x.2.2)).getD 0) hnone

theorem State.retrainTrigger_fails (s : State) (p : Port) (peer : BitVec 6) (cause : Nat) :
    (s.retrainTrigger p peer cause).dl.fails = s.dl.fails := by
  unfold State.retrainTrigger
  split
  · rfl
  · dsimp only
    rw [(State.dslEvent_keeps ..).eqDl]
    refine (congrArg Dl.fails (State.pinned_keeps ..).eqDl).trans ?_
    cases p <;> rfl

/-! ## What the node is (R13, R19, R20) -/

theorem running_congr {s t : State} (hpw : t.pw = s.pw) (hts : t.hb.frzTs = s.hb.frzTs) (htest : t.hb.frzTest = s.hb.frzTest) :
    t.running = s.running := by
  unfold State.running
  rw [hpw, hts, htest]

/-- Port A is in service whatever PBEN says. -/
theorem portUsed_A_congr {s t : State} (hpins : t.pins = s.pins) (hfram : t.fram = s.fram) (hdn : t.dn = s.dn) :
    t.portUsed .A = s.portUsed .A := by
  unfold State.portUsed State.portOn
  rw [hpins, hfram, hdn]
  rfl

theorem peersOf_congr {s t : State} (hfram : t.fram = s.fram) (p : Port) : t.peersOf p = s.peersOf p := by
  unfold State.peersOf
  rw [hfram]

theorem isHead_congr {s t : State} (hpins : t.pins = s.pins) (hjoined : t.fram.joined = s.fram.joined) (hdn : t.dn = s.dn) :
    t.isHead = s.isHead := by
  unfold State.isHead
  rw [hpins, hjoined, hdn]

theorem pben_congr {s t : State} (hrows : t.hb.rows = s.hb.rows) (hnv : t.fram.nv = s.fram.nv) : t.pben = s.pben :=
  congrArg (bitAt · 0) (State.nv_congr hrows hnv _)

theorem isBridge_congr {s t : State} (hpins : t.pins = s.pins) (hfram : t.fram = s.fram) (hdn : t.dn = s.dn)
    (hrows : t.hb.rows = s.hb.rows) : t.isBridge = s.isBridge := by
  unfold State.isBridge State.lineRole
  rw [isHead_congr hpins (congrArg Fram.joined hfram) hdn, hpins, pben_congr hrows (congrArg Fram.nv hfram), hfram]

theorem ownIdx_congr {s t : State} (hpins : t.pins = s.pins) (hfram : t.fram = s.fram) (hdn : t.dn = s.dn)
    (hrows : t.hb.rows = s.hb.rows) (p : Port) : t.ownIdx p = s.ownIdx p := by
  unfold State.ownIdx State.agentOn State.portOn
  rw [isHead_congr hpins (congrArg Fram.joined hfram) hdn, isBridge_congr hpins hfram hdn hrows, pben_congr hrows (congrArg Fram.nv hfram), hfram]

/-- RTRN with one peer on port A and none on port B is one trigger of cause 5. -/
theorem State.retrainEvery_one {s : State} {i : BitVec 6} (hA : s.peersOf .A = [i]) (hB : s.peersOf .B = []) (hused : s.portUsed .A = true)
    (hfram : (s.retrainTrigger .A i 5).fram = s.fram) : s.retrainEvery = s.retrainTrigger .A i 5 := by
  have hB' : (s.retrainTrigger .A i 5).peersOf .B = [] := by
    unfold State.peersOf at hB ⊢
    rw [hfram]
    exact hB
  have hone : s.retrainEvery = if (s.retrainTrigger .A i 5).portUsed .B
      then ((s.retrainTrigger .A i 5).peersOf .B).foldl (fun u j => u.retrainTrigger .B j 5) (s.retrainTrigger .A i 5)
      else s.retrainTrigger .A i 5 := by
    unfold State.retrainEvery
    simp only [hused, hA, if_true, List.foldl_cons, List.foldl_nil]
  rw [hone, hB']
  exact ite_self _

theorem State.dsActions_retrain {s : State} {v : Word} (hrun : s.running = true) (h1 : bitAt v 1 = true) (h8 : bitAt v 8 = false)
    (h10 : bitAt v 10 = false) : s.dsActions v = s.retrainEvery := by
  unfold State.dsActions
  simp [h1, h8, h10, hrun]

/-- DS_CTL.TXOFF as written. -/
def State.txSet (s : State) (off : Bool) : State := { s with dl := { s.dl with txoff := off } }

theorem State.txSet_keeps (s : State) (off : Bool) : Keeps [.dl] s (s.txSet off) := Keeps.upd (Keeps.refl _ s)

/-! ## A write of DS_CTL (R98, R218) -/

/-- PBEN set: what DS_CTL's word asks for is done in RUN and DRAIN, and held before. -/
theorem State.writeDsCtl_pben {s u : State} {v : Word} (hu : s.nvField 0x46 0x0201 v = u) (hpben : u.pben = true) :
    s.writeDsCtl v = if u.runOrDrain then (u.txSet (bitAt v 2)).dsActions v
      else { u.txSet (bitAt v 2) with dl := { (u.txSet (bitAt v 2)).dl with heldCtl := u.dl.heldCtl ||| (v &&& 0x0502#16) } } := by
  have hoff : (u.txSet (bitAt v 2)).pbenOff = u.txSet (bitAt v 2) := if_pos hpben
  have hsteps : s.writeDsCtl v = if (State.txSet (s.nvField 0x46 0x0201 v) (bitAt v 2)).pbenOff.runOrDrain
      then (State.txSet (s.nvField 0x46 0x0201 v) (bitAt v 2)).pbenOff.dsActions v
      else { (State.txSet (s.nvField 0x46 0x0201 v) (bitAt v 2)).pbenOff with
        dl := { (State.txSet (s.nvField 0x46 0x0201 v) (bitAt v 2)).pbenOff.dl with
          heldCtl := (State.txSet (s.nvField 0x46 0x0201 v) (bitAt v 2)).pbenOff.dl.heldCtl ||| (v &&& 0x0502#16) } } := rfl
  rw [hsteps, hu, hoff]
  rfl

/-- The host's word for DS_CTL with PBEN set, the row buffer with room: the word is stored and TXOFF taken, then its actions follow. -/
theorem State.dsCtl_written {s : State} {v : Word} (hbuf : s.hb.ok) (hnvr : s.hb.nvr = true) (hrows : s.hb.rows.length < 2)
    (h0 : bitAt v 0 = true) :
    ∃ w, Keeps [.dl, .hb] s w ∧ s.wordStored w (Config.key 0 0x46) (merge 0x0201 (s.nvReg 0x46) v) ∧
      w.dl = { s.dl with txoff := bitAt v 2 } ∧
      s.unlatched.writeReg .host false 0x46 v = if s.runOrDrain then w.dsActions v
        else { w with dl := { w.dl with heldCtl := s.dl.heldCtl ||| (v &&& 0x0502#16) } } := by
  have hstored := State.nvWrite_stored hbuf hnvr hrows (x := s.unlatched) rfl rfl 0x46 0 (Config.key 0 0x46) (merge 0x0201 (s.nvReg 0x46) v)
  have hnv := State.nvWrite_roomKeeps (s := s.unlatched) hnvr hrows 0x46 0 (Config.key 0 0x46) (merge 0x0201 (s.nvReg 0x46) v)
  have hfield : s.unlatched.nvField 0x46 0x0201 v = s.unlatched.nvWrite 0x46 0 (Config.key 0 0x46) (merge 0x0201 (s.nvReg 0x46) v) := rfl
  generalize s.unlatched.nvWrite 0x46 0 (Config.key 0 0x46) (merge 0x0201 (s.nvReg 0x46) v) = u at *
  have hu : Keeps [.hb] s u := hnv.after s.unlatched_keeps
  have hctl : u.nvReg 0x46 = merge 0x0201 (s.nvReg 0x46) v := (hstored.2 _).trans (if_pos rfl)
  have hpben : u.pben = true := by unfold State.pben; rw [hctl, bitAt_merge_new (by decide)]; exact h0
  have hrun : u.runOrDrain = s.runOrDrain :=
    runOrDrain_congr hu.eqPw (congrArg Hb.frzTs hstored.1 :) (congrArg Hb.frzTest hstored.1 :)
  have hwrite : s.unlatched.writeReg .host false 0x46 v = _ := State.writeDsCtl_pben hfield hpben
  rw [hrun, hu.eqDl] at hwrite
  exact ⟨_, (u.txSet_keeps _).after hu.mono (by rfl), State.wordStored_after hstored (u.txSet_keeps _),
    congrArg (fun d : Dl => { d with txoff := bitAt v 2 }) hu.eqDl, hwrite⟩

/-- Settles O54: TRAIN and its repeats from `sendTrain`, the tables from `storeTable` and `commitRx_spec`, the triggers from
`retrainTrigger_fresh`. -/
theorem lineTraining : Obligations.LineTraining := by
  unfold Obligations.LineTraining
  refine ⟨?start, ?train, ?measure, ?table, ?done, ?ack, ?again, ?failed, ?retry, ?retrain, ?trigger, ?soon, ?all⟩
  case start =>
    intro s p peer hmay hdue
    exact State.when_next s (by rw [hmay, hdue]; rfl) rfl
  case train =>
    intro s r hlisten hme
    exact (State.takeSearch_next hlisten).trans (congrArg _ (if_pos (hme.trans (s.latchRssi_ownIdx r r.port).symm)))
  case measure =>
    intro s p snr peer n hrx htrain
    refine ⟨_, _, _, State.when_next s hrx (State.trainingEnd_measured htrain snr), ?_, rfl, rfl, rfl, rfl, rfl⟩
    exact ((State.sendSearch_keeps ..).next (s.measured_keeps p peer snr)).left
  case table =>
    intro s r peer gen hinv hlisten hme hpeer hgen htrains
    subst hpeer hgen
    obtain ⟨hfram, -⟩ := hinv
    obtain ⟨htraining, hsqueue, -⟩ := s.latchRssi_dl r
    have hlatch := State.latchRssi_keeps s r
    have hidx := s.latchRssi_ownIdx r r.port
    have hexec := (State.takeSearch_next (effect := fun t => t.rxTable r) hlisten).trans (congrArg _
      (State.rxTable_taken (s := s.latchRssi r) (hme.trans hidx.symm) (htraining ▸ htrains)))
    have htaken := (s.latchRssi r).tableTaken_keeps r.port (idxByte (payAt r.payload 1)) ((payAt r.payload 2).toNat % 16)
      (tableOfBytes (slice r.payload 4 32))
    have hok : (s.latchRssi r).fram.ok := hlatch.eqFramAll.symm ▸ hfram
    have hnv (k : Nat) : (s.latchRssi r).nv k = s.nv k := State.nv_congr hlatch.rows hlatch.eqNv k
    obtain ⟨hkept, hgen, hbits, hrest, htraining', hsqueue'⟩ := (s.latchRssi r).tableTaken_spec hok r.port (idxByte (payAt r.payload 1))
      ((payAt r.payload 2).toNat % 16) (tableOfBytes (slice r.payload 4 32))
    rw [hidx] at hexec
    have hsent := State.sendSearch_keeps ((s.latchRssi r).tableTaken r.port (idxByte (payAt r.payload 1)) ((payAt r.payload 2).toNat % 16)
      (tableOfBytes (slice r.payload 4 32))) r.port 0x42
      [byteOfIdx (idxByte (payAt r.payload 1)), byteOfIdx (s.ownIdx r.port), payAt r.payload 2]
    have hnv' (k : Nat) := State.nv_congr hsent.rows hsent.eqNv k
    refine ⟨_, hexec, (hsent.after (htaken.next hlatch.mono) (by rfl)).left,
      State.hostKept_trans (State.hostKept_trans hlatch.hostKept hkept) hsent.hostKept,
      (genOf_congr _ _ (congrArg Fram.gens hsent.eqFramAll) ..).trans hgen, fun k hlow hhigh => ?_,
      fun k hk => (hnv' k).trans ((hrest k hk).trans (hnv k)), htraining'.trans (congrArg _ htraining),
      congrArg (· ++ [_]) (hsqueue'.trans hsqueue)⟩
    obtain ⟨hnew, hold⟩ := hbits k hlow hhigh
    exact ⟨(tableBits_congr hnv' ..).trans (hnew.trans (tableOfBytes_lt ..)),
      (tableBits_congr hnv' ..).trans (hold.trans (tableBits_congr hnv ..))⟩
  case done =>
    intro s f x g hkind htraining hport hpeer hgen hroom
    have hsent : s.searchSent f = _ := (if_neg (by rw [hkind]; decide)).trans ((if_pos hkind).trans
      (State.trainDone_only (s := { s with dl := { s.dl with searchOn := none } }) htraining hport hpeer hgen))
    rw [State.dslEvent_room _ _ _ (by exact hroom)] at hsent
    rw [hport, hpeer]
    refine ⟨_, hsent, ?_, rfl, rfl, rfl, rfl⟩
    exact (Keeps.upd (Keeps.refl _ s) (i_ev := fun _ => show (s.ev.buf ++ [_]).length ≤ 32 from List.length_append.le.trans hroom) :
      Keeps [.dl, .ev, .irq] s _).left
  case ack =>
    intro s r peer gen bits rest hinv hlisten hme hpeer hgen hpend
    subst hpeer hgen
    obtain ⟨hfram, -⟩ := hinv
    obtain ⟨-, -, hrxPend⟩ := s.latchRssi_dl r
    have hlatch := State.latchRssi_keeps s r
    have hok : (s.latchRssi r).fram.ok := hlatch.eqFramAll.symm ▸ hfram
    have hpend' := hrxPend.trans hpend
    have hnv (k : Nat) : (s.latchRssi r).nv k = s.nv k := State.nv_congr hlatch.rows hlatch.eqNv k
    obtain ⟨hsame, hgenOf, hleft, hirq, hbits, hrest⟩ := commitRx_spec (s.latchRssi r) hok _ _ _ _ _ hpend'
    have hnamed : (s.latchRssi r).dl.rxPend.any (fun x =>
        x.1 == r.port && x.2.1 == idxByte (payAt r.payload 1) && x.2.2.1 == (payAt r.payload 2).toNat % 16) = true := by
      rw [hpend']
      simp
    have hexec := (State.takeSearch_next (effect := fun t => t.rxTableAck r) hlisten).trans (congrArg _ (if_pos (by
      rw [Bool.and_eq_true, decide_eq_true_eq]
      exact ⟨hme.trans (s.latchRssi_ownIdx r r.port).symm, hnamed⟩)))
    refine ⟨_, hexec, ?_, State.hostKept_trans hlatch.hostKept (commitRx_hostKept _ _ _ _ _ hpend'), hgenOf, ?_,
      fun k hk => (hrest k hk).trans (hnv k), hleft, hirq.trans (congrArg (· ||| 0x0800#16) hlatch.eqIrq)⟩
    · exact State.sameBut_trans hlatch.mono.left hsame
    · intro k hlow hhigh
      obtain ⟨hnew, hold⟩ := hbits k hlow hhigh
      exact ⟨hnew, hold.trans (tableBits_congr hnv ..)⟩
  case again =>
    intro s t0 rest hrun htraining hgen hsent
    have hfind : s.dl.training.find? (fun t => t.gen.isNone) = some t0 := by rw [htraining]; simp [hgen]
    have hagain : s.trainTimeout = s.sendTrain t0.port t0.peer (t0.sent + 1) := by
      unfold State.trainTimeout
      rw [hfind]
      exact if_pos hsent
    refine ⟨_, State.when_next s hrun hagain, (State.sendTrain_keeps ..).left, ?_, rfl⟩
    obtain ⟨port, peer, sent, gen⟩ := t0
    obtain rfl : gen = none := hgen
    rw [← htraining]
    rfl
  case failed =>
    intro s t0 rest hrun htraining hgen hsent hroom
    have hfind : s.dl.training.find? (fun t => t.gen.isNone) = some t0 := by rw [htraining]; simp [hgen]
    refine State.when_next s hrun ?_
    unfold State.trainTimeout
    rw [hfind]
    refine (if_neg (by omega)).trans ?_
    rw [htraining, List.erase_cons_head]
    refine (State.dslEvent_room { s with dl := { s.dl with training := rest, failed := (t0.port, t0.peer) :: s.dl.failed } } _ _ hroom).trans ?_
    rw [evData_two]
    rfl
  case retry =>
    intro s p peer hfailed hmay
    exact State.when_next s (by rw [hfailed, hmay]; rfl) rfl
  case retrain =>
    intro s r peer hlisten hme hpeer hmay
    subst hpeer
    obtain ⟨a, b, hlatch⟩ := latchRssi_cases s r
    have hexec := State.takeSearch_next (effect := fun t => t.rxRetrain r) hlisten
    rw [hlatch] at hexec
    refine ⟨_, hexec.trans (congrArg _ ((if_pos hme).trans (if_pos hmay))), ?_, rfl, rfl⟩
    exact (Keeps.upd (Keeps.refl _ s) : Keeps [.dl] s _).left
  case trigger =>
    intro s p peer cause snr hrx hsystem hdue hseldom hfew hroom
    obtain ⟨hat, hsqueue, -, hlive, hidx⟩ := s.retrainTaken_dl p peer cause.toNat
    have htaken := State.retrainTaken_keeps s p peer cause.toNat
    obtain ⟨hsame, hrtrq, hcount, hsent, hev, hirq, -⟩ := State.retrainTrigger_fresh (s.retrainTaken p peer cause.toNat) p peer cause.toNat
      (by rw [hat]; unfold State.within at hseldom ⊢; rw [htaken.eqPw]; exact hseldom) (by rw [hlive]; exact hfew) (by rw [htaken.eqEv]; exact hroom)
    refine ⟨_, State.when_next s (by rw [hrx, hsystem, hdue]; rfl) rfl, ?_, hrtrq, ?_, hcount.trans (by rw [hlive]), ?_, ?_, ?_⟩
    · exact State.sameBut_trans htaken.mono.left hsame
    · intro hcause
      subst hcause
      exact (State.failsOf_congr (State.retrainTrigger_fails (s.setFails p peer 0) p peer 1) p peer).trans (s.setFails_zero p peer)
    · rw [hsent, hsqueue, hidx]
    · rw [hev, htaken.eqEv, eventOf_congr htaken]
    · rw [hirq, htaken.eqIrq]
  case soon =>
    intro s p peer cause snr hrx hsystem hdue hsoon
    obtain ⟨hat, hsqueue, hrobust, -⟩ := s.retrainTaken_dl p peer cause.toNat
    have htaken := State.retrainTaken_keeps s p peer cause.toNat
    refine ⟨_, State.when_next s (by rw [hrx, hsystem, hdue]; rfl) (if_pos
      (by rw [hat]; unfold State.within at hsoon ⊢; rw [htaken.eqPw]; exact hsoon)), ?_, ?_, hsqueue, hat⟩
    · exact (Keeps.upd htaken : Keeps [.dl] s _).left
    · rw [← hrobust]
  case all =>
    intro s hi lo i hinv hbus hlatch harm hnvr hrows hrun h0 h1 h8 h10 hA hB hused hat hfew hroom
    obtain ⟨-, -, hbuf, -⟩ := hinv
    have hexec := hostCommit_row s (.retrainAll hi) 0x46 0x46 hi lo rfl hbus hlatch rfl (by decide) harm
    obtain ⟨w, hw, hstored, hdl, hwrite⟩ := State.dsCtl_written hbuf hnvr hrows h0
    rw [if_pos (running_runOrDrain hrun)] at hwrite
    have hrun' : w.running = true :=
      (running_congr hw.eqPw (congrArg Hb.frzTs hstored.1 :) (congrArg Hb.frzTest hstored.1 :)).trans hrun
    obtain ⟨hsame, hrtrq, -, hsent, hev, -, hfram⟩ := State.retrainTrigger_fresh w .A i 5
      (by rw [(congrArg Dl.retrainAt hdl :), hat]; rfl) ((congrArg (fun d : Dl => d.liveA.rtCnt.toNat) hdl :).symm ▸ hfew) (hw.eqEv.symm ▸ hroom)
    have hevery := State.retrainEvery_one (s := w) ((peersOf_congr hw.eqFramAll .A).trans hA) ((peersOf_congr hw.eqFramAll .B).trans hB)
      ((portUsed_A_congr hw.eqPins hw.eqFramAll hw.eqDn).trans hused) hfram
    have htrigger : Keeps [.dl, .ev, .irq, .pl] w (w.retrainTrigger .A i 5) := (State.retrainTrigger_keeps w .A i 5).mono
    rw [hwrite, State.dsActions_retrain hrun' h1 h8 h10, hevery] at hexec
    refine ⟨_, hexec, State.sameBut_trans hw.mono.left ⟨hsame.1, fun p hp => hsame.2 p fun hin => hp (by revert hin; cases p <;> decide)⟩,
      State.wordStored_after hstored htrigger, hrtrq, ?_, ?_⟩
    · rw [hsent, (congrArg Dl.squeue hdl :), ownIdx_congr htrigger.eqPins htrigger.eqFramAll htrigger.eqDn htrigger.rows]
      rfl
    · rw [hev, hw.eqEv, eventOf_congr hw, show Port.code .A + i.toNat * 256 = i.toNat * 256 from Nat.zero_add _]

end Sys2Proof.Machine
end

section
/-! PROOF. Line time, membership and the start of an epoch (R380 to R385). -/

/- Proofs are elaborated one after the other: in parallel they outrun the kernel's checks of the text before them, and each that waits
holds a thread's memory. -/
set_option Elab.async false

open Sys2Proof

namespace Sys2Proof.Machine

/-! ## Line time (R380, R381) -/

/-- A TIME whose 8 bytes are right is answered as far as the agent may (R380). -/
theorem State.answerTime_whole {s : State} {f : RxFrame} (hlen : f.frame.payload.length = 8) :
    s.answerTime f =
      if s.agentOn f.port = false then s
      else if s.segOf f.port f.frame.src = none then s.nacked f 0x0A
      else if s.ck.ltv = false then s.nacked f 0x09
      else s.answered f (f.frame.payload ++ timeBytes f.sec f.cyc.toNat ++ timeBytes s.ck.lsec s.ck.lcyc) := by
  unfold State.answerTime
  simp only [hlen, nackTo_eq, replyTo_eq, Option.isNone_iff_eq_none, Bool.not_eq_true', ne_eq, not_true_eq_false, if_false]

/-- The exchange of a TIME request is over. -/
def State.timeTaken (s : State) (rest : List Request) : State := { s with dn := { s.dn with reqs := rest, timeT1 := none } }

/-- θ and D of an exchange within the bound, line time valid: kept, and θ put in line when it is worth a step (R381). -/
theorem State.takeTime_valid {s : State} {f : RxFrame} {θ d : Int} (hlen : f.frame.payload.length = 24) (hresult : timeResult f = (θ, d))
    (hlow : 0 ≤ d) (hhigh : d ≤ 60) (hltv : s.ck.ltv = true) :
    s.takeTime f = { s with
      dn := { s.dn with timeT1 := none, offs := BitVec.ofInt 16 (clampInt (-32768) 32767 θ), dly := BitVec.ofInt 16 d },
      ck := { s.ck with lpend := if 2 < θ.natAbs then θ else s.ck.lpend } } := by
  have hbound : (d < 0 || 60 < d) = false := by simp; omega
  unfold State.takeTime
  rw [hresult]
  dsimp only
  rw [if_neg (fun h => h hlen), if_neg (Bool.eq_false_iff.1 hbound)]
  refine (if_neg (Bool.eq_false_iff.1 (by rw [hltv]; rfl))).trans ?_
  split <;> rfl

/-- D outside 0 to 60 is a violation (R400). -/
theorem State.takeTime_invalid {s : State} {f : RxFrame} {θ d : Int} (hlen : f.frame.payload.length = 24) (hresult : timeResult f = (θ, d))
    (hbound : d < 0 ∨ 60 < d) :
    s.takeTime f = State.dnVio { s with dn := { s.dn with timeT1 := none } } 0x0C1B (BitVec.ofInt 48 d).toNat := by
  unfold State.takeTime
  rw [hresult]
  dsimp only
  rw [if_neg (fun h => h hlen), if_pos (by simpa using hbound)]

/-- Line time moved by what was put in line (R381). -/
def State.stepped (s : State) : State :=
  { s with ck := { s.ck with
      lpend := 0,
      lsec := BitVec.ofNat 32 (((lineCount s.ck.lsec s.ck.lcyc + s.ck.lpend) % ((2 ^ 32 * 400000 : Nat) : Int)).toNat / 400000),
      lcyc := ((lineCount s.ck.lsec s.ck.lcyc + s.ck.lpend) % ((2 ^ 32 * 400000 : Nat) : Int)).toNat % 400000 } }

theorem State.stepped_keeps (s : State) : Keeps [.ck] s s.stepped := Keeps.upd (Keeps.refl _ s)

theorem State.lineTimeStep_eq (s : State) :
    s.lineTimeStep = if 400 < s.ck.lpend.natAbs then s.stepped.dnEvent 0x0C08 (BitVec.ofInt 48 s.ck.lpend).toNat else s.stepped := rfl

/-! ## Leaving (R383) -/

/-- NACK 0x0A of a TIME: the agent no longer knows this node. -/
theorem State.takeNack_unknown {s : State} {f : RxFrame} {r : Request} {rest : List Request} {h l : Byte}
    (hp : f.frame.payload = [0x0B, h, l, 0x0A]) (hreqs : s.dn.reqs = r :: rest) (htype : r.frame.type = 0x0B)
    (hseq : r.frame.seq.toNat = h.toNat * 256 + l.toNat) (hdest : r.frame.dest = f.frame.src) (hhost : r.host = false) :
    s.takeNack f = (s.timeTaken rest).leaveSystem := by
  have hlen : f.frame.payload.length = 4 := by rw [hp]; rfl
  have hty : payAt f.frame.payload 0 = 0x0B := by rw [hp]; rfl
  have hcode : payAt f.frame.payload 3 = 0x0A := by rw [hp]; rfl
  have hopen : s.openReq 0x0B (BitVec.ofNat 16 (beAt f.frame.payload 1 2)) f.frame.src = some r := by
    rw [beAt_nackSeq hp hseq, ← htype, ← hdest, State.openReq_front hreqs]
  unfold State.takeNack
  dsimp only
  rw [if_neg (fun h => h hlen), hty, if_neg (by decide), hopen, hcode]
  dsimp only
  rw [State.closeReq_front hreqs, hhost]
  rfl

theorem State.left_of_written {s w : State} (hw : Keeps [.dl, .hb] s w) :
    w.left.ck = s.left.ck ∧ w.left.dn = s.left.dn ∧ w.left.hb.irq = s.left.hb.irq ∧ w.left.ev = s.left.ev := by
  unfold State.left
  dsimp only
  rw [hw.eqCk, hw.eqDn, hw.eqIrq, hw.eqEv, hw.eqFramAll]
  refine ⟨rfl, rfl, rfl, ?_⟩
  simp only [eventOf_congr hw]

/-- Settles O56: TIME and its answers, the step of line time, leaving by `leave_eq`, an epoch's start by `startEpoch_spec`. -/
theorem lineTimeAndMembership : Obligations.LineTimeAndMembership := by
  unfold Obligations.LineTimeAndMembership
  refine ⟨?ask, ?answer, ?valid, ?invalid, ?step, ?timeout, ?unknown, ?leave, ?leaveLater, ?epoch, ?epochWrite⟩
  case ask =>
    intro s hrun hnode hjoined hlock
    exact State.when_next s (by rw [hrun, hnode, hjoined, hlock]; rfl) (asked_eq ..)
  case answer =>
    intro s u f hasks hu hlen
    obtain ⟨hhears, htype, hrequest, -, hfresh⟩ := hasks
    refine State.when_next s (by rw [htype, hrequest]; rfl) ?_
    rw [State.takeFrame_hears s f hhears, ← hu, orRepeat_none s u f hfresh hu, State.answerTime_whole hlen]
  case valid =>
    intro s u f r rest T θ d hhears hu htype hreply hawaits hlen hT hθ hd hlow hhigh hltv
    have hresult : timeResult f = (θ, d) := by rw [hθ, hd, hT]; rfl
    refine State.when_next s (by rw [htype, hreply]; rfl) ?_
    rw [State.takeFrame_hears s f hhears, ← hu, takeReply_found u f r rest hawaits]
    exact State.takeTime_valid hlen hresult hlow hhigh hltv
  case invalid =>
    intro s u f r rest T d hhears hu htype hreply hawaits hlen hT hd hbound hlog
    have hresult : timeResult f = ((timeResult f).1, d) := by rw [hd, hT]; rfl
    refine State.when_next s (by rw [htype, hreply]; rfl) ?_
    rw [State.takeFrame_hears s f hhears, ← hu, takeReply_found u f r rest hawaits, State.takeTime_invalid hlen hresult hbound]
    exact dnVio_eq (u.timeTaken rest) _ _ hlog
  case step =>
    intro s n hcore hline hltv hpend hroom hn
    subst hn
    refine ⟨_, State.when_next s (by simp [hcore, hline, hltv, hpend]) s.lineTimeStep_eq, ?_, ?_, ?_⟩
    all_goals split
    · exact ((State.dnEvent_keeps ..).after s.stepped_keeps.mono).left
    · exact s.stepped_keeps.mono.left
    · exact (State.dnEvent_keeps ..).eqCk
    · rfl
    · exact congrArg State.ev (State.dnEvent_room (s := s.stepped) hroom _ _)
    · rfl
  case timeout =>
    intro s hrun hlock hnode hjoined hroom
    exact State.when_next s (by rw [hrun, hlock]; rfl) (leave_eq s hnode hjoined hroom)
  case unknown =>
    intro s u f r rest h l hhears hu htype hp hreqs hrtype hseq hdest hhost hnode hjoined
    have hleave := leave_any (u.timeTaken rest) hnode hjoined
    obtain ⟨hsame, hout, haddr, hltv, hqueue, hnone, -⟩ := hleave
    have hexec : exec (.descantNack f) s = .next (u.timeTaken rest).leaveSystem :=
      State.when_next s (by rw [htype]; rfl) (by
        rw [State.takeFrame_hears s f hhears, ← hu, State.takeNack_unknown hp hreqs hrtype hseq hdest hhost])
    have htaken : Keeps [.fram, .ck, .dl, .dn, .ev, .irq] u (u.timeTaken rest) := Keeps.upd (Keeps.refl _ u)
    exact ⟨_, hexec, State.sameBut_trans htaken.left hsame, hout, haddr, hltv, hqueue, hnone⟩
  case leave =>
    intro s hi lo hinv hbus hlatch harm hnvr hrows h0 h1 h8 h10 hrod hnode hjoined hroom
    obtain ⟨-, -, hbuf, -⟩ := hinv
    have hexec := hostCommit_row s (.leave hi) 0x46 0x46 hi lo rfl hbus hlatch rfl (by decide) harm
    obtain ⟨w, hw, hstored, hdl, hwrite⟩ := State.dsCtl_written hbuf hnvr hrows h0
    have hacts : w.dsActions (wordOf hi lo) = w.leaveSystem := by unfold State.dsActions; simp [h1, h8, h10]
    have hnode' : w.isHead = false := (isHead_congr hw.eqPins (congrArg Fram.joined hw.eqFramAll) hw.eqDn).trans hnode
    have hleft := leave_eq w hnode' ((congrArg Fram.joined hw.eqFramAll).trans hjoined) (by rw [hw.eqEv, hw.eqDn]; exact hroom)
    have hkeeps := State.leaveSystem_keeps w
    obtain ⟨hck, hdn, hirq, hev⟩ := State.left_of_written hw
    rw [hwrite, if_pos hrod, hacts, hleft] at hexec
    rw [hleft] at hkeeps
    exact ⟨_, hexec, (hkeeps.after hw.mono (by rfl)).left, State.wordStored_after hstored hkeeps, rfl, rfl, hck, rfl, hdn, hirq, hev⟩
  case leaveLater =>
    intro s hi lo hinv hbus hlatch harm hnvr hrows h0 hrod
    obtain ⟨-, -, hbuf, -⟩ := hinv
    have hexec := hostCommit_row s (.leave hi) 0x46 0x46 hi lo rfl hbus hlatch rfl (by decide) harm
    obtain ⟨w, hw, hstored, hdl, hwrite⟩ := State.dsCtl_written hbuf hnvr hrows h0
    rw [hwrite, if_neg (by rw [hrod]; decide)] at hexec
    exact ⟨_, hexec, (Keeps.upd hw : Keeps [.dl, .hb] s _).left, hstored,
      congrArg (fun d : Dl => { d with heldCtl := s.dl.heldCtl ||| (wordOf hi lo &&& 0x0502#16) }) hdl⟩
  case epoch =>
    intro s hdue
    exact ⟨_, State.when_next s hdue rfl, startEpoch_spec s⟩
  case epochWrite =>
    intro s hi lo hinv hbus hlatch harm hnvr hrows h0 h1 h8 h10 hrun hhead hepr
    obtain ⟨-, -, hbuf, -⟩ := hinv
    have hexec := hostCommit_row s (.epochWrite hi) 0x46 0x46 hi lo rfl hbus hlatch rfl (by decide) harm
    obtain ⟨w, hw, hstored, hdl, hwrite⟩ := State.dsCtl_written hbuf hnvr hrows h0
    have hrun' : w.running = true :=
      (running_congr hw.eqPw (congrArg Hb.frzTs hstored.1 :) (congrArg Hb.frzTest hstored.1 :)).trans hrun
    have hhead' : w.isHead = true := (isHead_congr hw.eqPins (congrArg Fram.joined hw.eqFramAll) hw.eqDn).trans hhead
    have hacts : w.dsActions (wordOf hi lo) = w.startEpoch := by
      unfold State.dsActions
      simp [h1, h8, h10, hrun', hhead', (congrArg Dn.epr hw.eqDn).trans hepr]
    rw [hwrite, if_pos (running_runOrDrain hrun), hacts] at hexec
    obtain ⟨-, hepoch, hepr', -⟩ := startEpoch_spec w
    exact ⟨_, hexec, ((State.startEpoch_keeps w).after hw.mono (by rfl)).left, State.wordStored_after hstored (State.startEpoch_keeps w),
      hepoch.trans (by rw [hw.eqDn]), hepr'⟩

end Sys2Proof.Machine
end

section
/-! PROOF. The search of a segment and the end of an epoch (R385, R386, R389 to R392, R400). -/

/- Proofs are elaborated one after the other: in parallel they outrun the kernel's checks of the text before them, and each that waits
holds a thread's memory. -/
set_option Elab.async false

open Sys2Proof

namespace Sys2Proof.Machine

/-! ## The node under a search frame (R359) -/

/-- The level latched changes nothing of what the node is and holds. -/
theorem State.latchRssi_node {s u : State} {r : RxSearch} (hu : u = s.latchRssi r) :
    u.fram = s.fram ∧ u.dn = s.dn ∧ u.ev = s.ev ∧ u.eventOf = s.eventOf ∧ u.pins = s.pins ∧ u.isHead = s.isHead ∧
      u.agentOn = s.agentOn ∧ u.portUsed = s.portUsed ∧ (u.lineRole && u.pben) = (s.lineRole && s.pben) := by
  obtain ⟨a, b, hlatch⟩ := latchRssi_cases s r
  rw [hu, hlatch]
  exact ⟨rfl, rfl, rfl, rfl, rfl, rfl, rfl, rfl, rfl⟩

/-! ## A BEACON's fields (R386) -/

theorem word_lt_bytes (w : Word) : w.toNat < 256 ^ 2 := w.isLt

theorem addr_lt_bytes (a : BitVec 12) : a.toNat < 256 ^ 2 := lt_trans a.isLt (by decide)

theorem beacon_fields {p : List Byte} {e : Word} {sys : Word48} {agent : BitVec 12} {hops phase : Byte}
    (hp : p = bytesBE 2 e.toNat ++ bytesBE 6 sys.toNat ++ bytesBE 2 agent.toNat ++ [hops, phase]) :
    p.length = 12 ∧ beAt p 0 2 = e.toNat ∧ beAt p 2 6 = sys.toNat ∧ beAt p 8 2 = agent.toNat ∧ payAt p 10 = hops ∧ payAt p 11 = phase := by
  have hlen (n v : Nat) := bytesBE_length n v
  refine ⟨by rw [hp]; simp [hlen], beAt_first (c := bytesBE 6 sys.toNat ++ (bytesBE 2 agent.toNat ++ [hops, phase])) (by rw [hp]; simp) (word_lt_bytes e),
    beAt_field_last (a := bytesBE 2 e.toNat) (c := bytesBE 2 agent.toNat ++ [hops, phase]) (by rw [hp]; simp) (hlen ..) sys.isLt,
    beAt_field_last (a := bytesBE 2 e.toNat ++ bytesBE 6 sys.toNat) (c := [hops, phase]) (by rw [hp]; simp) (by simp [hlen]) (addr_lt_bytes agent),
    payAt_field (a := bytesBE 2 e.toNat ++ bytesBE 6 sys.toNat ++ bytesBE 2 agent.toNat) (c := [phase]) hp (by simp [hlen]),
    payAt_field (a := bytesBE 2 e.toNat ++ bytesBE 6 sys.toNat ++ bytesBE 2 agent.toNat ++ [hops]) (c := []) (by rw [hp]; simp) (by simp [hlen])⟩

/-- The segment a BEACON tells of. -/
def State.segmentHeard (s : State) (p : Port) (sys : Word48) (agent : BitVec 12) (hops : Byte) : State :=
  { s with dn := { s.dn with hearing := some p, sysid := sys, agent := agent, segHops := hops } }

/-- A PHASE 1 that reaches a node out of the system which has not heard the epoch's PHASE 0, and has not put its joining off (R391). -/
def State.heardLate (s : State) (e : Word) (phase : Byte) : Bool :=
  phase == 1 && !s.fram.joined && s.dn.phase0 != some e && !s.dn.defer

theorem State.hearBeacon_eq (s : State) {r : RxSearch} {e : Word} {sys : Word48} {agent : BitVec 12} {hops phase : Byte}
    (hp : r.payload = bytesBE 2 e.toNat ++ bytesBE 6 sys.toNat ++ bytesBE 2 agent.toNat ++ [hops, phase]) :
    s.hearBeacon r =
      if phase = 0 then
        { s.segmentHeard r.port sys agent hops with
          dn := { (s.segmentHeard r.port sys agent hops).dn with phase0 := some e, defer := false } }
      else if s.heardLate e phase then
        State.dnEvent { s.segmentHeard r.port sys agent hops with dn := { (s.segmentHeard r.port sys agent hops).dn with defer := true } }
          0x0C05 e.toNat
      else s.segmentHeard r.port sys agent hops := by
  obtain ⟨-, hepoch, hsys, hagent, hhops, hphase⟩ := beacon_fields hp
  have hzero : (phase.toNat = 0) = (phase = 0) := propext ⟨fun h => BitVec.eq_of_toNat_eq h, fun h => by rw [h]; rfl⟩
  have hone : decide (phase.toNat = 1) = (phase == 1) := by
    rw [beq_eq_decide]
    exact decide_eq_decide.2 ⟨fun h => BitVec.eq_of_toNat_eq h, fun h => by rw [h]; rfl⟩
  unfold State.hearBeacon State.heardLate
  rw [hepoch, hsys, hagent, hhops, hphase]
  simp only [hzero, hone, BitVec.ofNat_toNat, BitVec.setWidth_eq]
  rfl

/-- Joining put off to the next epoch (R391). -/
def State.deferred (s : State) : State := { s with dn := { s.dn with defer := true } }

/-! ## A head that hears another (R21, R103) -/

/-- No announcement held. -/
def State.unannounced (s : State) : State := { s with dn := { s.dn with pend := [] } }

/-- What a head drops when it is head no more, beside its announcements. -/
def State.yielded (s : State) (p : Port) : State :=
  { s with
    dn := { s.dn with otherHead := some p, epr := false, segs := [], await := [], reqs := [], copies := [] },
    dl := { s.dl with queue := [], squeue := [] }, ck := { s.ck with ltv := false, lpend := 0 } }

/-- Events noted, with an interrupt word. -/
def State.noted (s : State) (irq : Word) (events : List LogEntry) : State :=
  { s with hb := { s.hb with irq := irq }, ev := { s.ev with buf := s.ev.buf ++ events } }

theorem State.dnEvent_noted {s : State} (irq : Word) (events : List LogEntry) (hroom : s.ev.buf.length + events.length < 32) (code : Word)
    (data : Nat) : (s.noted irq events).dnEvent code data = s.noted (irq ||| 0x1000#16) (events ++ [s.eventOf code data]) := by
  rw [State.dnEvent_room (s := s.noted irq events) (by show (s.ev.buf ++ events).length < 32; rw [List.length_append]; exact hroom)]
  unfold State.noted
  simp only [List.append_assoc]
  rfl

theorem State.yieldHead_room {s : State} (r : RxSearch) (hroom : s.ev.buf.length + s.dn.pend.length < 32) :
    s.yieldHead r = (s.unannounced.yielded r.port).noted (s.hb.irq ||| 0x1000#16)
      (s.dn.pend.map (fun a => s.eventOf 0x0C0A (a.number.toNat + 3 * 2 ^ 32)) ++ [s.eventOf 0x0C07 (beAt r.payload 2 6)]) := by
  obtain ⟨q, hfold, hq⟩ := dropAnnounces_fold 3 s.dn.pend s.unannounced (by show s.ev.buf.length + _ ≤ 32; omega)
  have hdrop : s.dropAnnounces 3 = s.unannounced.noted q (s.dn.pend.map (fun a => s.eventOf 0x0C0A (a.number.toNat + 3 * 2 ^ 32))) := hfold
  have hsteps : s.yieldHead r = ((s.dropAnnounces 3).yielded r.port).dnEvent 0x0C07 (beAt r.payload 2 6) := rfl
  have hnoted : (s.unannounced.noted q (s.dn.pend.map (fun a => s.eventOf 0x0C0A (a.number.toNat + 3 * 2 ^ 32)))).yielded r.port =
      (s.unannounced.yielded r.port).noted q (s.dn.pend.map (fun a => s.eventOf 0x0C0A (a.number.toNat + 3 * 2 ^ 32))) := rfl
  rw [hsteps, hdrop, hnoted, State.dnEvent_noted (s := s.unannounced.yielded r.port) q _ (by rw [List.length_map]; exact hroom), hq]
  rfl

/-- A head that has heard another head's BEACON: all it held goes, and what a node keeps of a BEACON is kept (R21, R391). -/
theorem State.yieldHead_hears {s : State} {r : RxSearch} {e : Word} {sys : Word48} {agent : BitVec 12} {hops phase : Byte} {late : Bool}
    (hp : r.payload = bytesBE 2 e.toNat ++ bytesBE 6 sys.toNat ++ bytesBE 2 agent.toNat ++ [hops, phase])
    (hlate : s.heardLate e phase = late) (hroom : s.ev.buf.length + s.dn.pend.length < 31) :
    (s.yieldHead r).hearBeacon r =
      { s with
        dn := { s.dn with
          otherHead := some r.port, hearing := some r.port, epr := false, segs := [], await := [], reqs := [], copies := [], pend := [],
          sysid := sys, agent := agent, segHops := hops, phase0 := if phase = 0 then some e else s.dn.phase0,
          defer := (s.dn.defer && phase != 0) || late },
        dl := { s.dl with queue := [], squeue := [] }, ck := { s.ck with ltv := false, lpend := 0 },
        ev := { s.ev with buf := s.ev.buf ++ (s.dn.pend.map (fun a => s.eventOf 0x0C0A (a.number.toNat + 3 * 2 ^ 32)) ++
          s.eventOf 0x0C07 sys.toNat :: if late then [s.eventOf 0x0C05 e.toNat] else []) },
        hb := { s.hb with irq := s.hb.irq ||| 0x1000#16 } } := by
  obtain ⟨-, -, hsys, -⟩ := beacon_fields hp
  have hlate' : ((s.unannounced.yielded r.port).noted (s.hb.irq ||| 0x1000#16)
      (s.dn.pend.map (fun a => s.eventOf 0x0C0A (a.number.toNat + 3 * 2 ^ 32)) ++ [s.eventOf 0x0C07 sys.toNat])).heardLate e phase = late := hlate
  rw [State.yieldHead_room r (by omega), State.hearBeacon_eq _ hp, hsys, hlate']
  by_cases hzero : phase = 0
  · have hnot : late = false := by rw [← hlate, State.heardLate, hzero]; rfl
    have hdefer : (s.dn.defer && phase != 0 || late) = false := by rw [hnot, hzero]; simp
    rw [if_pos hzero, if_pos hzero, hdefer, hnot]
    dsimp only [State.segmentHeard, State.noted, State.yielded, State.unannounced]
    rfl
  · have hne : (phase != 0) = true := bne_iff_ne.2 hzero
    rw [if_neg hzero, if_neg hzero, hne]
    cases late with
    | false =>
      have hdefer : (s.dn.defer && true || false) = s.dn.defer := by simp
      rw [hdefer]
      dsimp only [State.segmentHeard, State.noted, State.yielded, State.unannounced]
      rfl
    | true =>
      refine (State.dnEvent_noted (s := ((s.unannounced.yielded r.port).segmentHeard r.port sys agent hops).deferred)
        (s.hb.irq ||| 0x1000#16) (s.dn.pend.map (fun a => s.eventOf 0x0C0A (a.number.toNat + 3 * 2 ^ 32)) ++ [s.eventOf 0x0C07 sys.toNat])
        (by rw [List.length_append, List.length_map]; show s.ev.buf.length + (s.dn.pend.length + 1) < 32; omega) _ _).trans ?_
      rw [BitVec.or_assoc, BitVec.or_self, List.append_assoc, Bool.or_true]
      dsimp only [State.deferred, State.segmentHeard, State.noted, State.yielded, State.unannounced]
      rfl

/-! ## A QUERY's fields (R390) -/

theorem query_fields {p : List Byte} {e : Word} {mode : Bool} {l : Nat} {x : Word64} (hl : l ≤ 64)
    (hp : p = bytesBE 2 e.toNat ++ [BitVec.ofNat 8 (b2n mode * 128 + l)] ++ bytesBE 8 x.toNat) :
    p.length = 11 ∧ beAt p 0 2 = e.toNat ∧ decide (128 ≤ (payAt p 2).toNat) = mode ∧ min 64 ((payAt p 2).toNat % 128) = l ∧
      BitVec.ofNat 64 (beAt p 3 8) = x := by
  have hlen (n v : Nat) := bytesBE_length n v
  have hmode : payAt p 2 = BitVec.ofNat 8 (b2n mode * 128 + l) :=
    payAt_field (a := bytesBE 2 e.toNat) (c := bytesBE 8 x.toNat) (by rw [hp]; simp) (hlen ..)
  have hbyte : (payAt p 2).toNat = b2n mode * 128 + l := by
    rw [hmode, BitVec.toNat_ofNat]
    have hbit : b2n mode ≤ 1 := by cases mode <;> decide
    omega
  have hprefix : beAt p 3 8 = x.toNat :=
    beAt_field_last (a := bytesBE 2 e.toNat ++ [BitVec.ofNat 8 (b2n mode * 128 + l)]) (c := []) (by rw [hp]; simp) (by simp [hlen]) x.isLt
  refine ⟨by rw [hp]; simp [hlen], ?_, ?_, ?_, by rw [hprefix]; simp⟩
  · exact beAt_first (c := BitVec.ofNat 8 (b2n mode * 128 + l) :: bytesBE 8 x.toNat) (by rw [hp]; simp) (word_lt_bytes e)
  · rw [hbyte]
    cases mode with
    | false => simp [b2n]; omega
    | true => simp [b2n]
  · rw [hbyte]
    have hbit : b2n mode ≤ 1 := by cases mode <;> decide
    omega

/-- A prefix of l bits that agrees with the serial bit by bit matches. -/
theorem prefixMatch_of_bits {l : Nat} {x serial : Word64} (hl : l ≤ 64)
    (hbits : ∀ i, i < l → x.getLsbD (63 - i) = serial.getLsbD (63 - i)) : prefixMatch l x serial = true := by
  unfold prefixMatch
  rw [Bool.or_eq_true, beq_iff_eq]
  refine Or.inr (beq_iff_eq.2 (BitVec.eq_of_getLsbD_eq fun j _ => ?_))
  rw [BitVec.getLsbD_ushiftRight, BitVec.getLsbD_ushiftRight]
  by_cases hj : j < l
  · have hbit := hbits (l - 1 - j) (by omega)
    rwa [show 63 - (l - 1 - j) = 64 - l + j by omega] at hbit
  · rw [BitVec.getLsbD_of_ge _ _ (by omega), BitVec.getLsbD_of_ge _ _ (by omega)]

theorem answer_flags (bridge joined : Bool) : loByte (pack [(b2n bridge, 0), (b2n joined, 1)]) = BitVec.ofNat 8 (b2n bridge + 2 * b2n joined) := by
  cases bridge <;> cases joined <;> rfl

/-- A node that is none of the search's agents, on a port in service, answers a QUERY it may answer unless VRES is low (R23, R390). -/
theorem State.takeQuery_matched {s : State} {r : RxSearch} {e : Word} {mode : Bool} {l : Nat} {x : Word64} (vres : Nat) (hl : l ≤ 64)
    (hp : r.payload = bytesBE 2 e.toNat ++ [BitVec.ofNat 8 (b2n mode * 128 + l)] ++ bytesBE 8 x.toNat) (hnode : s.isHead = false)
    (hagent : s.agentOn r.port = false) (hused : s.portUsed r.port = true)
    (hwho : mode = true ∧ s.fram.joined = true ∨ s.fram.joined = false ∧ s.dn.phase0 = some e ∧ s.dn.refused ≠ some e)
    (hbits : ∀ i, i < l → x.getLsbD (63 - i) = s.fram.serial.getLsbD (63 - i)) :
    s.takeQuery r vres = if vres < 1200 then s
      else s.withSearch r.port 0x02 (bytesBE 8 s.fram.serial.toNat ++
        [BitVec.ofNat 8 (Role.code s.pins.role), BitVec.ofNat 8 (b2n (s.lineRole && s.pben) + 2 * b2n s.fram.joined)]) := by
  obtain ⟨hlen, hepoch, hmode, hcount, hprefix⟩ := query_fields hl hp
  have hmay : (r.payload.length ≠ 11 || s.isHead || s.agentOn r.port || !s.portUsed r.port ||
      !(s.fram.joined || (s.dn.phase0 == some e && s.dn.refused != some e)) || (!mode && s.fram.joined)) = false := by
    rw [hlen, hnode, hagent, hused]
    obtain ⟨hm, hj⟩ | ⟨hj, h0, hr⟩ := hwho
    · rw [hm, hj]; rfl
    · rw [hj, h0]
      simp [hr]
  unfold State.takeQuery
  rw [hepoch, BitVec.ofNat_toNat, BitVec.setWidth_eq]
  dsimp only
  rw [hmode, hcount, hprefix, if_neg (Bool.eq_false_iff.1 hmay), prefixMatch_of_bits hl hbits, ← answer_flags]
  rfl

/-- A node refused in the epoch is silent in it (R390). -/
theorem State.takeQuery_refused {s : State} {r : RxSearch} {e : Word} {rest : List Byte} (vres : Nat)
    (hp : r.payload = bytesBE 2 e.toNat ++ rest) (hout : s.fram.joined = false) (hrefused : s.dn.refused = some e) : s.takeQuery r vres = s := by
  have hepoch : beAt r.payload 0 2 = e.toNat := beAt_first hp (word_lt_bytes e)
  unfold State.takeQuery
  rw [hepoch, BitVec.ofNat_toNat, BitVec.setWidth_eq, hout, hrefused]
  exact if_pos (by simp)

/-! ## A BEACON heard (R19, R21, R391) -/

theorem State.takeBeacon_node {s : State} {r : RxSearch} (hlen : r.payload.length = 12) (hnode : s.isHead = false)
    (hagent : s.agentOn r.port = false)
    (hport : s.fram.joined = true ∧ r.port = s.fram.upPort ∨ s.fram.joined = false ∧ (s.dn.hearing = none ∨ s.dn.hearing = some r.port)) :
    s.takeBeacon r = s.hearBeacon r := by
  have hown : (if s.fram.joined then r.port == s.fram.upPort else (s.dn.hearing.getD r.port) == r.port) = true := by
    obtain ⟨hj, hp⟩ | ⟨hj, hh⟩ := hport
    · rw [hj, hp]; simp
    · rw [hj]
      obtain hnone | hsome := hh
      · rw [hnone]; simp
      · rw [hsome]; simp
  unfold State.takeBeacon
  rw [if_neg (fun h => h hlen), hnode, hagent]
  exact if_pos hown

theorem State.takeBeacon_head {s : State} {r : RxSearch} {sys : Word48} (hlen : r.payload.length = 12) (hsys : beAt r.payload 2 6 = sys.toNat)
    (hhead : s.isHead = true) (hother : sys ≠ s.fram.serial.setWidth 48) : s.takeBeacon r = (s.yieldHead r).hearBeacon r := by
  have hne : sys.toNat ≠ s.fram.serial.toNat % 2 ^ 48 := fun h => hother (BitVec.eq_of_toNat_eq (h.trans (BitVec.toNat_setWidth ..).symm))
  unfold State.takeBeacon
  rw [if_neg (fun h => h hlen), hhead, hsys]
  exact if_neg hne

/-! ## SEARCH at an agent (R385, R391) -/

theorem State.takeSearchMsg_begins {s : State} {f : RxFrame} {e : Word} {p : Port} (hsrc : f.frame.src = 0)
    (hpay : f.frame.payload = bytesBE 2 e.toNat) (hbridge : s.isBridge = true) (hp : p = otherPort s.fram.upPort)
    (hnew : ∀ g, s.segOn p = some g → g.epoch ≠ e) : s.takeSearchMsg f = s.startSegment p e f.frame.seq := by
  have hepoch : beAt f.frame.payload 0 2 = e.toNat := beAt_first (c := []) (by rw [hpay]; simp) (word_lt_bytes e)
  have hlen : f.frame.payload.length = 2 := by rw [hpay, bytesBE_length]
  unfold State.takeSearchMsg
  rw [if_neg (fun h => h hsrc), if_neg (fun h => h hlen), if_neg (by rw [hbridge]; decide), ← hp, hepoch, BitVec.ofNat_toNat,
    BitVec.setWidth_eq]
  cases hseg : s.segOn p with
  | none => rfl
  | some g => exact if_neg (hnew g hseg)

/-- Asked again, an agent whose search is over gives its result. -/
theorem State.takeSearchMsg_over {s : State} {f : RxFrame} {g : Segment} (hsrc : f.frame.src = 0)
    (hpay : f.frame.payload = bytesBE 2 g.epoch.toNat) (hbridge : s.isBridge = true) (hseg : s.segOn (otherPort s.fram.upPort) = some g)
    (hdone : g.done = true) (hone : f.frame.flags.getLsbD 3 = false) : s.takeSearchMsg f = s.answered f (s.searchResult g) := by
  have hepoch : beAt f.frame.payload 0 2 = g.epoch.toNat := beAt_first (c := []) (by rw [hpay]; simp) (word_lt_bytes g.epoch)
  have hlen : f.frame.payload.length = 2 := by rw [hpay, bytesBE_length]
  unfold State.takeSearchMsg
  rw [if_neg (fun h => h hsrc), if_neg (fun h => h hlen), if_neg (by rw [hbridge]; decide), hseg, hepoch, BitVec.ofNat_toNat,
    BitVec.setWidth_eq]
  dsimp only
  rw [if_pos rfl, hone, hdone, ← replyTo_eq]
  rfl

/-! ## The windows of a search (R389, R390) -/

theorem exec_queryWindowEnd {s : State} {p : Port} {g : Segment} {carrier : Bool} (hrun : s.running = true) (hseg : s.searching p g) :
    exec (.queryWindowEnd p carrier) s = .next (s.windowEnd g carrier) := State.when_next s hrun (onSegment_on hseg _)

/-- With the roll call over the query is the next prefix of the stack. -/
theorem State.nextQuery_stack (s : State) {g : Segment} {l : Nat} {x : Word64} {rest : List (Nat × Word64)} (hroll : g.roll = [])
    (hcut : g.cut = false) (hstack : g.stack = (l, x) :: rest) : s.nextQuery g = s.asksQuery { g with stack := rest } false l x := by
  unfold State.nextQuery
  rw [hroll]
  dsimp only
  rw [hcut, hstack]
  rfl

theorem judge_collision {answers : List (List Byte)} {carrier : Bool} (h : carrier = true ∨ 2 ≤ answers.length) :
    judge answers carrier = .collision := by
  unfold judge
  match answers with
  | [] => exact if_pos (h.resolve_right (by decide))
  | [_] => exact if_pos (h.resolve_right (by simp))
  | _ :: _ :: _ => rfl

/-- A window with a collision splits its prefix in two. -/
theorem State.windowEnd_collision (s : State) {g : Segment} {l : Nat} {x : Word64} {carrier : Bool} (hquery : g.query = some (false, l, x))
    (hjudge : carrier = true ∨ 2 ≤ g.answers.length) (hl : l < 64) :
    s.windowEnd g carrier = s.nextQuery { g with query := none, stack := children l x ++ g.stack } := by
  unfold State.windowEnd
  rw [hquery]
  dsimp only
  rw [judge_collision hjudge, if_pos hl]

/-- A silent window ends its prefix. -/
theorem State.windowEnd_silent (s : State) {g : Segment} {l : Nat} {x : Word64} (hquery : g.query = some (false, l, x))
    (hnone : g.answers = []) : s.windowEnd g false = s.nextQuery { g with query := none } := by
  unfold State.windowEnd
  rw [hquery]
  dsimp only
  rw [hnone]
  rfl

/-- A window with one answer joins the node. -/
theorem State.windowEnd_single (s : State) {g : Segment} {l : Nat} {x : Word64} {a : List Byte} (hquery : g.query = some (false, l, x))
    (hone : g.answers = [a]) : s.windowEnd g false = s.joinNode { g with stack := (l, x) :: g.stack } a := by
  unfold State.windowEnd
  rw [hquery]
  dsimp only
  rw [hone]
  rfl

/-- An entry of the roll call, silent for the fourth time, has departed. -/
theorem State.windowEnd_departs (s : State) {g : Segment} {i l l' : Nat} {x x' : Word64} {rest : List (Nat × Word64)} {e : Word48 × BitVec 12 × Bool}
    (hquery : g.query = some (true, l, x)) (hnone : g.answers = []) (hroll : g.roll = [i]) (htries : g.tries = 3) (hcut : g.cut = false)
    (hstack : g.stack = (l', x') :: rest) (hentry : s.segEntry g.port i = some e) :
    s.windowEnd g false = (s.dropSeg g.port i).asksQuery
      { g with query := none, roll := [], tries := 0, departed := g.departed ++ [e.2.1], stack := rest } false l' x' := by
  have hgone : s.windowEnd g false = (s.dropSeg g.port i).nextQuery
      { g with query := none, roll := [], tries := 0, departed := g.departed ++ [e.2.1] } := by
    unfold State.windowEnd
    rw [hquery]
    dsimp only
    rw [hnone]
    unfold State.rollWindow
    dsimp only
    rw [hroll]
    dsimp only
    rw [htries, hentry]
    rfl
  rw [hgone]
  exact State.nextQuery_stack _ rfl hcut hstack

/-- What a query leaves beside its segment and its frame. -/
theorem State.asksQuery_keeps (s : State) (g : Segment) (mode : Bool) (l : Nat) (x : Word64) : Keeps [.dl, .dn] s (s.asksQuery g mode l x) :=
  State.sendQuery_keeps s g mode l x

theorem State.asksQuery_segOn (s : State) (g : Segment) (mode : Bool) (l : Nat) (x : Word64) :
    (s.asksQuery g mode l x).segOn g.port = some { g with query := some (mode, l, x), answers := [] } := withSegment_on _ _

theorem segEntry_congr {s t : State} (hnv : ∀ k, t.nv k = s.nv k) (p : Port) (i : Nat) : t.segEntry p i = s.segEntry p i := by
  unfold State.segEntry State.dsw
  simp only [hnv]

/-! ## The end of a search and of an epoch (R389, R391, R392) -/

/-- The search of a port over. -/
def Segment.over (g : Segment) : Segment := { g with done := true, query := none, joining := none, assign := none }

theorem State.endSegment_bridge {s : State} (g : Segment) (hnode : s.isHead = false) :
    s.endSegment g = State.sendFrame ((s.putSegment (Segment.over g)).sendBeacon (Segment.over g) 2)
      { dest := 0, src := s.fram.addr, type := 0x04, seq := g.seq, flags := 0x10, payload := s.searchResult (Segment.over g) } := by
  have haddr : s.ownAddr = s.fram.addr := by unfold State.ownAddr; rw [hnode]; rfl
  rw [← haddr]
  exact if_neg (Bool.eq_false_iff.1 hnode)

theorem bridgeTimeout_again {s : State} {b : BitVec 12} {n : Nat} (hwait : s.dn.await.lookup b = some n) (hn : n < 3) :
    s.bridgeTimeout b = { s with
      dn := { s.dn with await := s.dn.await.map (fun x => if x.1 = b then (b, n + 1) else x), seq := s.dn.seq + 1#16 },
      dl := { s.dl with queue := s.dl.queue ++ (s.portsFor b).map (s.queued (s.ownFrame b 0x04 0 (bytesBE 2 s.dn.epochNo.toNat))) } } := by
  unfold State.bridgeTimeout
  rw [hwait]
  dsimp only
  rw [if_pos hn, State.originate_to]
  rfl

theorem bridgeTimeout_departs {s : State} {b : BitVec 12} {n : Nat} (hwait : s.dn.await.lookup b = some n) (hn : 3 ≤ n) :
    s.bridgeTimeout b = { s with dn := { s.dn with await := s.dn.await.filter (fun x => x.1 != b), departed := s.dn.departed ++ [b] } } := by
  unfold State.bridgeTimeout
  rw [hwait]
  exact if_neg (by omega)

theorem addresses_length (as : List (BitVec 12)) : ((as.map (fun a => bytesBE 2 a.toNat)).flatten).length = 2 * as.length := by
  induction as with
  | nil => rfl
  | cons a as ih =>
    rw [List.map_cons, List.flatten_cons, List.length_append, ih, bytesBE_length, List.length_cons]
    omega

/-- The addresses after a payload's first four bytes. -/
theorem addresses_read {p head : List Byte} {as : List (BitVec 12)} (hhead : head.length = 4)
    (hp : p = head ++ (as.map (fun a => bytesBE 2 a.toNat)).flatten) :
    (List.range ((p.length - 4) / 2)).map (fun i => BitVec.ofNat 12 (beAt p (4 + 2 * i) 2)) = as := by
  have hcount : (p.length - 4) / 2 = as.length := by
    rw [hp, List.length_append, addresses_length, hhead]
    omega
  rw [hcount]
  refine List.ext_getElem (by simp) fun i hi hi' => ?_
  have hparts : (as.map (fun a => bytesBE 2 a.toNat)).flatten = ((as.take i).map (fun a => bytesBE 2 a.toNat)).flatten ++
      (bytesBE 2 as[i].toNat ++ ((as.drop (i + 1)).map (fun a => bytesBE 2 a.toNat)).flatten) := by
    rw [← List.flatten_cons, ← List.flatten_append, ← List.map_cons (f := fun a : BitVec 12 => bytesBE 2 a.toNat), ← List.map_append,
      ← List.drop_eq_getElem_cons hi', List.take_append_drop]
  have hsplit : p = (head ++ ((as.take i).map (fun a => bytesBE 2 a.toNat)).flatten) ++
      (bytesBE 2 as[i].toNat ++ ((as.drop (i + 1)).map (fun a => bytesBE 2 a.toNat)).flatten) := by
    rw [hp, hparts, List.append_assoc]
  have hread := beAt_field_last hsplit (k := 4 + 2 * i) (by
    rw [List.length_append, addresses_length, hhead, List.length_take, Nat.min_eq_left hi'.le]) (addr_lt_bytes as[i])
  simp only [List.getElem_map, List.getElem_range]
  rw [hread]
  simp

/-- A bridge's result at the head: the bridge has answered, and is a bridge in the node table. -/
def State.bridgeHeard (s : State) (src : BitVec 12) : State := if s.nodeState src.toNat = 1 then s.putNode src.toNat 5 3 2 else s

theorem State.bridgeHeard_spec (s : State) (hok : s.fram.ok) (src : BitVec 12) :
    Keeps [.nv, .hb] s (s.bridgeHeard src) ∧ s.hostKept (s.bridgeHeard src) ∧ (s.bridgeHeard src).dn = s.dn ∧
      (s.bridgeHeard src).nodeState src.toNat = (if s.nodeState src.toNat = 1 then 2 else s.nodeState src.toNat) ∧
      ∀ k, k ≠ Config.key 6 (4 * src.toNat + 3) → (s.bridgeHeard src).nv k = s.nv k := by
  unfold State.bridgeHeard
  split
  · exact ⟨State.putNode_keeps .., rfl, rfl, (putNode_state s hok src.toNat 2 (by decide)).1, fun k hk => putNode_nv s hok _ _ _ _ k hk⟩
  · exact ⟨Keeps.refl _ s, rfl, rfl, rfl, fun _ _ => rfl⟩

/-- The epoch over, with nothing to follow up. -/
def State.epochClosed (s : State) : State := { s with dn := { s.dn with epr := false, dirty := false, follow := 0 } }

/-- An epoch without a change: its end is one event (R392). -/
theorem State.endEpoch_clean {s : State} (hgone : s.dn.departed = []) (hnew : s.dn.arrived = []) (hcut : s.dn.cut = false)
    (hroom : s.ev.buf.length < 32) :
    s.endEpoch = { s with
      dn := { s.dn with epr := false, dirty := false, follow := 0 }, hb := { s.hb with irq := s.hb.irq ||| 0x1000#16 },
      ev := { s.ev with buf := s.ev.buf ++ [s.eventOf 0x0C02 s.dn.epochNo.toNat] } } := by
  have hdata : evData [(s.dn.epochNo.toNat, 0), (b2n false, 16), (([] : List (BitVec 12)).length % 4096, 24),
      (([] : List (BitVec 12)).length % 4096, 36)] = s.dn.epochNo.toNat := by
    rw [evData_four]
    simp [b2n]
  unfold State.endEpoch
  rw [hgone, hnew, hcut]
  exact (congrArg (State.dnEvent s.epochClosed 0x0C02) hdata).trans (State.dnEvent_room (s := s.epochClosed) hroom _ _)

/-- The epoch over, with a follow-up due. -/
def State.epochFollowed (s : State) : State := { s with dn := { s.dn with epr := false, dirty := true, follow := s.dn.follow + 1 } }

theorem State.noted_keeps {s : State} (irq : Word) {events : List LogEntry} (hroom : s.ev.buf.length + events.length ≤ 32) :
    Keeps [.ev, .irq] s (s.noted irq events) :=
  Keeps.upd (Keeps.refl _ s) (i_ev := fun _ => show (s.ev.buf ++ events).length ≤ 32 by rw [List.length_append]; exact hroom)

theorem State.epochFollowed_keeps (s : State) : Keeps [.dn] s s.epochFollowed := Keeps.upd (Keeps.refl _ s)

/-- An epoch with one departure: the entry, its event, and the epoch's end (R392). -/
theorem State.endEpoch_departed {s : State} {a : BitVec 12} (hgone : s.dn.departed = [a]) (hnew : s.dn.arrived = [])
    (hpresent : s.present a.toNat = true) (hroom : s.ev.buf.length < 31) :
    s.endEpoch = ((s.putNode a.toNat 5 3 3).epochFollowed).noted (s.hb.irq ||| 0x1000#16)
      [s.eventOf 0x0C04 (a.toNat + ((s.nodeSerial a.toNat).toNat % 2 ^ 32) * 2 ^ 16),
       s.eventOf 0x0C02 (s.dn.epochNo.toNat + 2 ^ 16 + 1 * 2 ^ 36)] := by
  have hfilter : s.dn.departed.filter (fun x => !s.dn.arrived.contains x && s.present x.toNat) = [a] := by
    rw [hgone, hnew]
    simp [hpresent]
  have hdepart : s.departNode a = (s.putNode a.toNat 5 3 3).noted (s.hb.irq ||| 0x1000#16)
      [s.eventOf 0x0C04 (a.toNat + ((s.nodeSerial a.toNat).toNat % 2 ^ 32) * 2 ^ 16)] := by
    unfold State.departNode
    rw [evData_two, State.dnEvent_room (s := s.putNode a.toNat 5 3 3) (Nat.lt_succ_of_lt hroom)]
    rfl
  have hdata : evData [(s.dn.epochNo.toNat, 0), (b2n true, 16), (([] : List (BitVec 12)).length % 4096, 24), ([a].length % 4096, 36)] =
      s.dn.epochNo.toNat + 2 ^ 16 + 1 * 2 ^ 36 := by
    rw [evData_four]
    simp [b2n]
  have hsteps : s.endEpoch = (s.departNode a).epochFollowed.dnEvent 0x0C02
      (evData [((s.departNode a).dn.epochNo.toNat, 0), (b2n true, 16), (([] : List (BitVec 12)).length % 4096, 24), ([a].length % 4096, 36)]) := by
    unfold State.endEpoch
    dsimp only
    rw [hfilter, hnew]
    rfl
  have hepoch : (s.departNode a).dn.epochNo = s.dn.epochNo := congrArg Dn.epochNo (State.departNode_keeps s a).eqDn
  have hfollow : (s.departNode a).epochFollowed = ((s.putNode a.toNat 5 3 3).epochFollowed).noted (s.hb.irq ||| 0x1000#16)
      [s.eventOf 0x0C04 (a.toNat + ((s.nodeSerial a.toNat).toNat % 2 ^ 32) * 2 ^ 16)] := by rw [hdepart]; rfl
  rw [hsteps, hepoch, hdata, hfollow, State.dnEvent_noted (s := (s.putNode a.toNat 5 3 3).epochFollowed) _ [_]
    (show s.ev.buf.length + 1 < 32 by omega), BitVec.or_assoc, BitVec.or_self]
  rfl

/-- Settles O57: the search's steps from the equation of each. -/
theorem segmentSearch : Obligations.SegmentSearch := by
  unfold Obligations.SegmentSearch
  refine ⟨?search, ?result, ?beaconOut, ?beacon0, ?beacon1, ?otherHead, ?query, ?refused, ?collision, ?silent, ?single, ?departs, ?answer,
    ?stray, ?cutShort, ?askAgain, ?bridgeGone, ?reply, ?clean, ?dirty⟩
  case search =>
    intro s u f e p hhears hu htype hrequest hfresh hsrc hpay hbridge hp hnew
    have hexec : exec (.search f) s = .next (u.startSegment p e f.frame.seq) := by
      refine State.when_next s (by rw [htype, hrequest]; rfl) ?_
      rw [State.takeFrame_hears s f hhears, ← hu, orRepeat_none s u f hfresh hu, State.takeSearchMsg_begins hsrc hpay hbridge hp hnew]
    obtain ⟨g, sq, hstart, hport, hseq, hepoch, hroll, hdone, hquery⟩ := startSegment_spec u p e f.frame.seq
    rw [hstart] at hexec
    exact ⟨_, g, hexec, (Keeps.upd (Keeps.refl _ u) : Keeps [.dl, .dn] u _).left, ⟨find_seg g _ p hport, hdone⟩, hepoch, hseq, hroll, hquery⟩
  case result =>
    intro s u f g hasks hu hsrc hpay hbridge hseg hdone
    obtain ⟨hhears, htype, hrequest, hone, hfresh⟩ := hasks
    refine State.when_next s (by rw [htype, hrequest]; rfl) ?_
    rw [State.takeFrame_hears s f hhears, ← hu, orRepeat_none s u f hfresh hu, State.takeSearchMsg_over hsrc hpay hbridge hseg hdone hone]
    rfl
  case beaconOut =>
    intro s p g hrun hagent hseg hnode
    have hon := hseg.1
    refine State.when_next s (by rw [hrun, hagent]; rfl) ((onSegment_on hseg _).trans ?_)
    have hsend : s.sendBeacon g 1 = s.withSearch g.port 0x00 (bytesBE 2 g.epoch.toNat ++ bytesBE 6 s.sysId.toNat ++ bytesBE 2 s.ownAddr.toNat ++
      [BitVec.ofNat 8 s.segHopsOf, BitVec.ofNat 8 1]) := rfl
    rw [hsend, segOn_port hon, State.sysId, State.ownAddr, State.segHopsOf, hnode]
    rfl
  case beacon0 =>
    intro s u r e sys agent hops hlisten hu hp hnode hagent hport
    obtain ⟨hfram, hdn, -, -, -, hhead, hagents, -⟩ := State.latchRssi_node hu
    refine (State.takeSearch_next hlisten).trans (congrArg _ ?_)
    rw [← hu, State.takeBeacon_node (beacon_fields hp).1 (hhead.trans hnode) (by rw [hagents]; exact hagent) (by rw [hfram, hdn]; exact hport),
      State.hearBeacon_eq u hp, if_pos rfl]
    rfl
  case beacon1 =>
    intro s u r e sys agent hops hlisten hu hp hnode hagent hout hhearing hphase hdefer hroom
    obtain ⟨hfram, hdn, hev, hevent, -, hhead, hagents, -⟩ := State.latchRssi_node hu
    have hlate : u.heardLate e 1 = true := by
      unfold State.heardLate
      simp [hfram, hdn, hout, hphase, hdefer]
    refine (State.takeSearch_next hlisten).trans (congrArg _ ?_)
    rw [← hu, State.takeBeacon_node (beacon_fields hp).1 (hhead.trans hnode) (by rw [hagents]; exact hagent)
        (by rw [hfram, hdn]; exact Or.inr ⟨hout, hhearing⟩),
      State.hearBeacon_eq u hp, if_neg (by decide), if_pos hlate, ← hevent]
    exact State.dnEvent_room (s := { u.segmentHeard r.port sys agent hops with dn := { (u.segmentHeard r.port sys agent hops).dn with defer := true } })
      (hev ▸ hroom) _ _
  case otherHead =>
    intro s u r e sys agent hops phase late hlisten hu hp hhead hother hlate hroom
    obtain ⟨hfram, hdn, hev, hevent, -, hhead', -, -⟩ := State.latchRssi_node hu
    obtain ⟨hlen, -, hsys, -⟩ := beacon_fields hp
    refine (State.takeSearch_next hlisten).trans (congrArg _ ?_)
    rw [← hu, State.takeBeacon_head hlen hsys (hhead'.trans hhead) (by rw [hfram]; exact hother),
      State.yieldHead_hears (late := late) hp (by rw [hlate, State.heardLate, hfram, hdn]) (by rw [hev, hdn]; exact hroom), ← hevent, ← hdn]
  case query =>
    intro s u r e mode l vres x hlisten hu hp hl hnode hagent hused hwho hbits
    obtain ⟨hfram, hdn, -, -, hpins, hhead, hagents, hports, hbridge⟩ := State.latchRssi_node hu
    refine (State.takeSearch_next hlisten).trans (congrArg _ ?_)
    rw [← hu, ← hfram, ← hpins, ← hbridge]
    exact State.takeQuery_matched vres hl hp (hhead.trans hnode) (by rw [hagents]; exact hagent) (by rw [hports]; exact hused)
      (by rw [hfram, hdn]; exact hwho) (by rw [hfram]; exact hbits)
  case refused =>
    intro s r e rest vres hlisten hp hout hrefused
    obtain ⟨hfram, hdn, -⟩ := State.latchRssi_node (s := s) (r := r) rfl
    refine (State.takeSearch_next hlisten).trans (congrArg _ ?_)
    exact State.takeQuery_refused vres hp (by rw [hfram]; exact hout) (by rw [hdn]; exact hrefused)
  case collision =>
    intro s p g carrier l x hrun hseg hquery hl hroll hcut hjudge
    refine (exec_queryWindowEnd hrun hseg).trans (congrArg _ ((s.windowEnd_collision hquery hjudge hl).trans ?_))
    exact State.nextQuery_stack s hroll hcut rfl
  case silent =>
    intro s p g l l' x x' rest hrun hseg hquery hroll hcut hnone hstack
    exact (exec_queryWindowEnd hrun hseg).trans (congrArg _ ((s.windowEnd_silent hquery hnone).trans (State.nextQuery_stack s hroll hcut hstack)))
  case single =>
    intro s p g l x a hrun hseg hquery hone hnode
    refine (exec_queryWindowEnd hrun hseg).trans (congrArg _ ((s.windowEnd_single hquery hone).trans ?_))
    have hport := segOn_port hseg.1
    unfold State.joinNode
    rw [if_neg (Bool.eq_false_iff.1 hnode), asked_eq]
    have hhops : s.segHopsOf = s.fram.hops.toNat + 1 := by unfold State.segHopsOf; rw [hnode]; rfl
    rw [← hhops, ← hport]
    rfl
  case departs =>
    intro s p g i l l' x x' rest e hinv hrun hseg hquery hnone hroll htries hcut hstack hentry
    obtain ⟨hok, -⟩ := hinv
    obtain ⟨hon, hopen⟩ := hseg
    obtain rfl : g.port = p := segOn_port hon
    have hdrop := State.dropSeg_keeps s g.port i
    have hask := State.asksQuery_keeps (s.dropSeg g.port i)
      { g with query := none, roll := [], tries := 0, departed := g.departed ++ [e.2.1], stack := rest } false l' x'
    have hnv (k : Nat) := State.nv_congr hask.rows hask.eqNv k
    refine ⟨_, _, (exec_queryWindowEnd hrun ⟨hon, hopen⟩).trans (congrArg _ (s.windowEnd_departs hquery hnone hroll htries hcut hstack hentry)),
      (hask.after hdrop.mono (by rfl)).left, State.hostKept_trans (State.hostKept_nvPutAll ..) hask.hostKept,
      (segEntry_congr hnv ..).trans (dropSeg_none s hok g.port i), ⟨State.asksQuery_segOn .., hopen⟩, rfl, rfl,
      fun k hk => (hnv k).trans (putSeg_nv s hok _ _ _ k hk)⟩
  case answer =>
    intro s u r g hlisten hu hseg hquery hlen
    obtain ⟨a, b, hlatch⟩ := latchRssi_cases s r
    refine (State.takeSearch_next hlisten).trans (congrArg _ ?_)
    have hseg' : u.segOn r.port = some g := by rw [hu, hlatch]; exact hseg
    rw [← hu]
    unfold State.takeAnswer
    rw [hseg']
    exact if_pos (by rw [hquery, hlen]; rfl)
  case stray =>
    intro s u r hlisten hu hseg hlog
    obtain ⟨a, b, hlatch⟩ := latchRssi_cases s r
    refine (State.takeSearch_next hlisten).trans (congrArg _ ?_)
    have hseg' : u.segOn r.port = none := by rw [hu, hlatch]; exact hseg
    rw [← hu]
    unfold State.takeAnswer
    rw [hseg']
    exact dnVio_eq u _ _ hlog
  case cutShort =>
    intro s p g hrun hseg hroll hjoin hnode
    obtain ⟨hon, hopen⟩ := hseg
    obtain rfl : g.port = p := segOn_port hon
    have hcut : s.discoveryTimeout g.port = s.endSegment { g with cut := true } := by
      unfold State.discoveryTimeout
      rw [hon]
      dsimp only
      rw [hopen, hroll, hjoin]
      rfl
    have hend := (hcut.trans (State.endSegment_bridge { g with cut := true } hnode)).trans (State.sendFrame_eq _ _)
    have haddr : s.ownAddr = s.fram.addr := by unfold State.ownAddr; rw [hnode]; rfl
    have hhops : s.segHopsOf = s.fram.hops.toNat + 1 := by unfold State.segHopsOf; rw [hnode]; rfl
    have hsys : s.sysId = s.dn.sysid := by unfold State.sysId; rw [hnode]; rfl
    refine ⟨_, _, State.when_next s hrun hend, hend ▸ (State.discoveryTimeout_keeps s g.port).left,
      withSegment_on s (Segment.over { g with cut := true }), rfl, rfl, rfl, rfl, ?_, ?_⟩
    · rw [← haddr, ← hhops, ← hsys]
      rfl
    · exact congrArg (fun ps : List Port => s.dl.queue ++ ps.map (s.queued _)) (if_neg (show ¬ (0x10#5).getLsbD 3 = true by decide))
  case askAgain =>
    intro s b n hrun hhead hepr hwait hn
    exact State.when_next s (by rw [hrun, hhead, hepr]; rfl) (bridgeTimeout_again hwait hn)
  case bridgeGone =>
    intro s b n hrun hhead hepr hwait hn
    exact State.when_next s (by rw [hrun, hhead, hepr]; rfl) (bridgeTimeout_departs hwait hn)
  case reply =>
    intro s u f n j gone hhears hu htype hreply hhead hepr hinv hp
    obtain ⟨hok, -⟩ := hinv
    have hepoch : beAt f.frame.payload 0 2 = u.dn.epochNo.toNat :=
      beAt_first (c := [n, j] ++ (gone.map (fun a => bytesBE 2 a.toNat)).flatten) (by rw [hp, List.append_assoc]) (word_lt_bytes _)
    have hgone := addresses_read (head := bytesBE 2 u.dn.epochNo.toNat ++ [n, j]) (by rw [List.length_append, bytesBE_length]; rfl) hp
    obtain ⟨hkeeps, hkept, hdn, hstate, hrest⟩ := u.bridgeHeard_spec hok f.frame.src
    have hsteps : u.searchReply f = { u.bridgeHeard f.frame.src with dn := { (u.bridgeHeard f.frame.src).dn with
        await := (u.bridgeHeard f.frame.src).dn.await.filter (fun x => x.1 != f.frame.src),
        departed := (u.bridgeHeard f.frame.src).dn.departed ++ gone,
        reqs := (u.bridgeHeard f.frame.src).dn.reqs.filter (fun r => !(r.frame.type == 0x04#8 && r.frame.dest == f.frame.src)) } } := by
      unfold State.searchReply
      dsimp only
      rw [hgone, hepoch, hepr]
      exact if_neg (by simp)
    have hexec : exec (.searchReply f) s = .next (u.searchReply f) := by
      refine State.when_next s (by rw [htype, hreply]; rfl) ?_
      rw [State.takeFrame_hears s f hhears, ← hu]
      exact if_pos (by rw [hhead, hepr, hepoch]; simp)
    refine ⟨_, hexec, (State.searchReply_keeps u f).left, ?_, ?_, ?_, ?_, ?_⟩
    all_goals rw [hsteps]
    · exact hkept
    · exact congrArg (fun d : Dn => d.await.filter (fun x => x.1 != f.frame.src)) hdn
    · exact congrArg (fun d : Dn => d.departed ++ gone) hdn
    · exact hstate
    · exact hrest
  case clean =>
    intro s hrun hover hgone hnew hcut hroom
    exact State.when_next s (by rw [hrun, hover]; rfl) (State.endEpoch_clean hgone hnew hcut hroom)
  case dirty =>
    intro s a hinv hrun hover hgone hnew hpresent hroom
    obtain ⟨hok, -⟩ := hinv
    have hexec := (State.when_next s (by rw [hrun, hover]; rfl) (State.endEpoch_departed hgone hnew hpresent hroom) :
      exec .epochEnd s = _)
    have hput := State.putNode_keeps s a.toNat 5 3 3
    have hfollow := (s.putNode a.toNat 5 3 3).epochFollowed_keeps
    have hnoted : Keeps [.ev, .irq] _ _ := State.noted_keeps (s := (s.putNode a.toNat 5 3 3).epochFollowed) (s.hb.irq ||| 0x1000#16)
      (events := [s.eventOf 0x0C04 (a.toNat + ((s.nodeSerial a.toNat).toNat % 2 ^ 32) * 2 ^ 16),
       s.eventOf 0x0C02 (s.dn.epochNo.toNat + 2 ^ 16 + 1 * 2 ^ 36)]) (show s.ev.buf.length + 2 ≤ 32 by omega)
    have hboth := hnoted.after (hfollow.mono (L := [.ev, .dn, .irq])) (by rfl)
    have hnv (k : Nat) := State.nv_congr hboth.rows hboth.eqNv k
    refine ⟨_, hexec, (hboth.after hput.mono (by rfl)).left, State.hostKept_trans (rfl : s.hostKept (s.putNode a.toNat 5 3 3)) hboth.hostKept,
      (congrArg (fun w => fld w 5 3) (hnv _)).trans (putNode_state s hok a.toNat 3 (by decide)).1, rfl, rfl, rfl, rfl, rfl,
      fun k hk => (hnv k).trans (putNode_nv s hok _ _ _ _ k hk)⟩

end Sys2Proof.Machine
end

section
/-! PROOF. A serial admitted, assigned and entered; an entry the host reserves (R393 to R395). -/

/- Proofs are elaborated one after the other: in parallel they outrun the kernel's checks of the text before them, and each that waits
holds a thread's memory. -/
set_option Elab.async false

open Sys2Proof

namespace Sys2Proof.Machine

/-! ## A JOIN at the head (R393, R394) -/

/-- A JOIN's fields: the serial, the hops of the one who asks, the entries of its segment. -/
theorem join_fields {p : List Byte} {serial : Word64} {hops segn : Byte} (hp : p = bytesBE 8 serial.toNat ++ [hops, segn]) :
    p.length = 10 ∧ beAt p 0 8 = serial.toNat ∧ payAt p 8 = hops ∧ payAt p 9 = segn := by
  have hlen (n v : Nat) := bytesBE_length n v
  exact ⟨by rw [hp]; simp [hlen], beAt_first hp serial.isLt, payAt_field (a := bytesBE 8 serial.toNat) (c := [segn]) hp (hlen ..),
    payAt_field (a := bytesBE 8 serial.toNat ++ [hops]) (c := []) (by rw [hp]; simp) (by simp [hlen])⟩

theorem State.answerJoin_head {u : State} {f : RxFrame} {serial : Word64} {hops segn : Byte} (hhead : u.isHead = true)
    (hp : f.frame.payload = bytesBE 8 serial.toNat ++ [hops, segn]) :
    (∀ n, u.admitNode serial hops.toNat segn.toNat = .inl n →
      u.answerJoin f = (u.enterNode n serial hops.toNat).answered f (bytesBE 8 serial.toNat ++ bytesBE 2 n)) ∧
    ∀ c, u.admitNode serial hops.toNat segn.toNat = .inr c → u.answerJoin f = u.nacked f c := by
  obtain ⟨hlen, hserial, hhops, hsegn⟩ := join_fields hp
  have hword : BitVec.ofNat 64 serial.toNat = serial := (BitVec.ofNat_toNat ..).trans (BitVec.setWidth_eq _)
  unfold State.answerJoin
  simp only [hhead, hlen, hserial, hhops, hsegn, hword]
  refine ⟨fun n hn => ?_, fun c hc => ?_⟩
  · rw [hn]; rfl
  · rw [hc]; rfl

theorem exec_join_new {s u : State} {f : RxFrame} (h : s.asksAnew f 0x05) (hu : u = s.heard f) : exec (.join f) s = .next (u.answerJoin f) := by
  obtain ⟨hhears, htype, hrequest, hone, hfresh⟩ := h
  refine State.when_next s (by rw [htype, hrequest]; rfl) ?_
  rw [State.takeFrame_hears s f hhears, ← hu, orRepeat_none s u f hfresh hu]

/-- The serial's own entry is the first with it. -/
theorem allocate_known {s : State} {serial : Word48} {n : Nat} (h1 : 1 ≤ n) (h2 : n ≤ 4095) (hn : s.nodeSerial n = serial)
    (hfirst : ∀ m, 1 ≤ m → m < n → s.nodeSerial m ≠ serial) : s.allocate serial = some n := by
  have hfind : (List.range 4095).find? (fun i => s.nodeSerial (i + 1) == serial) = some (n - 1) := by
    rw [List.find?_range_eq_some]
    refine ⟨by rw [show n - 1 + 1 = n by omega, hn]; exact beq_self_eq_true _, List.mem_range.2 (by omega), fun j hj => ?_⟩
    simpa using hfirst (j + 1) (by omega) (by omega)
  unfold State.allocate
  rw [hfind]
  exact congrArg some (by omega)

/-! ## The entry of an admitted serial -/

/-- The entry n with the serial written in it. -/
def State.serialPut (s : State) (n : Nat) (serial : Word64) : State :=
  s.nvPutAll [(Config.key 6 (4 * n), serial.extractLsb' 0 16), (Config.key 6 (4 * n + 1), serial.extractLsb' 16 16),
    (Config.key 6 (4 * n + 2), serial.extractLsb' 32 16)]

theorem serialPut_nv (s : State) (h : s.fram.ok) (n : Nat) (serial : Word64) (k : Nat) :
    (s.serialPut n serial).nv k = if Config.key 6 (4 * n) ≤ k ∧ k < Config.key 6 (4 * n) + 3
      then serial.extractLsb' (16 * (k - Config.key 6 (4 * n))) 16 else s.nv k :=
  State.nv_nvPutAll_block s h 6 (4 * n) (fun j => serial.extractLsb' (16 * j) 16) k 3

theorem serialPut_serial (s : State) (h : s.fram.ok) (n : Nat) (serial : Word64) :
    (s.serialPut n serial).nodeSerial n = serial.setWidth 48 := by
  have hword (j : Nat) (hj : j < 3) : (s.serialPut n serial).nv (Config.key 6 (4 * n + j)) = serial.extractLsb' (16 * j) 16 := by
    rw [serialPut_nv s h, if_pos (by unfold Config.key; omega), show Config.key 6 (4 * n + j) - Config.key 6 (4 * n) = j by unfold Config.key; omega]
  unfold State.nodeSerial State.ntw
  rw [hword 2 (by decide), hword 1 (by decide), show 4 * n = 4 * n + 0 from rfl, hword 0 (by decide)]
  exact serial_words serial

/-- The entry n with the serial, its hops and the state joined (R394). -/
def State.entered (s : State) (n : Nat) (serial : Word64) (hops : Nat) : State := ((s.serialPut n serial).putNode n 0 5 hops).putNode n 5 3 1

theorem State.entered_keeps (s : State) (n : Nat) (serial : Word64) (hops : Nat) : Keeps [.nv, .hb] s (s.entered n serial hops) :=
  (State.putNode_keeps ..).after ((State.putNode_keeps ..).after (State.nvPutAll_keeps ..) (by rfl)) (by rfl)

theorem State.hostKept_entered (s : State) (n : Nat) (serial : Word64) (hops : Nat) : s.hostKept (s.entered n serial hops) :=
  State.hostKept_trans (State.hostKept_nvPutAll ..) rfl

/-- What the entry reads afterwards; no other word of the FRAM changes. -/
theorem entered_spec (s : State) (h : s.fram.ok) {n hops : Nat} (serial : Word64) (hhops : hops < 32) :
    (s.entered n serial hops).nodeSerial n = serial.setWidth 48 ∧ (s.entered n serial hops).nodeState n = 1 ∧
      fld ((s.entered n serial hops).nodeWord n) 0 5 = hops ∧
      fld ((s.entered n serial hops).nodeWord n) 11 5 = fld (s.nodeWord n) 11 5 ∧
      ∀ k, (k < Config.key 6 (4 * n) ∨ Config.key 6 (4 * n + 3) < k) → (s.entered n serial hops).nv k = s.nv k := by
  have hput : (s.serialPut n serial).fram.ok := State.fram_ok_nvPutAll _ s h
  have hhop := putNode_ok (s.serialPut n serial) hput n 0 5 hops
  have hword : (s.entered n serial hops).nodeWord n =
      Sys2Proof.Machine.merge (mask 5 3) (Sys2Proof.Machine.merge (mask 0 5) (s.nodeWord n) (pack [(hops, 0)])) (pack [(1, 5)]) := by
    have hold : (s.serialPut n serial).nodeWord n = s.nodeWord n :=
      (serialPut_nv s h n serial _).trans (if_neg (by unfold Config.key; omega))
    rw [State.entered, putNode_word _ hhop, putNode_word _ hput, hold]
  refine ⟨?_, (putNode_state _ hhop n 1 (by decide)).1, ?_, ?_, fun k hk => ?_⟩
  · rw [State.entered, putNode_serial _ hhop, putNode_serial _ hput, serialPut_serial s h]
  · rw [hword, fld_merge_old (by decide), fld_merge_new (by decide), fld_pack 0 hops 5 hhops (by decide)]
  · rw [hword, fld_merge_old (by decide), fld_merge_old (by decide)]
  · have hne : k ≠ Config.key 6 (4 * n + 3) := by unfold Config.key at *; omega
    rw [State.entered, putNode_nv _ hhop _ _ _ _ k hne, putNode_nv _ hput _ _ _ _ k hne, serialPut_nv s h,
      if_neg (by unfold Config.key at *; omega)]

/-- The address taken among the epoch's arrivals. -/
def State.arrives (s : State) (n : Nat) : State := { s with dn := { s.dn with arrived := s.dn.arrived ++ [BitVec.ofNat 12 n] } }

theorem State.arrives_keeps (s : State) (n : Nat) : Keeps [.dn] s (s.arrives n) := Keeps.upd (Keeps.refl _ s)

/-- A node that missed no collection is asked for none. -/
theorem collectMissed_none {s : State} {a : BitVec 12} (h : fld (s.nodeWord a.toNat) 11 5 = 0) : s.collectMissed a = s := by
  unfold State.collectMissed
  rw [h]
  rfl

theorem enterNode_absent {s : State} (h : s.fram.ok) {n hops : Nat} (serial : Word64) (hn : n < 4096) (hhops : hops < 32)
    (habsent : s.present n = false) (hmissed : fld (s.nodeWord n) 11 5 = 0) : s.enterNode n serial hops = (s.entered n serial hops).arrives n := by
  obtain ⟨-, -, -, hcount, -⟩ := entered_spec s h (n := n) serial hhops
  have hnode : (BitVec.ofNat 12 n).toNat = n := by rw [BitVec.toNat_ofNat]; omega
  have hnone : fld (((s.entered n serial hops).arrives n).nodeWord (BitVec.ofNat 12 n).toNat) 11 5 = 0 := by
    rw [hnode]
    exact hcount.trans hmissed
  unfold State.enterNode
  dsimp only
  rw [habsent]
  exact collectMissed_none (s := (s.entered n serial hops).arrives n) hnone

theorem nodeSerial_congr {s t : State} (hnv : ∀ k, t.nv k = s.nv k) (n : Nat) : t.nodeSerial n = s.nodeSerial n := by
  unfold State.nodeSerial State.ntw
  simp only [hnv]

/-- R393: what refuses a JOIN. -/
theorem join_refused {s u : State} {f : RxFrame} {serial : Word64} {hops segn : Byte} (hnew : s.asksAnew f 0x05) (hu : u = s.heard f)
    (hhead : u.isHead = true) (hp : f.frame.payload = bytesBE 8 serial.toNat ++ [hops, segn]) :
    (16 < hops.toNat → exec (.join f) s = .next (u.nacked f 0x12)) ∧
    (hops.toNat ≤ 16 → 64 < segn.toNat → exec (.join f) s = .next (u.nacked f 0x11)) ∧
    (hops.toNat ≤ 16 → segn.toNat ≤ 64 →
      (∀ m, 1 ≤ m → m ≤ 4095 → u.nodeState m ≠ 0 ∧ u.nodeSerial m ≠ serial.setWidth 48) → exec (.join f) s = .next (u.nacked f 0x10)) := by
  have hrefuse {c : Byte} (hc : u.admitNode serial hops.toNat segn.toNat = .inr c) : exec (.join f) s = .next (u.nacked f c) :=
    (exec_join_new hnew hu).trans (congrArg _ ((State.answerJoin_head hhead hp).2 c hc))
  refine ⟨fun hfar => hrefuse (if_pos hfar), fun hnear hmany => hrefuse ((if_neg (by omega)).trans (if_pos hmany)),
    fun hnear hfew hfull => hrefuse ((if_neg (by omega)).trans ((if_neg (by omega)).trans ?_))⟩
  rw [nodes_full u _ hfull]

/-- R394: a serial admitted at an entry no present node has. -/
theorem join_admitted {s u : State} {f : RxFrame} {serial : Word64} {hops segn : Byte} {n : Nat} (hnew : s.asksAnew f 0x05) (hu : u = s.heard f)
    (hhead : u.isHead = true) (hok : u.fram.ok) (hp : f.frame.payload = bytesBE 8 serial.toNat ++ [hops, segn]) (hhops : hops.toNat ≤ 16)
    (hsegn : segn.toNat ≤ 64) (hn : n ≤ 4095) (hentry : u.allocate (serial.setWidth 48) = some n) (habsent : u.present n = false)
    (hmissed : fld (u.nodeWord n) 11 5 = 0) :
    ∃ t, exec (.join f) s = .next t ∧ State.sameBut [.nv, .dl, .dn, .hb] u t ∧ u.hostKept t ∧ t.nodeSerial n = serial.setWidth 48 ∧
      t.nodeState n = 1 ∧ fld (t.nodeWord n) 0 5 = hops.toNat ∧ t.dn.arrived = u.dn.arrived ++ [BitVec.ofNat 12 n] ∧
      t.dl.queue = u.dl.queue ++ [u.queued (replyOf f (bytesBE 8 serial.toNat ++ bytesBE 2 n)) f.port] ∧
      ∀ k, (k < Config.key 6 (4 * n) ∨ Config.key 6 (4 * n + 3) < k) → t.nv k = u.nv k := by
  have hadmit : u.admitNode serial hops.toNat segn.toNat = .inl n := by
    refine (if_neg (by omega)).trans ((if_neg (by omega)).trans ?_)
    rw [hentry]
  have hkeeps := u.entered_keeps n serial hops.toNat
  obtain ⟨hserial, hstate, hhop, -, hrest⟩ := entered_spec u hok (n := n) serial (show hops.toNat < 32 by omega)
  have hreply := State.replyTo_keeps ((u.entered n serial hops.toNat).arrives n) f (bytesBE 8 serial.toNat ++ bytesBE 2 n)
  have hlast : Keeps [.dl, .dn] _ _ := hreply.after ((u.entered n serial hops.toNat).arrives_keeps n).mono (by rfl)
  have hnv (k : Nat) := State.nv_congr hlast.rows hlast.eqNv k
  refine ⟨_, ((exec_join_new hnew hu).trans (congrArg _ ((State.answerJoin_head hhead hp).1 n hadmit))).trans
      (congrArg (fun t : State => Host.Outcome.next (t.answered f (bytesBE 8 serial.toNat ++ bytesBE 2 n)))
        (enterNode_absent hok serial (by omega) (by omega) habsent hmissed)),
    ((hlast.mono (L := [.nv, .dl, .dn, .hb])).after hkeeps.mono (by rfl)).left,
    State.hostKept_trans (u.hostKept_entered n serial hops.toNat) hlast.hostKept, ?_, ?_, ?_, ?_, ?_, fun k hk => (hnv k).trans (hrest k hk)⟩
  · exact (nodeSerial_congr hnv n).trans hserial
  · exact (congrArg (fun w => fld w 5 3) (hnv _)).trans hstate
  · exact (congrArg (fun w => fld w 0 5) (hnv _)).trans hhop
  · exact congrArg (fun d : Dn => d.arrived ++ [BitVec.ofNat 12 n]) hkeeps.eqDn
  · exact congrArg (fun d : Dl => d.queue ++ [State.queued { u with dl := d } (replyOf f (bytesBE 8 serial.toNat ++ bytesBE 2 n)) f.port])
      hkeeps.eqDl

/-! ## An ASSIGN at a node out of the system (R394) -/

theorem assign_fields {p : List Byte} {serial : Word64} {addr : Nat} {idx hops : Byte} {e : Word} (haddr : addr < 256 ^ 2)
    (hp : p = bytesBE 8 serial.toNat ++ bytesBE 2 addr ++ [idx, hops] ++ bytesBE 2 e.toNat) :
    p.length = 14 ∧ beAt p 0 8 = serial.toNat ∧ beAt p 8 2 = addr ∧ payAt p 10 = idx ∧ payAt p 11 = hops ∧ beAt p 12 2 = e.toNat := by
  have hlen (n v : Nat) := bytesBE_length n v
  refine ⟨by rw [hp]; simp [hlen], beAt_first (c := bytesBE 2 addr ++ ([idx, hops] ++ bytesBE 2 e.toNat)) (by rw [hp]; simp) serial.isLt,
    beAt_field_last (a := bytesBE 8 serial.toNat) (c := [idx, hops] ++ bytesBE 2 e.toNat) (by rw [hp]; simp) (hlen ..) haddr,
    payAt_field (a := bytesBE 8 serial.toNat ++ bytesBE 2 addr) (c := hops :: bytesBE 2 e.toNat) (by rw [hp]; simp) (by simp [hlen]),
    payAt_field (a := bytesBE 8 serial.toNat ++ bytesBE 2 addr ++ [idx]) (c := bytesBE 2 e.toNat) (by rw [hp]; simp) (by simp [hlen]),
    beAt_field_last (a := bytesBE 8 serial.toNat ++ bytesBE 2 addr ++ [idx, hops]) (c := []) (by rw [hp]; simp) (by simp [hlen]) (word_lt_bytes e)⟩

/-- The address, index and hops a node takes over from an ASSIGN, with the agent it then belongs to. -/
def State.adopted (s : State) (p : Port) (a : BitVec 12) (idx hops : Byte) : State :=
  { s with
    fram := { s.fram with
      addr := a, lidx := idxByte idx, hops := BitVec.ofNat 5 hops.toNat, joined := true, upPort := p, upaddr := s.dn.agent },
    dn := { s.dn with defer := false, hearing := some p } }

/-- The epoch in which the node was refused. -/
def State.turnedAway (s : State) (e : Word) : State := { s with dn := { s.dn with refused := some e } }

/-- An ASSIGN-ACK, unless VRES is low. -/
def State.acked (s : State) (p : Port) (payload : List Byte) : State := if 1200 ≤ s.pins.vres then s.withSearch p 0x04 payload else s

theorem State.acked_keeps (s : State) (p : Port) (payload : List Byte) : Keeps [.dl] s (s.acked p payload) := by
  unfold State.acked
  exact Keeps.ite (fun _ => Keeps.upd (Keeps.refl _ s)) (fun _ => Keeps.refl _ s)

theorem State.acked_squeue (s : State) (p : Port) (payload : List Byte) : (s.acked p payload).dl.squeue =
    s.dl.squeue ++ if 1200 ≤ s.pins.vres then [{ port := p, kind := 0x04, payload := payload }] else [] := by
  unfold State.acked
  split
  · rfl
  · exact (List.append_nil _).symm

theorem State.takeAssign_adopts {u : State} {r : RxSearch} {a : BitVec 12} {idx hops : Byte} {e : Word} (hnode : u.isHead = false)
    (hout : u.fram.joined = false) (hp : r.payload = bytesBE 8 u.fram.serial.toNat ++ bytesBE 2 a.toNat ++ [idx, hops] ++ bytesBE 2 e.toNat) :
    u.takeAssign r = ((u.adopted r.port a idx hops).dnEvent 0x0C01 ((u.adopted r.port a idx hops).joinData 1)).acked r.port
      (bytesBE 8 u.fram.serial.toNat ++ bytesBE 2 a.toNat) := by
  obtain ⟨hlen, hserial, haddr, hidx, hhops, -⟩ := assign_fields (addr_lt_bytes a) hp
  have hsmall : ¬ 0x8000 ≤ a.toNat := by have := a.isLt; omega
  have hword : BitVec.ofNat 64 u.fram.serial.toNat = u.fram.serial := (BitVec.ofNat_toNat ..).trans (BitVec.setWidth_eq _)
  have hself : BitVec.ofNat 12 a.toNat = a := (BitVec.ofNat_toNat ..).trans (BitVec.setWidth_eq _)
  unfold State.takeAssign
  dsimp only
  rw [hlen, hserial, haddr, hidx, hhops, hword, hself, hnode, hout, if_neg (by simp), if_neg hsmall]
  rfl

theorem State.takeAssign_refused {u : State} {r : RxSearch} {code idx hops : Byte} {e : Word} (hnode : u.isHead = false)
    (hout : u.fram.joined = false)
    (hp : r.payload = bytesBE 8 u.fram.serial.toNat ++ bytesBE 2 (0x8000 + code.toNat) ++ [idx, hops] ++ bytesBE 2 e.toNat) :
    u.takeAssign r = (u.turnedAway e).dnEvent 0x0C06 code.toNat := by
  have hbyte := code.isLt
  obtain ⟨hlen, hserial, haddr, -, -, hepoch⟩ := assign_fields (addr := 0x8000 + code.toNat) (by omega) hp
  have hword : BitVec.ofNat 64 u.fram.serial.toNat = u.fram.serial := (BitVec.ofNat_toNat ..).trans (BitVec.setWidth_eq _)
  have hself : BitVec.ofNat 16 e.toNat = e := (BitVec.ofNat_toNat ..).trans (BitVec.setWidth_eq _)
  have hcode : (0x8000 + code.toNat) % 256 = code.toNat := by omega
  unfold State.takeAssign
  dsimp only
  rw [hlen, hserial, haddr, hepoch, hword, hself, hnode, hout, hcode, if_neg (by simp), if_pos (by omega)]
  rfl

theorem exec_assign {s u : State} {r : RxSearch} (hlisten : s.listens r.port) (hu : u = s.latchRssi r) (hrun : s.running = true)
    (hagent : s.agentOn r.port = false) : exec (.assign r) s = .next (u.takeAssign r) := by
  refine (State.takeSearch_next hlisten).trans (congrArg _ ?_)
  obtain ⟨-, -, -, -, -, -, hagents, -⟩ := State.latchRssi_node hu
  obtain ⟨x, y, hlatch⟩ := latchRssi_cases s r
  have hrun' : u.running = true := by rw [hu, hlatch]; exact hrun
  rw [← hu]
  exact if_pos (by rw [hrun', hagents, hagent]; rfl)

/-- R394: the node's new address, index and hops. -/
theorem assign_adopts {s u : State} {r : RxSearch} {a : BitVec 12} {idx hops : Byte} {e : Word} (hlisten : s.listens r.port)
    (hu : u = s.latchRssi r) (hrun : s.running = true) (hagent : s.agentOn r.port = false) (hnode : s.isHead = false)
    (hout : s.fram.joined = false) (hroom : s.ev.buf.length < 32)
    (hp : r.payload = bytesBE 8 s.fram.serial.toNat ++ bytesBE 2 a.toNat ++ [idx, hops] ++ bytesBE 2 e.toNat) :
    ∃ t, exec (.assign r) s = .next t ∧ State.sameBut [.fram, .dl, .dn, .ev, .irq] u t ∧
      t.fram = { u.fram with addr := a, lidx := idxByte idx, hops := BitVec.ofNat 5 hops.toNat, joined := true, upPort := r.port,
                             upaddr := s.dn.agent } ∧
      t.dl.squeue = s.dl.squeue ++ (if 1200 ≤ s.pins.vres then
        [{ port := r.port, kind := 0x04, payload := bytesBE 8 s.fram.serial.toNat ++ bytesBE 2 a.toNat }] else []) ∧
      t.hb.irq = s.hb.irq ||| 0x1000#16 ∧
      t.ev = { s.ev with buf := s.ev.buf ++
        [s.eventOf 0x0C01 (1 + a.toNat * 2 ^ 8 + (idxByte idx).toNat * 2 ^ 24 + (BitVec.ofNat 5 hops.toNat).toNat * 2 ^ 32)] } := by
  obtain ⟨hfram, hdn, hev, hevent, hpins, hhead, -, -⟩ := State.latchRssi_node hu
  obtain ⟨x, y, hlatch⟩ := latchRssi_cases s r
  have hdl : u.dl.squeue = s.dl.squeue := by rw [hu, hlatch]
  have hirq : u.hb = s.hb := by rw [hu, hlatch]
  have hdata : (u.adopted r.port a idx hops).joinData 1 =
      1 + a.toNat * 2 ^ 8 + (idxByte idx).toNat * 2 ^ 24 + (BitVec.ofNat 5 hops.toNat).toNat * 2 ^ 32 := evData_four ..
  have hevents := State.dnEvent_room (s := u.adopted r.port a idx hops) (hev ▸ hroom) 0x0C01
    (1 + a.toNat * 2 ^ 8 + (idxByte idx).toNat * 2 ^ 24 + (BitVec.ofNat 5 hops.toNat).toNat * 2 ^ 32)
  have hexec := (exec_assign hlisten hu hrun hagent).trans (congrArg _ (State.takeAssign_adopts (hhead.trans hnode)
    ((congrArg Fram.joined hfram).trans hout) (hfram ▸ hp)))
  rw [hdata] at hexec
  have hadopt : Keeps [.fram, .dn] u (u.adopted r.port a idx hops) := Keeps.upd (Keeps.refl _ u)
  have hlog : Keeps [.ev, .irq] (u.adopted r.port a idx hops) _ := State.dnEvent_keeps (u.adopted r.port a idx hops) 0x0C01
    (1 + a.toNat * 2 ^ 8 + (idxByte idx).toNat * 2 ^ 24 + (BitVec.ofNat 5 hops.toNat).toNat * 2 ^ 32)
  have hack := State.acked_keeps ((u.adopted r.port a idx hops).dnEvent 0x0C01
    (1 + a.toNat * 2 ^ 8 + (idxByte idx).toNat * 2 ^ 24 + (BitVec.ofNat 5 hops.toNat).toNat * 2 ^ 32)) r.port
    (bytesBE 8 u.fram.serial.toNat ++ bytesBE 2 a.toNat)
  have hboth : Keeps [.fram, .dl, .dn, .ev, .irq] _ _ := hack.after ((hlog.mono (L := [.fram, .dl, .dn, .ev, .irq])).after hadopt.mono (by rfl)) (by rfl)
  refine ⟨_, hexec, hboth.left, ?_, ?_, ?_, ?_⟩
  · refine hack.eqFramAll.trans (hlog.eqFramAll.trans ?_)
    rw [← hdn]
    rfl
  · rw [hevents]
    rw [← hdl, ← hpins, ← hfram]
    exact State.acked_squeue ..
  · refine hack.eqIrq.trans ?_
    rw [hevents, ← hirq]
    rfl
  · refine hack.eqEv.trans ?_
    rw [hevents, ← hev, ← hevent]
    rfl

/-! ## An index assigned, asked for again, acknowledged (R394, R395) -/

/-- The lowest free index of a segment. -/
theorem freeIdx_lowest {s : State} {p : Port} {i : Nat} (h1 : 1 ≤ i) (h63 : i ≤ 63) (hfree : s.segEntry p i = none)
    (hlower : ∀ j, 1 ≤ j → j < i → (s.segEntry p j).isSome = true) : s.freeIdx p = some i := by
  have hfind : (List.range 63).find? (fun j => (s.segEntry p (j + 1)).isNone) = some (i - 1) := by
    rw [List.find?_range_eq_some]
    refine ⟨by rw [show i - 1 + 1 = i by omega, hfree]; rfl, List.mem_range.2 (by omega), fun j hj => ?_⟩
    rw [← Option.not_isSome, hlower (j + 1) (by omega) (by omega)]
    rfl
  have hself : i - 1 + 1 = i := by omega
  unfold State.freeIdx
  rw [hfind]
  exact congrArg some hself

theorem State.segHopsOf_node {s : State} (h : s.isHead = false) : s.segHopsOf = s.fram.hops.toNat + 1 := by
  unfold State.segHopsOf
  rw [h]
  rfl

theorem State.joiningOf_first {s : State} {g : Segment} {segs : List Segment} {serial : Word64} {ag : Bool} (hsegs : s.dn.segs = g :: segs)
    (hjoin : g.joining = some (serial, ag)) (hassign : g.assign = none) : s.joiningOf serial = some g := by
  unfold State.joiningOf
  rw [hsegs]
  exact List.find?_cons_of_pos (by rw [hjoin, hassign]; simp)

/-- The lowest free index goes out with the address the head gave. -/
theorem State.assigned_free {s : State} {g : Segment} {serial : Word64} {ag : Bool} {i : Nat} (a : BitVec 12) (hjoin : g.joining = some (serial, ag))
    (hfree : s.freeIdx g.port = some i) (hnode : s.isHead = false) :
    s.assigned g (.inl a.toNat) = State.withSearch (s.withSegment { g with assign := some (a, BitVec.ofNat 6 i, 1) }) g.port 0x03
      (bytesBE 8 serial.toNat ++ bytesBE 2 a.toNat ++ [BitVec.ofNat 8 i, BitVec.ofNat 8 (s.fram.hops.toNat + 1)] ++ bytesBE 2 g.epoch.toNat) := by
  have hself : BitVec.ofNat 12 a.toNat = a := (BitVec.ofNat_toNat ..).trans (BitVec.setWidth_eq _)
  unfold State.assigned
  rw [hjoin]
  dsimp only
  rw [hfree, hself, ← State.segHopsOf_node hnode]
  rfl

theorem State.assignTimeout_again {s : State} {g : Segment} {serial : Word64} {ag : Bool} {a : BitVec 12} {i : BitVec 6} {n : Nat}
    (hjoin : g.joining = some (serial, ag)) (hassign : g.assign = some (a, i, n)) (hn : n < 3) (hnode : s.isHead = false) :
    s.assignTimeout g = State.withSearch (s.withSegment { g with assign := some (a, i, n + 1) }) g.port 0x03
      (bytesBE 8 serial.toNat ++ bytesBE 2 a.toNat ++ [BitVec.ofNat 8 i.toNat, BitVec.ofNat 8 (s.fram.hops.toNat + 1)] ++
        bytesBE 2 g.epoch.toNat) := by
  unfold State.assignTimeout
  rw [hjoin, hassign, ← State.segHopsOf_node hnode]
  exact if_pos hn

/-- The entry of an acknowledged node in its segment's table. -/
def State.segEntered (s : State) (p : Port) (i : BitVec 6) (serial : Word64) (a : BitVec 12) (ag : Bool) : State :=
  s.putSeg p i.toNat [serial.extractLsb' 0 16, serial.extractLsb' 16 16, serial.extractLsb' 32 16, pack [(a.toNat, 0), (b2n ag, 12), (1, 15)],
    i.setWidth 16]

theorem State.assignAck_enters {s : State} {g : Segment} {serial : Word64} {ag : Bool} {a : BitVec 12} {i : BitVec 6} {n : Nat}
    (hjoin : g.joining = some (serial, ag)) (hassign : g.assign = some (a, i, n)) (hnode : s.isHead = false) :
    s.assignAck g serial a = (s.segEntered g.port i serial a ag).nextQuery { g with joining := none, assign := none, joined := g.joined + 1 } := by
  unfold State.assignAck
  rw [hjoin, hassign]
  dsimp only
  rw [if_pos (by simp), hnode]
  rfl

theorem State.latchRssi_segOn (s : State) (r : RxSearch) (p : Port) : (s.latchRssi r).segOn p = s.segOn p := by
  obtain ⟨x, y, hlatch⟩ := latchRssi_cases s r
  rw [hlatch]
  rfl

/-- The acknowledged node's entry, and what else the step leaves. -/
theorem State.assignAck_spec {u : State} {g : Segment} {serial : Word64} {ag : Bool} {a : BitVec 12} {i : BitVec 6} {n l : Nat} {x : Word64}
    {rest : List (Nat × Word64)} (hok : u.fram.ok) (hopen : g.done = false) (hjoin : g.joining = some (serial, ag))
    (hassign : g.assign = some (a, i, n)) (hroll : g.roll = []) (hcut : g.cut = false) (hstack : g.stack = (l, x) :: rest)
    (hnode : u.isHead = false) :
    ∃ g', Keeps [.nv, .dl, .dn, .hb] u (u.assignAck g serial a) ∧ u.hostKept (u.assignAck g serial a) ∧
      (u.assignAck g serial a).segEntry g.port i.toNat = some (serial.setWidth 48, a, ag) ∧ (u.assignAck g serial a).searching g.port g' ∧
      g'.joined = g.joined + 1 ∧ g'.joining = none ∧ g'.assign = none ∧ g'.query = some (false, l, x) ∧
      ∀ k, (k < Config.key 4 (segBase g.port + 8 * (i.toNat - 1)) ∨ Config.key 4 (segBase g.port + 8 * (i.toNat - 1) + 7) < k) →
        (u.assignAck g serial a).nv k = u.nv k := by
  have hput : Keeps [.nv, .hb] u (u.segEntered g.port i serial a ag) := State.putSeg_keeps ..
  have hask := State.asksQuery_keeps (u.segEntered g.port i serial a ag)
    { g with joining := none, assign := none, joined := g.joined + 1, stack := rest } false l x
  have hnv (k : Nat) := State.nv_congr hask.rows hask.eqNv k
  rw [(State.assignAck_enters hjoin hassign hnode).trans (State.nextQuery_stack (u.segEntered g.port i serial a ag)
    (g := { g with joining := none, assign := none, joined := g.joined + 1 }) hroll hcut hstack)]
  exact ⟨_, (hask.mono (L := [.nv, .dl, .dn, .hb])).after hput.mono (by rfl), State.hostKept_trans (State.hostKept_nvPutAll ..) hask.hostKept,
    (segEntry_congr hnv ..).trans (putSeg_entry u hok g.port i.toNat serial a ag (i.setWidth 16)), ⟨State.asksQuery_segOn .., hopen⟩,
    rfl, rfl, rfl, rfl, fun k hk => (hnv k).trans (putSeg_nv u hok _ _ _ k hk)⟩

theorem exec_assignAck {s : State} {r : RxSearch} {g : Segment} {serial : Word64} {a : BitVec 12} (hlisten : s.listens r.port)
    (hseg : s.searching r.port g) (hp : r.payload = bytesBE 8 serial.toNat ++ bytesBE 2 a.toNat) :
    exec (.assignAck r) s = .next ((s.latchRssi r).assignAck g serial a) := by
  obtain ⟨hon, hopen⟩ := hseg
  have hserial : beAt r.payload 0 8 = serial.toNat := beAt_first hp serial.isLt
  have haddr : beAt r.payload 8 2 = a.toNat :=
    beAt_field_last (a := bytesBE 8 serial.toNat) (c := []) (by rw [hp]; simp) (bytesBE_length ..) (addr_lt_bytes a)
  have hword : BitVec.ofNat 64 serial.toNat = serial := (BitVec.ofNat_toNat ..).trans (BitVec.setWidth_eq _)
  have hself : BitVec.ofNat 12 a.toNat = a := (BitVec.ofNat_toNat ..).trans (BitVec.setWidth_eq _)
  refine (State.takeSearch_next hlisten).trans (congrArg _ ((onSegment_on ⟨(s.latchRssi_segOn r r.port).trans hon, hopen⟩ _).trans ?_))
  rw [hserial, haddr, hword, hself]

/-- R395: the acknowledged node in its segment's table, and the search goes on. -/
theorem assignAck_enters {s : State} {r : RxSearch} {g : Segment} {serial : Word64} {ag : Bool} {a : BitVec 12} {i : BitVec 6} {n l : Nat}
    {x : Word64} {rest : List (Nat × Word64)} (hinv : s.Inv) (hlisten : s.listens r.port) (hseg : s.searching r.port g)
    (hjoin : g.joining = some (serial, ag)) (hassign : g.assign = some (a, i, n)) (hp : r.payload = bytesBE 8 serial.toNat ++ bytesBE 2 a.toNat)
    (hroll : g.roll = []) (hcut : g.cut = false) (hstack : g.stack = (l, x) :: rest) (hnode : s.isHead = false) :
    ∃ t g', exec (.assignAck r) s = .next t ∧ State.sameBut [.nv, .dl, .dn, .hb] s t ∧ s.hostKept t ∧
      t.segEntry r.port i.toNat = some (serial.setWidth 48, a, ag) ∧ t.searching r.port g' ∧ g'.joined = g.joined + 1 ∧ g'.joining = none ∧
      g'.assign = none ∧ g'.query = some (false, l, x) ∧
      ∀ k, (k < Config.key 4 (segBase r.port + 8 * (i.toNat - 1)) ∨ Config.key 4 (segBase r.port + 8 * (i.toNat - 1) + 7) < k) →
        t.nv k = s.nv k := by
  have hport : g.port = r.port := segOn_port hseg.1
  obtain ⟨hfram, -, -, -, -, hhead, -⟩ := State.latchRssi_node (s := s) (r := r) rfl
  have hlatch := s.latchRssi_keeps r
  obtain ⟨g', hkeeps, hkept, hentry, hnext, hcount, hover, hfree, hquery, hrest⟩ :=
    State.assignAck_spec (u := s.latchRssi r) (hfram ▸ hinv.1) hseg.2 hjoin hassign hroll hcut hstack (hhead.trans hnode)
  rw [hport] at hentry hnext hrest
  exact ⟨_, g', exec_assignAck hlisten hseg hp, (hkeeps.after hlatch.mono (by rfl)).left, State.hostKept_trans hlatch.hostKept hkept, hentry,
    hnext, hcount, hover, hfree, hquery, fun k hk => (hrest k hk).trans (State.nv_congr hlatch.rows hlatch.eqNv k)⟩

/-! ## An entry the host reserves (R395) -/

/-- The row buffer as it stands afterwards. -/
def State.withRows (s : State) (out : List RowWrite) : State := { s with hb := { s.hb with rows := out } }

theorem State.withRows_keeps (s : State) {out : List RowWrite} (hone : out.length ≤ 1) (hwords : ∀ r ∈ out, ∀ p ∈ r.words, p.1 / 16 = r.row) :
    Keeps [.hb] s (s.withRows out) := Keeps.upd (Keeps.refl _ s) (h7 := fun _ => ⟨le_trans hone (by decide), hwords⟩)

/-- Words written one after the other into one row, with the buffer empty before: one buffered row takes them all. -/
theorem nvWrites_block {s : State} (hnvr : s.hb.nvr = true) (hrows : s.hb.rows = []) (reg word sp a row : Nat) (f : Nat → Word) : ∀ m : Nat,
    (∀ j, j < m → Config.key sp (a + j) / 16 = row) →
    ∃ out, ((List.range m).map (fun j => (Config.key sp (a + j), f j))).foldl (fun t p => t.nvWrite reg word p.1 p.2) s =
        s.withRows out ∧
      out.length ≤ 1 ∧ (∀ r ∈ out, r.row = row) ∧ (∀ r ∈ out, ∀ p ∈ r.words, p.1 / 16 = r.row) ∧
      ∀ k, (s.withRows out).nv k =
        if Config.key sp a ≤ k ∧ k < Config.key sp a + m then f (k - Config.key sp a) else s.nv k
  | 0, _ => by
    refine ⟨[], by rw [← hrows]; rfl, by simp, by simp, by simp, fun k => ?_⟩
    rw [if_neg (by omega), ← hrows]
    rfl
  | m + 1, hin => by
    obtain ⟨out, hsteps, hone, hrow, hwords, hnv⟩ := nvWrites_block hnvr hrows reg word sp a row f m fun j hj => hin j (by omega)
    have hlast := hin m (by omega)
    obtain ⟨out', hwrite, hone', hrow', hwords', hnv'⟩ := nvWrite_row (s.withRows out) hnvr reg word
      (Config.key sp (a + m)) (f m) hone (fun r hr => (hrow r hr).trans hlast.symm) hwords
    have hkey : Config.key sp (a + m) = Config.key sp a + m := by unfold Config.key; omega
    rw [hwrite] at hnv'
    refine ⟨out', ?_, hone', fun r hr => (hrow' r hr).trans hlast, hwords', fun k => (hnv' k).trans ?_⟩
    · rw [List.range_succ, List.map_append, List.foldl_append, hsteps]
      exact hwrite
    · rw [hnv k, hkey]
      by_cases hk : k = Config.key sp a + m
      · rw [if_pos hk, if_pos (by omega), hk, Nat.add_sub_cancel_left]
      · rw [if_neg hk]
        by_cases hlow : Config.key sp a ≤ k ∧ k < Config.key sp a + m
        · rw [if_pos hlow, if_pos (by omega)]
        · rw [if_neg hlow, if_neg (by omega)]

/-- The host's word for an entry's state, when it asks for free or reserved (R395). -/
def State.reserveWord (s : State) (n : Nat) (w : Word) : Word := merge (mask 5 3) (s.nodeWord n) (pack [(fld w 5 3, 5)])

theorem State.nodeCommit_row {s : State} (hnvr : s.hb.nvr = true) (hrows : s.hb.rows = []) (n : Nat) (held : List Word) (w : Word)
    (hask : fld w 5 3 = 0 ∨ fld w 5 3 = 4) (hnow : s.nodeState n = 0 ∨ s.nodeState n = 3 ∨ s.nodeState n = 4) :
    ∃ out, s.nodeCommit n held w = s.withRows out ∧ out.length ≤ 1 ∧
      (∀ r ∈ out, ∀ p ∈ r.words, p.1 / 16 = r.row) ∧
      ∀ k, (s.withRows out).nv k =
        if Config.key 6 (4 * n) ≤ k ∧ k < Config.key 6 (4 * n) + 4 then
          (if k - Config.key 6 (4 * n) < 3 then held.getD (k - Config.key 6 (4 * n)) (s.ntw (4 * n + (k - Config.key 6 (4 * n))))
           else s.reserveWord n w) else s.nv k := by
  obtain ⟨out, hsteps, hone, -, hwords, hnv⟩ := nvWrites_block hnvr hrows 0x50 (4 * n + 3) 6 (4 * n) (Config.key 6 (4 * n) / 16)
    (fun j => if j < 3 then held.getD j (s.ntw (4 * n + j)) else s.reserveWord n w) 4 fun j hj => by unfold Config.key; omega
  refine ⟨out, ?_, hone, hwords, hnv⟩
  unfold State.nodeCommit
  dsimp only
  rw [if_pos (by simp only [Bool.and_eq_true, Bool.or_eq_true, decide_eq_true_eq]; exact ⟨hask, or_assoc.2 hnow⟩),
    if_pos (by rw [hnvr, hrows]; rfl)]
  exact hsteps

/-- The DS window's pointer at the last word of the entry n, without auto-increment. -/
theorem nodePtr_fields {ptr : Word} {n : Nat} (hptr : ptr = BitVec.ofNat 16 (0x4000 + (4 * n + 3))) (hn : n ≤ 4095) :
    fld ptr 0 14 = 4 * n + 3 ∧ bitAt ptr 14 = true ∧ bitAt ptr 15 = false := by
  have hbits (i : Nat) : bitAt ptr i = decide ((0x4000 + (4 * n + 3)) / 2 ^ i % 2 = 1) := by
    rw [hptr]
    unfold bitAt
    rw [BitVec.getLsbD, Nat.testBit_eq_decide_div_mod_eq, BitVec.toNat_ofNat, Nat.mod_eq_of_lt (show 0x4000 + (4 * n + 3) < 2 ^ 16 by omega)]
  refine ⟨?_, (hbits 14).trans (decide_eq_true (by omega)), (hbits 15).trans (decide_eq_false (by omega))⟩
  rw [hptr]
  unfold fld
  rw [BitVec.toNat_ofNat, Nat.shiftRight_zero]
  omega

/-- The host's word for the entry n at the DS window's pointer: the commit of the entry, and its held words gone. -/
theorem State.writeReg_node {s : State} {n : Nat} {v : Word} {out : List RowWrite} (hptr : s.dn.ptr = BitVec.ofNat 16 (0x4000 + (4 * n + 3)))
    (hn : n ≤ 4095) (hrole : s.pins.role = .H)
    (hcommit : s.nodeCommit n ((List.range 3).map (fun i => s.heldWord (Config.key 6 (4 * n) + i))) v = s.withRows out) :
    s.writeReg .host false 0x50 v = (s.withRows out).unhold (Config.key 6 (4 * n)) 4 := by
  obtain ⟨hat, hnode, hstay⟩ := nodePtr_fields hptr hn
  have hput : s.writeNode (4 * n + 3) v = (s.withRows out).unhold (Config.key 6 (4 * n)) 4 := by
    have hthird : ¬ (4 * n + 3) % 4 ≠ 3 := by omega
    unfold State.writeNode
    rw [hrole, if_neg (by decide), if_neg hthird, show 4 * n + 3 - 3 = 4 * n by omega, show (4 * n + 3) / 4 = n by omega]
    exact congrArg (fun t : State => t.unhold (Config.key 6 (4 * n)) 4) hcommit
  refine (congrArg State.dsNext (if_pos hnode)).trans ?_
  rw [hat, hput]
  exact if_neg (Bool.eq_false_iff.1 hstay)

/-- R395: the entry's state from the host's word, its other words as they were held. -/
theorem nodeTable_reserved {s : State} {hi lo : Byte} {n : Nat} (hbus : s.busOn = true) (hlatch : s.hb.wlatch = some (0x50, lo))
    (harm : s.sc.armHost ≠ .armed) (hnvr : s.hb.nvr = true) (hrows : s.hb.rows = []) (hptr : s.dn.ptr = BitVec.ofNat 16 (0x4000 + (4 * n + 3)))
    (hn : n ≤ 4095) (hrole : s.pins.role = .H) (hask : fld (wordOf hi lo) 5 3 = 0 ∨ fld (wordOf hi lo) 5 3 = 4)
    (hnow : s.nodeState n = 0 ∨ s.nodeState n = 3 ∨ s.nodeState n = 4) :
    ∃ t, exec (.nodeTableWrite hi) s = .next t ∧ State.sameBut [.hb] s t ∧ t.nodeState n = fld (wordOf hi lo) 5 3 ∧
      { t.hb with rows := [] } = { (s.unhold (Config.key 6 (4 * n)) 4).hb with rows := [], wlatch := none } ∧
      t.nodeWord n = merge (mask 5 3) (s.nodeWord n) (pack [(fld (wordOf hi lo) 5 3, 5)]) ∧
      (∀ i, i < 3 → t.nv (Config.key 6 (4 * n + i)) = s.heldWord (Config.key 6 (4 * n + i))) ∧
      ∀ k, (k < Config.key 6 (4 * n) ∨ Config.key 6 (4 * n + 3) < k) → t.nv k = s.nv k := by
  obtain ⟨out, hcommit, hone, hwords, hnv⟩ := State.nodeCommit_row (s := s.unlatched) hnvr hrows n
    ((List.range 3).map (fun i => s.unlatched.heldWord (Config.key 6 (4 * n) + i))) (wordOf hi lo) hask hnow
  have hexec := (hostCommit_row s (.nodeTableWrite hi) 0x50 0x50 hi lo rfl hbus hlatch rfl (by decide) harm).trans
    (congrArg _ (State.writeReg_node hptr hn hrole hcommit))
  have hkeeps : Keeps [.hb] s ((s.unlatched.withRows out).unhold (Config.key 6 (4 * n)) 4) :=
    (State.unhold_keeps ..).after ((s.unlatched.withRows_keeps hone hwords).after s.unlatched_keeps (by rfl)) (by rfl)
  have hword : ((s.unlatched.withRows out).unhold (Config.key 6 (4 * n)) 4).nodeWord n = s.reserveWord n (wordOf hi lo) :=
    (hnv _).trans ((if_pos (by unfold Config.key; omega)).trans (if_neg (by unfold Config.key; omega)))
  refine ⟨_, hexec, hkeeps.left, ?_, rfl, hword, fun i hi3 => ?_, fun k hk => (hnv k).trans (if_neg (by unfold Config.key at *; omega))⟩
  · refine (congrArg (fun w => fld w 5 3) hword).trans ?_
    unfold State.reserveWord
    rw [fld_merge_new (by decide), fld_pack 5 (fld (wordOf hi lo) 5 3) 3 (Nat.mod_lt _ (by decide)) (by decide)]
  · have hat : Config.key 6 (4 * n + i) - Config.key 6 (4 * n) = i := by unfold Config.key; omega
    refine (hnv _).trans ((if_pos (by unfold Config.key; omega)).trans ((if_pos (by rw [hat]; exact hi3)).trans ?_))
    rw [hat, List.getD_eq_getElem _ _ (by simpa using hi3)]
    simp only [List.getElem_map, List.getElem_range]
    rw [show Config.key 6 (4 * n) + i = Config.key 6 (4 * n + i) by unfold Config.key; omega]
    rfl

end Sys2Proof.Machine
end

section
/-! PROOF. Sweeps: announced, held, latched, collected, closed; what becomes of a joining (R393 to R399, R484). -/

/- Proofs are elaborated one after the other: in parallel they outrun the kernel's checks of the text before them, and each that waits
holds a thread's memory. -/
set_option Elab.async false

open Sys2Proof

namespace Sys2Proof.Machine

/-! ## The head announces a sweep (R396) -/

/-- A sweep announced by the frame f, with its copies to come. -/
def State.announced (s : State) (f : DFrame) (number sec : Word32) (cyc : Nat) : State :=
  { s with
    fram := { s.fram with lastSweep := number },
    dl := { s.dl with queue := s.dl.queue ++ (s.portsOf f).map (s.queued f) },
    dn := { s.dn with
      seq := s.dn.seq + 1#16, pend := [{ number := number, sec := sec, cyc := cyc }], sweepSet := s.nodesIn (fun st => st == 1 || st == 2),
      copies := s.dn.copies ++ (List.range (max 1 (fld (s.dsw 0x2006) 0 2) - 1)).map (fun i => (f, s.pw.ticks + 50 * (i + 1))) } }

theorem State.announced_keeps (s : State) (f : DFrame) (number sec : Word32) (cyc : Nat) :
    Keeps [.fram, .dl, .dn] s (s.announced f number sec cyc) := Keeps.upd (Keeps.refl _ s)

theorem State.announce_first {s : State} (sec : Word32) (cyc lead : Nat) (hlast : s.lg.sweep = s.fram.lastSweep) (hpend : s.dn.pend = []) :
    s.announce sec cyc lead = s.announced (s.ownFrame 0 0x06 0x08 (bytesBE 4 (s.fram.lastSweep + 1).toNat ++ timeBytes sec cyc ++ bytesBE 2 lead))
      (s.fram.lastSweep + 1) sec cyc := by
  have hnumber : (if newer 32 s.lg.sweep s.fram.lastSweep then s.fram.lastSweep else s.lg.sweep) + 1#32 = s.fram.lastSweep + 1 := by
    rw [hlast, ite_self]
    rfl
  unfold State.announce
  rw [hnumber]
  dsimp only
  rw [State.originate_eq]
  dsimp only
  rw [hpend]
  rfl

/-- What an announcement's frame goes out on. -/
theorem portsOf_all {s : State} {f : DFrame} (h : f.flags.getLsbD 3 = true) : s.portsOf f = [Port.A, Port.B].filter s.portOn := if_pos h

/-! ## A sweep announced to this node (R396) -/

theorem sweep_fields {p : List Byte} {number sec : Word32} {cyc lead : Nat} (hcyc : cyc < 400000) (hlead : lead < 65536)
    (hp : p = bytesBE 4 number.toNat ++ timeBytes sec cyc ++ bytesBE 2 lead) :
    p.length = 14 ∧ beAt p 0 4 = number.toNat ∧ beAt p 4 4 = sec.toNat ∧ beAt p 8 4 = cyc ∧ beAt p 12 2 = lead := by
  have hlen (n v : Nat) := bytesBE_length n v
  unfold timeBytes at hp
  exact ⟨by rw [hp]; simp [hlen], beAt_first (c := bytesBE 4 sec.toNat ++ (bytesBE 4 cyc ++ bytesBE 2 lead)) (by rw [hp]; simp) number.isLt,
    beAt_field_last (a := bytesBE 4 number.toNat) (c := bytesBE 4 cyc ++ bytesBE 2 lead) (by rw [hp]; simp) (hlen ..) sec.isLt,
    beAt_field_last (a := bytesBE 4 number.toNat ++ bytesBE 4 sec.toNat) (c := bytesBE 2 lead) (by rw [hp]; simp) (by simp [hlen])
      (lt_trans hcyc (by decide)),
    beAt_field_last (a := bytesBE 4 number.toNat ++ bytesBE 4 sec.toNat ++ bytesBE 4 cyc) (c := []) (by rw [hp]; simp) (by simp [hlen]) hlead⟩

/-- A number is not newer than one newer than it, nor the same. -/
theorem not_newer_back {a b : Word32} (h : newer 32 a b = true) : newer 32 b a = false ∧ b ≠ a := by
  unfold newer at *
  rw [Bool.and_eq_true, decide_eq_true_eq, decide_eq_true_eq] at h
  obtain ⟨hpos, hhalf⟩ := h
  refine ⟨?_, fun hsame => ?_⟩
  · rw [Bool.and_eq_false_iff]
    refine Or.inr (decide_eq_false ?_)
    bv_omega
  · rw [hsame, BitVec.sub_self] at hpos
    exact absurd hpos (by decide)

theorem State.takeSweep_held {u : State} {f : RxFrame} {number sec : Word32} {cyc lead : Nat} (hsrc : f.frame.src = 0)
    (hp : f.frame.payload = bytesBE 4 number.toNat ++ timeBytes sec cyc ++ bytesBE 2 lead) (hcyc : cyc < 400000) (hearly : 100 ≤ lead)
    (hlead : lead < 65536) (hnew : newer 32 u.lg.sweep number = true) (hunheld : ∀ a ∈ u.dn.pend, a.number ≠ number)
    (htime : u.ck.ltv = true) (hahead : lineCount u.ck.lsec u.ck.lcyc < lineCount sec cyc) (hroom : u.dn.pend.length < 4) :
    u.takeSweep f = { u with dn := { u.dn with pend := u.dn.pend ++ [{ number := number, sec := sec, cyc := cyc }] } } := by
  obtain ⟨hlen, hnumber, hsec, hcycles, hleads⟩ := sweep_fields hcyc hlead hp
  obtain ⟨hback, hother⟩ := not_newer_back hnew
  have hknown : (number == u.lg.sweep || u.dn.pend.any (fun a => a.number == number)) = false := by
    rw [Bool.or_eq_false_iff, List.any_eq_false]
    exact ⟨beq_eq_false_iff_ne.2 hother, fun a ha => by simpa using hunheld a ha⟩
  have hself (x : Word32) : BitVec.ofNat 32 x.toNat = x := (BitVec.ofNat_toNat ..).trans (BitVec.setWidth_eq _)
  have huntil : ¬ u.until sec cyc ≤ 0 := by unfold State.until; omega
  unfold State.takeSweep
  dsimp only
  rw [hlen, hnumber, hsec, hcycles, hleads, hself, hself, if_neg (fun h => h hsrc), if_neg (fun h => h rfl), if_neg (by omega),
    if_neg (Bool.eq_false_iff.1 hback), if_neg (Bool.eq_false_iff.1 hknown), if_neg (by rw [htime]; decide), if_neg huntil,
    if_neg (by omega)]

/-! ## A sweep's instant (R397) -/

/-- The only held sweep taken at its instant. -/
def State.sweepTaken (s : State) (a : Announce) : State :=
  { s with
    dn := { s.dn with pend := [], swl := true }, lg := { s.lg with sweep := a.number }, fram := { s.fram with lastSweep := a.number } }

theorem State.sweepTaken_keeps (s : State) (a : Announce) : Keeps [.fram, .lg, .dn] s (s.sweepTaken a) := Keeps.upd (Keeps.refl _ s)

theorem State.sweepLatch_one {s : State} {a : Announce} (beside : Bool) (hpend : s.dn.pend = [a]) (hnode : s.isHead = false)
    (hlbad : s.lg.lbad = false) :
    s.sweepLatch beside = State.dnEvent (if beside then (s.sweepTaken a).joinTrigger a.number [(a.number, a.sec)]
      else (s.sweepTaken a).trigger 2 false [(a.number, a.sec)]) 0x0C09 a.number.toNat := by
  have hnow : [a].filter (fun x => x.sec == a.sec && x.cyc == a.cyc) = [a] := by simp
  have hlater : [a].filter (fun x => !(x.sec == a.sec && x.cyc == a.cyc)) = [] := by simp
  unfold State.sweepLatch
  rw [hpend]
  dsimp only [earliest]
  rw [hnow, hlater, hnode]
  exact congrArg (fun u : State => u.dnEvent 0x0C09 a.number.toNat) (if_neg (Bool.eq_false_iff.1 hlbad))

/-- The commit a sweep's instant asks for. -/
def State.sweepWaiting (s : State) (sweeps : List (Word32 × Word32)) : Waiting := { data := s.bankData 2 false 0, sweeps := sweeps }

theorem State.trigger_free {s : State} (sweeps : List (Word32 × Word32)) (hlbad : s.lg.lbad = false) (hcur : s.lg.cur = none)
    (hseq : s.lg.seq.toNat < 0xFFFFFFFE) : s.trigger 2 false sweeps = s.commitBegun (s.sweepWaiting sweeps) := by
  unfold State.trigger
  rw [hcur]
  exact (if_neg (Bool.eq_false_iff.1 hlbad)).trans (State.beginCommit_room _ hseq)

/-- The commit in progress that a sweep's instant joins. -/
def State.commitJoined (s : State) (c : Commit) (number : Word32) (sweeps : List (Word32 × Word32)) : State :=
  { s with lg := { s.lg with cur := some (s.bankCommit { c.data with reason := c.data.reason ||| 2, sweep := number } (c.sweeps ++ sweeps)) } }

theorem State.commitJoined_keeps (s : State) (c : Commit) (number : Word32) (sweeps : List (Word32 × Word32)) :
    Keeps [.lg] s (s.commitJoined c number sweeps) := Keeps.upd (Keeps.refl _ s)

theorem State.joinTrigger_current {s : State} {c : Commit} (number : Word32) (sweeps : List (Word32 × Word32)) (hlbad : s.lg.lbad = false)
    (hcur : s.lg.cur = some c) (hwait : s.lg.waiting = []) : s.joinTrigger number sweeps = s.commitJoined c number sweeps := by
  unfold State.joinTrigger
  rw [hcur, hwait]
  exact if_neg (Bool.eq_false_iff.1 hlbad)

/-! ## The collection at the head (R398) -/

/-- The record of the last sweep, with the nodes left to ask and the one asked. -/
def State.collecting (s : State) (a : BitVec 12) (todo : List (BitVec 12)) : State :=
  { s with dn := { s.dn with
    counts := [0, 0, 0, 0], collects := [{ number := s.lg.sweep, todo := todo, asked := some a, counts := [], late := false }] } }

/-- The nodes in the system, by address. -/
def State.members (s : State) : List (BitVec 12) :=
  ((List.range 4096).map (BitVec.ofNat 12)).filter (fun x => x != 0 && s.present x.toNat)

theorem State.mem_members {s : State} {a : BitVec 12} : a ∈ s.members ↔ a ≠ 0 ∧ s.present a.toNat = true := by
  unfold State.members
  rw [List.mem_filter, Bool.and_eq_true, bne_iff_ne]
  refine and_iff_right (List.mem_map.2 ⟨a.toNat, List.mem_range.2 a.isLt, ?_⟩)
  exact (BitVec.ofNat_toNat ..).trans (BitVec.setWidth_eq _)

/-- The record open, no node asked yet. -/
def State.collectOpen (s : State) (todo : List (BitVec 12)) : State :=
  { s with dn := { s.dn with
    counts := [0, 0, 0, 0], collects := [{ number := s.lg.sweep, todo := todo, asked := none, counts := [], late := false }] } }

theorem State.collectStart_opens {s : State} (hidle : s.dn.collects = [])
    (hset : ∀ a ∈ s.dn.sweepSet, a ≠ 0 ∧ s.present a.toNat = true) : s.collectStart = State.collectNext (8199 + 1) (s.collectOpen s.members) := by
  have hmembers := collects_todo s hset _ rfl
  unfold State.collectStart
  dsimp only
  rw [hmembers]
  unfold State.addCollect
  dsimp only
  rw [hidle]
  exact if_pos rfl

/-- R398: the first member asked. -/
theorem State.collectStart_asks {s : State} (hidle : s.dn.collects = []) (hset : ∀ a ∈ s.dn.sweepSet, a ≠ 0 ∧ s.present a.toNat = true)
    (hsome : ∃ a : BitVec 12, a ≠ 0 ∧ s.present a.toNat = true) :
    ∃ a todo, a :: todo = s.members ∧
      s.collectStart = State.asked (s.collecting a todo) a 0x07 (bytesBE 4 s.lg.sweep.toNat) false := by
  obtain ⟨x, hx⟩ := hsome
  have hmem := State.mem_members.2 hx
  cases hlist : s.members with
  | nil => rw [hlist] at hmem; exact absurd hmem List.not_mem_nil
  | cons a todo =>
    obtain ⟨-, hpresent⟩ := State.mem_members.1 (show a ∈ s.members by rw [hlist]; exact List.mem_cons_self)
    refine ⟨a, todo, rfl, ?_⟩
    rw [State.collectStart_opens hidle hset, hlist, collectNext_ask 8199 (s.collectOpen (a :: todo)) _ [] a todo rfl rfl hpresent]
    exact asked_eq (s.collecting a todo) a 0x07 (bytesBE 4 s.lg.sweep.toNat) false

/-! ## COLLECT at a node, and its reply at the head (R398, R399) -/

theorem State.answerCollect_of {u : State} {f : RxFrame} {number : Word32} (hsrc : f.frame.src = 0)
    (hp : f.frame.payload = bytesBE 4 number.toNat) :
    (∀ b, u.snapOf number = some b → u.answerCollect f = u.answered f (f.frame.payload ++ [0] ++ b)) ∧
    (u.snapOf number = none → u.answerCollect f = u.answered f (f.frame.payload ++
      [if u.fram.snaps.length = 64 ∧ ∀ e ∈ u.fram.snaps, newer 32 number (BitVec.ofNat 32 (leAt e.2 4 4)) = true then 2 else 1])) := by
  have hlen : f.frame.payload.length = 4 := by rw [hp, bytesBE_length]
  have hnumber : BitVec.ofNat 32 (beAt f.frame.payload 0 4) = number := by
    rw [beAt_first (c := []) (by rw [hp]; simp) number.isLt]
    exact (BitVec.ofNat_toNat ..).trans (BitVec.setWidth_eq _)
  unfold State.answerCollect
  rw [if_neg (fun h => h hsrc), if_neg (fun h => h hlen)]
  dsimp only
  rw [hnumber]
  refine ⟨fun b hb => by rw [hb]; rfl, fun hnone => ?_⟩
  rw [hnone]
  refine congrArg (fun x : Byte => u.answered f (f.frame.payload ++ [x])) (if_congr ?_ rfl rfl)
  rw [Bool.and_eq_true, beq_iff_eq, List.all_eq_true]

/-- A reply taken for the host, its request closed. -/
def State.replyTaken (s : State) (rest : List Request) (f : DFrame) : State :=
  { s with dn := { s.dn with reqs := rest, rxf := s.dn.rxf ++ fifoWords (entryBytes f) } }

theorem State.replyTaken_keeps {s : State} {rest : List Request} {f : DFrame} (hroom : s.dn.rxf.length + 8 + f.payload.length ≤ 4120) :
    Keeps [.dn] s (s.replyTaken rest f) := by
  have hpush := State.dnPush_keeps { s with dn := { s.dn with reqs := rest } } f
  rw [dnPush_room { s with dn := { s.dn with reqs := rest } } f hroom] at hpush
  exact hpush.after (Keeps.upd (Keeps.refl _ s)) (by rfl)

theorem exec_collectReply {s u : State} {f : RxFrame} {r : Request} {rest : List Request} (hhears : s.hears f) (hu : u = s.heard f)
    (htype : f.frame.type = 0x07) (hreply : f.frame.flags.getLsbD 4 = true) (hwaits : u.awaits f r rest)
    (hroom : u.dn.rxf.length + 8 + f.frame.payload.length ≤ 4120) :
    exec (.collectReply f) s = .next (if r.host then u.replyTaken rest f.frame else (u.replyTaken rest f.frame).collectSettle
      (if (payAt f.frame.payload 4).toNat = 0 then 1 else if (payAt f.frame.payload 4).toNat = 2 then 4 else 3)) := by
  refine State.when_next s (by rw [htype, hreply]; rfl) ?_
  rw [State.takeFrame_hears s f hhears, ← hu, takeReply_found u f r rest hwaits]
  have hfits : State.dnFits { u with dn := { u.dn with reqs := rest } } f.frame = true := by
    unfold State.dnFits
    rw [entry_len]
    exact decide_eq_true (show u.dn.rxf.length + (8 + f.frame.payload.length) ≤ 4120 by omega)
  unfold State.collectReply
  rw [if_pos hfits]
  dsimp only
  rw [dnPush_room { u with dn := { u.dn with reqs := rest } } f.frame hroom]
  rfl

/-- The entry of a node that gave its snapshot (R399). -/
def State.entrySettled (s : State) (n : Nat) : State := (s.putNode n 8 3 1).putNode n 11 5 0

theorem State.entrySettled_keeps (s : State) (n : Nat) : Keeps [.nv, .hb] s (s.entrySettled n) :=
  (State.putNode_keeps ..).after (State.putNode_keeps ..) (by rfl)

theorem entrySettled_spec (s : State) (h : s.fram.ok) (n : Nat) :
    fld ((s.entrySettled n).nodeWord n) 8 3 = 1 ∧ fld ((s.entrySettled n).nodeWord n) 11 5 = 0 ∧
      ∀ k, k ≠ Config.key 6 (4 * n + 3) → (s.entrySettled n).nv k = s.nv k := by
  have hput := putNode_ok s h n 8 3 1
  have hword : (s.entrySettled n).nodeWord n =
      Sys2Proof.Machine.merge (mask 11 5) (Sys2Proof.Machine.merge (mask 8 3) (s.nodeWord n) (pack [(1, 8)])) (pack [(0, 11)]) := by
    rw [State.entrySettled, putNode_word _ hput, putNode_word s h]
  refine ⟨?_, ?_, fun k hk => ?_⟩
  · rw [hword, fld_merge_old (by decide), fld_merge_new (by decide), fld_pack 8 1 3 (by decide) (by decide)]
  · rw [hword, fld_merge_new (by decide), fld_pack 11 0 5 (by decide) (by decide)]
  · rw [State.entrySettled, putNode_nv _ hput _ _ _ _ k hk, putNode_nv s h _ _ _ _ k hk]

/-- The record closed with its counts. -/
def State.recordClosed (s : State) (counts : List Nat) : State :=
  { s with dn := { s.dn with collects := [], counts := counts, swl := true } }

theorem State.recordClosed_keeps (s : State) (counts : List Nat) : Keeps [.dn] s (s.recordClosed counts) := Keeps.upd (Keeps.refl _ s)

/-- The data of event 0x0C0B. -/
def recordData (number : Word32) (counts : List Nat) : Nat :=
  evData [(number.toNat % 4096, 0), (counts.getD 0 0, 12), (counts.getD 1 0, 24), (counts.getD 2 0, 36)]

/-- The last node of the record gave its snapshot. -/
theorem State.collectSettle_last {s : State} {c : Collect} {a : BitVec 12} (hone : s.dn.collects = [c]) (hasked : c.asked = some a)
    (htodo : c.todo = []) (hlate : c.late = false) :
    s.collectSettle 1 = ((s.entrySettled a.toNat).recordClosed (countUp s.dn.counts 0)).dnEvent 0x0C0B
      (recordData c.number (countUp s.dn.counts 0)) := by
  have hsettle (x : State) (d : Collect) (hd : d.late = false) : x.settleEntry d a 1 =
      { x.entrySettled a.toNat with dn := { (x.entrySettled a.toNat).dn with counts := countUp (x.entrySettled a.toNat).dn.counts 0 } } := by
    unfold State.settleEntry
    dsimp only
    rw [hd]
    rfl
  unfold State.collectSettle
  rw [hone]
  dsimp only
  rw [hasked]
  dsimp only
  rw [hsettle _ _ hlate]
  refine (collectNext_close 8198 _ { c with asked := none } rfl htodo hlate).trans ?_
  unfold State.closeRecord
  rw [if_neg (Bool.eq_false_iff.1 hlate)]
  rfl

/-- R399: the last node of the record answered. -/
theorem collectReply_closes {s u : State} {f : RxFrame} {r : Request} {rest : List Request} {c : Collect} {n0 n1 n2 n3 : Nat} {number : List Byte}
    (hhears : s.hears f) (hu : u = s.heard f) (htype : f.frame.type = 0x07) (hreply : f.frame.flags.getLsbD 4 = true)
    (hwaits : u.awaits f r rest) (hhost : r.host = false) (hok : u.fram.ok) (hroom : u.dn.rxf.length + 8 + f.frame.payload.length ≤ 4120)
    (hnumber : number.length = 4) (hp : ∃ b, f.frame.payload = number ++ [0] ++ b) (hone : u.dn.collects = [c])
    (hasked : c.asked = some f.frame.src) (htodo : c.todo = []) (hlate : c.late = false) (hcounts : u.dn.counts = [n0, n1, n2, n3])
    (hevents : u.ev.buf.length < 32) :
    ∃ t, exec (.collectReply f) s = .next t ∧ State.sameBut [.nv, .dn, .ev, .irq, .hb] u t ∧ u.hostKept t ∧ t.dn.collects = [] ∧ t.dn.swl = true ∧
      t.dn.rxf = u.dn.rxf ++ fifoWords (entryBytes f.frame) ∧ t.dn.counts = [n0 + 1, n1, n2, n3] ∧
      fld (t.nodeWord f.frame.src.toNat) 8 3 = 1 ∧ fld (t.nodeWord f.frame.src.toNat) 11 5 = 0 ∧ t.hb.irq = u.hb.irq ||| 0x1000#16 ∧
      t.ev = { u.ev with buf := u.ev.buf ++
        [u.eventOf 0x0C0B (c.number.toNat % 4096 + (n0 + 1) * 2 ^ 12 + n1 * 2 ^ 24 + n2 * 2 ^ 36)] } ∧
      ∀ k, k ≠ Config.key 6 (4 * f.frame.src.toNat + 3) → t.nv k = u.nv k := by
  obtain ⟨b, hbytes⟩ := hp
  have hzero : payAt f.frame.payload 4 = 0 := payAt_field (a := number) (c := b) (by rw [hbytes]; simp) hnumber
  have htaken : Keeps [.dn] u (u.replyTaken rest f.frame) := State.replyTaken_keeps hroom
  have hentry := (u.replyTaken rest f.frame).entrySettled_keeps f.frame.src.toNat
  have hclosed := ((u.replyTaken rest f.frame).entrySettled f.frame.src.toNat).recordClosed_keeps [n0 + 1, n1, n2, n3]
  have hboth : Keeps [.nv, .dn, .hb] u _ := (hclosed.mono (L := [.nv, .dn, .hb])).after (hentry.after htaken.mono (by rfl)) (by rfl)
  have hdata : recordData c.number [n0 + 1, n1, n2, n3] = c.number.toNat % 4096 + (n0 + 1) * 2 ^ 12 + n1 * 2 ^ 24 + n2 * 2 ^ 36 := evData_four ..
  have hsettle := State.collectSettle_last (s := u.replyTaken rest f.frame) hone hasked htodo hlate
  rw [show countUp (u.replyTaken rest f.frame).dn.counts 0 = [n0 + 1, n1, n2, n3] from (congrArg (countUp · 0) hcounts :), hdata] at hsettle
  obtain ⟨hstate, hmissed, hrest⟩ := entrySettled_spec (u.replyTaken rest f.frame) hok f.frame.src.toNat
  have hexec := exec_collectReply hhears hu htype hreply hwaits hroom
  rw [hhost, hzero, if_neg (by decide), if_pos (by decide), hsettle] at hexec
  generalize hlast : ((u.replyTaken rest f.frame).entrySettled f.frame.src.toNat).recordClosed [n0 + 1, n1, n2, n3] = x at *
  have hlog := State.dnEvent_keeps x 0x0C0B (c.number.toNat % 4096 + (n0 + 1) * 2 ^ 12 + n1 * 2 ^ 24 + n2 * 2 ^ 36)
  have hevent := State.dnEvent_room (s := x) (by rw [hboth.eqEv]; exact hevents) 0x0C0B
    (c.number.toNat % 4096 + (n0 + 1) * 2 ^ 12 + n1 * 2 ^ 24 + n2 * 2 ^ 36)
  have hnv (k : Nat) : (x.dnEvent 0x0C0B (c.number.toNat % 4096 + (n0 + 1) * 2 ^ 12 + n1 * 2 ^ 24 + n2 * 2 ^ 36)).nv k =
      ((u.replyTaken rest f.frame).entrySettled f.frame.src.toNat).nv k :=
    (State.nv_congr hlog.rows hlog.eqNv k).trans (State.nv_congr hclosed.rows hclosed.eqNv k)
  refine ⟨_, hexec, (hlog.after hboth.mono (by rfl)).left, ?_, ?_, ?_, ?_, ?_, ?_, ?_, ?_, ?_, fun k hk => ?_⟩
  · exact State.hostKept_trans (State.hostKept_trans htaken.hostKept (State.hostKept_trans (rfl : State.hostKept _ ((u.replyTaken rest f.frame).entrySettled f.frame.src.toNat)) hclosed.hostKept)) hlog.hostKept
  · rw [hlog.eqDn, ← hlast]; rfl
  · rw [hlog.eqDn, ← hlast]; rfl
  · rw [hlog.eqDn, ← hlast]; rfl
  · rw [hlog.eqDn, ← hlast]; rfl
  · exact (congrArg (fun w => fld w 8 3) (hnv _)).trans hstate
  · exact (congrArg (fun w => fld w 11 5) (hnv _)).trans hmissed
  · rw [hevent, ← hboth.eqIrq]
  · rw [hevent, ← hboth.eqEv, ← eventOf_congr hboth]
  · exact (hnv k).trans (hrest k hk)

/-- R397: the only held sweep latched, a commit begun for it. -/
theorem sweepLatch_commits {s : State} {a : Announce} (hrun : s.running = true) (htime : s.ck.ltv = true) (hpend : s.dn.pend = [a])
    (hnode : s.isHead = false) (hlbad : s.lg.lbad = false) (hcur : s.lg.cur = none) (hseq : s.lg.seq.toNat < 0xFFFFFFFE)
    (hroom : s.ev.buf.length < 32) :
    ∃ t, exec (.sweepLatch false) s = .next t ∧ State.sameBut [.fram, .lg, .ev, .dn, .irq] s t ∧ t.dn = { s.dn with pend := [], swl := true } ∧
      t.fram = { s.fram with lastSweep := a.number } ∧ t.lg.sweep = a.number ∧ t.lg.seq = s.lg.seq + 1 ∧
      t.lg.cur.map (fun c => c.sweeps) = some [(a.number, a.sec)] ∧ t.hb.irq = s.hb.irq ||| 0x1000#16 ∧
      t.ev = { s.ev with buf := s.ev.buf ++ [s.eventOf 0x0C09 a.number.toNat] } := by
  have hbegun := State.commitBegun_keeps (s.sweepTaken a) ((s.sweepTaken a).sweepWaiting [(a.number, a.sec)])
  have hlog := State.dnEvent_keeps ((s.sweepTaken a).commitBegun ((s.sweepTaken a).sweepWaiting [(a.number, a.sec)])) 0x0C09 a.number.toNat
  have hexec : exec (.sweepLatch false) s = _ := State.when_next s (by rw [hrun, htime]; rfl) ((State.sweepLatch_one false hpend hnode hlbad).trans
    (congrArg (fun u : State => u.dnEvent 0x0C09 a.number.toNat) (State.trigger_free (s := s.sweepTaken a) [(a.number, a.sec)] hlbad hcur hseq)))
  have hboth : Keeps [.fram, .lg, .dn] s _ := hbegun.after (s.sweepTaken_keeps a) (by rfl)
  have hevent := State.dnEvent_room (s := (s.sweepTaken a).commitBegun ((s.sweepTaken a).sweepWaiting [(a.number, a.sec)])) hroom 0x0C09
    a.number.toNat
  refine ⟨_, hexec, (hlog.after hboth.mono (by rfl)).left, hlog.eqDn, hlog.eqFramAll, ?_, ?_, ?_, ?_, ?_⟩
  · rw [hlog.eqLg]; rfl
  · rw [hlog.eqLg]; rfl
  · rw [hlog.eqLg]; rfl
  · rw [hevent]; rfl
  · rw [hevent, ← eventOf_congr hboth]; rfl

/-- R397: the only held sweep latched beside another trigger, whose commit takes its number. -/
theorem sweepLatch_joins {s : State} {a : Announce} {c : Commit} (hrun : s.running = true) (htime : s.ck.ltv = true) (hpend : s.dn.pend = [a])
    (hnode : s.isHead = false) (hlbad : s.lg.lbad = false) (hcur : s.lg.cur = some c) (hwait : s.lg.waiting = []) :
    ∃ t d, exec (.sweepLatch true) s = .next t ∧ State.sameBut [.fram, .lg, .ev, .dn, .irq] s t ∧
      d = { c.data with reason := c.data.reason ||| 2, sweep := a.number } ∧
      t.lg = { s.lg with sweep := a.number, cur := some { toB := d.seq.getLsbD 0, data := d, sweeps := c.sweeps ++ [(a.number, a.sec)],
                                                          bytes := bankBytes s.ledgerKey s.fram.serial (d.seq.getLsbD 0) d } } := by
  have hjoin := State.commitJoined_keeps (s.sweepTaken a) c a.number [(a.number, a.sec)]
  have hlog := State.dnEvent_keeps ((s.sweepTaken a).commitJoined c a.number [(a.number, a.sec)]) 0x0C09 a.number.toNat
  have hexec : exec (.sweepLatch true) s = _ := State.when_next s (by rw [hrun, htime]; rfl) ((State.sweepLatch_one true hpend hnode hlbad).trans
    (congrArg (fun u : State => u.dnEvent 0x0C09 a.number.toNat)
      (State.joinTrigger_current (s := s.sweepTaken a) a.number [(a.number, a.sec)] hlbad hcur hwait)))
  have hboth : Keeps [.fram, .lg, .dn] s _ := hjoin.after (s.sweepTaken_keeps a) (by rfl)
  exact ⟨_, _, hexec, (hlog.after hboth.mono (by rfl)).left, rfl, hlog.eqLg⟩

/-- R396: the head announces the next sweep. -/
theorem sweepIssue_announces {s : State} {per : Nat} {number : Word32} {f : DFrame} (hrun : s.running = true) (hhead : s.isHead = true)
    (htime : s.ck.ltv = true) (hper : per = (s.dsw 0x2004).toNat * 60) (hsome : per ≠ 0) (hlast : s.lg.sweep = s.fram.lastSweep)
    (hnumber : number = s.fram.lastSweep + 1) (hpend : s.dn.pend = [])
    (hf : f = s.ownFrame 0 0x06 0x08 (bytesBE 4 number.toNat ++ timeBytes (BitVec.ofNat 32 ((s.ck.lsec.toNat / per + 1) * per)) 0 ++
      bytesBE 2 (max 10 (s.dsw 0x2005).toNat * 10))) :
    exec .sweepIssue s = .next (s.announced f number (BitVec.ofNat 32 ((s.ck.lsec.toNat / per + 1) * per)) 0) := by
  refine State.when_next s (by rw [hrun, hhead, htime]; rfl) ?_
  unfold State.sweepIssue
  dsimp only
  rw [← hper, if_neg hsome, State.announce_first _ _ _ hlast hpend, hf, hnumber]

/-- Settles O58: the joining's clauses from `join_refused` to `nodeTable_reserved`, the sweep's from `sweepIssue_announces` to
`collectReply_closes`. -/
theorem joiningAndSweeps : Obligations.JoiningAndSweeps := by
  unfold Obligations.JoiningAndSweeps
  refine ⟨?refused, ?admitted, ?adopts, ?turnedAway, ?assigns, ?again, ?enters, ?reserves, ?announces, ?copies, ?holds, ?latches, ?joins,
    ?collects, ?gives, ?closes, ?host⟩
  case refused =>
    intro s u f serial hops segn hnew hu hhead hp
    exact join_refused hnew hu hhead hp
  case admitted =>
    intro s u f serial hops segn n hnew hu hhead hinv hp hhops hsegn h1 hn hentry hmissed
    obtain ⟨hown, hfirst, habsent⟩ | ⟨hfree, hlower, hunknown⟩ := hentry
    · exact join_admitted hnew hu hhead hinv.1 hp hhops hsegn hn (allocate_known h1 hn hown hfirst) habsent hmissed
    · have habsent : u.present n = false := by unfold State.present; rw [hfree]; rfl
      exact join_admitted hnew hu hhead hinv.1 hp hhops hsegn hn (nodes_free u _ n h1 hn hfree hlower hunknown) habsent hmissed
  case adopts =>
    intro s u r a idx hops e hlisten hu hrun hagent hnode hout hroom hp
    exact assign_adopts hlisten hu hrun hagent hnode hout hroom hp
  case turnedAway =>
    intro s u r code idx hops e hlisten hu hrun hagent hnode hout hroom hp
    obtain ⟨hfram, -, hev, hevent, -, hhead, -⟩ := State.latchRssi_node hu
    rw [exec_assign hlisten hu hrun hagent, State.takeAssign_refused (hhead.trans hnode) ((congrArg Fram.joined hfram).trans hout) (hfram ▸ hp),
      State.dnEvent_room (s := u.turnedAway e) (hev ▸ hroom), ← hevent]
    rfl
  case assigns =>
    intro s u f r rest serial a g ag segs i hhears hu htype hreply hwaits hp hsegs hjoin hassign h1 h63 hfree hlower hnode
    refine State.when_next s (by rw [htype, hreply]; rfl) ?_
    have hserial : beAt f.frame.payload 0 8 = serial.toNat := beAt_first hp serial.isLt
    have haddr : beAt f.frame.payload 8 2 = a.toNat :=
      beAt_field_last (a := bytesBE 8 serial.toNat) (c := []) (by rw [hp]; simp) (bytesBE_length ..) (addr_lt_bytes a)
    have hword : BitVec.ofNat 64 serial.toNat = serial := (BitVec.ofNat_toNat ..).trans (BitVec.setWidth_eq _)
    rw [State.takeFrame_hears s f hhears, ← hu, takeReply_found u f r rest hwaits, hserial, haddr, hword,
      State.joiningOf_first (s := { u with dn := { u.dn with reqs := rest } }) hsegs hjoin hassign]
    exact State.assigned_free (s := { u with dn := { u.dn with reqs := rest } }) a hjoin (freeIdx_lowest h1 h63 hfree hlower) hnode
  case again =>
    intro s p g serial ag a i n hrun hseg hjoin hassign hn hnode
    refine State.when_next s hrun ((onSegment_on hseg _).trans ?_)
    rw [State.assignTimeout_again hjoin hassign hn hnode, segOn_port hseg.1]
  case enters =>
    intro s r g serial ag a i n l x rest hinv hlisten hseg hjoin hassign hp _ hroll hcut hstack hnode
    exact assignAck_enters hinv hlisten hseg hjoin hassign hp hroll hcut hstack hnode
  case reserves =>
    intro s hi lo n _ hbus hlatch harm hnvr hrows hptr hn hrole hask hnow
    exact nodeTable_reserved hbus hlatch harm hnvr hrows hptr hn hrole hask hnow
  case announces =>
    intro s per number f hrun hhead htime hper hsome hlast hnumber hpend hf
    have hall : s.portsOf f = [Port.A, Port.B].filter s.portOn := portsOf_all (by rw [hf]; exact (by decide : (0x08 : BitVec 5).getLsbD 3 = true))
    have hexec := sweepIssue_announces hrun hhead htime hper hsome hlast hnumber hpend hf
    generalize BitVec.ofNat 32 ((s.ck.lsec.toNat / per + 1) * per) = sec at *
    exact ⟨_, hexec, (s.announced_keeps f number sec 0).left, rfl, rfl, by dsimp only [State.announced], rfl,
      congrArg (fun ps : List Port => s.dl.queue ++ ps.map (s.queued f)) hall, rfl⟩
  case copies =>
    intro s f at_ hrun hone hdue hall
    have hnow : [(f, at_)].filter (fun c => decide (c.2 ≤ s.pw.ticks)) = [(f, at_)] := by simp [hdue]
    have hlater : [(f, at_)].filter (fun c => decide (s.pw.ticks < c.2)) = [] := by simp [hdue]
    unfold State.copiesTick
    rw [hone, hnow, hlater, hrun]
    refine (State.sendFrame_eq { s with dn := { s.dn with copies := [] } } f).trans ?_
    rw [portsOf_all hall]
    rfl
  case holds =>
    intro s u f number sec cyc lead hhears hu htype hsrc hp hcyc hearly hlead hnew hunheld htime hahead hroom
    refine State.when_next s (by rw [htype]; rfl) ?_
    rw [State.takeFrame_hears s f hhears, ← hu]
    exact State.takeSweep_held hsrc hp hcyc hearly hlead hnew hunheld htime hahead hroom
  case latches =>
    intro s a hrun htime hpend hnode hlbad hcur hseq hroom
    exact sweepLatch_commits hrun htime hpend hnode hlbad hcur hseq hroom
  case joins =>
    intro s a c hrun htime hpend hnode hlbad hcur hwait _
    exact sweepLatch_joins hrun htime hpend hnode hlbad hcur hwait
  case collects =>
    intro s hrun hhead hidle hset hsome
    obtain ⟨a, todo, hlist, hstart⟩ := State.collectStart_asks hidle hset hsome
    exact ⟨_, _, a, todo, State.when_next s (by rw [hrun, hhead]; rfl) hstart, rfl, rfl, hlist⟩
  case gives =>
    intro s u f number hnew hu hsrc hp
    obtain ⟨hhears, htype, hrequest, hone, hfresh⟩ := hnew
    refine State.when_next s (by rw [htype, hrequest]; rfl) ?_
    rw [State.takeFrame_hears s f hhears, ← hu, orRepeat_none s u f hfresh hu]
    obtain ⟨hhas, hhasnot⟩ := State.answerCollect_of (u := u) hsrc hp
    cases hsnap : u.snapOf number with
    | some b => exact hhas b hsnap
    | none => exact hhasnot hsnap
  case closes =>
    intro s u f r rest c n0 n1 n2 n3 number hhears hu htype hreply hwaits hhost hinv hroom hnumber hp hone hasked htodo hlate hcounts hevents
    exact collectReply_closes hhears hu htype hreply hwaits hhost hinv.1 hroom hnumber hp hone hasked htodo hlate hcounts hevents
  case host =>
    intro s u f r rest hhears hu htype hreply hwaits hhost hroom
    rw [exec_collectReply hhears hu htype hreply hwaits hroom, hhost]
    rfl

end Sys2Proof.Machine
end

section
/-! PROOF. The policy rules: assertion, release, acknowledge, commit, defaults, enable (R404 to R416). -/

/- Proofs are elaborated one after the other: in parallel they outrun the kernel's checks of the text before them, and each that waits
holds a thread's memory. -/
set_option Elab.async false

open Sys2Proof

namespace Sys2Proof.Machine

/-! ## What a rule's fields and the rules in force depend on (R402, R408, R409) -/

theorem ruleAction_congr {s t : State} (hnv : ∀ k, t.plw k = s.plw k) (m : Nat) : t.ruleAction m = s.ruleAction m := by
  unfold State.ruleAction
  rw [hnv]

theorem ruleIrq_congr {s t : State} (hnv : ∀ k, t.plw k = s.plw k) (m : Nat) : t.ruleIrq m = s.ruleIrq m := by
  unfold State.ruleIrq
  rw [hnv]

/-- An operation that leaves the FRAM words alone leaves the rules' fields. -/
theorem Keeps.plw {L : List Part} {s t : State} (h : Keeps L s t) (hnv : L.contains .nv = false := by with_unfolding_all rfl)
    (hhb : L.contains .hb = false := by with_unfolding_all rfl) (k : Nat) : t.plw k = s.plw k := plw_congr (h.rows hhb) (h.eqNv hnv) k

/-- A rule that turns neither an alarm nor a freeze on or off leaves both as they are (R408, R409). -/
theorem resolve_quiet {s t : State} {n : Nat} (hothers : ∀ m, m ≠ n → t.ruleAt m = s.ruleAt m) (haction : ∀ m, t.ruleAction m = s.ruleAction m)
    (hquiet : s.ruleAction n = 6 ∨ s.ruleAction n = 8) (hnone : s.prevailing = none) (halarm : t.lp.alarm = 0) (halm : t.fe.alm = s.actionOn 4) :
    t.resolveFreeze.resolveAlarm = t := by
  have hfreeze : t.resolveFreeze = t := by
    refine resolveFreeze_quiet t (halm.trans (actionOn_congr s t 4 fun m _ => ?_).symm)
    rw [haction m]
    by_cases hm : m = n
    · obtain h | h := hquiet <;> rw [hm, h] <;> simp
    · rw [hothers m hm]
  have hstill : t.prevailing = none := by
    refine (prevailing_none t).2 fun m hm hforce => ?_
    rw [haction m]
    by_cases hown : m = n
    · obtain h | h := hquiet <;> rw [hown, h] <;> decide
    · rw [hothers m hown] at hforce
      exact (prevailing_none s).1 hnone m hm hforce
  rw [hfreeze]
  exact resolveAlarm_quiet t hstill halarm

/-! ## An assertion, step by step (R406, R407) -/

/-- The rule's run state at its assertion. -/
def Rule.asserted (r : Rule) : Rule := { r with state := 2, count := 0, dueOn := false, dueOff := false }

/-- The rule in force. -/
def State.asserting (s : State) (n : Nat) : State := s.setRule n (s.ruleAt n).asserted

/-- Its action on the flow engine and the pair done. -/
def State.assertActed (s : State) (n : Nat) : State :=
  State.notify (if (s.asserting n).ruleAction n = 5 then (s.asserting n).applyAdapt else s.asserting n) n

/-- Alarm level and freeze after it. -/
def State.assertResolved (s : State) (n : Nat) : State := (s.assertActed n).resolveFreeze.resolveAlarm

theorem State.ruleAssert_eq (s : State) (n : Nat) : s.ruleAssert n =
    if ((s.assertResolved n).logAssert n).ruleIrq n || ((s.assertResolved n).logAssert n).ruleAction n == 8
    then ((s.assertResolved n).logAssert n).irq 13 else (s.assertResolved n).logAssert n := rfl

theorem State.asserting_keeps (s : State) (n : Nat) : Keeps [.pl] s (s.asserting n) := State.setRule_keeps ..

theorem State.adapted_keeps (s : State) (n : Nat) :
    Keeps [.lg, .ev, .irq] (s.asserting n) (if (s.asserting n).ruleAction n = 5 then (s.asserting n).applyAdapt else s.asserting n) :=
  Keeps.ite (fun _ => State.applyAdapt_keeps _) (fun _ => Keeps.refl _ _)

theorem State.assertActed_keeps (s : State) (n : Nat) : Keeps [.lg, .ev, .an, .irq] (s.asserting n) (s.assertActed n) :=
  (State.notify_keeps ..).after (s.adapted_keeps n).mono (by rfl)

theorem State.resolved_keeps (s : State) : Keeps [.ad, .fe, .ev, .lp, .irq] s s.resolveFreeze.resolveAlarm :=
  (State.resolveAlarm_keeps _).after (s.resolveFreeze_keeps).mono (by rfl)

theorem State.assertResolved_keeps (s : State) (n : Nat) :
    Keeps [.ad, .fe, .lg, .ev, .an, .lp, .irq] (s.asserting n) (s.assertResolved n) :=
  (State.resolved_keeps _).after (s.assertActed_keeps n).mono (by rfl)

theorem State.irq_keeps' (s : State) (b : Bool) (i : Nat) : Keeps [.irq] s (if b then s.irq i else s) :=
  Keeps.ite (fun _ => State.irq_keeps s i) (fun _ => Keeps.refl _ s)

theorem State.assertLogged_keeps (s : State) (n : Nat) : Keeps [.ev, .pl, .irq] (s.assertResolved n) (s.ruleAssert n) :=
  (State.irq_keeps' ..).after (State.logAssert_keeps ..).mono (by rfl)

/-- The rules' run states after an assertion. -/
theorem ruleAssert_rules {s : State} (h : s.pl.rules.length = 32) {n : Nat} (hn : n < 32) :
    ((s.ruleAssert n).ruleAt n).state = 2 ∧ ((s.ruleAssert n).ruleAt n).dueOn = false ∧
      ((s.ruleAssert n).ruleAt n).value = (s.ruleAt n).value ∧
      (∀ m, ((s.ruleAssert n).ruleAt m).inForce = ((s.asserting n).ruleAt m).inForce) ∧
      ∀ m, (s.ruleAssert n).ruleAction m = s.ruleAction m := by
  have hpl := (s.assertResolved_keeps n).eqPl
  have hrule (m : Nat) : (s.assertResolved n).ruleAt m = (s.asserting n).ruleAt m := congrArg (fun p : Pl => p.rules.getD m {}) hpl
  have hset (m : Nat) : (s.asserting n).ruleAt m = if m = n then (s.ruleAt n).asserted else s.ruleAt m := ruleAt_setRule s n m _ h hn
  have hlen : (s.assertResolved n).pl.rules.length = 32 := by
    rw [hpl]
    exact (setAt_length s.pl.rules n _).trans h
  obtain ⟨hstate, hdue, hvalue, hforce⟩ := logAssert_rule (s.assertResolved n) hlen n hn
  have hlast (m : Nat) : (s.ruleAssert n).ruleAt m = ((s.assertResolved n).logAssert n).ruleAt m := by
    rw [State.ruleAssert_eq]
    exact congrArg (fun p : Pl => p.rules.getD m {}) (State.irq_keeps' ..).eqPl
  have hown := (hrule n).trans ((hset n).trans (if_pos rfl))
  refine ⟨?_, ?_, ?_, fun m => ?_, ruleAction_congr (s.ruleAssert_keeps n).plw⟩
  · rw [hlast, hstate, hown]; rfl
  · rw [hlast, hdue, hown]; rfl
  · rw [hlast, hvalue, hown]; rfl
  · rw [hlast, hforce, hrule]

/-- What the action of a rule brings at its assertion (R407, R409, R411, R413). -/
theorem ruleAssert_acts {s : State} (h : s.pl.rules.length = 32) {n : Nat} (hn : n < 32) :
    (s.ruleAction n = 4 → (s.ruleAssert n).fe.alm = true) ∧
    (s.ruleAction n = 7 → s.fram.anState = 3 → (s.ruleAssert n).an.noticeDue = true) ∧
    (s.ruleIrq n = true ∨ s.ruleAction n = 8 → (s.ruleAssert n).hb.irq.getLsbD 13 = true) := by
  have hacted : Keeps [.pl, .lg, .ev, .an, .irq] s (s.assertActed n) :=
    ((s.assertActed_keeps n).mono (L := [.pl, .lg, .ev, .an, .irq])).after (s.asserting_keeps n).mono (by rfl)
  refine ⟨fun hfour => ?_, fun hseven hpaired => ?_, fun hirq => ?_⟩
  · have hfe : (s.ruleAssert n).fe.alm = (s.assertActed n).actionOn 4 := by
      rw [(s.assertLogged_keeps n).eqFe, State.assertResolved, (State.resolveAlarm_keeps _).eqFe]
      rfl
    have hown : (s.assertActed n).pl.rules.getD n {} = (s.ruleAt n).asserted := by
      rw [(s.assertActed_keeps n).eqPl]
      exact (ruleAt_setRule s n n _ h hn).trans (if_pos rfl)
    rw [hfe]
    exact List.any_eq_true.2 ⟨n, List.mem_range.2 hn, by rw [hown, ruleAction_congr hacted.plw, hfour]; rfl⟩
  · have han : (s.ruleAssert n).an = (s.assertActed n).an := by
      rw [(s.assertLogged_keeps n).eqAn, State.assertResolved, (State.resolved_keeps _).eqAn]
    have hadapted : Keeps [.pl, .lg, .ev, .irq] s (if (s.asserting n).ruleAction n = 5 then (s.asserting n).applyAdapt else s.asserting n) :=
      ((s.adapted_keeps n).mono (L := [.pl, .lg, .ev, .irq])).after (s.asserting_keeps n).mono (by rfl)
    rw [han]
    unfold State.assertActed State.notify
    rw [if_pos ⟨(ruleAction_congr hadapted.plw n).trans hseven, (congrArg Fram.anState hadapted.eqFramAll).trans hpaired⟩]
  · have hlogged : Keeps [.ad, .fe, .lg, .ev, .an, .lp, .pl, .irq] s ((s.assertResolved n).logAssert n) :=
      (State.logAssert_keeps _ n).after (((s.assertResolved_keeps n).mono (L := [.ad, .fe, .lg, .ev, .an, .lp, .pl, .irq])).after
        (s.asserting_keeps n).mono (by rfl)) (by rfl)
    rw [State.ruleAssert_eq, ruleIrq_congr hlogged.plw, ruleAction_congr hlogged.plw, if_pos (by simpa using hirq)]
    exact irq_bit _

/-- The rule's run state at an assertion that is logged. -/
def Rule.assertLogged (r : Rule) : Rule := { r.asserted with secLogs := r.secLogs + 1 }

/-- An assertion whose action is 6 or 8 and which resolves nothing is its run state and its log (R407, R413). -/
theorem ruleAssert_quiet {s : State} (h : s.pl.rules.length = 32) {n : Nat} (hn : n < 32) (haction : s.ruleAction n = 6 ∨ s.ruleAction n = 8)
    (hnone : s.prevailing = none) (halarm : s.lp.alarm = 0) (halm : s.fe.alm = s.actionOn 4) (hlogs : (s.ruleAt n).secLogs < 8)
    (hroom : s.ev.buf.length < 32) :
    s.ruleAssert n = { s with
      pl := { s.pl with rules := setAt s.pl.rules n { s.ruleAt n with
        state := 2, count := 0, dueOn := false, dueOff := false, secLogs := (s.ruleAt n).secLogs + 1 } },
      ev := { s.ev with buf := s.ev.buf ++ [s.eventOf 0x0D01 (n + s.ruleAction n * 2 ^ 8 + (s.ruleAt n).value.toNat * 2 ^ 16)] },
      hb := if s.ruleIrq n = true ∨ s.ruleAction n = 8 then { s.hb with irq := s.hb.irq ||| 0x2000#16 } else s.hb } := by
  have hfields := (s.asserting_keeps n).plw
  have hact := ruleAction_congr hfields
  have hset (m : Nat) : (s.asserting n).ruleAt m = if m = n then (s.ruleAt n).asserted else s.ruleAt m := ruleAt_setRule s n m _ h hn
  have hown := (hset n).trans (if_pos rfl)
  have hacted : s.assertActed n = s.asserting n := by
    have hfive : (s.asserting n).ruleAction n ≠ 5 := by rw [hact]; obtain h6 | h8 := haction <;> omega
    have hseven : (s.asserting n).ruleAction n ≠ 7 := by rw [hact]; obtain h6 | h8 := haction <;> omega
    unfold State.assertActed State.notify
    rw [if_neg hfive, if_neg (fun hboth => hseven hboth.1)]
  have hresolved : s.assertResolved n = s.asserting n := by
    unfold State.assertResolved
    rw [hacted]
    exact resolve_quiet (s := s) (t := s.asserting n) (fun m hm => (hset m).trans (if_neg hm)) hact haction hnone halarm halm
  have hdata : (s.asserting n).ruleData n = n + s.ruleAction n * 2 ^ 8 + (s.ruleAt n).value.toNat * 2 ^ 16 := by
    unfold State.ruleData
    rw [evData_three, hact, hown]
    rfl
  have hlogged : (s.asserting n).logAssert n =
      (s.setRule n (s.ruleAt n).assertLogged).logEv 0x0D01 (n + s.ruleAction n * 2 ^ 8 + (s.ruleAt n).value.toNat * 2 ^ 16) := by
    have hrules : (s.asserting n).setRule n (s.ruleAt n).assertLogged = s.setRule n (s.ruleAt n).assertLogged :=
      congrArg (fun rules => ({ s with pl := { s.pl with rules := rules } } : State)) (setAt_setAt ..)
    rw [logAssert_room _ _ (by rw [hown]; exact hlogs), hown, hdata, ← hrules]
    rfl
  have hboth : Keeps [.ev, .pl] s ((s.asserting n).logAssert n) := (State.logAssert_keeps _ n).after (s.asserting_keeps n).mono (by rfl)
  rw [State.ruleAssert_eq, hresolved, ruleIrq_congr hboth.plw, ruleAction_congr hboth.plw, hlogged,
    State.logEv_room (s.setRule n (s.ruleAt n).assertLogged) _ _ hroom]
  by_cases hirq : s.ruleIrq n = true ∨ s.ruleAction n = 8
  · rw [if_pos hirq, if_pos (by simpa using hirq)]
    rfl
  · rw [if_neg hirq, if_neg (by simpa using hirq)]
    rfl

/-- An alarm action sets loop A's alarm level, where loop A is not driven yet (R408). -/
theorem ruleAssert_alarm {s : State} (h : s.pl.rules.length = 32) {n : Nat} (hn : n < 32) (h1 : 1 ≤ s.ruleAction n) (h3 : s.ruleAction n ≤ 3)
    (hrole : s.loopARole = true) (hnone : s.prevailing = none) (halarm : s.lp.alarm = 0) (hdriving : s.lp.driving = false) :
    (s.ruleAssert n).lp = { s.lp with
      alarm := BitVec.ofNat 2 (s.ruleAction n), holdAt := if s.ruleAction n = 3 then max 3400000 s.lp.target else s.lp.holdAt } ∧
    (s.ruleAssert n).prevailing = some (n, s.ruleAction n) := by
  have hset (m : Nat) : (s.asserting n).ruleAt m = if m = n then (s.ruleAt n).asserted else s.ruleAt m := ruleAt_setRule s n m _ h hn
  have hin : ((s.asserting n).ruleAt n).inForce = true := by rw [hset, if_pos rfl]; rfl
  have honly (t : State) (hforce : ∀ m, (t.ruleAt m).inForce = ((s.asserting n).ruleAt m).inForce)
      (haction : ∀ m, t.ruleAction m = s.ruleAction m) : t.prevailing = some (n, s.ruleAction n) := by
    refine prevailing_only t n (s.ruleAction n) hn (haction n) h1 h3 ((hforce n).trans hin) fun m hm hother hf => ?_
    rw [hforce, hset, if_neg hother] at hf
    rw [haction]
    exact (prevailing_none s).1 hnone m hm hf
  obtain ⟨-, -, -, hforce, haction⟩ := ruleAssert_rules h hn
  refine ⟨?_, honly _ hforce haction⟩
  have hacted : Keeps [.pl, .lg, .ev, .an, .fe, .irq] s (s.assertActed n).resolveFreeze :=
    (State.resolveFreeze_keeps _).after (((s.assertActed_keeps n).mono (L := [.pl, .lg, .ev, .an, .fe, .irq])).after
      (s.asserting_keeps n).mono (by rfl)) (by rfl)
  have hprevails : (s.assertActed n).resolveFreeze.prevailing = some (n, s.ruleAction n) := by
    refine honly _ (fun m => ?_) (ruleAction_congr hacted.plw)
    exact congrArg (fun p : Pl => (p.rules.getD m {}).inForce) (((State.resolveFreeze_keeps _).eqPl).trans (s.assertActed_keeps n).eqPl)
  rw [(s.assertLogged_keeps n).eqLp, State.assertResolved]
  generalize (s.assertActed n).resolveFreeze = t at *
  have hlevel : BitVec.ofNat 2 (s.ruleAction n) ≠ t.lp.alarm := by
    rw [hacted.eqLp, halarm]
    interval_cases s.ruleAction n <;> decide
  have hthree : (BitVec.ofNat 2 (s.ruleAction n) = 3) = (s.ruleAction n = 3) := by
    interval_cases s.ruleAction n <;> decide
  have hrole' : t.loopARole = true := by
    unfold State.loopARole
    rw [hacted.eqPins]
    exact hrole
  unfold State.resolveAlarm
  rw [hrole', hprevails]
  dsimp only
  rw [if_pos rfl, if_neg hlevel]
  unfold State.driveAlarm
  rw [if_neg (by rw [hacted.eqLp, hdriving]; decide)]
  dsimp only
  simp only [hthree, hacted.eqLp]

/-! ## A release (R406) -/

/-- The rule's run state at its end. -/
def Rule.ended (r : Rule) : Rule := { r with state := 0, count := 0, dueOn := false, dueOff := false }

/-- A rule no longer among the latched. -/
def State.ruleUnlatched (s : State) (n : Nat) : State :=
  { s with fram := { s.fram with latched := s.fram.latched &&& ~~~(1#32 <<< n) } }

theorem State.ruleUnlatched_keeps (s : State) (n : Nat) : Keeps [.fram] s (s.ruleUnlatched n) := Keeps.upd (Keeps.refl _ s)

/-- The rule IDLE, and no longer among the latched. -/
def State.ending (s : State) (n : Nat) : State := (s.setRule n (s.ruleAt n).ended).ruleUnlatched n

/-- Alarm level and freeze after it, and its NOTICE. -/
def State.endResolved (s : State) (n : Nat) : State := ((s.ending n).notify n).resolveFreeze.resolveAlarm

theorem State.ruleEnd_inForce {s : State} {n : Nat} (h : (s.ruleAt n).inForce = true) : s.ruleEnd n =
    if ((s.endResolved n).logEv 0x0D02 (s.ruleData n)).ruleIrq n then ((s.endResolved n).logEv 0x0D02 (s.ruleData n)).irq 13
    else (s.endResolved n).logEv 0x0D02 (s.ruleData n) := if_pos h

theorem State.ending_keeps (s : State) (n : Nat) : Keeps [.fram, .pl] s (s.ending n) :=
  (State.ruleUnlatched_keeps ..).after (State.setRule_keeps ..).mono (by rfl)

theorem State.endResolved_keeps (s : State) (n : Nat) : Keeps [.ad, .fe, .ev, .an, .lp, .irq] (s.ending n) (s.endResolved n) :=
  (State.resolved_keeps _).after (State.notify_keeps _ n).mono (by rfl)

theorem State.endLogged_keeps {s : State} {n : Nat} (h : (s.ruleAt n).inForce = true) : Keeps [.ev, .irq] (s.endResolved n) (s.ruleEnd n) := by
  rw [State.ruleEnd_inForce h]
  exact (State.irq_keeps' ..).after (State.logEv_keeps ..).mono (by rfl)

theorem ruleRelease_ends {s : State} {n : Nat} (h : s.ruleLatch n = false) : s.ruleRelease n = s.ruleEnd n :=
  if_neg (Bool.eq_false_iff.1 h)

theorem exec_ruleRelease {s : State} {n : BitVec 5} (hrun : s.running = true) (hen : s.plEn = true) (hdue : (s.ruleAt n.toNat).dueOff = true) :
    exec (.ruleRelease n) s = .next (s.ruleRelease n.toNat) := State.when_next s (by rw [hrun, hen, hdue]; rfl) rfl

theorem exec_ruleAssert {s : State} {n : BitVec 5} (hrun : s.running = true) (hen : s.plEn = true) (hdue : (s.ruleAt n.toNat).dueOn = true) :
    exec (.ruleAssert n) s = .next (s.ruleAssert n.toNat) := State.when_next s (by rw [hrun, hen, hdue]; rfl) rfl

/-- The end of a rule in force (R406, R409, R411). -/
theorem ruleEnd_spec {s : State} (h : s.pl.rules.length = 32) {n : Nat} (hn : n < 32) (hforce : (s.ruleAt n).inForce = true) :
    ((s.ruleEnd n).ruleAt n).state = 0 ∧ (s.ruleEnd n).fram = { s.fram with latched := s.fram.latched &&& ~~~(1#32 <<< n) } ∧
      (s.ruleEnd n).fe.alm = (s.ruleEnd n).actionOn 4 ∧
      (s.ruleAction n = 7 → s.fram.anState = 3 → (s.ruleEnd n).an.noticeDue = true) ∧
      (s.ruleIrq n = true → (s.ruleEnd n).hb.irq.getLsbD 13 = true) := by
  have hlogged := State.endLogged_keeps hforce
  have hafter : Keeps [.ad, .fe, .ev, .an, .lp, .irq] (s.ending n) (s.ruleEnd n) := hlogged.after (s.endResolved_keeps n).mono (by rfl)
  have hending := s.ending_keeps n
  have hnotified := State.notify_keeps (s.ending n) n
  refine ⟨?_, hafter.eqFramAll, ?_, fun hseven hpaired => ?_, fun hirq => ?_⟩
  · have hown : (s.ruleEnd n).ruleAt n = (s.ruleAt n).ended :=
      (congrArg (fun p : Pl => p.rules.getD n {}) hafter.eqPl).trans ((ruleAt_setRule s n n _ h hn).trans (if_pos rfl))
    rw [hown]
    rfl
  · have hfe : (s.ruleEnd n).fe.alm = ((s.ending n).notify n).actionOn 4 := by
      rw [hlogged.eqFe, State.endResolved, (State.resolveAlarm_keeps _).eqFe]
      rfl
    rw [hfe]
    have hrest : Keeps [.ad, .fe, .ev, .lp, .irq] ((s.ending n).notify n) (s.ruleEnd n) := hlogged.after (State.resolved_keeps _).mono (by rfl)
    refine (actionOn_congr _ _ 4 fun m _ => ?_).symm
    rw [ruleAction_congr hrest.plw m]
    exact congrArg (fun p : Pl => (p.rules.getD m {}).inForce && ((s.ending n).notify n).ruleAction m == 4) hrest.eqPl
  · rw [hlogged.eqAn, State.endResolved, (State.resolved_keeps _).eqAn]
    unfold State.notify
    rw [if_pos ⟨(ruleAction_congr hending.plw n).trans hseven, hpaired⟩]
  · have hall : Keeps [.fram, .pl, .ad, .fe, .ev, .an, .lp, .irq] s ((s.endResolved n).logEv 0x0D02 (s.ruleData n)) :=
      (State.logEv_keeps ..).after (((s.endResolved_keeps n).mono (L := [.fram, .pl, .ad, .fe, .ev, .an, .lp, .irq])).after
        hending.mono (by rfl)) (by rfl)
    rw [State.ruleEnd_inForce hforce, ruleIrq_congr hall.plw, if_pos hirq]
    exact irq_bit _

/-- The end of a rule in force whose action is 6 or 8 and which resolves nothing. -/
theorem ruleEnd_quiet {s : State} (h : s.pl.rules.length = 32) {n : Nat} (hn : n < 32) (hforce : (s.ruleAt n).inForce = true)
    (haction : s.ruleAction n = 6 ∨ s.ruleAction n = 8) (hnone : s.prevailing = none) (halarm : s.lp.alarm = 0) (halm : s.fe.alm = s.actionOn 4)
    (hroom : s.ev.buf.length < 32) :
    s.ruleEnd n = { s with
      pl := { s.pl with rules := setAt s.pl.rules n { s.ruleAt n with state := 0, count := 0, dueOn := false, dueOff := false } },
      fram := { s.fram with latched := s.fram.latched &&& ~~~(1#32 <<< n) },
      ev := { s.ev with buf := s.ev.buf ++ [s.eventOf 0x0D02 (n + s.ruleAction n * 2 ^ 8 + (s.ruleAt n).value.toNat * 2 ^ 16)] },
      hb := if s.ruleIrq n = true then { s.hb with irq := s.hb.irq ||| 0x2000#16 } else s.hb } := by
  have hending := s.ending_keeps n
  have hact := ruleAction_congr hending.plw
  have hset (m : Nat) : (s.ending n).ruleAt m = if m = n then (s.ruleAt n).ended else s.ruleAt m := ruleAt_setRule s n m _ h hn
  have hunnotified : (s.ending n).notify n = s.ending n := by
    refine if_neg fun hboth => ?_
    have hseven := (hact n).symm.trans hboth.1
    obtain h6 | h8 := haction <;> omega
  have hresolved : s.endResolved n = s.ending n := by
    unfold State.endResolved
    rw [hunnotified]
    exact resolve_quiet (s := s) (t := s.ending n) (fun m hm => (hset m).trans (if_neg hm)) hact haction hnone halarm halm
  have hdata : s.ruleData n = n + s.ruleAction n * 2 ^ 8 + (s.ruleAt n).value.toNat * 2 ^ 16 := evData_three ..
  have hboth : Keeps [.fram, .pl, .ev] s ((s.ending n).logEv 0x0D02 (n + s.ruleAction n * 2 ^ 8 + (s.ruleAt n).value.toNat * 2 ^ 16)) :=
    (State.logEv_keeps ..).after hending.mono (by rfl)
  rw [State.ruleEnd_inForce hforce, hresolved, hdata, ruleIrq_congr hboth.plw, State.logEv_room (s.ending n) _ _ hroom]
  by_cases hirq : s.ruleIrq n = true
  · rw [if_pos hirq, if_pos hirq]
    rfl
  · rw [if_neg hirq, if_neg hirq]
    rfl

/-! ## The host's words (R404, R406, R412, R414) -/

/-- The words of an ACK: each bit that names a latched rule whose condition is false is taken. -/
theorem ackWrite_bits (s : State) (half : Nat) (w : Word) {n : Nat} (hn : n < 32) :
    (s.ackWrite half w).pl.ack.getLsbD n = (s.pl.ack.getLsbD n ||
      (decide (n / 16 = half) && bitAt w (n % 16) && (s.ruleAt n).state == 4 &&
        !ruleCond (s.ruleCmp n) (s.source (s.ruleSrc n)) (s.ruleThr n))) := by
  refine (foldl_bits _ (16 * half) n hn _).trans (congrArg (s.pl.ack.getLsbD n || ·) (Bool.eq_iff_iff.2 ?_))
  rw [List.any_eq_true]
  constructor
  · rintro ⟨i, hi, heq⟩
    rw [decide_eq_true_eq] at heq
    rw [List.mem_filter, List.mem_range] at hi
    obtain ⟨hlow, htaken⟩ := hi
    rw [heq] at htaken
    rw [show n / 16 = half by omega, show n % 16 = i by omega]
    simpa using htaken
  · intro htaken
    simp only [Bool.and_eq_true, decide_eq_true_eq] at htaken
    obtain ⟨⟨⟨hhalf', hbit⟩, hstate⟩, hcond⟩ := htaken
    have hat : 16 * half + n % 16 = n := by omega
    refine ⟨n % 16, List.mem_filter.2 ⟨List.mem_range.2 (Nat.mod_lt _ (by decide)), ?_⟩, decide_eq_true hat⟩
    rw [hat]
    simp only [Bool.and_eq_true]
    exact ⟨⟨hbit, hstate⟩, hcond⟩

theorem writeReg_plData (s : State) (armed : Bool) (v : Word) : s.writeReg .host armed 0x72 v = (s.writePl s.pl.ptr.toNat v).plNext := rfl

theorem plNext_pl (s : State) : s.plNext.pl = { s.pl with ptr := if s.pl.ainc then s.pl.ptr + 1 else s.pl.ptr } := by
  unfold State.plNext
  cases s.pl.ainc <;> rfl

theorem writePl_ack {s : State} {half : Nat} (hhalf : half ≤ 1) (v : Word) : s.writePl (0x104 + half) v = s.ackWrite half v := by
  unfold State.writePl
  rw [if_neg (by omega), if_pos (by omega), Nat.add_sub_cancel_left]

/-- A rule's new words in line for their audit row, unless they are the words it has. -/
def State.ruleQueued (s : State) (n : Nat) (ws : List Word) : State :=
  { s with lg := if ws = (List.range 8).map (fun i => s.nv (Config.key 5 (8 * n + i))) then s.lg
                 else { s.lg with queue := s.lg.queue ++ [.rule n ws] } }

theorem State.ruleQueued_keeps (s : State) (n : Nat) (ws : List Word) : Keeps [.lg] s (s.ruleQueued n ws) := Keeps.upd (Keeps.refl _ s)

/-- The last word of a rule: the rule, with its words as they were held, in line for its audit row unless it is as it was. -/
theorem writePl_rule {s : State} {n : Nat} {ws : List Word} (v : Word) (hn : n < 32) (hnvr : s.hb.nvr = true) (hstart : s.startUp = false)
    (hopen : s.aon.sealOpen = true) (hroom : s.lg.acount < 2048)
    (hws : ws = (List.range 7).map (fun i => s.heldWord (Config.key 5 (8 * n + i))) ++ [0]) :
    s.writePl (8 * n + 7) v = (s.unhold (Config.key 5 (8 * n)) 8).ruleQueued n ws := by
  have hkey : Config.key 5 (8 * n + 7) % 8 = 7 := by unfold Config.key; omega
  have hbase : Config.key 5 (8 * n + 7) - 7 = Config.key 5 (8 * n) := by unfold Config.key; omega
  have hword (i : Nat) : Config.key 5 (8 * n) + i = Config.key 5 (8 * n + i) := by unfold Config.key; omega
  have hzero : v &&& ruleMask ((8 * n + 7) % 8) = 0 := by
    rw [show (8 * n + 7) % 8 = 7 by omega]
    exact BitVec.and_zero
  unfold State.writePl
  rw [if_pos (by omega), State.early_nvr _ _ _ hnvr, State.gate_open _ _ _ hstart hopen, hzero, show (8 * n + 7) / 8 = n by omega]
  unfold State.writeGroup
  rw [hkey]
  dsimp only
  rw [hbase, if_neg (by decide)]
  simp only [hword]
  rw [show List.range (8 - 1) = List.range 7 from rfl, ← hws]
  have hqueued : (s.unhold (Config.key 5 (8 * n)) 8).ruleQueued n ws = { s.unhold (Config.key 5 (8 * n)) 8 with
      lg := if ws = (List.range 8).map (fun i => s.nv (Config.key 5 (8 * n + i))) then s.lg
        else { s.lg with queue := s.lg.queue ++ [.rule n ws] } } := rfl
  rw [hqueued]
  by_cases hsame : ws = (List.range 8).map (fun i => s.nv (Config.key 5 (8 * n + i)))
  · rw [if_pos hsame, ← hsame, bne_self_eq_false]
    rfl
  · rw [if_neg hsame]
    exact State.propose_room _ _ _ _ (bne_iff_ne.2 hsame) hroom

/-- PL_CTL with the seal open: a changed EN, and under the unlock the defaults, in line for their audit rows. -/
theorem writePlCtl_open {s : State} (armed : Bool) (v : Word) (hnvr : s.hb.nvr = true) (hstart : s.startUp = false)
    (hopen : s.aon.sealOpen = true) :
    s.writePlCtl armed v =
      if armed && bitAt v 1 then (s.propose 0x6E (bitAt v 0 != s.plEn) (.policyEn (bitAt v 0))).propose 0x6E true .defaults
      else s.propose 0x6E (bitAt v 0 != s.plEn) (.policyEn (bitAt v 0)) := by
  unfold State.writePlCtl
  rw [State.early_nvr _ _ _ hnvr, State.gate_open _ _ _ hstart hopen]

theorem writeReg_plCtl (s : State) (armed : Bool) (v : Word) : s.writeReg .host armed 0x6E v = s.writePlCtl armed v := rfl

/-- Settles O59: the assertions from `ruleAssert_rules` and `ruleAssert_acts`, the releases from `ruleEnd_spec`, the host's words from the
window's and PL_CTL's equations. -/
theorem policyRules : Obligations.PolicyRules := by
  unfold Obligations.PolicyRules
  refine ⟨?asserts, ?quiet, ?alarm, ?latches, ?ends, ?endsQuiet, ?ack, ?commit, ?defaults, ?enable, ?closed⟩
  case asserts =>
    intro s n hinv hrun hen hdue
    obtain ⟨-, -, -, -, -, hlen⟩ := hinv
    obtain ⟨hstate, hover, hvalue, -⟩ := ruleAssert_rules hlen n.isLt
    obtain ⟨hfreeze, hnotice, hirq⟩ := ruleAssert_acts hlen n.isLt
    exact ⟨_, exec_ruleAssert hrun hen hdue, (s.ruleAssert_keeps n.toNat).left, hstate, hover, hvalue, hfreeze, hnotice, hirq⟩
  case quiet =>
    intro s n hinv hrun hen hdue haction hnone halarm halm hlogs hroom
    obtain ⟨-, -, -, -, -, hlen⟩ := hinv
    exact (exec_ruleAssert hrun hen hdue).trans (congrArg _ (ruleAssert_quiet hlen n.isLt haction hnone halarm halm hlogs hroom))
  case alarm =>
    intro s n hinv hrun hen hdue h1 h3 hrole hnone halarm hdriving
    obtain ⟨-, -, -, -, -, hlen⟩ := hinv
    exact ⟨_, exec_ruleAssert hrun hen hdue, ruleAssert_alarm hlen n.isLt h1 h3 hrole hnone halarm hdriving⟩
  case latches =>
    intro s n hrun hen hdue hlatch
    exact (exec_ruleRelease hrun hen hdue).trans (congrArg _ (if_pos hlatch))
  case ends =>
    intro s n hinv hrun hen hdue hlatch hforce
    obtain ⟨-, -, -, -, -, hlen⟩ := hinv
    have hexec := (exec_ruleRelease hrun hen hdue).trans (congrArg _ (ruleRelease_ends hlatch))
    exact ⟨_, hexec, (s.ruleEnd_keeps n.toNat).left, ruleEnd_spec hlen n.isLt hforce⟩
  case endsQuiet =>
    intro s n hinv hrun hen hdue hlatch hforce haction hnone halarm halm hroom
    obtain ⟨-, -, -, -, -, hlen⟩ := hinv
    exact (exec_ruleRelease hrun hen hdue).trans (congrArg _ ((ruleRelease_ends hlatch).trans
      (ruleEnd_quiet hlen n.isLt hforce haction hnone halarm halm hroom)))
  case ack =>
    intro s hi lo half hbus hlatch harm hhalf hptr
    have hat : s.unlatched.pl.ptr.toNat = 0x104 + half := by
      rw [show s.unlatched.pl.ptr = s.pl.ptr from rfl, hptr, BitVec.toNat_ofNat]
      omega
    have hexec := hostCommit_row s (.ruleAck hi) 0x72 0x72 hi lo rfl hbus hlatch rfl (by decide) harm
    rw [writeReg_plData, hat, writePl_ack hhalf] at hexec
    have hack := State.ackWrite_keeps s.unlatched half (wordOf hi lo)
    have hnext := State.plNext_keeps (s.unlatched.ackWrite half (wordOf hi lo))
    have hpl := plNext_pl (s.unlatched.ackWrite half (wordOf hi lo))
    refine ⟨_, hexec, (hnext.after ((hack.mono (L := [.pl, .hb])).after s.unlatched_keeps.mono (by rfl)) (by rfl)).left, ?_, ?_, fun n hn => ?_⟩
    · exact congrArg (fun b : Hb => { b with irq := 0 }) (hnext.eqHbAll.trans hack.eqHbAll)
    · rw [hpl]
      rfl
    · rw [hpl]
      exact ackWrite_bits s.unlatched half (wordOf hi lo) hn
  case commit =>
    intro s hi lo n ws hbus hlatch harm hnvr hstart hopen hroom hn hptr hws
    have hat : s.unlatched.pl.ptr.toNat = 8 * n + 7 := by
      rw [show s.unlatched.pl.ptr = s.pl.ptr from rfl, hptr, BitVec.toNat_ofNat]
      omega
    have hexec := hostCommit_row s (.ruleCommit hi) 0x72 0x72 hi lo rfl hbus hlatch rfl (by decide) harm
    rw [writeReg_plData, hat, writePl_rule (s := s.unlatched) (wordOf hi lo) hn hnvr hstart hopen hroom hws] at hexec
    have hqueued := State.ruleQueued_keeps (s.unlatched.unhold (Config.key 5 (8 * n)) 8) n ws
    have hnext := State.plNext_keeps ((s.unlatched.unhold (Config.key 5 (8 * n)) 8).ruleQueued n ws)
    have hheld : Keeps [.hb] s (s.unlatched.unhold (Config.key 5 (8 * n)) 8) := (State.unhold_keeps ..).after s.unlatched_keeps (by rfl)
    exact ⟨_, hexec, (hnext.after ((hqueued.mono (L := [.lg, .pl, .hb])).after hheld.mono (by rfl)) (by rfl)).left, hnext.eqHbAll,
      plNext_pl _, hnext.eqLg⟩
  case defaults =>
    intro s hi lo hbus hlatch harm hnvr hstart hopen hroom hsame hask
    have hunchanged : (bitAt (wordOf hi lo) 0 != (s.unlatched.setArm .host .idle).plEn) = false := by
      rw [hsame]
      exact bne_self_eq_false _
    rw [hostCommit_row_armed s (.defaultsRestore hi) 0x6E 0x6E hi lo rfl hbus hlatch rfl (by decide) harm, writeReg_plCtl,
      writePlCtl_open (s := s.unlatched.setArm .host .idle) true _ hnvr hstart hopen, hunchanged, hask, Bool.true_and, if_pos rfl]
    exact congrArg _ (State.propose_room (s.unlatched.setArm .host .idle) 0x6E true .defaults rfl hroom)
  case enable =>
    intro s hi lo hbus hlatch harm hnvr hstart hopen hroom
    rw [hostCommit_row s (.policyEnable hi) 0x6E 0x6E hi lo rfl hbus hlatch rfl (by decide) harm, writeReg_plCtl,
      writePlCtl_open (s := s.unlatched) false _ hnvr hstart hopen, Bool.false_and, if_neg (by decide)]
    by_cases hsame : bitAt (wordOf hi lo) 0 = s.plEn
    · rw [if_pos hsame, show (bitAt (wordOf hi lo) 0 != s.unlatched.plEn) = false by rw [hsame]; exact bne_self_eq_false _]
      rfl
    · rw [if_neg hsame]
      exact congrArg _ (State.propose_room s.unlatched 0x6E _ _ (bne_iff_ne.2 hsame) hroom)
  case closed =>
    intro s hi lo hbus hlatch harm hnvr hstart hclosed hroom
    have hwrite : s.unlatched.writePlCtl false (wordOf hi lo) = s.unlatched.logEv 0x0F01 0x6E := by
      unfold State.writePlCtl
      rw [State.early_nvr s.unlatched _ _ hnvr, State.gate_closed s.unlatched _ _ hstart hclosed]
    rw [hostCommit_row s (.policyEnable hi) 0x6E 0x6E hi lo rfl hbus hlatch rfl (by decide) harm, writeReg_plCtl, hwrite,
      State.logEv_room s.unlatched _ _ hroom]
    rfl

end Sys2Proof.Machine
end

section
/-! PROOF. The host's byte cycles (R429 to R445). -/

/- Proofs are elaborated one after the other: in parallel they outrun the kernel's checks of the text before them, and each that waits
holds a thread's memory. -/
set_option Elab.async false

open Sys2Proof

namespace Sys2Proof.Machine

/-! ## Writes (R429, R430) -/

/-- A high byte written to a register whose low byte is held, without the unlock. -/
theorem registerWrite_held {s : State} {addr r hi lo : Byte} (hbus : s.busOn = true) (hlatch : s.hb.wlatch = some (r, lo))
    (harm : s.sc.armHost ≠ .armed) (h7 : addr.getLsbD 7 = false) (h0 : addr.getLsbD 0 = true) (hr : r.toNat = addr.toNat - 1)
    (hkey : addr.toNat - 1 ≠ 0x7A) :
    exec (.registerWrite addr hi) s = .next (s.unlatched.writeReg .host false (addr.toNat - 1) (wordOf hi lo)) :=
  hostCommit_row s _ _ r hi lo (registerWrite_eq s addr hi hbus h7 h0) hbus hlatch hr hkey harm

/-- The word of a high byte without a held low byte: its low byte is what the register holds (R430). -/
def State.wordMade (s : State) (a : Nat) (hi : Byte) : Word := wordOf hi (loByte (s.readReg a) &&& lowMask a)

/-- A high byte written to a register without a low byte held: the commit, and the violation. -/
theorem registerWrite_unheld {s : State} {addr hi : Byte} (hbus : s.busOn = true) (hlatch : s.hb.wlatch = none)
    (harm : s.sc.armHost ≠ .armed) (h7 : addr.getLsbD 7 = false) (h0 : addr.getLsbD 0 = true) (hkey : addr.toNat - 1 ≠ 0x7A) :
    exec (.registerWrite addr hi) s = .next ((s.writeReg .host false (addr.toNat - 1) (s.wordMade (addr.toNat - 1) hi)).busViolation 0x0E10 0
      (addr.toNat - 1 + 1)) := by
  have hheld : s.lowHeld (addr.toNat - 1) = false := by unfold State.lowHeld; rw [hlatch]
  have hlow : s.lowOf (addr.toNat - 1) = loByte (s.readReg (addr.toNat - 1)) &&& lowMask (addr.toNat - 1) := by
    unfold State.lowOf
    rw [hlatch]
  have hword : s.writeWord .host (addr.toNat - 1) (s.wordMade (addr.toNat - 1) hi) true =
      s.writeReg .host false (addr.toNat - 1) (s.wordMade (addr.toNat - 1) hi) := by
    unfold State.writeWord
    rw [if_neg hkey]
    exact if_neg harm
  rw [registerWrite_eq s addr hi hbus h7 h0]
  unfold State.hostCommit State.hostWord
  rw [hbus, hheld, hlow]
  exact congrArg (fun t : State => Host.Outcome.next (t.busViolation 0x0E10 0 (addr.toNat - 1 + 1))) hword

/-- A low byte held for its register. -/
def State.latchedLow (s : State) (addr lo : Byte) : State := { s with hb := { s.hb with wlatch := some (addr, lo) } }

theorem State.hostLow_first {s : State} {addr : Byte} (lo : Byte) (h : s.hb.wlatch = none ∨ ∃ b, s.hb.wlatch = some (addr, b)) :
    s.hostLow addr lo = s.latchedLow addr lo := by
  unfold State.hostLow
  obtain hnone | ⟨b, hsame⟩ := h
  · rw [hnone]
    rfl
  · rw [hsame]
    dsimp only
    rw [if_pos rfl]
    rfl

theorem State.hostLow_other {s : State} {addr r b : Byte} (lo : Byte) (hlatch : s.hb.wlatch = some (r, b)) (hother : r ≠ addr) :
    s.hostLow addr lo = (s.busViolation 0x0E11 1 (r.toNat + addr.toNat * 2 ^ 8)).latchedLow addr lo := by
  unfold State.hostLow
  rw [hlatch]
  dsimp only
  rw [if_neg hother, evData_two]
  rfl

theorem hostWrite_addr7 {s : State} {addr : Byte} (v : Byte) (low : Bool) (hbus : s.busOn = true) (h7 : addr.getLsbD 7 = true) :
    s.hostWrite addr v low = s.addr7 addr := by
  unfold State.hostWrite
  rw [hbus, h7]
  rfl

theorem flags_of_wordOf (hi lo : Byte) : (wordOf hi lo).extractLsb' 8 6 = hi.extractLsb' 0 6 := by
  apply BitVec.eq_of_toNat_eq
  rw [BitVec.extractLsb'_toNat, BitVec.extractLsb'_toNat, wordOf_toNat, Nat.shiftRight_zero, Nat.shiftRight_eq_div_pow]
  have := lo.isLt
  omega

theorem State.writeReg_hbCfg (s : State) (armed : Bool) (v : Word) : s.writeReg .host armed 0x74 v = s.writeHbCfg v := rfl

theorem State.writeReg_tsCtl (s : State) (armed : Bool) (v : Word) : s.writeReg .host armed 0x7C v = s.writeTsCtl armed v := rfl

/-- FRZD and FDUR of TS_CTL taken. -/
def State.frzTaken (s : State) (v : Word) : State := { s with hb := { s.hb with frzd := s.hb.frzd && !bitAt v 1, fdur := hiByte v } }

/-- FRZ with the unlock, the seal open and a length: the freeze in line for its audit row (R442). -/
theorem State.writeTsCtl_freeze {s : State} {v : Word} (hstart : s.startUp = false) (hopen : s.aon.sealOpen = true) (hroom : s.lg.acount < 2048)
    (hfrz : bitAt v 0 = true) (hdur : hiByte v ≠ 0) :
    s.writeTsCtl true v = { s.frzTaken v with lg := { s.lg with queue := s.lg.queue ++ [.freeze v] } } := by
  unfold State.writeTsCtl
  refine (State.gate_open (s.frzTaken v) _ _ hstart hopen).trans ((if_pos hfrz).trans ?_)
  exact State.propose_room (s.frzTaken v) _ _ _ (bne_iff_ne.2 hdur) hroom

/-! ## Reads of the windows (R428, R431) -/

/-- What a window's read changes. -/
theorem readEffect_window (s : State) (w : WinKind) : Keeps [.orr, .fe, .lg, .ev, .dn, .pl] s (s.readEffect (winReg w)) := by
  cases w with
  | orr => exact (State.readOr_keeps s).mono
  | fe => exact (State.readFe_keeps s).mono
  | lg => exact (State.readLg_keeps s).mono
  | ev => exact (State.readEv_keeps s).mono
  | ds => exact (State.dsNext_keeps s).mono
  | pl => exact (State.plNext_keeps s).mono

theorem hostRead_driven {s : State} (hbus : s.busOn = true) (a : Nat) : s.hostRead a = (s.readEffect a).driven a (s.readReg a) :=
  hostRead_eq s hbus a

/-- A read's byte driven and latched, where the read leaves the host bus else alone. -/
theorem driven_hb {s t : State} (a : Nat) (v : Word) (h : t.hb = s.hb) :
    (t.driven a v).hb = { s.hb with adout := loByte v, rlatch := some (BitVec.ofNat 8 a, hiByte v) } := by
  rw [← h]
  rfl

theorem orNext_orr (s : State) : s.orNext.orr = { s.orr with ptr := if s.orr.ainc then s.orr.ptr + 1 else s.orr.ptr } := by
  unfold State.orNext
  cases s.orr.ainc <;> rfl

theorem feNext_fe (s : State) : s.feNext.fe = { s.fe with ptr := if s.fe.ainc then s.fe.ptr + 1 else s.fe.ptr } := by
  unfold State.feNext
  cases s.fe.ainc <;> rfl

/-- The snapshot of the Orrery's counts (R138). -/
def State.countsTaken (s : State) : State := { s with orr := { s.orr with snap := some s.orLive } }

/-- The snapshot of the flow engine's live words (R215). -/
def State.liveTaken (s : State) : State := { s with fe := { s.fe with snap := some s.feLive } }

theorem readOr_snapshot {s : State} (h : s.orr.ptr = 0x310) : s.readOr = s.countsTaken.orNext := congrArg State.orNext (if_pos (by rw [h]; rfl))

theorem readFe_snapshot {s : State} (h : s.fe.ptr = 0x380) : s.readFe = s.liveTaken.feNext := congrArg State.feNext (if_pos (by rw [h]; rfl))

theorem readOr_ptr (s : State) : s.readOr.orr.ptr = if s.orr.ainc then s.orr.ptr + 1 else s.orr.ptr := by
  refine (congrArg Orr.ptr (orNext_orr _)).trans ?_
  split <;> rfl

theorem readFe_ptr (s : State) : s.readFe.fe.ptr = if s.fe.ainc then s.fe.ptr + 1 else s.fe.ptr := by
  refine (congrArg Fe.ptr (feNext_fe _)).trans ?_
  split <;> rfl

theorem readLg_ptr (s : State) : s.readLg.lg.ptr = if s.lg.ainc then s.lg.ptr + 1 else s.lg.ptr := by
  refine (congrArg Lg.ptr (State.lgNext_lg _)).trans ?_
  split <;> rfl

/-- A window's read moves its pointer on where its auto-increment is set (R431). -/
theorem windowDataRead_spec {s : State} (w : WinKind) (hbus : s.busOn = true) :
    ∃ t, exec (.windowDataRead w) s = .next t ∧ State.sameBut [.orr, .fe, .lg, .ev, .dn, .pl, .hb] s t ∧
      t.hb = { s.hb with adout := loByte (s.readReg (winReg w)),
                         rlatch := some (BitVec.ofNat 8 (winReg w), hiByte (s.readReg (winReg w))) } ∧
      (w = .pl → t.pl = { s.pl with ptr := if s.pl.ainc then s.pl.ptr + 1 else s.pl.ptr }) ∧
      (w = .orr → t.orr.ptr = if s.orr.ainc then s.orr.ptr + 1 else s.orr.ptr) ∧
      (w = .fe → t.fe.ptr = if s.fe.ainc then s.fe.ptr + 1 else s.fe.ptr) ∧
      (w = .lg → t.lg.ptr = if s.lg.ainc then s.lg.ptr + 1 else s.lg.ptr) := by
  have heffect := readEffect_window s w
  have hkeeps : Keeps [.orr, .fe, .lg, .ev, .dn, .pl, .hb] s ((s.readEffect (winReg w)).driven (winReg w) (s.readReg (winReg w))) :=
    (State.driven_keeps ..).after heffect.mono (by rfl)
  refine ⟨_, congrArg Host.Outcome.next (hostRead_driven hbus (winReg w)), hkeeps.left, driven_hb _ _ heffect.eqHbAll, ?_, ?_, ?_, ?_⟩
  · rintro rfl
    exact plNext_pl s
  · rintro rfl
    exact readOr_ptr s
  · rintro rfl
    exact readFe_ptr s
  · rintro rfl
    exact readLg_ptr s

/-- Settles O60: the writes from `registerWrite_held` and `registerWrite_unheld`, the violations from `busViolation_room`, the reads from
`windowDataRead_spec` and the snapshots' equations. -/
theorem hostBusCycles : Obligations.HostBusCycles := by
  unfold Obligations.HostBusCycles
  refine ⟨?low, ?lost, ?ad7, ?registers, ?missing, ?row, ?irq, ?freeze, ?window, ?counts, ?live, ?fifo, ?strobes⟩
  case low =>
    intro s addr lo hbus h7 h0 hlatch
    exact (lowByteWrite_eq s addr lo hbus h7 h0).trans (congrArg _ (State.hostLow_first lo hlatch))
  case lost =>
    intro s addr lo r b hbus h7 h0 hlatch hother hnew hroom
    rw [lowByteWrite_eq s addr lo hbus h7 h0, State.hostLow_other lo hlatch hother, State.busViolation_room s _ _ _ hnew hroom]
    rfl
  case ad7 =>
    intro s addr v hbus h7 hnew hroom
    refine ⟨(congrArg Host.Outcome.next (hostWrite_addr7 v true hbus h7)).trans ?_,
      (congrArg Host.Outcome.next (hostWrite_addr7 v false hbus h7)).trans (congrArg Host.Outcome.next (hostWrite_addr7 v true hbus h7)).symm⟩
    rw [State.addr7, State.busViolation_room s _ _ _ hnew hroom]
    rfl
  case registers =>
    intro s hi lo r hbus hlatch harm
    refine ⟨?_, ?_, ?_, ?_, ?_, ?_, ?_, ?_, ?_⟩
    on_goal 9 => rintro (rfl | rfl | rfl | rfl | rfl | rfl | rfl) <;> exact registerWrite_held hbus hlatch harm rfl rfl rfl (by decide)
    all_goals
      rintro rfl
      exact registerWrite_held hbus hlatch harm rfl rfl rfl (by decide)
  case missing =>
    intro s hi hbus hlatch harm hnew hroom
    have hscratch : s.wordMade 0x7E hi = wordOf hi (loByte s.hb.scratch) := congrArg (wordOf hi) BitVec.and_allOnes
    have hexec : exec (.registerWrite 0x7F hi) s = _ := registerWrite_unheld hbus hlatch harm rfl rfl (by decide)
    have hexecCfg : exec (.registerWrite 0x75 hi) s = _ := registerWrite_unheld hbus hlatch harm rfl rfl (by decide)
    refine ⟨?_, ?_⟩
    · rw [hexec, show (0x7F : Byte).toNat - 1 = 0x7E from rfl, hscratch,
        State.busViolation_room (s.writeReg .host false 0x7E (wordOf hi (loByte s.hb.scratch))) _ _ _ hnew hroom]
      rfl
    · refine ⟨_, hexecCfg, ?_, ?_, ?_, ?_⟩
      all_goals rw [show (0x75 : Byte).toNat - 1 = 0x74 from rfl, State.writeReg_hbCfg]
      · exact ((State.busViolation_keeps ..).after (s.writeHbCfg_keeps (s.wordMade 0x74 hi)).mono (by rfl)).left
      all_goals rw [State.busViolation_room (s.writeHbCfg (s.wordMade 0x74 hi)) _ _ _ hnew hroom]
      · exact congrArg (fun f : BitVec 6 => (s.hb.flags &&& ~~~f) ||| 0x01#6) (flags_of_wordOf ..)
      · rfl
  case row =>
    intro s r rest hinv hst hrows
    obtain ⟨hok, -⟩ := hinv
    refine ⟨_, State.when_next s (by obtain h | h | h := hst <;> rw [h] <;> rfl) rfl, s.rowWritten_keeps.left, ?_, State.nv_rowWritten s hok⟩
    unfold State.rowWritten
    rw [hrows]
  case irq =>
    intro s hi lo hbus hlatch harm
    exact hostCommit_row s (.syIrqClear hi) 0x06 0x06 hi lo rfl hbus hlatch rfl (by decide) harm
  case freeze =>
    intro s hi lo hbus hlatch harm hstart hopen hroom hfrz hdur
    have hexec := hostCommit_row_armed s (.freezeStart hi) 0x7C 0x7C hi lo rfl hbus hlatch rfl (by decide) harm
    rw [State.writeReg_tsCtl, State.writeTsCtl_freeze (s := s.unlatched.setArm .host .idle) hstart hopen hroom hfrz
      (by rw [hiByte_wordOf]; exact hdur), State.frzTaken, hiByte_wordOf] at hexec
    exact hexec
  case window =>
    intro s w hbus
    exact windowDataRead_spec w hbus
  case counts =>
    intro s hbus hptr
    have hread := State.readOr_keeps s
    refine ⟨_, congrArg Host.Outcome.next (hostRead_driven hbus 0x20), ((State.driven_keeps ..).after hread.mono (by rfl) : Keeps [.orr, .hb] _ _).left,
      ?_, driven_hb _ _ hread.eqHbAll⟩
    exact (congrArg State.orr (readOr_snapshot hptr)).trans (orNext_orr _)
  case live =>
    intro s hbus hptr
    have hread := State.readFe_keeps s
    refine ⟨_, congrArg Host.Outcome.next (hostRead_driven hbus 0x5A), ((State.driven_keeps ..).after hread.mono (by rfl) : Keeps [.fe, .hb] _ _).left,
      ?_, driven_hb _ _ hread.eqHbAll⟩
    exact (congrArg State.fe (readFe_snapshot hptr)).trans (feNext_fe _)
  case fifo =>
    intro s w rest hbus hline hfifo hagain
    have hword : s.readReg 0x4C = w := by
      show fifoHead s.lineOn s.dn.rxf = w
      rw [hline, hfifo]
      rfl
    have hread : s.readEffect 0x4C = { s with dn := { s.dn with rxf := rest } } := by
      refine (if_pos hline).trans ?_
      unfold State.collectAgain
      rw [hagain, hfifo]
      rfl
    refine (congrArg Host.Outcome.next (hostRead_driven hbus 0x4C)).trans ?_
    rw [hread, hword]
    rfl
  case strobes =>
    intro s addr new hbus hroom
    have hexec (k : StrobeKind) : exec (.hostStrobeViolation k addr new) s = .next (s.strobe k addr new) := State.when_next s hbus rfl
    refine ⟨fun hnew => ?_, fun hnew => ?_, fun hnew hready => ?_, fun hnew h7 => ?_⟩
    · rw [hexec, State.strobe, evData_two, State.busViolation_room s _ _ _ hnew hroom]
      rfl
    · rw [hexec, State.strobe, State.busViolation_room s _ _ _ hnew hroom]
      rfl
    · rw [hexec, State.strobe, if_pos hready, State.busViolation_room s _ _ _ hnew hroom]
      rfl
    · rw [hexec, State.strobe, if_pos h7, State.addr7, State.busViolation_room s _ _ _ hnew hroom]
      rfl

end Sys2Proof.Machine
end
